-- ==== Sys2Proof/Word.lean ====
section
/-! DEFINITION. The words of the OZ7200 manual (00_scope.md R7, Table SCO-3). -/

namespace Sys2Proof

/-- 8 bits (R7). -/
abbrev Byte := BitVec 8
/-- The manual's word, 32 bits (R7). -/
abbrev W32 := BitVec 32
/-- The manual's doubleword, 64 bits (R7). -/
abbrev W64 := BitVec 64
/-- The manual's quadword, 128 bits (R7). -/
abbrev W128 := BitVec 128
/-- The contents of a 256-byte line (R7), byte 0 in the most significant bits (R6). -/
abbrev Line := BitVec 2048

end Sys2Proof
end

