-- ==== Sys2Proof/Syntax.lean ====
section
/-! DEFINITION. The commands of the OZ7200 complex: one constructor for each of the 496 rows of spec/opcode_table.json, with the row's operands.
Core instructions carry every field of their format (03 R62), the reserved ones too, so that R68 can be stated. -/

namespace Sys2Proof

/-- Who issues a control-space access (22 R469, field SRC). -/
inductive Src where
  | core | host
deriving DecidableEq, Repr

/-- What every coherence request carries (09 R212): the requester's complex ID, its tag, the line number (address bits 55 to 8), the PID and source type of 05 R134, and STARVE. `lock`: it travels in TC0 (R213). `rivals`: the other complexes whose requests for the line reach the home in the same cycle (R229). -/
structure CohReq where
  src : Nat
  tag : Nat
  line : Nat
  pid : Nat
  stype : Nat
  starve : Bool
  lock : Bool := false
  rivals : List Nat := []
deriving DecidableEq, Repr

/-- The result of a comparison (07 R167, R184): a difference; `ckptBad`: the checkpoint array gives an uncorrectable error when it is restored. -/
structure CmpEnd where
  mismatch : Bool
  ckptBad : Bool
deriving DecidableEq, Repr

/-- A parity error of the delay registers of a core (07 R164), with `ckptBad` as in `CmpEnd`. -/
structure DelayHit where
  lc : Nat
  ckptBad : Bool
deriving DecidableEq, Repr

/-- What a sparing move meets: the spares that fail their test (07 R176), the lines with an uncorrectable error that it finds (Table TAN-5). -/
structure MoveBad where
  spares : List Nat
  lines : List Nat
deriving DecidableEq, Repr

/-- A read of TAN_CKDATA, with `ckptBad` as in `CmpEnd`. -/
structure CkRead where
  src : Src
  ckptBad : Bool
deriving DecidableEq, Repr

/-- A snapshot read; one that reads a translation table is marked `walk` (05 R141). -/
structure SnapReq where
  hdr : CohReq
  walk : Bool
deriving DecidableEq, Repr

/-- A WB names its line, whether it lay in a locked way (08 R194), and whether the message travels in TC0 (09 R213). -/
structure WbHdr where
  line : Nat
  keep : Bool
  lock : Bool
deriving DecidableEq, Repr

/-- The PID and source type of the agent whose write a message carries (05 R134). -/
structure Writer where
  pid : Nat
  stype : Nat
deriving DecidableEq, Repr

/-- A snoop names its line and whether it travels in TC0 (09 R213). -/
structure SnpHdr where
  line : Nat
  lock : Bool
deriving DecidableEq, Repr

/-- A forward: also the rights that the requester has been granted (09 R212). -/
structure FwdHdr where
  line : Nat
  rights : BitVec 3
  lock : Bool
deriving DecidableEq, Repr

/-- Where a DATA_M places its line, and for whom (09 R218). -/
structure PlaceHdr where
  pid : Nat
  stype : Nat
  place : BitVec 18
deriving DecidableEq, Repr

/-- A FWDACK: the line, and the PID and source type of the copy. -/
structure AckHdr where
  line : Nat
  pid : Nat
  stype : Nat
deriving DecidableEq, Repr

/-- A write of BOO_RST, with the physical cores that miss an injection of the test that a warm reset repeats (19 R429). -/
structure WarmReq where
  v : BitVec 64
  failedPcs : List Nat
deriving DecidableEq, Repr

/-- What a cache array's ECC reports on an access (08 R204). -/
inductive EccRes where
  | clean | corrected | uncorClean | uncorDirty
deriving DecidableEq, Repr

/-- The three maintenance operations (08, Maintenance instructions). -/
inductive CmoKind where
  | clean | inval | clinv
deriving DecidableEq, Repr

/-- A data response (09 R212): the line, the POISON flag and the rights RD, WR, FX of R139. -/
structure DataRsp where
  data : Line
  poison : Bool
  rights : BitVec 3
deriving DecidableEq, Repr

/-- NACK reasons (09 Table COH-9). -/
inductive NackReason where
  | busy | setfull | reserved | resfull
deriving DecidableEq, Repr

/-- What an LSN message reports (10 R241, R260). -/
inductive LsnEvent where
  | link (cx port : Nat) (up : Bool)
  | removed (cx : Nat)
deriving DecidableEq, Repr

/-- The scopes of TLB maintenance (05 Table STO-7). -/
inductive TlbKind where
  | va | pidAll | everything
deriving DecidableEq, Repr

/-- What a patrol scrub read finds (11 R277). -/
inductive ScrubRes where
  | good
  | corrected (dimm rank dev : Nat)
  | uncorrectable (dimm rank dev : Nat)
deriving DecidableEq, Repr

/-- The points of a DRAM device-sparing copy (11 Table MEM-4). -/
inductive CopyPhase where
  | start
  | lines (n : Nat) (uncorrectable : Bool)
  | finish
deriving DecidableEq, Repr

/-- The journal messages that VLX_MTMO times (12 R298). -/
inductive MirrorMsg where
  | jwr (idx : Nat) | jdef (sch : Nat) | jhnd (idx : Nat) | jrd (idx : Nat)
deriving DecidableEq, Repr

/-- The link part of a Velex frame as its receiver finds it (14 R331, R332): sequence numbers, whether it travels on the urgent channel, its CRC, the abort mark, and in `rest` the header and, in the low 64 bits, the last payload bytes of a STATUS, as far as no other operand gives them: reserved fields. -/
structure LinkHdr where
  lseq : BitVec 8
  lack : BitVec 8
  urgent : Bool
  rest : BitVec 192
  crc : BitVec 32
  aborted : Bool
deriving DecidableEq, Repr

/-- How a port data sequencer ends a command (13 R325, 12 R292, 06 R156). -/
inductive PdsRes where
  | done (exid : BitVec 24) (resid : BitVec 25)
  | addressCheck (exid : BitVec 24) (resid : BitVec 25)
  | authFail (exid : BitVec 24)
  | dataCheck (exid : BitVec 24) (resid : BitVec 25)
  | keyRefused (exid : BitVec 24)
  | programCheck (exid : BitVec 24)
  | uncorrectable
deriving DecidableEq, Repr

/-- Why the active controller of a port is forced to claim 0 (14 R345). `shadowParity`: the shadow link showed a parity error in the last cycle. -/
inductive SwitchCause where
  | stateError (shadowParity : Bool)
  | heartbeat (shadowParity : Bool)
  | notSelected
  | claimWritten (claimA claimB : BitVec 4)
deriving DecidableEq, Repr

/-- A record that a compression engine closes (15 R351): the original bytes it represents. -/
structure ZRecord where
  orig : List Byte
  last : Bool
deriving DecidableEq, Repr

/-- How far a unit of CMPRS, XPAND or CIPH got: the input bytes of this unit that the engine consumed within the tick budget (06 R158). -/
structure UnitEnd where
  consumed : Nat
deriving DecidableEq, Repr

/-- The six clock sources (18 Table CLK-1), in the bit order of CLK_SRC. -/
inductive ClkSrc where
  | fosc | sosc | xa | xb | vref | pcie
deriving DecidableEq, Repr

/-- The ordering codes (00 R1, Table SCO-1). -/
inductive Part where
  | b48 | b32
deriving DecidableEq, Repr

/-- What the cold start meets in the hardware (19 Tables BOO-1 and BOO-2): fuses, straps, self-test, clocks, memory training. -/
structure BootEnv where
  part : Part
  straps : BitVec 10
  stable : Bool
  qualified : List ClkSrc
  xbsel : BitVec 2
  fuseOk : Bool
  arraysOk : Bool
  failedPcs : List Nat
  failedL3 : List (Nat × Nat)
  failedDir : List Nat
  failedVe : List Nat
  failedZe : List Nat
  failedBricks : List (Nat × Nat)
  oemFuse : Bool
  oemOnly : Bool
  keystoneOk : Bool
  trainCause : Nat
deriving DecidableEq, Repr

/-- One image of the configuration flash, as bytes from its start (19 R417). -/
structure FlashImage where
  bytes : List Byte
deriving DecidableEq, Repr

/-- What the boot ROM finds in the firmware set of the load window (19 R422, R423): for each component its type, whether its signature, SVN, signer and, beyond what the set shows, contents are good, and its level. -/
structure FwComp where
  type : Nat
  sigOk : Bool
  svnOk : Bool
  contentsOk : Bool
  signerOk : Bool
  level : BitVec 16
deriving DecidableEq, Repr

/-- A match register (06 R151): enable, ROM address, patch address, and for the CIS the MODE bit (incrementer: true). -/
structure MatchReg where
  en : Bool
  rom : BitVec 16
  patch : BitVec 16
  mode : Bool
deriving DecidableEq, Repr

/-- The patch contents of the control stores (06 R143, R151): one copy stands for those of every core's CIS, and one for those of every PDS, because all receive the same (R155) and nothing else writes them (R152). -/
structure Stores where
  cisPatch : List (BitVec 32)
  nanoPatch : List (BitVec 160)
  cisMatch : List MatchReg
  pdsPatch : List (BitVec 144)
  pdsMatch : List MatchReg
deriving DecidableEq, Repr

/-- The firmware set as the boot ROM finds it (19 R422). -/
structure FwSet where
  headerOk : Bool
  comps : List FwComp
  stores : Stores
  oem : Bool
  version : BitVec 32
  veWords : List (BitVec 32)
  veSram : List Byte
  measure : List (BitVec 384)
deriving DecidableEq, Repr

/-- A fault event (20 R432): source number, UNIT, the PID it carries if any, DETAIL. -/
structure FaultEv where
  src : Nat
  unit : Nat
  pid : Option Nat
  detail : W64
deriving DecidableEq, Repr

/-- Units with margin detectors (21 R456, Table LIF-4). -/
inductive MarginUnit where
  | l3Way (sl way : Nat) | dirWay (way : Nat) | felardLane (port lane : Nat) | velexLane (vp lane : Nat)
  | portController (vp : Nat) | engine (e : Nat) | zip (z : Nat) | brick (w b : Nat) | other
deriving DecidableEq, Repr

/-- Events of the PCI Express link (22 R465); `configRead`: the host reads the doubleword of the port's configuration space at an offset (Table SVC-1). -/
inductive PcieEvent where
  | trained | linkDown | flr | hotReset | peRst
  | configRead (off : Nat)
deriving DecidableEq, Repr

/-- The commands, in the order of the table. -/
inductive Instr where
  /-- ADD (R94). -/
  | add (lc : Nat) (t a b c : BitVec 5)
  /-- ADDW (R93). -/
  | addw (lc : Nat) (t a b c : BitVec 5)
  /-- SUB (R94). -/
  | sub (lc : Nat) (t a b c : BitVec 5)
  /-- SUBW (R93). -/
  | subw (lc : Nat) (t a b c : BitVec 5)
  /-- NEG (R94). -/
  | neg (lc : Nat) (t a b c : BitVec 5)
  /-- NEGW (R93). -/
  | negw (lc : Nat) (t a b c : BitVec 5)
  /-- CMP (R77). -/
  | cmp (lc : Nat) (t a b c : BitVec 5)
  /-- CMPU (R77). -/
  | cmpu (lc : Nat) (t a b c : BitVec 5)
  /-- CMPW (R77). -/
  | cmpw (lc : Nat) (t a b c : BitVec 5)
  /-- CMPUW (R77). -/
  | cmpuw (lc : Nat) (t a b c : BitVec 5)
  /-- AND (R77). -/
  | and (lc : Nat) (t a b c : BitVec 5)
  /-- OR (R77). -/
  | or (lc : Nat) (t a b c : BitVec 5)
  /-- XOR (R77). -/
  | xor (lc : Nat) (t a b c : BitVec 5)
  /-- ANDN (R77). -/
  | andn (lc : Nat) (t a b c : BitVec 5)
  /-- ORN (R77). -/
  | orn (lc : Nat) (t a b c : BitVec 5)
  /-- SLL (R97). -/
  | sll (lc : Nat) (t a b c : BitVec 5)
  /-- SRL (R97). -/
  | srl (lc : Nat) (t a b c : BitVec 5)
  /-- SRA (R97). -/
  | sra (lc : Nat) (t a b c : BitVec 5)
  /-- SLA (R97). -/
  | sla (lc : Nat) (t a b c : BitVec 5)
  /-- ROL (R97). -/
  | rol (lc : Nat) (t a b c : BitVec 5)
  /-- ROR (R97). -/
  | ror (lc : Nat) (t a b c : BitVec 5)
  /-- MUL (R95). -/
  | mul (lc : Nat) (t a b c : BitVec 5)
  /-- MULW (R95). -/
  | mulw (lc : Nat) (t a b c : BitVec 5)
  /-- MULH (R95). -/
  | mulh (lc : Nat) (t a b c : BitVec 5)
  /-- MULHU (R95). -/
  | mulhu (lc : Nat) (t a b c : BitVec 5)
  /-- DIV (R96). -/
  | div (lc : Nat) (t a b c : BitVec 5)
  /-- DIVU (R96). -/
  | divu (lc : Nat) (t a b c : BitVec 5)
  /-- REM (R96). -/
  | rem (lc : Nat) (t a b c : BitVec 5)
  /-- REMU (R96). -/
  | remu (lc : Nat) (t a b c : BitVec 5)
  /-- DIVW (R96). -/
  | divw (lc : Nat) (t a b c : BitVec 5)
  /-- REMW (R96). -/
  | remw (lc : Nat) (t a b c : BitVec 5)
  /-- MOV (R77). -/
  | mov (lc : Nat) (t a b c : BitVec 5)
  /-- ADDI (R78). -/
  | addi (lc : Nat) (t a : BitVec 5) (imm : BitVec 16)
  /-- ADDIW (R78). -/
  | addiw (lc : Nat) (t a : BitVec 5) (imm : BitVec 16)
  /-- ADDIS (R78). -/
  | addis (lc : Nat) (t a : BitVec 5) (imm : BitVec 16)
  /-- MULI (R78). -/
  | muli (lc : Nat) (t a : BitVec 5) (imm : BitVec 16)
  /-- ANDI (R78). -/
  | andi (lc : Nat) (t a : BitVec 5) (imm : BitVec 16)
  /-- ORI (R78). -/
  | ori (lc : Nat) (t a : BitVec 5) (imm : BitVec 16)
  /-- XORI (R78). -/
  | xori (lc : Nat) (t a : BitVec 5) (imm : BitVec 16)
  /-- CMPI (R78). -/
  | cmpi (lc : Nat) (t a : BitVec 5) (imm : BitVec 16)
  /-- CMPUI (R78). -/
  | cmpui (lc : Nat) (t a : BitVec 5) (imm : BitVec 16)
  /-- LUI (R78). -/
  | lui (lc : Nat) (t a : BitVec 5) (imm : BitVec 16)
  /-- SLLI (R78). -/
  | slli (lc : Nat) (t a : BitVec 5) (imm : BitVec 16)
  /-- SRLI (R78). -/
  | srli (lc : Nat) (t a : BitVec 5) (imm : BitVec 16)
  /-- SRAI (R78). -/
  | srai (lc : Nat) (t a : BitVec 5) (imm : BitVec 16)
  /-- SLAI (R78). -/
  | slai (lc : Nat) (t a : BitVec 5) (imm : BitVec 16)
  /-- ROLI (R78). -/
  | roli (lc : Nat) (t a : BitVec 5) (imm : BitVec 16)
  /-- CLZ (R79). -/
  | clz (lc : Nat) (t a b c : BitVec 5)
  /-- CTZ (R79). -/
  | ctz (lc : Nat) (t a b c : BitVec 5)
  /-- POPC (R79). -/
  | popc (lc : Nat) (t a b c : BitVec 5)
  /-- BSWAP (R79). -/
  | bswap (lc : Nat) (t a b c : BitVec 5)
  /-- BSWAPW (R79). -/
  | bswapw (lc : Nat) (t a b c : BitVec 5)
  /-- SEXTB (R79). -/
  | sextb (lc : Nat) (t a b c : BitVec 5)
  /-- SEXTH (R79). -/
  | sexth (lc : Nat) (t a b c : BitVec 5)
  /-- SEXTW (R79). -/
  | sextw (lc : Nat) (t a b c : BitVec 5)
  /-- ZEXTB (R79). -/
  | zextb (lc : Nat) (t a b c : BitVec 5)
  /-- ZEXTH (R79). -/
  | zexth (lc : Nat) (t a b c : BitVec 5)
  /-- ZEXTW (R79). -/
  | zextw (lc : Nat) (t a b c : BitVec 5)
  /-- SEL (R79). -/
  | sel (lc : Nat) (t a b c : BitVec 5)
  /-- LD (R80). -/
  | ld (lc : Nat) (t a : BitVec 5) (imm : BitVec 16)
  /-- LW (R80). -/
  | lw (lc : Nat) (t a : BitVec 5) (imm : BitVec 16)
  /-- LWS (R80). -/
  | lws (lc : Nat) (t a : BitVec 5) (imm : BitVec 16)
  /-- LH (R80). -/
  | lh (lc : Nat) (t a : BitVec 5) (imm : BitVec 16)
  /-- LHS (R80). -/
  | lhs (lc : Nat) (t a : BitVec 5) (imm : BitVec 16)
  /-- LB (R80). -/
  | lb (lc : Nat) (t a : BitVec 5) (imm : BitVec 16)
  /-- LBS (R80). -/
  | lbs (lc : Nat) (t a : BitVec 5) (imm : BitVec 16)
  /-- LDP (R80). -/
  | ldp (lc : Nat) (t a : BitVec 5) (imm : BitVec 16)
  /-- STD (R80). -/
  | std (lc : Nat) (t a : BitVec 5) (imm : BitVec 16)
  /-- STW (R80). -/
  | stw (lc : Nat) (t a : BitVec 5) (imm : BitVec 16)
  /-- STH (R80). -/
  | sth (lc : Nat) (t a : BitVec 5) (imm : BitVec 16)
  /-- STB (R80). -/
  | stb (lc : Nat) (t a : BitVec 5) (imm : BitVec 16)
  /-- STP (R80). -/
  | stp (lc : Nat) (t a : BitVec 5) (imm : BitVec 16)
  /-- LEA (R80). -/
  | lea (lc : Nat) (t a : BitVec 5) (imm : BitVec 16)
  /-- PREF (R81). -/
  | pref (lc : Nat) (t a : BitVec 5) (imm : BitVec 16)
  /-- LDF (R80). -/
  | ldf (lc : Nat) (t a : BitVec 5) (imm : BitVec 16)
  /-- LFS (R80). -/
  | lfs (lc : Nat) (t a : BitVec 5) (imm : BitVec 16)
  /-- STF (R80). -/
  | stf (lc : Nat) (t a : BitVec 5) (imm : BitVec 16)
  /-- STFS (R80). -/
  | stfs (lc : Nat) (t a : BitVec 5) (imm : BitVec 16)
  /-- LDX (R81). -/
  | ldx (lc : Nat) (t a b c : BitVec 5)
  /-- LWX (R81). -/
  | lwx (lc : Nat) (t a b c : BitVec 5)
  /-- LWSX (R81). -/
  | lwsx (lc : Nat) (t a b c : BitVec 5)
  /-- LHX (R81). -/
  | lhx (lc : Nat) (t a b c : BitVec 5)
  /-- LHSX (R81). -/
  | lhsx (lc : Nat) (t a b c : BitVec 5)
  /-- LBX (R81). -/
  | lbx (lc : Nat) (t a b c : BitVec 5)
  /-- LBSX (R81). -/
  | lbsx (lc : Nat) (t a b c : BitVec 5)
  /-- STDX (R81). -/
  | stdx (lc : Nat) (t a b c : BitVec 5)
  /-- STWX (R81). -/
  | stwx (lc : Nat) (t a b c : BitVec 5)
  /-- STHX (R81). -/
  | sthx (lc : Nat) (t a b c : BitVec 5)
  /-- STBX (R81). -/
  | stbx (lc : Nat) (t a b c : BitVec 5)
  /-- LDFX (R81). -/
  | ldfx (lc : Nat) (t a b c : BitVec 5)
  /-- LFSX (R81). -/
  | lfsx (lc : Nat) (t a b c : BitVec 5)
  /-- STFX (R81). -/
  | stfx (lc : Nat) (t a b c : BitVec 5)
  /-- STFSX (R81). -/
  | stfsx (lc : Nat) (t a b c : BitVec 5)
  /-- LDADD (R220). -/
  | ldadd (lc : Nat) (t a b c : BitVec 5)
  /-- SWP (R220). -/
  | swp (lc : Nat) (t a b c : BitVec 5)
  /-- CAS (R220). -/
  | cas (lc : Nat) (t a b c : BitVec 5)
  /-- CAS128 (R220). -/
  | cas128 (lc : Nat) (t a b c : BitVec 5)
  /-- LDMIN (R220). -/
  | ldmin (lc : Nat) (t a b c : BitVec 5)
  /-- LDMAX (R220). -/
  | ldmax (lc : Nat) (t a b c : BitVec 5)
  /-- LDMINU (R220). -/
  | ldminu (lc : Nat) (t a b c : BitVec 5)
  /-- LDMAXU (R220). -/
  | ldmaxu (lc : Nat) (t a b c : BitVec 5)
  /-- LDAND (R220). -/
  | ldand (lc : Nat) (t a b c : BitVec 5)
  /-- LDOR (R220). -/
  | ldor (lc : Nat) (t a b c : BitVec 5)
  /-- LDXOR (R220). -/
  | ldxor (lc : Nat) (t a b c : BitVec 5)
  /-- FADD (R103). -/
  | fadd (lc : Nat) (t a b c : BitVec 5)
  /-- FSUB (R103). -/
  | fsub (lc : Nat) (t a b c : BitVec 5)
  /-- FMUL (R103). -/
  | fmul (lc : Nat) (t a b c : BitVec 5)
  /-- FDIV (R103). -/
  | fdiv (lc : Nat) (t a b c : BitVec 5)
  /-- FSQRT (R103). -/
  | fsqrt (lc : Nat) (t a b c : BitVec 5)
  /-- FMA (R109). -/
  | fma (lc : Nat) (t a b c : BitVec 5)
  /-- FMS (R109). -/
  | fms (lc : Nat) (t a b c : BitVec 5)
  /-- FNMA (R109). -/
  | fnma (lc : Nat) (t a b c : BitVec 5)
  /-- FNMS (R109). -/
  | fnms (lc : Nat) (t a b c : BitVec 5)
  /-- FMIN (R110). -/
  | fmin (lc : Nat) (t a b c : BitVec 5)
  /-- FMAX (R110). -/
  | fmax (lc : Nat) (t a b c : BitVec 5)
  /-- FABS (R83). -/
  | fabs (lc : Nat) (t a b c : BitVec 5)
  /-- FNEG (R83). -/
  | fneg (lc : Nat) (t a b c : BitVec 5)
  /-- FMOV (R83). -/
  | fmov (lc : Nat) (t a b c : BitVec 5)
  /-- FCMP (R112). -/
  | fcmp (lc : Nat) (t a b c : BitVec 5)
  /-- FCMPS (R112). -/
  | fcmps (lc : Nat) (t a b c : BitVec 5)
  /-- FRINT (R111). -/
  | frint (lc : Nat) (t a b c : BitVec 5)
  /-- FADDS (R83). -/
  | fadds (lc : Nat) (t a b c : BitVec 5)
  /-- FSUBS (R83). -/
  | fsubs (lc : Nat) (t a b c : BitVec 5)
  /-- FMULS (R83). -/
  | fmuls (lc : Nat) (t a b c : BitVec 5)
  /-- FDIVS (R83). -/
  | fdivs (lc : Nat) (t a b c : BitVec 5)
  /-- FSQRTS (R83). -/
  | fsqrts (lc : Nat) (t a b c : BitVec 5)
  /-- FMAS (R83). -/
  | fmas (lc : Nat) (t a b c : BitVec 5)
  /-- FMSS (R83). -/
  | fmss (lc : Nat) (t a b c : BitVec 5)
  /-- FNMAS (R83). -/
  | fnmas (lc : Nat) (t a b c : BitVec 5)
  /-- FNMSS (R83). -/
  | fnmss (lc : Nat) (t a b c : BitVec 5)
  /-- FMINS (R83). -/
  | fmins (lc : Nat) (t a b c : BitVec 5)
  /-- FMAXS (R83). -/
  | fmaxs (lc : Nat) (t a b c : BitVec 5)
  /-- FABSS (R83). -/
  | fabss (lc : Nat) (t a b c : BitVec 5)
  /-- FNEGS (R83). -/
  | fnegs (lc : Nat) (t a b c : BitVec 5)
  /-- FMOVS (R83). -/
  | fmovs (lc : Nat) (t a b c : BitVec 5)
  /-- FCMP_SINGLE (R83). -/
  | fcmpSingle (lc : Nat) (t a b c : BitVec 5)
  /-- FCMPSS (R83). -/
  | fcmpss (lc : Nat) (t a b c : BitVec 5)
  /-- FRINTS (R83). -/
  | frints (lc : Nat) (t a b c : BitVec 5)
  /-- FCVTDS (R113). -/
  | fcvtds (lc : Nat) (t a b c : BitVec 5)
  /-- FCVTSD (R113). -/
  | fcvtsd (lc : Nat) (t a b c : BitVec 5)
  /-- FCVTGD (R113). -/
  | fcvtgd (lc : Nat) (t a b c : BitVec 5)
  /-- FCVTGUD (R113). -/
  | fcvtgud (lc : Nat) (t a b c : BitVec 5)
  /-- FCVTDG (R113). -/
  | fcvtdg (lc : Nat) (t a b c : BitVec 5)
  /-- FCVTDGU (R113). -/
  | fcvtdgu (lc : Nat) (t a b c : BitVec 5)
  /-- FCVTGS (R113). -/
  | fcvtgs (lc : Nat) (t a b c : BitVec 5)
  /-- FCVTSG (R113). -/
  | fcvtsg (lc : Nat) (t a b c : BitVec 5)
  /-- MOVGF (R84). -/
  | movgf (lc : Nat) (t a b c : BitVec 5)
  /-- MOVFG (R84). -/
  | movfg (lc : Nat) (t a b c : BitVec 5)
  /-- B (R85). -/
  | b (lc : Nat) (off : BitVec 26)
  /-- BAL (R85). -/
  | bal (lc : Nat) (off : BitVec 26)
  /-- CALLW (R39). -/
  | callw (lc : Nat) (off : BitVec 26)
  /-- BC (R85). -/
  | bc (lc : Nat) (t a : BitVec 5) (imm : BitVec 16)
  /-- BCT (R85). -/
  | bct (lc : Nat) (t a : BitVec 5) (imm : BitVec 16)
  /-- BR (R60). -/
  | br (lc : Nat) (t a b c : BitVec 5)
  /-- BALR (R85). -/
  | balr (lc : Nat) (t a b c : BitVec 5)
  /-- BCR (R85). -/
  | bcr (lc : Nat) (t a b c : BitVec 5)
  /-- RETW (R40). -/
  | retw (lc : Nat) (t a b c : BitVec 5)
  /-- LIW (R86). -/
  | liw (lc : Nat) (t a : BitVec 5) (rsv : BitVec 11) (imm : BitVec 32)
  /-- LIWU (R86). -/
  | liwu (lc : Nat) (t a : BitVec 5) (rsv : BitVec 11) (imm : BitVec 32)
  /-- LIH (R86). -/
  | lih (lc : Nat) (t a : BitVec 5) (rsv : BitVec 11) (imm : BitVec 32)
  /-- ADDLI (R86). -/
  | addli (lc : Nat) (t a : BitVec 5) (rsv : BitVec 11) (imm : BitVec 32)
  /-- LPSW (R32). -/
  | lpsw (lc : Nat) (t a : BitVec 5) (sys : BitVec 10)
  /-- SETB (R35). -/
  | setb (lc : Nat) (t a : BitVec 5) (sys : BitVec 10)
  /-- MFSR (R31). -/
  | mfsr (lc : Nat) (t a : BitVec 5) (sys : BitVec 10)
  /-- MTSR (R31). -/
  | mtsr (lc : Nat) (t a : BitVec 5) (sys : BitVec 10)
  /-- READF (R54). -/
  | readf (lc : Nat) (t a : BitVec 5) (sys : BitVec 10)
  /-- MOVFB (R36). -/
  | movfb (lc : Nat) (t a : BitVec 5) (sys : BitVec 10)
  /-- MOVTB (R36). -/
  | movtb (lc : Nat) (t a : BitVec 5) (sys : BitVec 10)
  /-- SCALL (R49). -/
  | scall (lc : Nat) (t a : BitVec 5) (sys : BitVec 10)
  /-- EPSW (R87). -/
  | epsw (lc : Nat) (t a : BitVec 5) (sys : BitVec 10)
  /-- SYNC (R222). -/
  | sync (lc : Nat) (t a : BitVec 5) (sys : BitVec 10)
  /-- ISYNC (R74). -/
  | isync (lc : Nat) (t a : BitVec 5) (sys : BitVec 10)
  /-- CLEANA (R192). -/
  | cleana (lc : Nat) (t a : BitVec 5) (sys : BitVec 10)
  /-- INVALA (R193). -/
  | invala (lc : Nat) (t a : BitVec 5) (sys : BitVec 10)
  /-- CLINVA (R192). -/
  | clinva (lc : Nat) (t a : BitVec 5) (sys : BitVec 10)
  /-- CLEANR (R196). -/
  | cleanr (lc : Nat) (t a : BitVec 5) (sys : BitVec 10)
  /-- INVALR (R196). -/
  | invalr (lc : Nat) (t a : BitVec 5) (sys : BitVec 10)
  /-- CLINVR (R196). -/
  | clinvr (lc : Nat) (t a : BitVec 5) (sys : BitVec 10)
  /-- CLEANS (R200). -/
  | cleans (lc : Nat) (t a : BitVec 5) (sys : BitVec 10)
  /-- INVALS (R200). -/
  | invals (lc : Nat) (t a : BitVec 5) (sys : BitVec 10)
  /-- CLINVS (R200). -/
  | clinvs (lc : Nat) (t a : BitVec 5) (sys : BitVec 10)
  /-- TLBIV (R131). -/
  | tlbiv (lc : Nat) (t a : BitVec 5) (sys : BitVec 10)
  /-- TLBIA (R131). -/
  | tlbia (lc : Nat) (t a : BitVec 5) (sys : BitVec 10)
  /-- TLBIP (R131). -/
  | tlbip (lc : Nat) (t a : BitVec 5) (sys : BitVec 10)
  /-- TLBIALL (R131). -/
  | tlbiall (lc : Nat) (t a : BitVec 5) (sys : BitVec 10)
  /-- LOADC (R88). -/
  | loadc (lc : Nat) (t a : BitVec 5) (sys : BitVec 10)
  /-- STOREC (R88). -/
  | storec (lc : Nat) (t a : BitVec 5) (sys : BitVec 10)
  /-- SSCH (R288). -/
  | ssch (lc : Nat) (t a : BitVec 5) (sys : BitVec 10)
  /-- TSCH (R300). -/
  | tsch (lc : Nat) (t a : BitVec 5) (sys : BitVec 10)
  /-- STTB (R262). -/
  | sttb (lc : Nat) (t a : BitVec 5) (sys : BitVec 10)
  /-- SETTC (R53). -/
  | settc (lc : Nat) (t a : BitVec 5) (sys : BitVec 10)
  /-- STTC (R53). -/
  | sttc (lc : Nat) (t a : BitVec 5) (sys : BitVec 10)
  /-- SIGC (R87). -/
  | sigc (lc : Nat) (t a : BitVec 5) (sys : BitVec 10)
  /-- RSTC (R87). -/
  | rstc (lc : Nat) (t a : BitVec 5) (sys : BitVec 10)
  /-- MOVL (R158). -/
  | movl (lc : Nat) (t a b c : BitVec 5)
  /-- CMPL (R158). -/
  | cmpl (lc : Nat) (t a b c : BitVec 5)
  /-- TRTL (R159). -/
  | trtl (lc : Nat) (t a b c : BitVec 5)
  /-- CKSM (R160). -/
  | cksm (lc : Nat) (t a b c : BitVec 5)
  /-- CKSM16 (R160). -/
  | cksm16 (lc : Nat) (t a b c : BitVec 5)
  /-- CMPRS (R357). -/
  | cmprs (lc : Nat) (t a b c : BitVec 5)
  /-- XPAND (R357). -/
  | xpand (lc : Nat) (t a b c : BitVec 5)
  /-- CIPH (R370). -/
  | ciph (lc : Nat) (t a b c : BitVec 5)
  /-- ENGINE_UNIT_COMPLETION (R358). -/
  | engineUnitCompletion (lc : Nat) (u : UnitEnd)
  /-- ADDP (R117). -/
  | addp (lc : Nat) (b1 b2 : BitVec 5) (l1 l2 : BitVec 4) (d1 d2 : BitVec 16)
  /-- SUBP (R117). -/
  | subp (lc : Nat) (b1 b2 : BitVec 5) (l1 l2 : BitVec 4) (d1 d2 : BitVec 16)
  /-- MULP (R117). -/
  | mulp (lc : Nat) (b1 b2 : BitVec 5) (l1 l2 : BitVec 4) (d1 d2 : BitVec 16)
  /-- DIVP (R118). -/
  | divp (lc : Nat) (b1 b2 : BitVec 5) (l1 l2 : BitVec 4) (d1 d2 : BitVec 16)
  /-- CMPP (R116). -/
  | cmpp (lc : Nat) (b1 b2 : BitVec 5) (l1 l2 : BitVec 4) (d1 d2 : BitVec 16)
  /-- CVDB (R119). -/
  | cvdb (lc : Nat) (t a : BitVec 5) (imm : BitVec 16)
  /-- CVBD (R119). -/
  | cvbd (lc : Nat) (t a : BitVec 5) (imm : BitVec 16)
  /-- NOP (R92). -/
  | nop (lc : Nat) (num : BitVec 10) (opnd : BitVec 16)
  /-- PAUSE (R92). -/
  | pause (lc : Nat) (opnd : BitVec 16)
  /-- UNDEFINED_OPCODE (R66). -/
  | undefinedOpcode (lc : Nat) (w0 : BitVec 32)
  /-- INTERRUPTION_ENTRY (R51). -/
  | interruptionEntry (lc : Nat)
  /-- RESTART_INTERRUPTION (R47). -/
  | restartInterruption (lc : Nat)
  /-- SPILL_FRAME (R41). -/
  | spillFrame (lc : Nat)
  /-- FILL_FRAME (R41). -/
  | fillFrame (lc : Nat)
  /-- TIME_BASE_COMPARATOR (R53). -/
  | timeBaseComparator (lc : Nat)
  /-- PMC_OVERFLOW (R55). -/
  | pmcOverflow (lc n : Nat)
  /-- CHECKPOINT_COMPARISON (R167). -/
  | checkpointComparison (lc : Nat) (r : CmpEnd)
  /-- RETRY_TIME_LIMIT (R174). -/
  | retryTimeLimit (lc : Nat)
  /-- DELAY_REGISTER_PARITY (R164). -/
  | delayRegisterParity (p : DelayHit)
  /-- STORE_BUFFER_DRAIN (R170). -/
  | storeBufferDrain (lc : Nat)
  /-- SELF_CHECK_SLOT (R177). -/
  | selfCheckSlot (pc : Nat) (detected : Bool)
  /-- SPARING_MOVE (R182). -/
  | sparingMove (lc : Nat) (bad : MoveBad) (ckptBad : Bool)
  /-- TAN_SPREQ (R180). -/
  | tanSpreq (src : Src) (v : BitVec 64)
  /-- TAN_CKDATA_READ (R184). -/
  | tanCkdataRead (q : CkRead)
  /-- TAN_MODE_WRITE (R169). -/
  | tanModeWrite (src : Src) (k : Nat) (v : BitVec 64)
  /-- CACHE_FILL (R190). -/
  | cacheFill (array : Nat) (line : Nat) (pid : Nat) (ecc : EccRes)
  /-- RANGE_ENGINE_LINE (R197). -/
  | rangeEngineLine (g : Nat)
  /-- LOCK_ENTRY_ENABLE (R201). -/
  | lockEntryEnable (src : Src) (n : Nat) (v : BitVec 64)
  /-- LOCK_READY (R201). -/
  | lockReady (n : Nat)
  /-- CAC_WAYPWR_WRITE (R203). -/
  | cacWaypwrWrite (src : Src) (v : BitVec 64)
  /-- WAY_GROUP_TRANSITION_END (R203). -/
  | wayGroupTransitionEnd (sl g : Nat)
  /-- L3_WAY_SPARING (R205). -/
  | l3WaySparing (sl way : Nat)
  /-- DIRECTORY_WAY_SPARING (R211). -/
  | directoryWaySparing (way : Nat)
  /-- RDS (R215). -/
  | rds (q : CohReq)
  /-- RDO (R215). -/
  | rdo (q : CohReq)
  /-- UPG (R215). -/
  | upg (q : CohReq)
  /-- RDSNAP (R217). -/
  | rdsnap (q : SnapReq)
  /-- WRPL (R218). -/
  | wrpl (q : CohReq) (place : BitVec 18) (first last : Nat) (data : BitVec 2048)
  /-- ATOM (R220). -/
  | atom (q : CohReq) (off op : Nat) (far : Bool) (op1 op2 : BitVec 128)
  /-- CMO (R215). -/
  | cmo (q : CohReq) (kind : CmoKind)
  /-- WB (R232). -/
  | wb (src : Nat) (h : WbHdr) (w : Writer) (data : BitVec 2048) (poison : Bool)
  /-- FWDS (R215). -/
  | fwds (home : Nat) (h : FwdHdr) (ftgt rtag : Nat)
  /-- FWDO (R215). -/
  | fwdo (home : Nat) (h : FwdHdr) (ftgt rtag : Nat)
  /-- FWDSNAP (R215). -/
  | fwdsnap (home : Nat) (h : FwdHdr) (ftgt rtag : Nat)
  /-- INV (R216). -/
  | inv (home : Nat) (h : SnpHdr)
  /-- BINV (R210). -/
  | binv (home : Nat) (h : SnpHdr)
  /-- CLN (R212). -/
  | cln (home : Nat) (h : SnpHdr)
  /-- DATA_S (R206). -/
  | dataS (src line : Nat) (d : DataRsp)
  /-- DATA_E (R206). -/
  | dataE (src line : Nat) (d : DataRsp)
  /-- DATA_M (R206). -/
  | dataM (src line : Nat) (h : PlaceHdr) (d : DataRsp)
  /-- DATA_SN (R217). -/
  | dataSn (src line : Nat) (d : DataRsp)
  /-- GNT (R206). -/
  | gnt (src line : Nat) (pid : Nat) (rights : BitVec 3)
  /-- INVACK (R214). -/
  | invack (src line : Nat)
  /-- FWDACK (R232). -/
  | fwdack (src : Nat) (h : AckHdr) (wbp dirty : Bool) (data : BitVec 2048)
  /-- NOCOPY (R216). -/
  | nocopy (src line : Nat)
  /-- WBACK (R232). -/
  | wback (line : Nat)
  /-- ATOMRSP (R212). -/
  | atomrsp (lc : Nat) (line : Nat) (old : BitVec 128) (cc : BitVec 2) (d : DataRsp)
  /-- CMP_MESSAGE (R212). -/
  | cmpMessage (line : Nat)
  /-- NACK (R224). -/
  | nack (src line : Nat) (reason : NackReason)
  /-- UNBLK (R214). -/
  | unblk (src line : Nat)
  /-- INVITE (R226). -/
  | invite (home : Nat)
  /-- REQUEST_RESEND (R224). -/
  | requestResend (line : Nat)
  /-- REQUEST_TIMEOUT (R233). -/
  | requestTimeout (line : Nat)
  /-- SNOOP_TIMEOUT (R234). -/
  | snoopTimeout (line cx : Nat)
  /-- INVITE_TIMEOUT (R226). -/
  | inviteTimeout
  /-- PACKET_TRANSIT (R245). -/
  | packetTransit (port : Nat) (hdr : BitVec 256) (data : Option (BitVec 2048))
  /-- LSN (R241). -/
  | lsn (ev : LsnEvent)
  /-- FNOTE (R449). -/
  | fnote (src : Nat) (spec : BitVec 96)
  /-- TSREQ (R263). -/
  | tsreq (src : Nat) (t1 : BitVec 64)
  /-- TSRSP (R263). -/
  | tsrsp (src : Nat) (t1 t2 t3 t4 : BitVec 64)
  /-- DISC (R259). -/
  | disc (port nbr nport : Nat) (digest : BitVec 32) (glt : BitVec 64)
  /-- SIG (R247). -/
  | sig (src rlc lc : Nat) (pid : Nat) (restart : Bool)
  /-- SIGRSP (R247). -/
  | sigrsp (lc : Nat) (cc : BitVec 2)
  /-- TLBI (R131). -/
  | tlbi (src rlc : Nat) (kind : TlbKind) (pid : Nat) (va : BitVec 64)
  /-- TLBIACK (R131). -/
  | tlbiack (src lc : Nat)
  /-- LOAD (R425). -/
  | load (offset : Nat) (bytes : List (BitVec 8)) (last : Bool)
  /-- FELARD_ACK (R249). -/
  | felardAck (port : Nat) (flit : BitVec 256)
  /-- FELARD_NAK (R249). -/
  | felardNak (port : Nat) (flit : BitVec 256)
  /-- FELARD_FENCE (R260). -/
  | felardFence (port : Nat) (flit : BitVec 256)
  /-- FELARD_PAUSE (R250). -/
  | felardPause (port : Nat) (flit : BitVec 256)
  /-- LINK_RETRAIN (R249). -/
  | linkRetrain (port : Nat) (ok : Bool)
  /-- FELARD_LANE_SPARING (R250). -/
  | felardLaneSparing (port lane : Nat)
  /-- DISCOVERY_COMPLETE (R260). -/
  | discoveryComplete (buddyNames : Option Nat)
  /-- TIME_SYNC_INTERVAL (R263). -/
  | timeSyncInterval
  /-- TIME_HOLDOVER (R265). -/
  | timeHoldover
  /-- FAB_TBSET (R263). -/
  | fabTbset (src : Src) (v : BitVec 64)
  /-- PATROL_SCRUB (R277). -/
  | patrolScrub (mc : Nat) (res : ScrubRes)
  /-- DEVICE_SPARING_COPY (R274). -/
  | deviceSparingCopy (mc dimm rank dev : Nat) (phase : CopyPhase)
  /-- RANK_POWER_DOWN (R279). -/
  | rankPowerDown (mc rank : Nat)
  /-- REGION_REGISTER_WRITE (R137). -/
  | regionRegisterWrite (src : Src) (m n dw : Nat) (v : BitVec 64)
  /-- REGION_BROADCAST_WRITE (R282). -/
  | regionBroadcastWrite (src : Src) (n dw : Nat) (v : BitVec 64)
  /-- SUBCHANNEL_RELOAD (R284). -/
  | subchannelReload (src : Src) (sch : BitVec 16)
  /-- SUBCHANNEL_TERMINATE (R312). -/
  | subchannelTerminate (src : Src) (sch : BitVec 16)
  /-- SUBCHANNEL_INVALIDATE (R284). -/
  | subchannelInvalidate (src : Src) (sch : BitVec 16)
  /-- JWR (R298). -/
  | jwr (src : Nat) (entry : BitVec 512)
  /-- JACK (R295). -/
  | jack (exid : BitVec 24) (step : BitVec 16)
  /-- JDEF (R285). -/
  | jdef (src sch : Nat) (d : BitVec 256)
  /-- JDACK (R284). -/
  | jdack (sch : Nat) (accepted : Bool)
  /-- JHND (R307). -/
  | jhnd (src : Nat) (entry : BitVec 512)
  /-- JHACK (R307). -/
  | jhack (exid : BitVec 24) (step : BitVec 16)
  /-- JRD (R299). -/
  | jrd (src idx : Nat)
  /-- JRDR (R299). -/
  | jrdr (idx : Nat) (entry : BitVec 512)
  /-- MIRROR_TIMEOUT (R298). -/
  | mirrorTimeout (msg : MirrorMsg)
  /-- TAKEOVER (R305). -/
  | takeover
  /-- QUARANTINE_END (R294). -/
  | quarantineEnd (idx : Nat)
  /-- VE_EVENT_DISPATCH (R315). -/
  | veEventDispatch (mirror : Bool) (idx : Nat)
  /-- VE_ADD (R321). -/
  | veAdd (e ctx : Nat) (t a b : BitVec 4) (rsv : BitVec 8)
  /-- VE_SUB (R321). -/
  | veSub (e ctx : Nat) (t a b : BitVec 4) (rsv : BitVec 8)
  /-- VE_AND (R321). -/
  | veAnd (e ctx : Nat) (t a b : BitVec 4) (rsv : BitVec 8)
  /-- VE_OR (R321). -/
  | veOr (e ctx : Nat) (t a b : BitVec 4) (rsv : BitVec 8)
  /-- VE_XOR (R321). -/
  | veXor (e ctx : Nat) (t a b : BitVec 4) (rsv : BitVec 8)
  /-- VE_ANDN (R321). -/
  | veAndn (e ctx : Nat) (t a b : BitVec 4) (rsv : BitVec 8)
  /-- VE_SLL (R321). -/
  | veSll (e ctx : Nat) (t a b : BitVec 4) (rsv : BitVec 8)
  /-- VE_SRL (R321). -/
  | veSrl (e ctx : Nat) (t a b : BitVec 4) (rsv : BitVec 8)
  /-- VE_SRA (R321). -/
  | veSra (e ctx : Nat) (t a b : BitVec 4) (rsv : BitVec 8)
  /-- VE_ROL (R321). -/
  | veRol (e ctx : Nat) (t a b : BitVec 4) (rsv : BitVec 8)
  /-- VE_CMP (R321). -/
  | veCmp (e ctx : Nat) (t a b : BitVec 4) (rsv : BitVec 8)
  /-- VE_MOV (R321). -/
  | veMov (e ctx : Nat) (t a b : BitVec 4) (rsv : BitVec 8)
  /-- VE_MUL (R322). -/
  | veMul (e ctx : Nat) (t a b : BitVec 4) (rsv : BitVec 8)
  /-- VE_MULU (R322). -/
  | veMulu (e ctx : Nat) (t a b : BitVec 4) (rsv : BitVec 8)
  /-- VE_PRODUCT_WRITE (R322). -/
  | veProductWrite (e ctx : Nat)
  /-- MFMH (R322). -/
  | mfmh (e ctx : Nat) (t a b : BitVec 4) (rsv : BitVec 8)
  /-- MFML (R322). -/
  | mfml (e ctx : Nat) (t a b : BitVec 4) (rsv : BitVec 8)
  /-- MFFL (R321). -/
  | mffl (e ctx : Nat) (t a b : BitVec 4) (rsv : BitVec 8)
  /-- MTFL (R321). -/
  | mtfl (e ctx : Nat) (t a b : BitVec 4) (rsv : BitVec 8)
  /-- VE_ADDI (R321). -/
  | veAddi (e ctx : Nat) (t a : BitVec 4) (rsv : BitVec 2) (imm : BitVec 16)
  /-- VE_ANDI (R321). -/
  | veAndi (e ctx : Nat) (t a : BitVec 4) (rsv : BitVec 2) (imm : BitVec 16)
  /-- VE_ORI (R321). -/
  | veOri (e ctx : Nat) (t a : BitVec 4) (rsv : BitVec 2) (imm : BitVec 16)
  /-- VE_XORI (R321). -/
  | veXori (e ctx : Nat) (t a : BitVec 4) (rsv : BitVec 2) (imm : BitVec 16)
  /-- VE_CMPI (R321). -/
  | veCmpi (e ctx : Nat) (t a : BitVec 4) (rsv : BitVec 2) (imm : BitVec 16)
  /-- VE_LUI (R321). -/
  | veLui (e ctx : Nat) (t a : BitVec 4) (rsv : BitVec 2) (imm : BitVec 16)
  /-- VE_SLLI (R321). -/
  | veSlli (e ctx : Nat) (t a : BitVec 4) (rsv : BitVec 2) (imm : BitVec 16)
  /-- VE_SRLI (R321). -/
  | veSrli (e ctx : Nat) (t a : BitVec 4) (rsv : BitVec 2) (imm : BitVec 16)
  /-- VE_SRAI (R321). -/
  | veSrai (e ctx : Nat) (t a : BitVec 4) (rsv : BitVec 2) (imm : BitVec 16)
  /-- VE_LW (R317). -/
  | veLw (e ctx : Nat) (t : BitVec 4) (bk : BitVec 2) (sa : BitVec 20)
  /-- VE_LH (R317). -/
  | veLh (e ctx : Nat) (t : BitVec 4) (bk : BitVec 2) (sa : BitVec 20)
  /-- VE_LHS (R317). -/
  | veLhs (e ctx : Nat) (t : BitVec 4) (bk : BitVec 2) (sa : BitVec 20)
  /-- VE_LB (R317). -/
  | veLb (e ctx : Nat) (t : BitVec 4) (bk : BitVec 2) (sa : BitVec 20)
  /-- VE_LBS (R317). -/
  | veLbs (e ctx : Nat) (t : BitVec 4) (bk : BitVec 2) (sa : BitVec 20)
  /-- VE_SW (R319). -/
  | veSw (e ctx : Nat) (t : BitVec 4) (bk : BitVec 2) (sa : BitVec 20)
  /-- VE_SH (R319). -/
  | veSh (e ctx : Nat) (t : BitVec 4) (bk : BitVec 2) (sa : BitVec 20)
  /-- VE_SB (R319). -/
  | veSb (e ctx : Nat) (t : BitVec 4) (bk : BitVec 2) (sa : BitVec 20)
  /-- VE_LWX (R317). -/
  | veLwx (e ctx : Nat) (t a : BitVec 4) (bk : BitVec 2) (disp : BitVec 16)
  /-- VE_LBX (R317). -/
  | veLbx (e ctx : Nat) (t a : BitVec 4) (bk : BitVec 2) (disp : BitVec 16)
  /-- VE_SWX (R319). -/
  | veSwx (e ctx : Nat) (t a : BitVec 4) (bk : BitVec 2) (disp : BitVec 16)
  /-- VE_SBX (R319). -/
  | veSbx (e ctx : Nat) (t a : BitVec 4) (bk : BitVec 2) (disp : BitVec 16)
  /-- LDM (R319). -/
  | ldm (e ctx : Nat) (t a : BitVec 4) (bk : BitVec 2) (n : BitVec 3) (disp : BitVec 13)
  /-- STM (R319). -/
  | stm (e ctx : Nat) (t a : BitVec 4) (bk : BitVec 2) (n : BitVec 3) (disp : BitVec 13)
  /-- LXCH (R321). -/
  | lxch (e ctx : Nat) (t a : BitVec 4) (bk : BitVec 2) (disp : BitVec 16)
  /-- VE_B (R321). -/
  | veB (e ctx : Nat) (cond : BitVec 4) (off : BitVec 22)
  /-- VE_BAL (R321). -/
  | veBal (e ctx : Nat) (cond : BitVec 4) (off : BitVec 22)
  /-- VE_BR (R321). -/
  | veBr (e ctx : Nat) (t a : BitVec 4) (rsv : BitVec 2) (imm : BitVec 16)
  /-- WAIT (R321). -/
  | wait (e ctx : Nat) (t a : BitVec 4) (rsv : BitVec 2) (imm : BitVec 16)
  /-- VE_FENCE (R319). -/
  | veFence (e ctx : Nat) (t a : BitVec 4) (rsv : BitVec 2) (imm : BitVec 16)
  /-- MTBK (R321). -/
  | mtbk (e ctx : Nat) (t a b : BitVec 4) (rsv : BitVec 8)
  /-- MFBK (R321). -/
  | mfbk (e ctx : Nat) (t a b : BitVec 4) (rsv : BitVec 8) (hi : Bool)
  /-- VE_NOP (R321). -/
  | veNop (e ctx : Nat) (t a : BitVec 4) (rsv : BitVec 2) (imm : BitVec 16)
  /-- ZOPEN (R323). -/
  | zopen (e ctx : Nat) (t a b : BitVec 4) (rsv : BitVec 8)
  /-- ZSTAT (R323). -/
  | zstat (e ctx : Nat) (t a b : BitVec 4) (rsv : BitVec 8)
  /-- ZCLOSE (R323). -/
  | zclose (e ctx : Nat) (t a b : BitVec 4) (rsv : BitVec 8)
  /-- KOPEN (R365). -/
  | kopen (e ctx : Nat) (t a b : BitVec 4) (rsv : BitVec 8)
  /-- KSTAT (R323). -/
  | kstat (e ctx : Nat) (t a b : BitVec 4) (rsv : BitVec 8)
  /-- KCLOSE (R323). -/
  | kclose (e ctx : Nat) (t a b : BitVec 4) (rsv : BitVec 8)
  /-- CRCW (R323). -/
  | crcw (e ctx : Nat) (t a b : BitVec 4) (rsv : BitVec 8)
  /-- CRCL (R323). -/
  | crcl (e ctx : Nat) (t a b : BitVec 4) (rsv : BitVec 8)
  /-- SUM16 (R323). -/
  | sum16 (e ctx : Nat) (t a b : BitVec 4) (rsv : BitVec 8)
  /-- JSTEP (R324). -/
  | jstep (e ctx : Nat) (t a b : BitVec 4) (rsv : BitVec 8)
  /-- JREAD (R323). -/
  | jread (e ctx : Nat) (t a b : BitVec 4) (rsv : BitVec 8)
  /-- PDSQ_SUBMIT (R325). -/
  | pdsqSubmit (e ctx : Nat)
  /-- PDS_COMMAND_END (R325). -/
  | pdsCommandEnd (vp : Nat) (res : PdsRes)
  /-- VE_WATCHDOG (R326). -/
  | veWatchdog (e ctx : Nat)
  /-- VE_ENGINE_FAILURE (R327). -/
  | veEngineFailure (e : Nat) (planned : Bool)
  /-- VEN_CTXSEL_RELEASE (R326). -/
  | venCtxselRelease (src : Src) (v : BitVec 64)
  /-- VEN_CTXDATA_READ (R326). -/
  | venCtxdataRead (src : Src)
  /-- VELEX_CMD (R332). -/
  | velexCmd (vp : Nat) (h : LinkHdr) (exid : BitVec 24) (xseq cmdix devadr : BitVec 16) (payload : BitVec 256)
  /-- VELEX_RESUME (R335). -/
  | velexResume (vp : Nat) (h : LinkHdr) (exid : BitVec 24) (xseq cmdix : BitVec 16) (sr : Bool)
  /-- VELEX_ABORT (R336). -/
  | velexAbort (vp : Nat) (h : LinkHdr) (exid : BitVec 24)
  /-- VELEX_DATA (R334). -/
  | velexData (vp : Nat) (h : LinkHdr) (exid : BitVec 24) (inbound : Bool) (xseq cmdix : BitVec 16) (last : Bool) (bytes : List (BitVec 8))
  /-- VELEX_STATUS (R295). -/
  | velexStatus (vp : Nat) (h : LinkHdr) (exid : BitVec 24) (xseq cmdix : BitVec 16) (dstat : BitVec 8) (scode : BitVec 3) (resid : BitVec 25)
  /-- VELEX_ACK (R332). -/
  | velexAck (vp : Nat) (h : LinkHdr) (exid : BitVec 24) (xseq cmdix : BitVec 16) (what : BitVec 4)
  /-- VELEX_NAK (R337). -/
  | velexNak (vp : Nat) (h : LinkHdr) (rseq : BitVec 8)
  /-- VELEX_CREDIT (R339). -/
  | velexCredit (vp : Nat) (h : LinkHdr) (cmd data sts urg : BitVec 8)
  /-- VELEX_FENCE (R343). -/
  | velexFence (vp : Nat) (h : LinkHdr) (reason : BitVec 8)
  /-- VELEX_ECHO (R338). -/
  | velexEcho (vp : Nat) (h : LinkHdr) (stamp : BitVec 32)
  /-- ECHO_INTERVAL (R338). -/
  | echoInterval (vp : Nat)
  /-- PORT_SILENCE_RETRAIN (R337). -/
  | portSilenceRetrain (vp : Nat)
  /-- VELEX_RETRAIN (R337). -/
  | velexRetrain (vp : Nat) (ok : Bool)
  /-- PORT_TRAINING_ATTEMPT (R338). -/
  | portTrainingAttempt (vp : Nat) (ok : Bool) (cmd data sts urg : BitVec 8)
  /-- EXCHANGE_TIMEOUT (R341). -/
  | exchangeTimeout (exid : BitVec 24)
  /-- VELEX_LANE_SPARING (R342). -/
  | velexLaneSparing (vp lane : Nat)
  /-- CONTROLLER_SWITCHOVER (R345). -/
  | controllerSwitchover (vp : Nat) (cause : SwitchCause)
  /-- CLAIM_TIE_TIMEOUT (R344). -/
  | claimTieTimeout (vp : Nat)
  /-- PORT_PLL_LOSS (R330). -/
  | portPllLoss (vp : Option Nat)
  /-- ZE_RECORD_COMPLETE (R352). -/
  | zeRecordComplete (z : Nat) (handle : Nat) (rec : ZRecord)
  /-- STREAM_CONTEXT_TIMEOUT (R357). -/
  | streamContextTimeout (addr pid : Nat)
  /-- ZE_ENGINE_FAILURE (R349). -/
  | zeEngineFailure (z : Nat)
  /-- STRIPE_ASSIGN (R360). -/
  | stripeAssign (w : Nat)
  /-- STRIPE_COMPLETE (R361). -/
  | stripeComplete (w brick : Nat) (checkErr : Bool)
  /-- KNOWN_ANSWER_TEST (R371). -/
  | knownAnswerTest (w brick : Nat) (ok : Bool)
  /-- KEY_CACHE_FILL (R366). -/
  | keyCacheFill (w slot : Nat)
  /-- PORT_BUFFER_GRANT (R367). -/
  | portBufferGrant (vp : Nat)
  /-- CIPH_CONTEXT_TIMEOUT (R370). -/
  | ciphContextTimeout (addr pid : Nat)
  /-- WALL_FAILURE (R372). -/
  | wallFailure (w : Nat)
  /-- MAILBOX_GO (R375). -/
  | mailboxGo (src : Src) (mb : Nat)
  /-- MAILBOX_ACK (R376). -/
  | mailboxAck (src : Src) (mb : Nat)
  /-- MAILBOX_SERVICE_START (R377). -/
  | mailboxServiceStart
  /-- ASSIGN (R379). -/
  | assign (mb : Nat)
  /-- GENERATE (R381). -/
  | generate (mb : Nat)
  /-- IMPORT (R382). -/
  | importKey (mb : Nat)
  /-- SETATTR (R380). -/
  | setattr (mb : Nat)
  /-- DESTROY (R381). -/
  | destroy (mb : Nat)
  /-- TKEY (R383). -/
  | tkey (mb : Nat)
  /-- RANDOM (R384). -/
  | random (mb : Nat)
  /-- ATTEST (R385). -/
  | attest (mb : Nat)
  /-- MEASURE (R385). -/
  | measure (mb : Nat)
  /-- CERT (R385). -/
  | cert (mb : Nat)
  /-- KEYSTONE_TIMEOUT (R390). -/
  | keystoneTimeout
  /-- HOLD_RELEASE (R386). -/
  | holdRelease (blk : Nat)
  /-- FORCED_RELEASE (R387). -/
  | forcedRelease (blk : Nat)
  /-- ENTROPY_FAILURE (R384). -/
  | entropyFailure
  /-- ENTROPY_RETEST (R384). -/
  | entropyRetest (pass : Bool)
  /-- CLOCK_QUALIFIED (R392). -/
  | clockQualified (c : ClkSrc)
  /-- CLOCK_SOURCE_FAILED (R392). -/
  | clockSourceFailed (c : ClkSrc)
  /-- PLL_RELOCK (R393). -/
  | pllRelock
  /-- RESET_HOLD_PULSE (R394). -/
  | resetHoldPulse
  /-- CLOCK_SWITCH (R398). -/
  | clockSwitch (dom : Nat)
  /-- FREEWHEEL_SWITCH (R399). -/
  | freewheelSwitch (dom : Nat)
  /-- GEAR_CHANGE (R401). -/
  | gearChange (cl : Nat)
  /-- POWER_ESTIMATE_TICK (R403). -/
  | powerEstimateTick (watts : Nat)
  /-- THERMAL_CAP_TICK (R404). -/
  | thermalCapTick (cl : Nat)
  /-- POWER_EMERGENCY_END (R405). -/
  | powerEmergencyEnd
  /-- GATE_CLOCK (R408). -/
  | gateClock (src : Src) (tgt : BitVec 8)
  /-- POWER_DOWN (R408). -/
  | powerDown (src : Src) (tgt : BitVec 8)
  /-- WAKE (R408). -/
  | wake (src : Src) (tgt : BitVec 8)
  /-- WITHDRAW (R389). -/
  | withdraw (src : Src)
  /-- CLK_SBLK_WRITE (R407). -/
  | clkSblkWrite (src : Src) (v : BitVec 64)
  /-- PORST_N_ASSERT (R486). -/
  | porstNAssert (us : Nat) (seen : Bool)
  /-- COLD_RESET (R412). -/
  | coldReset (env : BootEnv)
  /-- FLASH_READ_SLOT (R416). -/
  | flashReadSlot (imgA imgB : FlashImage) (overrun : Bool)
  /-- BOO_DOOR_CLOSE (R424). -/
  | booDoorClose (src : Src)
  /-- FIRMWARE_SET_CHECK (R423). -/
  | firmwareSetCheck (set : FwSet)
  /-- LOAD_WINDOW_TIMEOUT (R412). -/
  | loadWindowTimeout
  /-- HAND_OVER (R427). -/
  | handOver
  /-- WARM_RESET (R429). -/
  | warmReset (src : Src) (q : WarmReq)
  /-- FAULT_EVENT (R432). -/
  | faultEvent (ev : FaultEv)
  /-- ERR_N_PULSE_END (R445). -/
  | errNPulseEnd
  /-- LOG_SUMMARY_WRITE (R447). -/
  | logSummaryWrite
  /-- FLT_LOGRD_WRITE (R446). -/
  | fltLogrdWrite (src : Src) (v : BitVec 64)
  /-- SDROP_CLEAR (R447). -/
  | sdropClear (src : Src) (v : BitVec 64)
  /-- FLT_CNTSEL_CLEAR (R434). -/
  | fltCntselClear (src : Src) (v : BitVec 64)
  /-- FLT_CNTDATA_READ (R434). -/
  | fltCntdataRead (src : Src)
  /-- FLT_SRC_CFG_WRITE (R435). -/
  | fltSrcCfgWrite (src : Src) (n : Nat) (v : BitVec 64)
  /-- SERVICE_PORT_NOTICE (R470). -/
  | servicePortNotice (g : Nat)
  /-- FNOTE_SEND (R261). -/
  | fnoteSend (d : Nat)
  /-- THERMAL_READING (R451). -/
  | thermalReading (vals : List Int)
  /-- DROOP_READING (R451). -/
  | droopReading (vals : List Int)
  /-- DROOP_EVENT (R451). -/
  | droopEvent (mon : Nat)
  /-- AGEING_READING (R455). -/
  | ageingReading (vals : List Int)
  /-- MARGIN_DETECTOR_FIRE (R456). -/
  | marginDetectorFire (u : MarginUnit)
  /-- ODOMETER_MINUTE (R458). -/
  | odometerMinute (voltPct : List Int)
  /-- ODOMETER_POWER_ON_WRITE (R459). -/
  | odometerPowerOnWrite
  /-- ODOMETER_HOURLY_WRITE (R459). -/
  | odometerHourlyWrite
  /-- ODOMETER_WRITE_DONE (R459). -/
  | odometerWriteDone (ok : Bool)
  /-- ODOMETER_WRITE_NOW (R459). -/
  | odometerWriteNow (src : Src)
  /-- ODOMETER_SHUTDOWN (R460). -/
  | odometerShutdown (src : Src)
  /-- LIF_SNDATA_READ (R451). -/
  | lifSndataRead (src : Src)
  /-- REGISTER_WRITE (R466). -/
  | registerWrite (src : Src) (off : Nat) (v : BitVec 64)
  /-- UNMAPPED_ACCESS (R467). -/
  | unmappedAccess (src : Src) (off : Nat) (write : Bool)
  /-- HOST_ACCESS_SIZE (R466). -/
  | hostAccessSize (off size : Nat) (write : Bool)
  /-- PCIE_LINK_EVENT (R465). -/
  | pcieLinkEvent (ev : PcieEvent)
  /-- DEBUG_HALT (R471). -/
  | debugHalt (src : Src) (lc : Nat)
  /-- DEBUG_STEP (R471). -/
  | debugStep (src : Src) (lc : Nat)
  /-- DEBUG_RESUME (R471). -/
  | debugResume (src : Src) (lc : Nat)
  /-- BREAKPOINT_HIT (R473). -/
  | breakpointHit (lc k : Nat)
  /-- SVC_DBGDATA_ACCESS (R474). -/
  | svcDbgdataAccess (src : Src) (write : Option (BitVec 64))
  /-- TRACE_ENABLE (R475). -/
  | traceEnable (src : Src) (cl : Nat) (v : BitVec 64)
  /-- BYPASS (R476). -/
  | bypass
  /-- IDCODE (R476). -/
  | idcode
  /-- SAMPLE_PRELOAD (R476). -/
  | samplePreload (v : Nat)
  /-- EXTEST (R476). -/
  | extest (v : Nat)
  /-- CLAMP (R476). -/
  | clamp
  /-- HIGHZ (R476). -/
  | highz
  /-- GPIO_EDGE (R489). -/
  | gpioEdge (pin : Nat) (level : Bool)
  /-- THERMTRIP (R493). -/
  | thermtrip
  /-- AVS_WRITE_TIMEOUT (R482). -/
  | avsWriteTimeout (cl : Nat)
  /-- VDD_AON_LOSS (R11). -/
  | vddAonLoss
  /-- MAXCLR (R225). -/
  | maxclr (src : Src)
  /-- KEYSTONE_RESTART_COMPLETE (R390). -/
  | keystoneRestartComplete (pass : Bool)
  /-- EXPLICIT_REQUEST_DONE (R408). -/
  | explicitRequestDone
  /-- STANDBY_CONTROLLER_FAILURE (R345). -/
  | standbyControllerFailure (vp : Nat)
  /-- PLANNED_ENGINE_MOVE_EXPIRY (R327). -/
  | plannedEngineMoveExpiry (e : Nat)
  /-- VDD_AON_GOOD (R480). -/
  | vddAonGood
  /-- POWER_LOSS (R481). -/
  | powerLoss
deriving DecidableEq, Repr

end Sys2Proof
end

