-- ==== Sys2Proof/Decode.lean ====
section
/-! DEFINITION. Decoding. The opcode table gives its rows no bits, so no word spells a command by it (log 12); the words of the core's instructions are decoded by 03 Tables INS-1 and INS-5 to INS-17. -/

namespace Sys2Proof

/-- The command that a word spells by the table's bits: none, for no row of spec/opcode_table.json gives bits. -/
def decodeTableWord (_nbits _w : Nat) : Option Instr := none

/-- The minors or sub-operations that a major opcode of the core defines; `none` for a major without any (03 Tables INS-5 to INS-17). -/
def coreMinors (major : Nat) : Option (List (Nat × Nat)) :=
  match major with
  | 0x00 => some [(0x01, 0x20)]
  | 0x23 => some [(0x01, 0x0F)]
  | 0x24 => some [(0x01, 0x0B)]
  | 0x25 => some [(0x01, 0x0B)]
  | 0x26 => some [(0x01, 0x01)]
  | 0x27 => some [(0x01, 0x11), (0x21, 0x31)]
  | 0x28 => some [(0x01, 0x0A)]
  | 0x2E => some [(0x01, 0x04)]
  | 0x2F => some [(0x01, 0x04)]
  | 0x30 => some [(0x01, 0x09)]
  | 0x31 => some [(0x01, 0x02)]
  | 0x32 => some [(0x01, 0x09)]
  | 0x33 => some [(0x01, 0x04)]
  | 0x34 => some [(0x01, 0x02)]
  | 0x35 => some [(0x01, 0x02)]
  | 0x36 => some [(0x01, 0x03)]
  | 0x37 => some [(0x01, 0x02)]
  | 0x38 => some [(0x01, 0x02)]
  | 0x39 => some [(0x01, 0x03)]
  | 0x3A => some [(0x01, 0x05)]
  | 0x3D => some [(0x01, 0x03)]
  | _ => none

/-- The minor or sub-operation field of a first word, by its major's format (03 Table INS-1). -/
def coreMinor (w : BitVec 32) : Nat :=
  let major := (w.extractLsb' 26 6).toNat
  if major = 0x2F then (w.extractLsb' 11 5).toNat
  else if major = 0x3A then (w.extractLsb' 0 8).toNat
  else if 0x30 ≤ major && major ≤ 0x37 then (w.extractLsb' 20 6).toNat
  else (w.extractLsb' 0 6).toNat

/-- Does a first word hold a defined opcode (03 R66, R67). -/
def coreDefined (w : BitVec 32) : Bool :=
  let major := (w.extractLsb' 26 6).toNat
  match coreMinors major with
  | some l => l.any (fun p => decide (p.1 ≤ coreMinor w) && decide (coreMinor w ≤ p.2))
  | none => decide (major ≠ 0x3F)

/-- The length of an instruction in bytes, which its major opcode alone decides (03 R59). -/
def coreIlc (w : BitVec 32) : Nat :=
  let major := (w.extractLsb' 26 6).toNat
  if major = 0x2F || major = 0x3A then 8 else 4

/-! The core's instructions (03 R59, R62, R76) -/

/-- A constructor of format A: a logical core and the fields t, a, b, c. -/
abbrev FormA := Nat → BitVec 5 → BitVec 5 → BitVec 5 → BitVec 5 → Instr

/-- One of formats B and C: t, a (or base) and the 16-bit field. -/
abbrev FormB := Nat → BitVec 5 → BitVec 5 → BitVec 16 → Instr

/-- One of format E: t, a and sys. -/
abbrev FormE := Nat → BitVec 5 → BitVec 5 → BitVec 10 → Instr

/-- The minors 1, 2, … of a format A major (Tables INS-6, INS-8, R81, INS-10 to INS-13, INS-16). -/
def minorsA (major : Nat) : List FormA :=
  match major with
  | 0x00 => [.add, .addw, .sub, .subw, .neg, .negw, .cmp, .cmpu, .cmpw, .cmpuw, .and, .or, .xor, .andn, .orn, .sll, .srl, .sra, .sla, .rol, .ror, .mul, .mulw, .mulh,
      .mulhu, .div, .divu, .rem, .remu, .divw, .remw, .mov]
  | 0x23 => [.ldx, .lwx, .lwsx, .lhx, .lhsx, .lbx, .lbsx, .stdx, .stwx, .sthx, .stbx, .ldfx, .lfsx, .stfx, .stfsx]
  | 0x24 => [.ldadd, .swp, .cas, .cas128, .ldmin, .ldmax, .ldminu, .ldmaxu, .ldand, .ldor, .ldxor]
  | 0x25 => [.clz, .ctz, .popc, .bswap, .bswapw, .sextb, .sexth, .sextw, .zextb, .zexth, .zextw]
  | 0x26 => [.sel]
  | 0x27 => [.fadd, .fsub, .fmul, .fdiv, .fsqrt, .fma, .fms, .fnma, .fnms, .fmin, .fmax, .fabs, .fneg, .fmov, .fcmp, .fcmps, .frint]
  | 0x28 => [.fcvtds, .fcvtsd, .fcvtgd, .fcvtgud, .fcvtdg, .fcvtdgu, .fcvtgs, .fcvtsg, .movgf, .movfg]
  | 0x2E => [.br, .balr, .bcr, .retw]
  | 0x38 => [.movl, .cmpl]
  | 0x39 => [.trtl, .cksm, .cksm16]
  | 0x3D => [.cmprs, .xpand, .ciph]
  | _ => []

/-- The binary32 minors 0x21, 0x22, … of major 0x27 (R83). -/
def minorsFs : List FormA :=
  [.fadds, .fsubs, .fmuls, .fdivs, .fsqrts, .fmas, .fmss, .fnmas, .fnmss, .fmins, .fmaxs, .fabss, .fnegs, .fmovs, .fcmpSingle, .fcmpss, .frints]

/-- The majors of formats B and C (Tables INS-7, INS-9, INS-13, INS-17). -/
def majorB (major : Nat) : Option FormB :=
  match major with
  | 0x01 => some .addi | 0x02 => some .addiw | 0x03 => some .addis | 0x04 => some .muli | 0x05 => some .andi | 0x06 => some .ori | 0x07 => some .xori
  | 0x08 => some .cmpi | 0x09 => some .cmpui | 0x0A => some .lui | 0x0B => some .slli | 0x0C => some .srli | 0x0D => some .srai | 0x0E => some .slai | 0x0F => some .roli
  | 0x10 => some .ld | 0x11 => some .lw | 0x12 => some .lws | 0x13 => some .lh | 0x14 => some .lhs | 0x15 => some .lb | 0x16 => some .lbs | 0x17 => some .ldp
  | 0x18 => some .std | 0x19 => some .stw | 0x1A => some .sth | 0x1B => some .stb | 0x1C => some .stp | 0x1D => some .lea | 0x1E => some .pref | 0x1F => some .ldf
  | 0x20 => some .lfs | 0x21 => some .stf | 0x22 => some .stfs | 0x2C => some .bc | 0x2D => some .bct | 0x3B => some .cvdb | 0x3C => some .cvbd
  | _ => none

/-- The sub-operations 1, 2, … of a format E major (Table INS-15). -/
def subsE (major : Nat) : List FormE :=
  match major with
  | 0x30 => [.lpsw, .setb, .mfsr, .mtsr, .readf, .movfb, .movtb, .scall, .epsw]
  | 0x31 => [.sync, .isync]
  | 0x32 => [.cleana, .invala, .clinva, .cleanr, .invalr, .clinvr, .cleans, .invals, .clinvs]
  | 0x33 => [.tlbiv, .tlbia, .tlbip, .tlbiall]
  | 0x34 => [.loadc, .storec]
  | 0x35 => [.ssch, .tsch]
  | 0x36 => [.sttb, .settc, .sttc]
  | 0x37 => [.sigc, .rstc]
  | _ => []

/-- The member of a list that a minor names: its members have the minors from 1 on; 0 is undefined (R66). -/
def nth {α : Type} (l : List α) (minor : Nat) : Option α := if minor = 0 then none else l[minor - 1]?

/-- The instruction of a defined opcode, if the words hold one. -/
def decodeWords (lc : Nat) (w0 w1 : BitVec 32) : Option Instr :=
  let major := (w0.extractLsb' 26 6).toNat
  let minor := coreMinor w0
  let t : BitVec 5 := w0.extractLsb' 21 5
  let a : BitVec 5 := w0.extractLsb' 16 5
  let b : BitVec 5 := w0.extractLsb' 11 5
  let c : BitVec 5 := w0.extractLsb' 6 5
  let imm : BitVec 16 := w0.extractLsb' 0 16
  let off : BitVec 26 := w0.extractLsb' 0 26
  let rsv : BitVec 11 := w0.extractLsb' 0 11
  match major with
  | 0x29 => some (.b lc off)
  | 0x2A => some (.bal lc off)
  | 0x2B => some (.callw lc off)
  | 0x2F => (nth [Instr.liw, .liwu, .lih, .addli] minor).map (fun k => k lc t a rsv w1)
  | 0x3A => (nth [Instr.addp, .subp, .mulp, .divp, .cmpp] minor).map (fun k =>
      k lc t a (w0.extractLsb' 12 4) (w0.extractLsb' 8 4) (w1.extractLsb' 16 16) (w1.extractLsb' 0 16))
  | 0x3E => some (if w0.extractLsb' 16 10 = (1 : BitVec 10) then .pause lc imm else .nop lc (w0.extractLsb' 16 10) imm)
  | _ =>
    match majorB major with
    | some k => some (k lc t a imm)
    | none =>
      if 0x30 ≤ major && major ≤ 0x37 then (nth (subsE major) minor).map (fun k => k lc (w0.extractLsb' 15 5) (w0.extractLsb' 10 5) (w0.extractLsb' 0 10))
      else if major = 0x27 && 0x21 ≤ minor then (nth minorsFs (minor - 0x20)).map (fun k => k lc t a b c)
      else (nth (minorsA major) minor).map (fun k => k lc t a b c)

/-- The command that a core's instruction words are: any word without a defined opcode is an undefined one (R66, R67). -/
def decodeCore (lc : Nat) (w0 w1 : BitVec 32) : Instr := (decodeWords lc w0 w1).getD (.undefinedOpcode lc w0)

end Sys2Proof
end

