-- ==== Sys2Proof/Config.lean ====
section
/-! DEFINITION. What the spec leaves free or takes from a published standard that the model does not spell out: constants without a body, so that no proof can see their values. Each is named in a log entry. -/

namespace Sys2Proof

/-- A value that the spec leaves open after an operation that goes on (02 R39: CALLW's new out registers; 13 R316: MH and ML at dispatch; ...). The argument is the counter State.freeCtr (log 5). -/
opaque Config.freeValue : Nat → BitVec 64

/-- The set of the directory that a line maps to (09 R208 gives 524,288 sets and no index function; log 6). -/
opaque Config.dirSet : Nat → Fin 524288

/-- The LFSR at cold reset of an array to which 08 R190 gives no number: a directory, a requester's backoff, a wall's key cache (09 R210, R224; 16 R366; log 6). -/
opaque Config.lfsrSeed : Nat → BitVec 16

/-- The packets that a Felard port's receiver can hold in a virtual lane (10 R253 gives no size; log 30). -/
opaque Config.laneBuffers : Nat → Nat

/-- The SPEC field of a fabric message for which no table gives a layout: from its type and contents (10 R244; log 30). -/
opaque Config.fabSpec : Nat → List Nat → BitVec 96

/-- Kenade's control stores, whose contents the spec does not list (06 R143, R145, R149; log 66): micro-ROM, nano ROM, start addresses of the dispatch table, reserved bits of a nano-word, PDS ROM. -/
opaque Config.cisRom : Nat → BitVec 32
opaque Config.nanoRom : Nat → BitVec 160
opaque Config.cisStart : Nat → Nat → Nat
opaque Config.nanoReserved : BitVec 160
opaque Config.pdsRom : Nat → BitVec 144

/-- The rank, 2 x DIMM + rank within it, of a line of a channel: the controller's fixed mapping, which the spec does not give (11 R270; log 35). -/
opaque Config.rankOf : Nat → Fin 4

/-- The voltage, above 650 mV, that a part fuses for each gear, and what the derailleur tables of its firmware add to it, in mV (18 R400; log 72). -/
opaque Config.gearFuse : Nat → Fin 401
opaque Config.gearRaise : Nat → Fin 31

/-- The ECDSA P-384 signature by the device key over a byte string (17 R385; log 7). -/
opaque Config.ecdsa : List Byte → BitVec 768

/-- The device wrap key, from the part's fused secret (17 R373; log 7). -/
opaque Config.dwk : BitVec 256

/-- The ECDH P-384 shared secret of the device agreement key with a public point (17 R373, R383; log 7). -/
opaque Config.ecdh : BitVec 768 → BitVec 384

/-- The serial number and the device certificate, DER-encoded (17 R373, R385; log 7). -/
opaque Config.serial : BitVec 64
opaque Config.cert : List Byte

/-- The DRBG's output bits by reseed count and draw number (17 R384; log 7). -/
opaque Config.drbg : Nat → BitVec 256

/-- The compressed form of a record, with its alignment block, that an engine makes of the original bytes `d` after the records `hist` of the stream (15 R353: which match the matcher takes is open; log 8). -/
opaque Config.deflate (hist : List (List Byte)) (d : List Byte) (last : Bool) : List Byte

end Sys2Proof
end

