-- ==== Sys2Proof/Machine/Codes.lean ====
section
/-! DEFINITION. Checksums: CRC-32C (03 R90, 06 R160, 15 R350), CRC-32, the ones'-complement sum of RFC 1071, Adler-32. -/

namespace Sys2Proof.Machine

/-- The low `n` bytes of a value, big-endian. -/
def toBytes (n v : Nat) : List Byte := (List.range n).map (fun i => BitVec.ofNat 8 (v / 256 ^ (n - 1 - i)))

/-- One reflected CRC step of a bit. -/
def crcBit (poly : W32) (c : W32) : W32 := if c.getLsbD 0 then (c >>> 1) ^^^ poly else c >>> 1

/-- A reflected CRC advanced over one byte. -/
def crcByte (poly : W32) (c : W32) (b : Byte) : W32 :=
  (List.range 8).foldl (fun c _ => crcBit poly c) (c ^^^ b.setWidth 32)

/-- A CRC-32C state advanced over bytes, without inversions (06 R160). -/
def crc32c (c : W32) (l : List Byte) : W32 := l.foldl (crcByte 0x82F63B78) c

/-- The CRC-32C of iSCSI: initial value all ones, final inversion (15 R350). -/
def crcIscsi (l : List Byte) : W32 := ~~~crc32c 0xFFFFFFFF l

/-- Ones'-complement addition of 16-bit words. -/
def onesAdd (x y : Nat) : Nat := let s := x + y; s % 65536 + s / 65536

/-- The 16-bit ones'-complement sum advanced over bytes, the first of a pair more significant (RFC 1071). -/
def ones16 (c : Nat) : List Byte → Nat
  | [] => c
  | [b] => onesAdd c (b.toNat * 256)
  | b0 :: b1 :: r => ones16 (onesAdd c (b0.toNat * 256 + b1.toNat)) r

/-- Adler-32 (RFC 1950). -/
def adler32 (l : List Byte) : Nat :=
  let p := l.foldl (fun (p : Nat × Nat) b => let a := (p.1 + b.toNat) % 65521; (a, (p.2 + a) % 65521)) (1, 0)
  p.2 * 65536 + p.1

end Sys2Proof.Machine
end

