-- ==== Sys2Proof/Machine/Tab.lean ====
section
/-! DEFINITION. Sparse tables: lists of (key, value) pairs in rising order of the keys; a key that is not listed holds a default. Memory is the table of bytes in canonical form. -/

namespace Sys2Proof.Machine

/-- A sparse table. -/
abbrev Tab (α : Type) := List (Nat × α)

/-- The value at a key; what is not listed reads as the default. -/
def Tab.get {α : Type} (d : α) : Tab α → Nat → α
  | [], _ => d
  | (k', v) :: r, k => if k < k' then d else if k = k' then v else Tab.get d r k

/-- Is the key listed. -/
def Tab.has {α : Type} (t : Tab α) (k : Nat) : Bool := t.any (fun p => p.1 == k)

/-- The value at a listed key. -/
def Tab.find {α : Type} (t : Tab α) (k : Nat) : Option α :=
  match t with
  | [] => none
  | (k', v) :: r => if k < k' then none else if k = k' then some v else Tab.find r k

/-- Put a value at a key. -/
def Tab.put {α : Type} : Tab α → Nat → α → Tab α
  | [], k, v => [(k, v)]
  | (k', v') :: r, k, v =>
    if k < k' then (k, v) :: (k', v') :: r else if k = k' then (k, v) :: r else (k', v') :: Tab.put r k v

/-- Take a key out of the table. -/
def Tab.del {α : Type} (t : Tab α) (k : Nat) : Tab α := t.filter (fun p => p.1 != k)

/-- Change the value at a key. -/
def Tab.upd {α : Type} (d : α) (t : Tab α) (k : Nat) (f : α → α) : Tab α := t.put k (f (t.get d k))

/-- Put a value, keeping the table canonical: an entry equal to the default `d` is not listed. -/
def Tab.set {α : Type} [DecidableEq α] (d : α) : Tab α → Nat → α → Tab α
  | [], k, v => if v = d then [] else [(k, v)]
  | (k', v') :: r, k, v =>
    if k < k' then (if v = d then (k', v') :: r else (k, v) :: (k', v') :: r)
    else if k = k' then (if v = d then r else (k, v) :: r)
    else (k', v') :: Tab.set d r k v

/-- Every key lies above `b`, the keys rise, and no entry equals the default. -/
def Tab.wfAbove {α : Type} [DecidableEq α] (d : α) (b : Option Nat) : Tab α → Bool
  | [] => true
  | (k, v) :: r =>
    (match b with | none => true | some b => decide (b < k)) && decide (v ≠ d) && Tab.wfAbove d (some k) r

/-- The canonical form. -/
def Tab.wf {α : Type} [DecidableEq α] (d : α) (t : Tab α) : Bool := t.wfAbove d none

end Sys2Proof.Machine
end

