-- ==== Sys2Proof/Machine/Regs.lean ====
section
/-! DEFINITION. The registers of control space, from the register tables of the chapters of spec/ (offset, fields, types, reset values; 22 R466, 00 R9, R10).
A field is named F.<register>_<field>, a register R.<register>; its rule is the file and rule named in its docstring. -/

namespace Sys2Proof.Machine

/-- Register field types (00 Table SCO-4). -/
inductive FTy where
  | ro | rw | rw1c | wo | rwl | rs
deriving DecidableEq, Repr

/-- One field of a register: bits, type, reset value, the values that are not reserved (none listed: all). -/
structure FldDesc where
  hi : Nat
  lo : Nat
  ty : FTy
  reset : Nat
  legal : List (Nat × Nat)
deriving DecidableEq, Repr

/-- One register array: name, offset, and the strides of at most two indices. -/
structure RegDesc where
  name : String
  base : Nat
  n1 : Nat
  s1 : Nat
  n2 : Nat
  s2 : Nat
  flds : List FldDesc
deriving DecidableEq, Repr

/-- The place of a field: the register's offset, its strides, its bits. -/
structure Fld where
  base : Nat
  s1 : Nat
  s2 : Nat
  hi : Nat
  lo : Nat
deriving DecidableEq, Repr

/-- The offset of element i, j of a register array. -/
def RegDesc.off (r : RegDesc) (i j : Nat := 0) : Nat := r.base + i * r.s1 + j * r.s2

/-- STO_ILV_BASE (05_storage_partitions.md R132). -/
def R.STO_ILV_BASE : RegDesc := ⟨"STO_ILV_BASE", 0x8000, 64, 0x10, 1, 0x0, [⟨63, 63, .rwl, 0, []⟩, ⟨55, 30, .rwl, 0, []⟩]⟩
def F.STO_ILV_BASE_EN : Fld := ⟨0x8000, 0x10, 0x0, 63, 63⟩
def F.STO_ILV_BASE_BASE : Fld := ⟨0x8000, 0x10, 0x0, 55, 30⟩
/-- STO_ILV_CTL (05_storage_partitions.md R132). -/
def R.STO_ILV_CTL : RegDesc := ⟨"STO_ILV_CTL", 0x8008, 64, 0x10, 1, 0x0, [⟨55, 30, .rwl, 0, []⟩, ⟨16, 16, .rwl, 0, []⟩, ⟨15, 4, .rwl, 0, []⟩, ⟨3, 0, .rwl, 0, [(0, 10)]⟩]⟩
def F.STO_ILV_CTL_LIMIT : Fld := ⟨0x8008, 0x10, 0x0, 55, 30⟩
def F.STO_ILV_CTL_GRAN : Fld := ⟨0x8008, 0x10, 0x0, 16, 16⟩
def F.STO_ILV_CTL_TGT : Fld := ⟨0x8008, 0x10, 0x0, 15, 4⟩
def F.STO_ILV_CTL_WAYS : Fld := ⟨0x8008, 0x10, 0x0, 3, 0⟩
/-- STO_ILV_TGT (05_storage_partitions.md R132). -/
def R.STO_ILV_TGT : RegDesc := ⟨"STO_ILV_TGT", 0xA000, 1024, 0x8, 1, 0x0, [⟨63, 63, .rwl, 0, []⟩, ⟨47, 47, .rwl, 0, []⟩, ⟨31, 31, .rwl, 0, []⟩, ⟨15, 15, .rwl, 0, []⟩, ⟨57, 48, .rwl, 0, []⟩, ⟨41, 32, .rwl, 0, []⟩, ⟨25, 16, .rwl, 0, []⟩, ⟨9, 0, .rwl, 0, []⟩]⟩
def F.STO_ILV_TGT_V0 : Fld := ⟨0xA000, 0x8, 0x0, 63, 63⟩
def F.STO_ILV_TGT_V1 : Fld := ⟨0xA000, 0x8, 0x0, 47, 47⟩
def F.STO_ILV_TGT_V2 : Fld := ⟨0xA000, 0x8, 0x0, 31, 31⟩
def F.STO_ILV_TGT_V3 : Fld := ⟨0xA000, 0x8, 0x0, 15, 15⟩
def F.STO_ILV_TGT_CXID0 : Fld := ⟨0xA000, 0x8, 0x0, 57, 48⟩
def F.STO_ILV_TGT_CXID1 : Fld := ⟨0xA000, 0x8, 0x0, 41, 32⟩
def F.STO_ILV_TGT_CXID2 : Fld := ⟨0xA000, 0x8, 0x0, 25, 16⟩
def F.STO_ILV_TGT_CXID3 : Fld := ⟨0xA000, 0x8, 0x0, 9, 0⟩
/-- MEM_RGN_BASE (05_storage_partitions.md R135). -/
def R.MEM_RGN_BASE : RegDesc := ⟨"MEM_RGN_BASE", 0x900800, 16, 0x10000, 64, 0x20, [⟨55, 12, .rw, 0, []⟩]⟩
def F.MEM_RGN_BASE_BASE : Fld := ⟨0x900800, 0x10000, 0x20, 55, 12⟩
/-- MEM_RGN_LIM (05_storage_partitions.md R135). -/
def R.MEM_RGN_LIM : RegDesc := ⟨"MEM_RGN_LIM", 0x900808, 16, 0x10000, 64, 0x20, [⟨55, 12, .rw, 0, []⟩]⟩
def F.MEM_RGN_LIM_LIMIT : Fld := ⟨0x900808, 0x10000, 0x20, 55, 12⟩
/-- MEM_RGN_CTL (05_storage_partitions.md R135). -/
def R.MEM_RGN_CTL : RegDesc := ⟨"MEM_RGN_CTL", 0x900810, 16, 0x10000, 64, 0x20, [⟨15, 8, .rw, 0, [(0, 254)]⟩, ⟨7, 7, .rw, 0, []⟩, ⟨6, 6, .rw, 0, []⟩, ⟨5, 5, .rw, 0, []⟩, ⟨4, 4, .rw, 0, []⟩, ⟨3, 3, .rw, 0, []⟩, ⟨2, 2, .rw, 0, []⟩, ⟨1, 1, .rw, 0, []⟩]⟩
def F.MEM_RGN_CTL_PID : Fld := ⟨0x900810, 0x10000, 0x20, 15, 8⟩
def F.MEM_RGN_CTL_EN : Fld := ⟨0x900810, 0x10000, 0x20, 7, 7⟩
def F.MEM_RGN_CTL_KO : Fld := ⟨0x900810, 0x10000, 0x20, 6, 6⟩
def F.MEM_RGN_CTL_CW : Fld := ⟨0x900810, 0x10000, 0x20, 5, 5⟩
def F.MEM_RGN_CTL_CR : Fld := ⟨0x900810, 0x10000, 0x20, 4, 4⟩
def F.MEM_RGN_CTL_FX : Fld := ⟨0x900810, 0x10000, 0x20, 3, 3⟩
def F.MEM_RGN_CTL_WR : Fld := ⟨0x900810, 0x10000, 0x20, 2, 2⟩
def F.MEM_RGN_CTL_RD : Fld := ⟨0x900810, 0x10000, 0x20, 1, 1⟩
/-- MEM_RGN_ERR0 (05_storage_partitions.md R138). -/
def R.MEM_RGN_ERR0 : RegDesc := ⟨"MEM_RGN_ERR0", 0x901000, 16, 0x10000, 1, 0x0, [⟨63, 63, .rw1c, 0, []⟩, ⟨62, 62, .rw1c, 0, []⟩, ⟨61, 58, .ro, 0, []⟩, ⟨57, 56, .ro, 0, []⟩, ⟨55, 0, .ro, 0, []⟩]⟩
def F.MEM_RGN_ERR0_VAL : Fld := ⟨0x901000, 0x10000, 0x0, 63, 63⟩
def F.MEM_RGN_ERR0_MORE : Fld := ⟨0x901000, 0x10000, 0x0, 62, 62⟩
def F.MEM_RGN_ERR0_SRC : Fld := ⟨0x901000, 0x10000, 0x0, 61, 58⟩
def F.MEM_RGN_ERR0_ACC : Fld := ⟨0x901000, 0x10000, 0x0, 57, 56⟩
def F.MEM_RGN_ERR0_ADDR : Fld := ⟨0x901000, 0x10000, 0x0, 55, 0⟩
/-- MEM_RGN_ERR1 (05_storage_partitions.md R138). -/
def R.MEM_RGN_ERR1 : RegDesc := ⟨"MEM_RGN_ERR1", 0x901008, 16, 0x10000, 1, 0x0, [⟨63, 56, .ro, 0, []⟩, ⟨55, 46, .ro, 0, []⟩]⟩
def F.MEM_RGN_ERR1_PID : Fld := ⟨0x901008, 0x10000, 0x0, 63, 56⟩
def F.MEM_RGN_ERR1_CXID : Fld := ⟨0x901008, 0x10000, 0x0, 55, 46⟩
/-- MCS_PLVL (06_control_stores.md R157). -/
def R.MCS_PLVL : RegDesc := ⟨"MCS_PLVL", 0xC000, 1, 0x0, 1, 0x0, [⟨63, 48, .ro, 0, []⟩, ⟨47, 32, .ro, 0, []⟩, ⟨22, 16, .ro, 0, []⟩, ⟨0, 0, .ro, 0, []⟩]⟩
def F.MCS_PLVL_CISPL : Fld := ⟨0xC000, 0x0, 0x0, 63, 48⟩
def F.MCS_PLVL_PDSPL : Fld := ⟨0xC000, 0x0, 0x0, 47, 32⟩
def F.MCS_PLVL_CISMR : Fld := ⟨0xC000, 0x0, 0x0, 22, 16⟩
def F.MCS_PLVL_LOADED : Fld := ⟨0xC000, 0x0, 0x0, 0, 0⟩
/-- MCS_PDSMR (06_control_stores.md R157). -/
def R.MCS_PDSMR : RegDesc := ⟨"MCS_PDSMR", 0xC008, 2, 0x8, 1, 0x0, [⟨63, 0, .ro, 0, []⟩]⟩
def F.MCS_PDSMR_PDS : Fld := ⟨0xC008, 0x8, 0x0, 63, 0⟩
/-- TAN_SPARE (07_tandem_retry_sparing.md R186). -/
def R.TAN_SPARE : RegDesc := ⟨"TAN_SPARE", 0x500000, 1, 0x0, 1, 0x0, [⟨16, 16, .ro, 0, []⟩, ⟨15, 8, .ro, 0, []⟩, ⟨7, 0, .ro, 0, []⟩]⟩
def F.TAN_SPARE_BUSY : Fld := ⟨0x500000, 0x0, 0x0, 16, 16⟩
def F.TAN_SPARE_MOVES : Fld := ⟨0x500000, 0x0, 0x0, 15, 8⟩
def F.TAN_SPARE_SPARES : Fld := ⟨0x500000, 0x0, 0x0, 7, 0⟩
/-- TAN_SPREQ (07_tandem_retry_sparing.md R186). -/
def R.TAN_SPREQ : RegDesc := ⟨"TAN_SPREQ", 0x500008, 1, 0x0, 1, 0x0, [⟨63, 63, .wo, 0, []⟩, ⟨5, 0, .wo, 0, []⟩]⟩
def F.TAN_SPREQ_GO : Fld := ⟨0x500008, 0x0, 0x0, 63, 63⟩
def F.TAN_SPREQ_LC : Fld := ⟨0x500008, 0x0, 0x0, 5, 0⟩
/-- TAN_CKSEL (07_tandem_retry_sparing.md R186). -/
def R.TAN_CKSEL : RegDesc := ⟨"TAN_CKSEL", 0x500010, 1, 0x0, 1, 0x0, [⟨55, 48, .rw, 0, []⟩, ⟨11, 0, .rw, 0, []⟩]⟩
def F.TAN_CKSEL_LC : Fld := ⟨0x500010, 0x0, 0x0, 55, 48⟩
def F.TAN_CKSEL_INDEX : Fld := ⟨0x500010, 0x0, 0x0, 11, 0⟩
/-- TAN_CKDATA (07_tandem_retry_sparing.md R186). -/
def R.TAN_CKDATA : RegDesc := ⟨"TAN_CKDATA", 0x500018, 1, 0x0, 1, 0x0, [⟨63, 0, .ro, 0, []⟩]⟩
def F.TAN_CKDATA_DATA : Fld := ⟨0x500018, 0x0, 0x0, 63, 0⟩
/-- TAN_MODE (07_tandem_retry_sparing.md R186). -/
def R.TAN_MODE : RegDesc := ⟨"TAN_MODE", 0x500100, 32, 0x8, 1, 0x0, [⟨58, 58, .rw, 0, []⟩, ⟨50, 50, .rw, 0, []⟩, ⟨42, 42, .rw, 0, []⟩, ⟨34, 34, .rw, 0, []⟩, ⟨26, 26, .rw, 0, []⟩, ⟨18, 18, .rw, 0, []⟩, ⟨10, 10, .rw, 0, []⟩, ⟨2, 2, .rw, 0, []⟩, ⟨57, 56, .rw, 0, [(0, 2)]⟩, ⟨49, 48, .rw, 0, [(0, 2)]⟩, ⟨41, 40, .rw, 0, [(0, 2)]⟩, ⟨33, 32, .rw, 0, [(0, 2)]⟩, ⟨25, 24, .rw, 0, [(0, 2)]⟩, ⟨17, 16, .rw, 0, [(0, 2)]⟩, ⟨9, 8, .rw, 0, [(0, 2)]⟩, ⟨1, 0, .rw, 0, [(0, 2)]⟩]⟩
def F.TAN_MODE_SIG0 : Fld := ⟨0x500100, 0x8, 0x0, 58, 58⟩
def F.TAN_MODE_SIG1 : Fld := ⟨0x500100, 0x8, 0x0, 50, 50⟩
def F.TAN_MODE_SIG2 : Fld := ⟨0x500100, 0x8, 0x0, 42, 42⟩
def F.TAN_MODE_SIG3 : Fld := ⟨0x500100, 0x8, 0x0, 34, 34⟩
def F.TAN_MODE_SIG4 : Fld := ⟨0x500100, 0x8, 0x0, 26, 26⟩
def F.TAN_MODE_SIG5 : Fld := ⟨0x500100, 0x8, 0x0, 18, 18⟩
def F.TAN_MODE_SIG6 : Fld := ⟨0x500100, 0x8, 0x0, 10, 10⟩
def F.TAN_MODE_SIG7 : Fld := ⟨0x500100, 0x8, 0x0, 2, 2⟩
def F.TAN_MODE_CAD0 : Fld := ⟨0x500100, 0x8, 0x0, 57, 56⟩
def F.TAN_MODE_CAD1 : Fld := ⟨0x500100, 0x8, 0x0, 49, 48⟩
def F.TAN_MODE_CAD2 : Fld := ⟨0x500100, 0x8, 0x0, 41, 40⟩
def F.TAN_MODE_CAD3 : Fld := ⟨0x500100, 0x8, 0x0, 33, 32⟩
def F.TAN_MODE_CAD4 : Fld := ⟨0x500100, 0x8, 0x0, 25, 24⟩
def F.TAN_MODE_CAD5 : Fld := ⟨0x500100, 0x8, 0x0, 17, 16⟩
def F.TAN_MODE_CAD6 : Fld := ⟨0x500100, 0x8, 0x0, 9, 8⟩
def F.TAN_MODE_CAD7 : Fld := ⟨0x500100, 0x8, 0x0, 1, 0⟩
/-- TAN_LCMAP (07_tandem_retry_sparing.md R186). -/
def R.TAN_LCMAP : RegDesc := ⟨"TAN_LCMAP", 0x500200, 48, 0x8, 1, 0x0, [⟨63, 63, .ro, 0, []⟩, ⟨62, 60, .ro, 0, []⟩, ⟨59, 59, .ro, 0, []⟩, ⟨58, 58, .rw1c, 0, []⟩, ⟨5, 0, .ro, 0, []⟩]⟩
def F.TAN_LCMAP_VAL : Fld := ⟨0x500200, 0x8, 0x0, 63, 63⟩
def F.TAN_LCMAP_STATE : Fld := ⟨0x500200, 0x8, 0x0, 62, 60⟩
def F.TAN_LCMAP_TANDEM_BROKEN : Fld := ⟨0x500200, 0x8, 0x0, 59, 59⟩
def F.TAN_LCMAP_UNCHK : Fld := ⟨0x500200, 0x8, 0x0, 58, 58⟩
def F.TAN_LCMAP_PC : Fld := ⟨0x500200, 0x8, 0x0, 5, 0⟩
/-- TAN_PCSTAT (07_tandem_retry_sparing.md R186). -/
def R.TAN_PCSTAT : RegDesc := ⟨"TAN_PCSTAT", 0x500400, 56, 0x8, 1, 0x0, [⟨63, 61, .ro, 0, []⟩, ⟨55, 48, .ro, 0, []⟩, ⟨47, 47, .ro, 0, []⟩, ⟨46, 46, .ro, 0, []⟩, ⟨45, 32, .ro, 0, []⟩, ⟨29, 16, .ro, 0, []⟩, ⟨15, 0, .ro, 0, []⟩]⟩
def F.TAN_PCSTAT_ROLE : Fld := ⟨0x500400, 0x8, 0x0, 63, 61⟩
def F.TAN_PCSTAT_LC : Fld := ⟨0x500400, 0x8, 0x0, 55, 48⟩
def F.TAN_PCSTAT_ROVF : Fld := ⟨0x500400, 0x8, 0x0, 47, 47⟩
def F.TAN_PCSTAT_POVF : Fld := ⟨0x500400, 0x8, 0x0, 46, 46⟩
def F.TAN_PCSTAT_RETRY : Fld := ⟨0x500400, 0x8, 0x0, 45, 32⟩
def F.TAN_PCSTAT_PAR : Fld := ⟨0x500400, 0x8, 0x0, 29, 16⟩
def F.TAN_PCSTAT_SCOK : Fld := ⟨0x500400, 0x8, 0x0, 15, 0⟩
/-- CAC_RNGSTAT (08_caches.md R199). -/
def R.CAC_RNGSTAT : RegDesc := ⟨"CAC_RNGSTAT", 0x600040, 4, 0x8, 1, 0x0, [⟨63, 63, .ro, 0, []⟩, ⟨3, 0, .ro, 0, []⟩]⟩
def F.CAC_RNGSTAT_ACTIVE : Fld := ⟨0x600040, 0x8, 0x0, 63, 63⟩
def F.CAC_RNGSTAT_QUEUED : Fld := ⟨0x600040, 0x8, 0x0, 3, 0⟩
/-- CAC_LOCKBASE (08_caches.md R202). -/
def R.CAC_LOCKBASE : RegDesc := ⟨"CAC_LOCKBASE", 0x600100, 4, 0x20, 1, 0x0, [⟨55, 12, .rw, 0, []⟩]⟩
def F.CAC_LOCKBASE_PAGE : Fld := ⟨0x600100, 0x20, 0x0, 55, 12⟩
/-- CAC_LOCKLIM (08_caches.md R202). -/
def R.CAC_LOCKLIM : RegDesc := ⟨"CAC_LOCKLIM", 0x600108, 4, 0x20, 1, 0x0, [⟨55, 12, .rw, 0, []⟩]⟩
def F.CAC_LOCKLIM_PAGE : Fld := ⟨0x600108, 0x20, 0x0, 55, 12⟩
/-- CAC_LOCKCTL (08_caches.md R202). -/
def R.CAC_LOCKCTL : RegDesc := ⟨"CAC_LOCKCTL", 0x600110, 4, 0x20, 1, 0x0, [⟨63, 32, .rw, 0, []⟩, ⟨31, 24, .rw, 0, []⟩, ⟨23, 23, .rw, 0, []⟩, ⟨22, 22, .ro, 0, []⟩, ⟨21, 21, .rw1c, 0, []⟩, ⟨18, 16, .rw, 0, []⟩]⟩
def F.CAC_LOCKCTL_SLICES : Fld := ⟨0x600110, 0x20, 0x0, 63, 32⟩
def F.CAC_LOCKCTL_PID : Fld := ⟨0x600110, 0x20, 0x0, 31, 24⟩
def F.CAC_LOCKCTL_EN : Fld := ⟨0x600110, 0x20, 0x0, 23, 23⟩
def F.CAC_LOCKCTL_READY : Fld := ⟨0x600110, 0x20, 0x0, 22, 22⟩
def F.CAC_LOCKCTL_LOST : Fld := ⟨0x600110, 0x20, 0x0, 21, 21⟩
def F.CAC_LOCKCTL_WAY : Fld := ⟨0x600110, 0x20, 0x0, 18, 16⟩
/-- CAC_WAYPWR (08_caches.md R203). -/
def R.CAC_WAYPWR : RegDesc := ⟨"CAC_WAYPWR", 0x600000, 1, 0x0, 1, 0x0, [⟨63, 0, .rw, 0, []⟩]⟩
def F.CAC_WAYPWR_OFF : Fld := ⟨0x600000, 0x0, 0x0, 63, 0⟩
/-- CAC_WAYPST (08_caches.md R203). -/
def R.CAC_WAYPST : RegDesc := ⟨"CAC_WAYPST", 0x600008, 1, 0x0, 1, 0x0, [⟨63, 0, .ro, 0, []⟩]⟩
def F.CAC_WAYPST_TRAN : Fld := ⟨0x600008, 0x0, 0x0, 63, 0⟩
/-- CAC_SLC (08_caches.md R205). -/
def R.CAC_SLC : RegDesc := ⟨"CAC_SLC", 0x601000, 32, 0x10, 1, 0x0, [⟨63, 63, .ro, 0, []⟩, ⟨62, 59, .ro, 0, []⟩, ⟨55, 40, .ro, 0, []⟩, ⟨23, 8, .ro, 0, []⟩, ⟨7, 7, .ro, 0, []⟩]⟩
def F.CAC_SLC_SPUSED : Fld := ⟨0x601000, 0x10, 0x0, 63, 63⟩
def F.CAC_SLC_SPWAY : Fld := ⟨0x601000, 0x10, 0x0, 62, 59⟩
def F.CAC_SLC_RETIRED : Fld := ⟨0x601000, 0x10, 0x0, 55, 40⟩
def F.CAC_SLC_LKHIT : Fld := ⟨0x601000, 0x10, 0x0, 23, 8⟩
def F.CAC_SLC_LKOVF : Fld := ⟨0x601000, 0x10, 0x0, 7, 7⟩
/-- CAC_SLCECC (08_caches.md R205). -/
def R.CAC_SLCECC : RegDesc := ⟨"CAC_SLCECC", 0x601008, 32, 0x10, 1, 0x0, [⟨63, 32, .ro, 0, []⟩, ⟨31, 16, .ro, 0, []⟩, ⟨15, 15, .ro, 0, []⟩, ⟨14, 14, .ro, 0, []⟩]⟩
def F.CAC_SLCECC_CORR : Fld := ⟨0x601008, 0x10, 0x0, 63, 32⟩
def F.CAC_SLCECC_UNCOR : Fld := ⟨0x601008, 0x10, 0x0, 31, 16⟩
def F.CAC_SLCECC_COVF : Fld := ⟨0x601008, 0x10, 0x0, 15, 15⟩
def F.CAC_SLCECC_UOVF : Fld := ⟨0x601008, 0x10, 0x0, 14, 14⟩
/-- COH_LKBASE (09_coherence.md R234). -/
def R.COH_LKBASE : RegDesc := ⟨"COH_LKBASE", 0x700000, 8, 0x10, 1, 0x0, [⟨63, 63, .rwl, 0, []⟩, ⟨55, 8, .rwl, 0, []⟩]⟩
def F.COH_LKBASE_EN : Fld := ⟨0x700000, 0x10, 0x0, 63, 63⟩
def F.COH_LKBASE_BASE : Fld := ⟨0x700000, 0x10, 0x0, 55, 8⟩
/-- COH_LKLIM (09_coherence.md R234). -/
def R.COH_LKLIM : RegDesc := ⟨"COH_LKLIM", 0x700008, 8, 0x10, 1, 0x0, [⟨55, 8, .rwl, 0, []⟩]⟩
def F.COH_LKLIM_LIMIT : Fld := ⟨0x700008, 0x10, 0x0, 55, 8⟩
/-- COH_TMO (09_coherence.md R234). -/
def R.COH_TMO : RegDesc := ⟨"COH_TMO", 0x700100, 1, 0x0, 1, 0x0, [⟨12, 8, .rw, 14, [(6, 20)]⟩, ⟨4, 0, .rw, 15, [(6, 20)]⟩]⟩
def F.COH_TMO_SNP : Fld := ⟨0x700100, 0x0, 0x0, 12, 8⟩
def F.COH_TMO_REQ : Fld := ⟨0x700100, 0x0, 0x0, 4, 0⟩
/-- COH_DIRSTAT (09_coherence.md R234). -/
def R.COH_DIRSTAT : RegDesc := ⟨"COH_DIRSTAT", 0x700108, 1, 0x0, 1, 0x0, [⟨63, 63, .ro, 0, []⟩, ⟨62, 59, .ro, 0, []⟩, ⟨55, 40, .ro, 0, []⟩, ⟨33, 33, .ro, 0, []⟩, ⟨32, 32, .ro, 0, []⟩, ⟨31, 16, .ro, 0, []⟩, ⟨15, 0, .ro, 0, []⟩]⟩
def F.COH_DIRSTAT_SPUSED : Fld := ⟨0x700108, 0x0, 0x0, 63, 63⟩
def F.COH_DIRSTAT_SPWAY : Fld := ⟨0x700108, 0x0, 0x0, 62, 59⟩
def F.COH_DIRSTAT_RETIRED : Fld := ⟨0x700108, 0x0, 0x0, 55, 40⟩
def F.COH_DIRSTAT_POVF : Fld := ⟨0x700108, 0x0, 0x0, 33, 33⟩
def F.COH_DIRSTAT_BOVF : Fld := ⟨0x700108, 0x0, 0x0, 32, 32⟩
def F.COH_DIRSTAT_PLMISS : Fld := ⟨0x700108, 0x0, 0x0, 31, 16⟩
def F.COH_DIRSTAT_BINVS : Fld := ⟨0x700108, 0x0, 0x0, 15, 0⟩
/-- COH_RESV (09_coherence.md R234). -/
def R.COH_RESV : RegDesc := ⟨"COH_RESV", 0x700110, 1, 0x0, 1, 0x0, [⟨63, 32, .ro, 0, []⟩, ⟨31, 31, .ro, 0, []⟩, ⟨30, 30, .ro, 0, []⟩, ⟨16, 16, .wo, 0, []⟩, ⟨13, 8, .ro, 0, []⟩, ⟨5, 0, .ro, 0, []⟩]⟩
def F.COH_RESV_STARVED : Fld := ⟨0x700110, 0x0, 0x0, 63, 32⟩
def F.COH_RESV_SOVF : Fld := ⟨0x700110, 0x0, 0x0, 31, 31⟩
def F.COH_RESV_INVP : Fld := ⟨0x700110, 0x0, 0x0, 30, 30⟩
def F.COH_RESV_MAXCLR : Fld := ⟨0x700110, 0x0, 0x0, 16, 16⟩
def F.COH_RESV_MAX : Fld := ⟨0x700110, 0x0, 0x0, 13, 8⟩
def F.COH_RESV_CUR : Fld := ⟨0x700110, 0x0, 0x0, 5, 0⟩
/-- COH_NACKCNT (09_coherence.md R234). -/
def R.COH_NACKCNT : RegDesc := ⟨"COH_NACKCNT", 0x700118, 1, 0x0, 1, 0x0, [⟨63, 32, .ro, 0, []⟩, ⟨31, 31, .ro, 0, []⟩, ⟨30, 30, .ro, 0, []⟩, ⟨15, 0, .ro, 0, []⟩]⟩
def F.COH_NACKCNT_NACKS : Fld := ⟨0x700118, 0x0, 0x0, 63, 32⟩
def F.COH_NACKCNT_NOVF : Fld := ⟨0x700118, 0x0, 0x0, 31, 31⟩
def F.COH_NACKCNT_FOVF : Fld := ⟨0x700118, 0x0, 0x0, 30, 30⟩
def F.COH_NACKCNT_SETFULL : Fld := ⟨0x700118, 0x0, 0x0, 15, 0⟩
/-- FAB_ID (10_felard_fabric.md R265). -/
def R.FAB_ID : RegDesc := ⟨"FAB_ID", 0x800000, 1, 0x0, 1, 0x0, [⟨63, 63, .ro, 0, []⟩, ⟨25, 16, .ro, 0, []⟩, ⟨9, 0, .ro, 0, []⟩]⟩
def F.FAB_ID_MATCH : Fld := ⟨0x800000, 0x0, 0x0, 63, 63⟩
def F.FAB_ID_CFGCX : Fld := ⟨0x800000, 0x0, 0x0, 25, 16⟩
def F.FAB_ID_STRAPCX : Fld := ⟨0x800000, 0x0, 0x0, 9, 0⟩
/-- FAB_SYS (10_felard_fabric.md R265). -/
def R.FAB_SYS : RegDesc := ⟨"FAB_SYS", 0x800008, 1, 0x0, 1, 0x0, [⟨63, 48, .rwl, 0, []⟩, ⟨47, 40, .rwl, 0, []⟩, ⟨39, 32, .rwl, 0, []⟩]⟩
def F.FAB_SYS_WALLS : Fld := ⟨0x800008, 0x0, 0x0, 63, 48⟩
def F.FAB_SYS_COURSES : Fld := ⟨0x800008, 0x0, 0x0, 47, 40⟩
def F.FAB_SYS_POSNS : Fld := ⟨0x800008, 0x0, 0x0, 39, 32⟩
/-- FAB_ARB (10_felard_fabric.md R265). -/
def R.FAB_ARB : RegDesc := ⟨"FAB_ARB", 0x800010, 1, 0x0, 1, 0x0, [⟨23, 16, .rw, 4, [(1, 255)]⟩, ⟨15, 8, .rw, 8, [(1, 255)]⟩, ⟨7, 0, .rw, 4, [(1, 255)]⟩]⟩
def F.FAB_ARB_W3 : Fld := ⟨0x800010, 0x0, 0x0, 23, 16⟩
def F.FAB_ARB_W2 : Fld := ⟨0x800010, 0x0, 0x0, 15, 8⟩
def F.FAB_ARB_W1 : Fld := ⟨0x800010, 0x0, 0x0, 7, 0⟩
/-- FAB_TMASTER (10_felard_fabric.md R265). -/
def R.FAB_TMASTER : RegDesc := ⟨"FAB_TMASTER", 0x800018, 1, 0x0, 1, 0x0, [⟨63, 63, .rwl, 0, []⟩, ⟨25, 16, .rwl, 0, []⟩, ⟨9, 0, .rwl, 0, []⟩]⟩
def F.FAB_TMASTER_BEN : Fld := ⟨0x800018, 0x0, 0x0, 63, 63⟩
def F.FAB_TMASTER_BACKUP : Fld := ⟨0x800018, 0x0, 0x0, 25, 16⟩
def F.FAB_TMASTER_PRIMARY : Fld := ⟨0x800018, 0x0, 0x0, 9, 0⟩
/-- FAB_TBSTAT (10_felard_fabric.md R265). -/
def R.FAB_TBSTAT : RegDesc := ⟨"FAB_TBSTAT", 0x800020, 1, 0x0, 1, 0x0, [⟨63, 63, .ro, 0, []⟩, ⟨62, 62, .ro, 0, []⟩, ⟨61, 61, .ro, 0, []⟩, ⟨60, 60, .ro, 0, []⟩, ⟨47, 38, .ro, 0, []⟩, ⟨35, 32, .ro, 0, []⟩, ⟨31, 0, .ro, 0, []⟩]⟩
def F.FAB_TBSTAT_SYNC : Fld := ⟨0x800020, 0x0, 0x0, 63, 63⟩
def F.FAB_TBSTAT_HOLD : Fld := ⟨0x800020, 0x0, 0x0, 62, 62⟩
def F.FAB_TBSTAT_MASTER : Fld := ⟨0x800020, 0x0, 0x0, 61, 61⟩
def F.FAB_TBSTAT_BKUP : Fld := ⟨0x800020, 0x0, 0x0, 60, 60⟩
def F.FAB_TBSTAT_PARENT : Fld := ⟨0x800020, 0x0, 0x0, 47, 38⟩
def F.FAB_TBSTAT_PORT : Fld := ⟨0x800020, 0x0, 0x0, 35, 32⟩
def F.FAB_TBSTAT_OFFSET : Fld := ⟨0x800020, 0x0, 0x0, 31, 0⟩
/-- FAB_TBSET (10_felard_fabric.md R265). -/
def R.FAB_TBSET : RegDesc := ⟨"FAB_TBSET", 0x800028, 1, 0x0, 1, 0x0, [⟨63, 0, .wo, 0, []⟩]⟩
def F.FAB_TBSET_VALUE : Fld := ⟨0x800028, 0x0, 0x0, 63, 0⟩
/-- FAB_DIGEST (10_felard_fabric.md R265). -/
def R.FAB_DIGEST : RegDesc := ⟨"FAB_DIGEST", 0x800030, 1, 0x0, 1, 0x0, [⟨31, 0, .ro, 0, []⟩]⟩
def F.FAB_DIGEST_DIGEST : Fld := ⟨0x800030, 0x0, 0x0, 31, 0⟩
/-- FAB_FNDEST (10_felard_fabric.md R265). -/
def R.FAB_FNDEST : RegDesc := ⟨"FAB_FNDEST", 0x800038, 1, 0x0, 1, 0x0, [⟨63, 63, .rwl, 0, []⟩, ⟨62, 62, .rwl, 0, []⟩, ⟨25, 16, .rwl, 0, []⟩, ⟨9, 0, .rwl, 0, []⟩]⟩
def F.FAB_FNDEST_EN1 : Fld := ⟨0x800038, 0x0, 0x0, 63, 63⟩
def F.FAB_FNDEST_EN0 : Fld := ⟨0x800038, 0x0, 0x0, 62, 62⟩
def F.FAB_FNDEST_DEST1 : Fld := ⟨0x800038, 0x0, 0x0, 25, 16⟩
def F.FAB_FNDEST_DEST0 : Fld := ⟨0x800038, 0x0, 0x0, 9, 0⟩
/-- FAB_DROP (10_felard_fabric.md R265). -/
def R.FAB_DROP : RegDesc := ⟨"FAB_DROP", 0x800040, 1, 0x0, 1, 0x0, [⟨63, 32, .ro, 0, []⟩, ⟨31, 16, .ro, 0, []⟩, ⟨15, 15, .ro, 0, []⟩, ⟨14, 14, .ro, 0, []⟩]⟩
def F.FAB_DROP_HOPLIM : Fld := ⟨0x800040, 0x0, 0x0, 63, 32⟩
def F.FAB_DROP_UNREACH : Fld := ⟨0x800040, 0x0, 0x0, 31, 16⟩
def F.FAB_DROP_HOVF : Fld := ⟨0x800040, 0x0, 0x0, 15, 15⟩
def F.FAB_DROP_UOVF : Fld := ⟨0x800040, 0x0, 0x0, 14, 14⟩
/-- FAB_PRESENT (10_felard_fabric.md R265). -/
def R.FAB_PRESENT : RegDesc := ⟨"FAB_PRESENT", 0x800100, 16, 0x8, 1, 0x0, [⟨63, 0, .ro, 0, []⟩]⟩
def F.FAB_PRESENT_PRES : Fld := ⟨0x800100, 0x8, 0x0, 63, 0⟩
/-- FAB_GLT (10_felard_fabric.md R265). -/
def R.FAB_GLT : RegDesc := ⟨"FAB_GLT", 0x800200, 128, 0x8, 1, 0x0, [⟨63, 63, .rwl, 0, []⟩, ⟨10, 10, .rwl, 0, []⟩, ⟨9, 0, .rwl, 0, []⟩]⟩
def F.FAB_GLT_V : Fld := ⟨0x800200, 0x8, 0x0, 63, 63⟩
def F.FAB_GLT_RPORT : Fld := ⟨0x800200, 0x8, 0x0, 10, 10⟩
def F.FAB_GLT_RCX : Fld := ⟨0x800200, 0x8, 0x0, 9, 0⟩
/-- FAB_PSTAT (10_felard_fabric.md R265). -/
def R.FAB_PSTAT : RegDesc := ⟨"FAB_PSTAT", 0x801000, 16, 0x20, 1, 0x0, [⟨63, 61, .ro, 0, []⟩, ⟨60, 60, .ro, 0, []⟩, ⟨59, 58, .ro, 0, []⟩, ⟨51, 48, .ro, 0, []⟩, ⟨41, 32, .ro, 0, []⟩]⟩
def F.FAB_PSTAT_STATE : Fld := ⟨0x801000, 0x20, 0x0, 63, 61⟩
def F.FAB_PSTAT_SPUSED : Fld := ⟨0x801000, 0x20, 0x0, 60, 60⟩
def F.FAB_PSTAT_SPLANE : Fld := ⟨0x801000, 0x20, 0x0, 59, 58⟩
def F.FAB_PSTAT_RPORT : Fld := ⟨0x801000, 0x20, 0x0, 51, 48⟩
def F.FAB_PSTAT_RCX : Fld := ⟨0x801000, 0x20, 0x0, 41, 32⟩
/-- FAB_PERR (10_felard_fabric.md R265). -/
def R.FAB_PERR : RegDesc := ⟨"FAB_PERR", 0x801008, 16, 0x20, 1, 0x0, [⟨63, 32, .ro, 0, []⟩, ⟨31, 16, .ro, 0, []⟩, ⟨15, 15, .ro, 0, []⟩, ⟨14, 14, .ro, 0, []⟩, ⟨13, 13, .ro, 0, []⟩, ⟨7, 0, .ro, 0, []⟩]⟩
def F.FAB_PERR_CRCERR : Fld := ⟨0x801008, 0x20, 0x0, 63, 32⟩
def F.FAB_PERR_REPLAY : Fld := ⟨0x801008, 0x20, 0x0, 31, 16⟩
def F.FAB_PERR_COVF : Fld := ⟨0x801008, 0x20, 0x0, 15, 15⟩
def F.FAB_PERR_ROVF : Fld := ⟨0x801008, 0x20, 0x0, 14, 14⟩
def F.FAB_PERR_TOVF : Fld := ⟨0x801008, 0x20, 0x0, 13, 13⟩
def F.FAB_PERR_RETRAIN : Fld := ⟨0x801008, 0x20, 0x0, 7, 0⟩
/-- FAB_PTC0 (10_felard_fabric.md R265). -/
def R.FAB_PTC0 : RegDesc := ⟨"FAB_PTC0", 0x801010, 16, 0x20, 1, 0x0, [⟨63, 32, .ro, 0, []⟩, ⟨31, 31, .ro, 0, []⟩]⟩
def F.FAB_PTC0_DEMOTED : Fld := ⟨0x801010, 0x20, 0x0, 63, 32⟩
def F.FAB_PTC0_DOVF : Fld := ⟨0x801010, 0x20, 0x0, 31, 31⟩
/-- MEM_POP (11_memory_controllers.md R282). -/
def R.MEM_POP : RegDesc := ⟨"MEM_POP", 0x908000, 1, 0x0, 1, 0x0, [⟨63, 63, .ro, 0, []⟩, ⟨62, 61, .ro, 0, []⟩, ⟨60, 59, .ro, 0, []⟩, ⟨58, 56, .ro, 0, []⟩, ⟨47, 32, .ro, 0, []⟩, ⟨31, 0, .ro, 0, []⟩]⟩
def F.MEM_POP_CH8 : Fld := ⟨0x908000, 0x0, 0x0, 63, 63⟩
def F.MEM_POP_DPC : Fld := ⟨0x908000, 0x0, 0x0, 62, 61⟩
def F.MEM_POP_RPD : Fld := ⟨0x908000, 0x0, 0x0, 60, 59⟩
def F.MEM_POP_DENS : Fld := ⟨0x908000, 0x0, 0x0, 58, 56⟩
def F.MEM_POP_MTS : Fld := ⟨0x908000, 0x0, 0x0, 47, 32⟩
def F.MEM_POP_GIB : Fld := ⟨0x908000, 0x0, 0x0, 31, 0⟩
/-- MEM_SCRUB (11_memory_controllers.md R282). -/
def R.MEM_SCRUB : RegDesc := ⟨"MEM_SCRUB", 0x908008, 1, 0x0, 1, 0x0, [⟨20, 16, .rw, 24, [(4, 24)]⟩, ⟨15, 0, .rw, 200, []⟩]⟩
def F.MEM_SCRUB_HOURS : Fld := ⟨0x908008, 0x0, 0x0, 20, 16⟩
def F.MEM_SCRUB_PDIDLE : Fld := ⟨0x908008, 0x0, 0x0, 15, 0⟩
/-- MEM_LOC (11_memory_controllers.md R282). -/
def R.MEM_LOC : RegDesc := ⟨"MEM_LOC", 0x908100, 64, 0x8, 1, 0x0, [⟨63, 63, .rwl, 0, []⟩, ⟨42, 12, .rwl, 0, []⟩]⟩
def F.MEM_LOC_EN : Fld := ⟨0x908100, 0x8, 0x0, 63, 63⟩
def F.MEM_LOC_LOCBASE : Fld := ⟨0x908100, 0x8, 0x0, 42, 12⟩
/-- MEM_CHSTAT (11_memory_controllers.md R282). -/
def R.MEM_CHSTAT : RegDesc := ⟨"MEM_CHSTAT", 0x900000, 16, 0x10000, 1, 0x0, [⟨63, 62, .ro, 0, []⟩, ⟨61, 61, .ro, 0, []⟩, ⟨56, 53, .ro, 0, []⟩, ⟨52, 48, .ro, 0, []⟩, ⟨47, 0, .ro, 0, []⟩]⟩
def F.MEM_CHSTAT_PWR : Fld := ⟨0x900000, 0x10000, 0x0, 63, 62⟩
def F.MEM_CHSTAT_SPBUSY : Fld := ⟨0x900000, 0x10000, 0x0, 61, 61⟩
def F.MEM_CHSTAT_SPUSED : Fld := ⟨0x900000, 0x10000, 0x0, 56, 53⟩
def F.MEM_CHSTAT_SPDEV : Fld := ⟨0x900000, 0x10000, 0x0, 52, 48⟩
def F.MEM_CHSTAT_SCRPTR : Fld := ⟨0x900000, 0x10000, 0x0, 47, 0⟩
/-- MEM_ECC (11_memory_controllers.md R282). -/
def R.MEM_ECC : RegDesc := ⟨"MEM_ECC", 0x900008, 16, 0x10000, 1, 0x0, [⟨63, 32, .ro, 0, []⟩, ⟨31, 16, .ro, 0, []⟩, ⟨15, 15, .ro, 0, []⟩, ⟨14, 14, .ro, 0, []⟩]⟩
def F.MEM_ECC_CORR : Fld := ⟨0x900008, 0x10000, 0x0, 63, 32⟩
def F.MEM_ECC_UNCOR : Fld := ⟨0x900008, 0x10000, 0x0, 31, 16⟩
def F.MEM_ECC_COVF : Fld := ⟨0x900008, 0x10000, 0x0, 15, 15⟩
def F.MEM_ECC_UOVF : Fld := ⟨0x900008, 0x10000, 0x0, 14, 14⟩
/-- MEM_ECCADR (11_memory_controllers.md R282). -/
def R.MEM_ECCADR : RegDesc := ⟨"MEM_ECCADR", 0x900010, 16, 0x10000, 1, 0x0, [⟨63, 63, .rw1c, 0, []⟩, ⟨62, 62, .ro, 0, []⟩, ⟨61, 61, .ro, 0, []⟩, ⟨60, 56, .ro, 0, []⟩, ⟨47, 0, .ro, 0, []⟩]⟩
def F.MEM_ECCADR_VAL : Fld := ⟨0x900010, 0x10000, 0x0, 63, 63⟩
def F.MEM_ECCADR_DIMM : Fld := ⟨0x900010, 0x10000, 0x0, 62, 62⟩
def F.MEM_ECCADR_RANK : Fld := ⟨0x900010, 0x10000, 0x0, 61, 61⟩
def F.MEM_ECCADR_DEV : Fld := ⟨0x900010, 0x10000, 0x0, 60, 56⟩
def F.MEM_ECCADR_COFF : Fld := ⟨0x900010, 0x10000, 0x0, 47, 0⟩
/-- VLX_CTL (12_velex_channel_subsystem.md R312). -/
def R.VLX_CTL : RegDesc := ⟨"VLX_CTL", 0xA00000, 1, 0x0, 1, 0x0, [⟨0, 0, .rw, 0, []⟩]⟩
def F.VLX_CTL_SOLO : Fld := ⟨0xA00000, 0x0, 0x0, 0, 0⟩
/-- VLX_BUDDY (12_velex_channel_subsystem.md R312). -/
def R.VLX_BUDDY : RegDesc := ⟨"VLX_BUDDY", 0xA00008, 1, 0x0, 1, 0x0, [⟨63, 63, .rwl, 0, []⟩, ⟨9, 0, .rwl, 0, []⟩]⟩
def F.VLX_BUDDY_BV : Fld := ⟨0xA00008, 0x0, 0x0, 63, 63⟩
def F.VLX_BUDDY_BCX : Fld := ⟨0xA00008, 0x0, 0x0, 9, 0⟩
/-- VLX_STAT (12_velex_channel_subsystem.md R312). -/
def R.VLX_STAT : RegDesc := ⟨"VLX_STAT", 0xA00010, 1, 0x0, 1, 0x0, [⟨63, 62, .ro, 0, []⟩, ⟨61, 61, .ro, 0, []⟩, ⟨46, 32, .ro, 0, []⟩, ⟨30, 16, .ro, 0, []⟩, ⟨14, 0, .ro, 0, []⟩]⟩
def F.VLX_STAT_BST : Fld := ⟨0xA00010, 0x0, 0x0, 63, 62⟩
def F.VLX_STAT_TKACT : Fld := ⟨0xA00010, 0x0, 0x0, 61, 61⟩
def F.VLX_STAT_JMAX : Fld := ⟨0xA00010, 0x0, 0x0, 46, 32⟩
def F.VLX_STAT_JUSED : Fld := ⟨0xA00010, 0x0, 0x0, 30, 16⟩
def F.VLX_STAT_ADOPTED : Fld := ⟨0xA00010, 0x0, 0x0, 14, 0⟩
/-- VLX_SCTBASE (12_velex_channel_subsystem.md R312). ADDR is U at reset; here 0 (DESIGN CHOICE, log 1). -/
def R.VLX_SCTBASE : RegDesc := ⟨"VLX_SCTBASE", 0xA00018, 1, 0x0, 1, 0x0, [⟨55, 21, .rw, 0, []⟩]⟩
def F.VLX_SCTBASE_ADDR : Fld := ⟨0xA00018, 0x0, 0x0, 55, 21⟩
/-- VLX_SCCMD (12_velex_channel_subsystem.md R312). -/
def R.VLX_SCCMD : RegDesc := ⟨"VLX_SCCMD", 0xA00020, 1, 0x0, 1, 0x0, [⟨63, 63, .wo, 0, []⟩, ⟨62, 60, .wo, 0, [(0, 1), (3, 4)]⟩, ⟨55, 55, .ro, 0, []⟩, ⟨54, 52, .ro, 0, []⟩, ⟨15, 0, .rw, 0, []⟩]⟩
def F.VLX_SCCMD_GO : Fld := ⟨0xA00020, 0x0, 0x0, 63, 63⟩
def F.VLX_SCCMD_OP : Fld := ⟨0xA00020, 0x0, 0x0, 62, 60⟩
def F.VLX_SCCMD_BUSY : Fld := ⟨0xA00020, 0x0, 0x0, 55, 55⟩
def F.VLX_SCCMD_ERR : Fld := ⟨0xA00020, 0x0, 0x0, 54, 52⟩
def F.VLX_SCCMD_SCH : Fld := ⟨0xA00020, 0x0, 0x0, 15, 0⟩
/-- VLX_MTMO (12_velex_channel_subsystem.md R312). -/
def R.VLX_MTMO : RegDesc := ⟨"VLX_MTMO", 0xA00028, 1, 0x0, 1, 0x0, [⟨7, 0, .rw, 100, [(10, 255)]⟩]⟩
def F.VLX_MTMO_MTMO : Fld := ⟨0xA00028, 0x0, 0x0, 7, 0⟩
/-- VLX_JSEL (12_velex_channel_subsystem.md R312). -/
def R.VLX_JSEL : RegDesc := ⟨"VLX_JSEL", 0xA00030, 1, 0x0, 1, 0x0, [⟨63, 63, .rw, 0, []⟩, ⟨13, 0, .rw, 0, []⟩]⟩
def F.VLX_JSEL_MIR : Fld := ⟨0xA00030, 0x0, 0x0, 63, 63⟩
def F.VLX_JSEL_IDX : Fld := ⟨0xA00030, 0x0, 0x0, 13, 0⟩
/-- VLX_JDATA (12_velex_channel_subsystem.md R312). -/
def R.VLX_JDATA : RegDesc := ⟨"VLX_JDATA", 0xA00040, 8, 0x8, 1, 0x0, [⟨63, 0, .ro, 0, []⟩]⟩
def F.VLX_JDATA_DATA : Fld := ⟨0xA00040, 0x8, 0x0, 63, 0⟩
/-- VEN_FW (13_velex_engines.md R328). -/
def R.VEN_FW : RegDesc := ⟨"VEN_FW", 0xB00000, 1, 0x0, 1, 0x0, [⟨63, 63, .ro, 0, []⟩, ⟨62, 62, .ro, 0, []⟩, ⟨61, 61, .ro, 0, []⟩, ⟨60, 60, .ro, 0, []⟩, ⟨31, 0, .ro, 0, []⟩]⟩
def F.VEN_FW_LOADED : Fld := ⟨0xB00000, 0x0, 0x0, 63, 63⟩
def F.VEN_FW_OEM : Fld := ⟨0xB00000, 0x0, 0x0, 62, 62⟩
def F.VEN_FW_OEMFUSE : Fld := ⟨0xB00000, 0x0, 0x0, 61, 61⟩
def F.VEN_FW_OEMONLY : Fld := ⟨0xB00000, 0x0, 0x0, 60, 60⟩
def F.VEN_FW_VERSION : Fld := ⟨0xB00000, 0x0, 0x0, 31, 0⟩
/-- VEN_CTXSEL (13_velex_engines.md R328). -/
def R.VEN_CTXSEL : RegDesc := ⟨"VEN_CTXSEL", 0xB00008, 1, 0x0, 1, 0x0, [⟨63, 63, .wo, 0, []⟩, ⟨19, 13, .rw, 0, [(0, 67)]⟩, ⟨12, 9, .rw, 0, []⟩, ⟨4, 0, .rw, 0, []⟩]⟩
def F.VEN_CTXSEL_REL : Fld := ⟨0xB00008, 0x0, 0x0, 63, 63⟩
def F.VEN_CTXSEL_ENG : Fld := ⟨0xB00008, 0x0, 0x0, 19, 13⟩
def F.VEN_CTXSEL_CTX : Fld := ⟨0xB00008, 0x0, 0x0, 12, 9⟩
def F.VEN_CTXSEL_INDEX : Fld := ⟨0xB00008, 0x0, 0x0, 4, 0⟩
/-- VEN_CTXDATA (13_velex_engines.md R328). -/
def R.VEN_CTXDATA : RegDesc := ⟨"VEN_CTXDATA", 0xB00010, 1, 0x0, 1, 0x0, [⟨63, 0, .ro, 0, []⟩]⟩
def F.VEN_CTXDATA_DATA : Fld := ⟨0xB00010, 0x0, 0x0, 63, 0⟩
/-- VEN_ENG (13_velex_engines.md R328). -/
def R.VEN_ENG : RegDesc := ⟨"VEN_ENG", 0xB00100, 68, 0x8, 1, 0x0, [⟨63, 62, .ro, 0, []⟩, ⟨61, 61, .ro, 0, []⟩, ⟨46, 32, .ro, 0, []⟩, ⟨31, 29, .ro, 0, []⟩, ⟨28, 24, .ro, 0, []⟩, ⟨15, 0, .ro, 0, []⟩]⟩
def F.VEN_ENG_ROLE : Fld := ⟨0xB00100, 0x8, 0x0, 63, 62⟩
def F.VEN_ENG_TOVF : Fld := ⟨0xB00100, 0x8, 0x0, 61, 61⟩
def F.VEN_ENG_EXCH : Fld := ⟨0xB00100, 0x8, 0x0, 46, 32⟩
def F.VEN_ENG_PARKED : Fld := ⟨0xB00100, 0x8, 0x0, 31, 29⟩
def F.VEN_ENG_BUSY : Fld := ⟨0xB00100, 0x8, 0x0, 28, 24⟩
def F.VEN_ENG_TRAPS : Fld := ⟨0xB00100, 0x8, 0x0, 15, 0⟩
/-- VPT_CTL (14_velex_ports.md R346). -/
def R.VPT_CTL : RegDesc := ⟨"VPT_CTL", 0xC00000, 16, 0x100, 1, 0x0, [⟨63, 63, .rwl, 0, []⟩, ⟨15, 0, .rw, 1000, [(1, 60000)]⟩]⟩
def F.VPT_CTL_EN : Fld := ⟨0xC00000, 0x100, 0x0, 63, 63⟩
def F.VPT_CTL_TMO : Fld := ⟨0xC00000, 0x100, 0x0, 15, 0⟩
/-- VPT_STAT (14_velex_ports.md R346). -/
def R.VPT_STAT : RegDesc := ⟨"VPT_STAT", 0xC00008, 16, 0x100, 1, 0x0, [⟨63, 61, .ro, 0, []⟩, ⟨60, 60, .ro, 0, []⟩, ⟨59, 58, .ro, 0, []⟩, ⟨57, 57, .ro, 0, []⟩, ⟨56, 56, .ro, 1, []⟩, ⟨55, 52, .ro, 2, []⟩, ⟨51, 48, .ro, 1, []⟩]⟩
def F.VPT_STAT_STATE : Fld := ⟨0xC00008, 0x100, 0x0, 63, 61⟩
def F.VPT_STAT_SPUSED : Fld := ⟨0xC00008, 0x100, 0x0, 60, 60⟩
def F.VPT_STAT_SPLANE : Fld := ⟨0xC00008, 0x100, 0x0, 59, 58⟩
def F.VPT_STAT_ACT : Fld := ⟨0xC00008, 0x100, 0x0, 57, 57⟩
def F.VPT_STAT_PAIRED : Fld := ⟨0xC00008, 0x100, 0x0, 56, 56⟩
def F.VPT_STAT_CLAIMA : Fld := ⟨0xC00008, 0x100, 0x0, 55, 52⟩
def F.VPT_STAT_CLAIMB : Fld := ⟨0xC00008, 0x100, 0x0, 51, 48⟩
/-- VPT_ERR (14_velex_ports.md R346). -/
def R.VPT_ERR : RegDesc := ⟨"VPT_ERR", 0xC00010, 16, 0x100, 1, 0x0, [⟨63, 32, .ro, 0, []⟩, ⟨31, 16, .ro, 0, []⟩, ⟨15, 15, .ro, 0, []⟩, ⟨14, 14, .ro, 0, []⟩, ⟨13, 13, .ro, 0, []⟩, ⟨7, 0, .ro, 0, []⟩]⟩
def F.VPT_ERR_CRCERR : Fld := ⟨0xC00010, 0x100, 0x0, 63, 32⟩
def F.VPT_ERR_REPLAY : Fld := ⟨0xC00010, 0x100, 0x0, 31, 16⟩
def F.VPT_ERR_COVF : Fld := ⟨0xC00010, 0x100, 0x0, 15, 15⟩
def F.VPT_ERR_ROVF : Fld := ⟨0xC00010, 0x100, 0x0, 14, 14⟩
def F.VPT_ERR_TOVF : Fld := ⟨0xC00010, 0x100, 0x0, 13, 13⟩
def F.VPT_ERR_RETRAIN : Fld := ⟨0xC00010, 0x100, 0x0, 7, 0⟩
/-- VPT_XCH (14_velex_ports.md R346). -/
def R.VPT_XCH : RegDesc := ⟨"VPT_XCH", 0xC00018, 16, 0x100, 1, 0x0, [⟨63, 32, .ro, 0, []⟩, ⟨31, 16, .ro, 0, []⟩, ⟨15, 15, .ro, 0, []⟩, ⟨14, 14, .ro, 0, []⟩]⟩
def F.VPT_XCH_TMOCNT : Fld := ⟨0xC00018, 0x100, 0x0, 63, 32⟩
def F.VPT_XCH_DUPS : Fld := ⟨0xC00018, 0x100, 0x0, 31, 16⟩
def F.VPT_XCH_MOVF : Fld := ⟨0xC00018, 0x100, 0x0, 15, 15⟩
def F.VPT_XCH_DOVF : Fld := ⟨0xC00018, 0x100, 0x0, 14, 14⟩
/-- VPT_CRED (14_velex_ports.md R346). -/
def R.VPT_CRED : RegDesc := ⟨"VPT_CRED", 0xC00020, 16, 0x100, 1, 0x0, [⟨31, 24, .ro, 0, []⟩, ⟨23, 16, .ro, 0, []⟩, ⟨15, 8, .ro, 0, []⟩, ⟨7, 0, .ro, 0, []⟩]⟩
def F.VPT_CRED_URG : Fld := ⟨0xC00020, 0x100, 0x0, 31, 24⟩
def F.VPT_CRED_STS : Fld := ⟨0xC00020, 0x100, 0x0, 23, 16⟩
def F.VPT_CRED_DAT : Fld := ⟨0xC00020, 0x100, 0x0, 15, 8⟩
def F.VPT_CRED_CMD : Fld := ⟨0xC00020, 0x100, 0x0, 7, 0⟩
/-- ZIP_ENG (15_compression.md R358). -/
def R.ZIP_ENG : RegDesc := ⟨"ZIP_ENG", 0xD00000, 22, 0x10, 1, 0x0, [⟨63, 62, .ro, 0, []⟩, ⟨55, 55, .ro, 0, []⟩, ⟨51, 48, .ro, 0, []⟩, ⟨47, 40, .ro, 0, []⟩]⟩
def F.ZIP_ENG_ROLE : Fld := ⟨0xD00000, 0x10, 0x0, 63, 62⟩
def F.ZIP_ENG_POOL : Fld := ⟨0xD00000, 0x10, 0x0, 55, 55⟩
def F.ZIP_ENG_PORT : Fld := ⟨0xD00000, 0x10, 0x0, 51, 48⟩
def F.ZIP_ENG_STREAMS : Fld := ⟨0xD00000, 0x10, 0x0, 47, 40⟩
/-- ZIP_CNT (15_compression.md R358). -/
def R.ZIP_CNT : RegDesc := ⟨"ZIP_CNT", 0xD00008, 22, 0x10, 1, 0x0, [⟨63, 32, .ro, 0, []⟩, ⟨31, 16, .ro, 0, []⟩, ⟨15, 15, .ro, 0, []⟩, ⟨14, 14, .ro, 0, []⟩]⟩
def F.ZIP_CNT_RAWREC : Fld := ⟨0xD00008, 0x10, 0x0, 63, 32⟩
def F.ZIP_CNT_BADSTR : Fld := ⟨0xD00008, 0x10, 0x0, 31, 16⟩
def F.ZIP_CNT_ROVF : Fld := ⟨0xD00008, 0x10, 0x0, 15, 15⟩
def F.ZIP_CNT_BOVF : Fld := ⟨0xD00008, 0x10, 0x0, 14, 14⟩
/-- ZIP_POOL (15_compression.md R358). -/
def R.ZIP_POOL : RegDesc := ⟨"ZIP_POOL", 0xD00200, 1, 0x0, 1, 0x0, [⟨2, 0, .ro, 4, []⟩]⟩
def F.ZIP_POOL_ENGS : Fld := ⟨0xD00200, 0x0, 0x0, 2, 0⟩
/-- CIP_WALL (16_cipher_walls.md R372). -/
def R.CIP_WALL : RegDesc := ⟨"CIP_WALL", 0xE00000, 16, 0x10, 1, 0x0, [⟨63, 62, .ro, 0, []⟩, ⟨61, 58, .ro, 0, []⟩, ⟨57, 49, .ro, 0, []⟩, ⟨48, 44, .ro, 0, []⟩, ⟨43, 39, .ro, 0, []⟩, ⟨38, 34, .ro, 0, []⟩]⟩
def F.CIP_WALL_STATE : Fld := ⟨0xE00000, 0x10, 0x0, 63, 62⟩
def F.CIP_WALL_ALSO : Fld := ⟨0xE00000, 0x10, 0x0, 61, 58⟩
def F.CIP_WALL_ACTIVE : Fld := ⟨0xE00000, 0x10, 0x0, 57, 49⟩
def F.CIP_WALL_SPARES : Fld := ⟨0xE00000, 0x10, 0x0, 48, 44⟩
def F.CIP_WALL_KVALID : Fld := ⟨0xE00000, 0x10, 0x0, 43, 39⟩
def F.CIP_WALL_CCTX : Fld := ⟨0xE00000, 0x10, 0x0, 38, 34⟩
/-- CIP_CNT (16_cipher_walls.md R372). -/
def R.CIP_CNT : RegDesc := ⟨"CIP_CNT", 0xE00008, 16, 0x10, 1, 0x0, [⟨63, 40, .ro, 0, []⟩, ⟨39, 24, .ro, 0, []⟩, ⟨23, 8, .ro, 0, []⟩, ⟨4, 4, .ro, 0, []⟩, ⟨3, 3, .ro, 0, []⟩, ⟨2, 2, .ro, 0, []⟩]⟩
def F.CIP_CNT_KMISS : Fld := ⟨0xE00008, 0x10, 0x0, 63, 40⟩
def F.CIP_CNT_AUTHF : Fld := ⟨0xE00008, 0x10, 0x0, 39, 24⟩
def F.CIP_CNT_REFUSED : Fld := ⟨0xE00008, 0x10, 0x0, 23, 8⟩
def F.CIP_CNT_KOVF : Fld := ⟨0xE00008, 0x10, 0x0, 4, 4⟩
def F.CIP_CNT_AOVF : Fld := ⟨0xE00008, 0x10, 0x0, 3, 3⟩
def F.CIP_CNT_ROVF : Fld := ⟨0xE00008, 0x10, 0x0, 2, 2⟩
/-- KEY_MBCTL (17_keystone.md R390). -/
def R.KEY_MBCTL : RegDesc := ⟨"KEY_MBCTL", 0xF00000, 64, 0x200, 1, 0x0, [⟨63, 63, .wo, 0, []⟩, ⟨15, 8, .rw, 0, [(0, 254)]⟩]⟩
def F.KEY_MBCTL_GO : Fld := ⟨0xF00000, 0x200, 0x0, 63, 63⟩
def F.KEY_MBCTL_PID : Fld := ⟨0xF00000, 0x200, 0x0, 15, 8⟩
/-- KEY_MBSTAT (17_keystone.md R390). -/
def R.KEY_MBSTAT : RegDesc := ⟨"KEY_MBSTAT", 0xF00008, 64, 0x200, 1, 0x0, [⟨63, 62, .ro, 0, []⟩, ⟨61, 61, .wo, 0, []⟩, ⟨55, 48, .ro, 0, []⟩]⟩
def F.KEY_MBSTAT_STATE : Fld := ⟨0xF00008, 0x200, 0x0, 63, 62⟩
def F.KEY_MBSTAT_ACK : Fld := ⟨0xF00008, 0x200, 0x0, 61, 61⟩
def F.KEY_MBSTAT_STATUS : Fld := ⟨0xF00008, 0x200, 0x0, 55, 48⟩
/-- KEY_STAT (17_keystone.md R390). -/
def R.KEY_STAT : RegDesc := ⟨"KEY_STAT", 0xF08000, 1, 0x0, 1, 0x0, [⟨63, 62, .ro, 0, []⟩, ⟨61, 61, .ro, 0, []⟩, ⟨60, 60, .ro, 0, []⟩, ⟨59, 54, .ro, 0, []⟩, ⟨15, 8, .ro, 0, []⟩, ⟨7, 7, .ro, 0, []⟩]⟩
def F.KEY_STAT_STATE : Fld := ⟨0xF08000, 0x0, 0x0, 63, 62⟩
def F.KEY_STAT_FRZ : Fld := ⟨0xF08000, 0x0, 0x0, 61, 61⟩
def F.KEY_STAT_ENT : Fld := ⟨0xF08000, 0x0, 0x0, 60, 60⟩
def F.KEY_STAT_CURMB : Fld := ⟨0xF08000, 0x0, 0x0, 59, 54⟩
def F.KEY_STAT_RESTART : Fld := ⟨0xF08000, 0x0, 0x0, 15, 8⟩
def F.KEY_STAT_ROVF : Fld := ⟨0xF08000, 0x0, 0x0, 7, 7⟩
/-- KEY_HOLD (17_keystone.md R390). -/
def R.KEY_HOLD : RegDesc := ⟨"KEY_HOLD", 0xF08008, 1, 0x0, 1, 0x0, [⟨63, 32, .ro, 0, []⟩, ⟨31, 31, .ro, 0, []⟩, ⟨16, 0, .ro, 0, []⟩]⟩
def F.KEY_HOLD_FORCED : Fld := ⟨0xF08008, 0x0, 0x0, 63, 32⟩
def F.KEY_HOLD_FOVF : Fld := ⟨0xF08008, 0x0, 0x0, 31, 31⟩
def F.KEY_HOLD_HOLD : Fld := ⟨0xF08008, 0x0, 0x0, 16, 0⟩
/-- CLK_SRC (18_clocks_derailleur.md R409). -/
def R.CLK_SRC : RegDesc := ⟨"CLK_SRC", 0x200000, 1, 0x0, 1, 0x0, [⟨63, 58, .ro, 0, []⟩, ⟨57, 52, .ro, 0, []⟩, ⟨51, 50, .ro, 2, []⟩, ⟨49, 48, .ro, 0, []⟩]⟩
def F.CLK_SRC_QUAL : Fld := ⟨0x200000, 0x0, 0x0, 63, 58⟩
def F.CLK_SRC_FAIL : Fld := ⟨0x200000, 0x0, 0x0, 57, 52⟩
def F.CLK_SRC_REF : Fld := ⟨0x200000, 0x0, 0x0, 51, 50⟩
def F.CLK_SRC_XBSEL : Fld := ⟨0x200000, 0x0, 0x0, 49, 48⟩
/-- CLK_AONCAUSE (18_clocks_derailleur.md R409). -/
def R.CLK_AONCAUSE : RegDesc := ⟨"CLK_AONCAUSE", 0x200008, 1, 0x0, 1, 0x0, [⟨63, 63, .rw1c, 0, []⟩, ⟨62, 60, .ro, 0, []⟩]⟩
def F.CLK_AONCAUSE_VAL : Fld := ⟨0x200008, 0x0, 0x0, 63, 63⟩
def F.CLK_AONCAUSE_CAUSE : Fld := ⟨0x200008, 0x0, 0x0, 62, 60⟩
/-- CLK_PWR (18_clocks_derailleur.md R409). -/
def R.CLK_PWR : RegDesc := ⟨"CLK_PWR", 0x200010, 1, 0x0, 1, 0x0, [⟨53, 53, .ro, 0, []⟩, ⟨52, 52, .ro, 0, []⟩, ⟨51, 42, .ro, 0, []⟩, ⟨33, 26, .rw, 100, [(70, 104)]⟩, ⟨9, 0, .rw, 560, [(100, 560)]⟩]⟩
def F.CLK_PWR_TEMERG : Fld := ⟨0x200010, 0x0, 0x0, 53, 53⟩
def F.CLK_PWR_PEMERG : Fld := ⟨0x200010, 0x0, 0x0, 52, 52⟩
def F.CLK_PWR_EST : Fld := ⟨0x200010, 0x0, 0x0, 51, 42⟩
def F.CLK_PWR_TTHR : Fld := ⟨0x200010, 0x0, 0x0, 33, 26⟩
def F.CLK_PWR_PLIM : Fld := ⟨0x200010, 0x0, 0x0, 9, 0⟩
/-- CLK_REQ (18_clocks_derailleur.md R409). -/
def R.CLK_REQ : RegDesc := ⟨"CLK_REQ", 0x200020, 1, 0x0, 1, 0x0, [⟨63, 63, .wo, 0, []⟩, ⟨62, 60, .rw, 0, [(0, 4)]⟩, ⟨55, 48, .rw, 0, [(0, 16), (32, 53), (64, 79)]⟩, ⟨47, 45, .ro, 0, []⟩, ⟨44, 42, .ro, 0, []⟩]⟩
def F.CLK_REQ_GO : Fld := ⟨0x200020, 0x0, 0x0, 63, 63⟩
def F.CLK_REQ_OP : Fld := ⟨0x200020, 0x0, 0x0, 62, 60⟩
def F.CLK_REQ_TGT : Fld := ⟨0x200020, 0x0, 0x0, 55, 48⟩
def F.CLK_REQ_STATE : Fld := ⟨0x200020, 0x0, 0x0, 47, 45⟩
def F.CLK_REQ_REASON : Fld := ⟨0x200020, 0x0, 0x0, 44, 42⟩
/-- CLK_SBLK (18_clocks_derailleur.md R409). -/
def R.CLK_SBLK : RegDesc := ⟨"CLK_SBLK", 0x200028, 1, 0x0, 1, 0x0, [⟨7, 6, .rw, 0, [(0, 2)]⟩, ⟨5, 4, .rw, 0, [(0, 2)]⟩, ⟨3, 2, .rw, 0, [(0, 2)]⟩, ⟨1, 0, .rw, 0, [(0, 2)]⟩]⟩
def F.CLK_SBLK_JTAG : Fld := ⟨0x200028, 0x0, 0x0, 7, 6⟩
def F.CLK_SBLK_GPIO : Fld := ⟨0x200028, 0x0, 0x0, 5, 4⟩
def F.CLK_SBLK_QSPI : Fld := ⟨0x200028, 0x0, 0x0, 3, 2⟩
def F.CLK_SBLK_TRACE : Fld := ⟨0x200028, 0x0, 0x0, 1, 0⟩
/-- CLK_SWLOG (18_clocks_derailleur.md R409). -/
def R.CLK_SWLOG : RegDesc := ⟨"CLK_SWLOG", 0x200030, 1, 0x0, 1, 0x0, [⟨63, 32, .ro, 0, []⟩, ⟨31, 31, .ro, 0, []⟩, ⟨5, 0, .ro, 0, []⟩]⟩
def F.CLK_SWLOG_COUNT : Fld := ⟨0x200030, 0x0, 0x0, 63, 32⟩
def F.CLK_SWLOG_OVF : Fld := ⟨0x200030, 0x0, 0x0, 31, 31⟩
def F.CLK_SWLOG_LAST : Fld := ⟨0x200030, 0x0, 0x0, 5, 0⟩
/-- CLK_GEAR (18_clocks_derailleur.md R409). -/
def R.CLK_GEAR : RegDesc := ⟨"CLK_GEAR", 0x200100, 8, 0x8, 1, 0x0, [⟨63, 63, .ro, 0, []⟩, ⟨27, 24, .ro, 0, []⟩, ⟨23, 20, .rw, 13, []⟩, ⟨19, 16, .rw, 15, []⟩, ⟨15, 12, .ro, 15, []⟩, ⟨11, 8, .ro, 15, []⟩, ⟨7, 4, .ro, 15, []⟩]⟩
def F.CLK_GEAR_CHG : Fld := ⟨0x200100, 0x8, 0x0, 63, 63⟩
def F.CLK_GEAR_CUR : Fld := ⟨0x200100, 0x8, 0x0, 27, 24⟩
def F.CLK_GEAR_REQ : Fld := ⟨0x200100, 0x8, 0x0, 23, 20⟩
def F.CLK_GEAR_SWCAP : Fld := ⟨0x200100, 0x8, 0x0, 19, 16⟩
def F.CLK_GEAR_AGECAP : Fld := ⟨0x200100, 0x8, 0x0, 15, 12⟩
def F.CLK_GEAR_PWRCAP : Fld := ⟨0x200100, 0x8, 0x0, 11, 8⟩
def F.CLK_GEAR_THMCAP : Fld := ⟨0x200100, 0x8, 0x0, 7, 4⟩
/-- BOO_STAT (19_start_up.md R429). -/
def R.BOO_STAT : RegDesc := ⟨"BOO_STAT", 0x100000, 1, 0x0, 1, 0x0, [⟨63, 62, .ro, 0, []⟩, ⟨61, 58, .ro, 0, []⟩, ⟨57, 50, .ro, 0, []⟩, ⟨49, 49, .ro, 0, []⟩, ⟨48, 48, .ro, 0, []⟩, ⟨47, 44, .ro, 0, []⟩, ⟨43, 40, .ro, 0, []⟩, ⟨31, 0, .ro, 0, []⟩]⟩
def F.BOO_STAT_PHASE : Fld := ⟨0x100000, 0x0, 0x0, 63, 62⟩
def F.BOO_STAT_STEP : Fld := ⟨0x100000, 0x0, 0x0, 61, 58⟩
def F.BOO_STAT_CAUSE : Fld := ⟨0x100000, 0x0, 0x0, 57, 50⟩
def F.BOO_STAT_IMG : Fld := ⟨0x100000, 0x0, 0x0, 49, 49⟩
def F.BOO_STAT_FWD : Fld := ⟨0x100000, 0x0, 0x0, 48, 48⟩
def F.BOO_STAT_RSNA : Fld := ⟨0x100000, 0x0, 0x0, 47, 44⟩
def F.BOO_STAT_RSNB : Fld := ⟨0x100000, 0x0, 0x0, 43, 40⟩
def F.BOO_STAT_GEN : Fld := ⟨0x100000, 0x0, 0x0, 31, 0⟩
/-- BOO_DOOR (19_start_up.md R429). -/
def R.BOO_DOOR : RegDesc := ⟨"BOO_DOOR", 0x100008, 1, 0x0, 1, 0x0, [⟨63, 63, .wo, 0, []⟩, ⟨62, 62, .ro, 0, []⟩, ⟨61, 61, .ro, 0, []⟩, ⟨60, 60, .ro, 0, []⟩, ⟨59, 56, .ro, 0, []⟩, ⟨55, 48, .ro, 0, []⟩, ⟨9, 0, .ro, 0, []⟩]⟩
def F.BOO_DOOR_CLOSE : Fld := ⟨0x100008, 0x0, 0x0, 63, 63⟩
def F.BOO_DOOR_OPEN : Fld := ⟨0x100008, 0x0, 0x0, 62, 62⟩
def F.BOO_DOOR_BUSY : Fld := ⟨0x100008, 0x0, 0x0, 61, 61⟩
def F.BOO_DOOR_DONE : Fld := ⟨0x100008, 0x0, 0x0, 60, 60⟩
def F.BOO_DOOR_RESULT : Fld := ⟨0x100008, 0x0, 0x0, 59, 56⟩
def F.BOO_DOOR_COMP : Fld := ⟨0x100008, 0x0, 0x0, 55, 48⟩
def F.BOO_DOOR_LEFT : Fld := ⟨0x100008, 0x0, 0x0, 9, 0⟩
/-- BOO_RST (19_start_up.md R429). -/
def R.BOO_RST : RegDesc := ⟨"BOO_RST", 0x100010, 1, 0x0, 1, 0x0, [⟨63, 63, .wo, 0, []⟩, ⟨7, 0, .wo, 0, []⟩]⟩
def F.BOO_RST_WARM : Fld := ⟨0x100010, 0x0, 0x0, 63, 63⟩
def F.BOO_RST_KEY : Fld := ⟨0x100010, 0x0, 0x0, 7, 0⟩
/-- BOO_IPL0 (19_start_up.md R429). -/
def R.BOO_IPL0 : RegDesc := ⟨"BOO_IPL0", 0x100100, 1, 0x0, 1, 0x0, [⟨63, 63, .rwl, 0, []⟩, ⟨19, 16, .rwl, 0, []⟩, ⟨15, 0, .rwl, 0, []⟩]⟩
def F.BOO_IPL0_EN : Fld := ⟨0x100100, 0x0, 0x0, 63, 63⟩
def F.BOO_IPL0_PORT : Fld := ⟨0x100100, 0x0, 0x0, 19, 16⟩
def F.BOO_IPL0_DEVADR : Fld := ⟨0x100100, 0x0, 0x0, 15, 0⟩
/-- BOO_IPL1 (19_start_up.md R429). -/
def R.BOO_IPL1 : RegDesc := ⟨"BOO_IPL1", 0x100108, 1, 0x0, 1, 0x0, [⟨55, 13, .rwl, 0, []⟩]⟩
def F.BOO_IPL1_ADDR : Fld := ⟨0x100108, 0x0, 0x0, 55, 13⟩
/-- BOO_IPL2 (19_start_up.md R429). -/
def R.BOO_IPL2 : RegDesc := ⟨"BOO_IPL2", 0x100110, 1, 0x0, 1, 0x0, [⟨24, 0, .rwl, 0, [(4096, 16777216)]⟩]⟩
def F.BOO_IPL2_COUNT : Fld := ⟨0x100110, 0x0, 0x0, 24, 0⟩
/-- FLT_LOGSTAT (20_faults.md R450). -/
def R.FLT_LOGSTAT : RegDesc := ⟨"FLT_LOGSTAT", 0x300000, 1, 0x0, 1, 0x0, [⟨63, 51, .ro, 0, []⟩, ⟨50, 50, .rw1c, 0, []⟩, ⟨49, 49, .rw1c, 0, []⟩, ⟨48, 48, .ro, 0, []⟩, ⟨31, 0, .ro, 0, []⟩]⟩
def F.FLT_LOGSTAT_USED : Fld := ⟨0x300000, 0x0, 0x0, 63, 51⟩
def F.FLT_LOGSTAT_SDROP : Fld := ⟨0x300000, 0x0, 0x0, 50, 50⟩
def F.FLT_LOGSTAT_DROP : Fld := ⟨0x300000, 0x0, 0x0, 49, 49⟩
def F.FLT_LOGSTAT_SDOVF : Fld := ⟨0x300000, 0x0, 0x0, 48, 48⟩
def F.FLT_LOGSTAT_SDROPCNT : Fld := ⟨0x300000, 0x0, 0x0, 31, 0⟩
/-- FLT_LOGRD (20_faults.md R450). -/
def R.FLT_LOGRD : RegDesc := ⟨"FLT_LOGRD", 0x300008, 1, 0x0, 1, 0x0, [⟨43, 32, .ro, 0, []⟩, ⟨11, 0, .rw, 0, []⟩]⟩
def F.FLT_LOGRD_WR : Fld := ⟨0x300008, 0x0, 0x0, 43, 32⟩
def F.FLT_LOGRD_RD : Fld := ⟨0x300008, 0x0, 0x0, 11, 0⟩
/-- FLT_ERRPIN (20_faults.md R450). -/
def R.FLT_ERRPIN : RegDesc := ⟨"FLT_ERRPIN", 0x300010, 1, 0x0, 1, 0x0, [⟨63, 63, .rw, 0, []⟩, ⟨62, 62, .ro, 0, []⟩, ⟨61, 61, .ro, 0, []⟩, ⟨60, 60, .ro, 1, []⟩]⟩
def F.FLT_ERRPIN_HOLD : Fld := ⟨0x300010, 0x0, 0x0, 63, 63⟩
def F.FLT_ERRPIN_PULSE : Fld := ⟨0x300010, 0x0, 0x0, 62, 62⟩
def F.FLT_ERRPIN_HWHOLD : Fld := ⟨0x300010, 0x0, 0x0, 61, 61⟩
def F.FLT_ERRPIN_PIN : Fld := ⟨0x300010, 0x0, 0x0, 60, 60⟩
/-- FLT_FENCE (20_faults.md R450). -/
def R.FLT_FENCE : RegDesc := ⟨"FLT_FENCE", 0x300018, 1, 0x0, 1, 0x0, [⟨63, 63, .ro, 0, []⟩, ⟨62, 54, .ro, 0, []⟩, ⟨53, 38, .ro, 0, []⟩]⟩
def F.FLT_FENCE_CXF : Fld := ⟨0x300018, 0x0, 0x0, 63, 63⟩
def F.FLT_FENCE_SRC : Fld := ⟨0x300018, 0x0, 0x0, 62, 54⟩
def F.FLT_FENCE_UNIT : Fld := ⟨0x300018, 0x0, 0x0, 53, 38⟩
/-- FLT_CNTSEL (20_faults.md R450). -/
def R.FLT_CNTSEL : RegDesc := ⟨"FLT_CNTSEL", 0x300020, 1, 0x0, 1, 0x0, [⟨63, 63, .wo, 0, []⟩, ⟨24, 16, .rw, 0, []⟩, ⟨15, 0, .rw, 0, []⟩]⟩
def F.FLT_CNTSEL_CLR : Fld := ⟨0x300020, 0x0, 0x0, 63, 63⟩
def F.FLT_CNTSEL_SRC : Fld := ⟨0x300020, 0x0, 0x0, 24, 16⟩
def F.FLT_CNTSEL_UNIT : Fld := ⟨0x300020, 0x0, 0x0, 15, 0⟩
/-- FLT_CNTDATA (20_faults.md R450). -/
def R.FLT_CNTDATA : RegDesc := ⟨"FLT_CNTDATA", 0x300028, 1, 0x0, 1, 0x0, [⟨63, 32, .ro, 0, []⟩, ⟨31, 31, .ro, 0, []⟩, ⟨30, 23, .ro, 0, []⟩, ⟨22, 19, .ro, 0, []⟩]⟩
def F.FLT_CNTDATA_COUNT : Fld := ⟨0x300028, 0x0, 0x0, 63, 32⟩
def F.FLT_CNTDATA_OVF : Fld := ⟨0x300028, 0x0, 0x0, 31, 31⟩
def F.FLT_CNTDATA_WCNT : Fld := ⟨0x300028, 0x0, 0x0, 30, 23⟩
def F.FLT_CNTDATA_ESCCNT : Fld := ⟨0x300028, 0x0, 0x0, 22, 19⟩
/-- FLT_SRC_CFG (20_faults.md R450). -/
def R.FLT_SRC_CFG : RegDesc := ⟨"FLT_SRC_CFG", 0x301000, 512, 0x8, 1, 0x0, [⟨63, 63, .ro, 0, []⟩, ⟨62, 56, .rw, 13, []⟩, ⟨55, 49, .rw, 13, []⟩, ⟨48, 42, .rw, 1, []⟩, ⟨41, 38, .rw, 4, []⟩, ⟨37, 37, .rw, 1, []⟩, ⟨36, 12, .rw, 1, [(1, 16777216)]⟩, ⟨7, 0, .rw, 16, [(1, 255)]⟩]⟩
def F.FLT_SRC_CFG_FIXSEV : Fld := ⟨0x301000, 0x8, 0x0, 63, 63⟩
def F.FLT_SRC_CFG_RS : Fld := ⟨0x301000, 0x8, 0x0, 62, 56⟩
def F.FLT_SRC_CFG_RR : Fld := ⟨0x301000, 0x8, 0x0, 55, 49⟩
def F.FLT_SRC_CFG_RNO : Fld := ⟨0x301000, 0x8, 0x0, 48, 42⟩
def F.FLT_SRC_CFG_ESCN : Fld := ⟨0x301000, 0x8, 0x0, 41, 38⟩
def F.FLT_SRC_CFG_TU : Fld := ⟨0x301000, 0x8, 0x0, 37, 37⟩
def F.FLT_SRC_CFG_TVAL : Fld := ⟨0x301000, 0x8, 0x0, 36, 12⟩
def F.FLT_SRC_CFG_N : Fld := ⟨0x301000, 0x8, 0x0, 7, 0⟩
/-- LIF_SNSEL (21_monitors_life.md R464). -/
def R.LIF_SNSEL : RegDesc := ⟨"LIF_SNSEL", 0x400000, 1, 0x0, 1, 0x0, [⟨9, 8, .rw, 0, [(0, 2)]⟩, ⟨7, 0, .rw, 0, []⟩]⟩
def F.LIF_SNSEL_KIND : Fld := ⟨0x400000, 0x0, 0x0, 9, 8⟩
def F.LIF_SNSEL_INDEX : Fld := ⟨0x400000, 0x0, 0x0, 7, 0⟩
/-- LIF_SNDATA (21_monitors_life.md R464). -/
def R.LIF_SNDATA : RegDesc := ⟨"LIF_SNDATA", 0x400008, 1, 0x0, 1, 0x0, [⟨63, 48, .ro, 0, []⟩, ⟨47, 32, .ro, 0, []⟩, ⟨31, 30, .ro, 0, []⟩, ⟨29, 22, .ro, 0, []⟩]⟩
def F.LIF_SNDATA_VALUE : Fld := ⟨0x400008, 0x0, 0x0, 63, 48⟩
def F.LIF_SNDATA_PEAK : Fld := ⟨0x400008, 0x0, 0x0, 47, 32⟩
def F.LIF_SNDATA_STATE : Fld := ⟨0x400008, 0x0, 0x0, 31, 30⟩
def F.LIF_SNDATA_SUBST : Fld := ⟨0x400008, 0x0, 0x0, 29, 22⟩
/-- LIF_ODOSTAT (21_monitors_life.md R464). -/
def R.LIF_ODOSTAT : RegDesc := ⟨"LIF_ODOSTAT", 0x400010, 1, 0x0, 1, 0x0, [⟨63, 63, .ro, 0, []⟩, ⟨62, 62, .ro, 0, []⟩, ⟨61, 61, .rw1c, 0, []⟩, ⟨60, 60, .ro, 0, []⟩, ⟨59, 59, .rw1c, 0, []⟩, ⟨57, 48, .ro, 0, []⟩, ⟨31, 0, .ro, 0, []⟩]⟩
def F.LIF_ODOSTAT_BUSY : Fld := ⟨0x400010, 0x0, 0x0, 63, 63⟩
def F.LIF_ODOSTAT_PEND : Fld := ⟨0x400010, 0x0, 0x0, 62, 62⟩
def F.LIF_ODOSTAT_DONE : Fld := ⟨0x400010, 0x0, 0x0, 61, 61⟩
def F.LIF_ODOSTAT_BLANK : Fld := ⟨0x400010, 0x0, 0x0, 60, 60⟩
def F.LIF_ODOSTAT_WFAIL : Fld := ⟨0x400010, 0x0, 0x0, 59, 59⟩
def F.LIF_ODOSTAT_SLOT : Fld := ⟨0x400010, 0x0, 0x0, 57, 48⟩
def F.LIF_ODOSTAT_SEQ : Fld := ⟨0x400010, 0x0, 0x0, 31, 0⟩
/-- LIF_ODOCMD (21_monitors_life.md R464). -/
def R.LIF_ODOCMD : RegDesc := ⟨"LIF_ODOCMD", 0x400018, 1, 0x0, 1, 0x0, [⟨63, 63, .wo, 0, []⟩, ⟨62, 61, .wo, 0, [(0, 2)]⟩]⟩
def F.LIF_ODOCMD_GO : Fld := ⟨0x400018, 0x0, 0x0, 63, 63⟩
def F.LIF_ODOCMD_OP : Fld := ⟨0x400018, 0x0, 0x0, 62, 61⟩
/-- LIF_ODOSEL (21_monitors_life.md R464). -/
def R.LIF_ODOSEL : RegDesc := ⟨"LIF_ODOSEL", 0x400020, 1, 0x0, 1, 0x0, [⟨7, 0, .rw, 0, []⟩]⟩
def F.LIF_ODOSEL_IDX : Fld := ⟨0x400020, 0x0, 0x0, 7, 0⟩
/-- LIF_ODODATA (21_monitors_life.md R464). -/
def R.LIF_ODODATA : RegDesc := ⟨"LIF_ODODATA", 0x400028, 1, 0x0, 1, 0x0, [⟨63, 0, .ro, 0, []⟩]⟩
def F.LIF_ODODATA_DATA : Fld := ⟨0x400028, 0x0, 0x0, 63, 0⟩
/-- SVC_WSTAT (22_service_port_debug.md R469). -/
def R.SVC_WSTAT : RegDesc := ⟨"SVC_WSTAT", 0xFFFF8, 17, 0x100000, 1, 0x0, [⟨63, 63, .rw1c, 0, []⟩, ⟨62, 62, .rw1c, 0, []⟩, ⟨61, 61, .ro, 0, []⟩, ⟨19, 3, .ro, 0, []⟩]⟩
def F.SVC_WSTAT_CFG_ERR : Fld := ⟨0xFFFF8, 0x100000, 0x0, 63, 63⟩
def F.SVC_WSTAT_MORE : Fld := ⟨0xFFFF8, 0x100000, 0x0, 62, 62⟩
def F.SVC_WSTAT_SRC : Fld := ⟨0xFFFF8, 0x100000, 0x0, 61, 61⟩
def F.SVC_WSTAT_OFF : Fld := ⟨0xFFFF8, 0x100000, 0x0, 19, 3⟩
/-- SVC_NOTE (22_service_port_debug.md R470). -/
def R.SVC_NOTE : RegDesc := ⟨"SVC_NOTE", 0x1000100, 17, 0x8, 1, 0x0, [⟨63, 44, .ro, 0, []⟩, ⟨43, 24, .ro, 0, []⟩, ⟨23, 4, .ro, 0, []⟩, ⟨0, 0, .ro, 0, []⟩]⟩
def F.SVC_NOTE_NOTED : Fld := ⟨0x1000100, 0x8, 0x0, 63, 44⟩
def F.SVC_NOTE_RECUR : Fld := ⟨0x1000100, 0x8, 0x0, 43, 24⟩
def F.SVC_NOTE_SEVERE : Fld := ⟨0x1000100, 0x8, 0x0, 23, 4⟩
def F.SVC_NOTE_OVF : Fld := ⟨0x1000100, 0x8, 0x0, 0, 0⟩
/-- SVC_DBGCTL (22_service_port_debug.md R474). -/
def R.SVC_DBGCTL : RegDesc := ⟨"SVC_DBGCTL", 0x1000200, 1, 0x0, 1, 0x0, [⟨63, 61, .wo, 0, [(0, 3)]⟩, ⟨60, 59, .ro, 0, []⟩, ⟨58, 57, .ro, 0, []⟩, ⟨56, 55, .ro, 0, []⟩, ⟨5, 0, .rw, 0, []⟩]⟩
def F.SVC_DBGCTL_CMD : Fld := ⟨0x1000200, 0x0, 0x0, 63, 61⟩
def F.SVC_DBGCTL_STATE : Fld := ⟨0x1000200, 0x0, 0x0, 60, 59⟩
def F.SVC_DBGCTL_WHY : Fld := ⟨0x1000200, 0x0, 0x0, 58, 57⟩
def F.SVC_DBGCTL_BPN : Fld := ⟨0x1000200, 0x0, 0x0, 56, 55⟩
def F.SVC_DBGCTL_LC : Fld := ⟨0x1000200, 0x0, 0x0, 5, 0⟩
/-- SVC_DBGIDX (22_service_port_debug.md R474). -/
def R.SVC_DBGIDX : RegDesc := ⟨"SVC_DBGIDX", 0x1000208, 1, 0x0, 1, 0x0, [⟨11, 0, .rw, 0, []⟩]⟩
def F.SVC_DBGIDX_INDEX : Fld := ⟨0x1000208, 0x0, 0x0, 11, 0⟩
/-- SVC_DBGDATA (22_service_port_debug.md R474). -/
def R.SVC_DBGDATA : RegDesc := ⟨"SVC_DBGDATA", 0x1000210, 1, 0x0, 1, 0x0, [⟨63, 0, .rw, 0, []⟩]⟩
def F.SVC_DBGDATA_DATA : Fld := ⟨0x1000210, 0x0, 0x0, 63, 0⟩
/-- SVC_BP (22_service_port_debug.md R474). -/
def R.SVC_BP : RegDesc := ⟨"SVC_BP", 0x1000220, 4, 0x8, 1, 0x0, [⟨63, 2, .rw, 0, []⟩, ⟨0, 0, .rw, 0, []⟩]⟩
def F.SVC_BP_ADDR : Fld := ⟨0x1000220, 0x8, 0x0, 63, 2⟩
def F.SVC_BP_EN : Fld := ⟨0x1000220, 0x8, 0x0, 0, 0⟩
/-- SVC_BPPID (22_service_port_debug.md R474). -/
def R.SVC_BPPID : RegDesc := ⟨"SVC_BPPID", 0x1000240, 1, 0x0, 1, 0x0, [⟨63, 32, .rw, 0, []⟩]⟩
def F.SVC_BPPID_PIDS : Fld := ⟨0x1000240, 0x0, 0x0, 63, 32⟩
/-- SVC_TRCTL (22_service_port_debug.md R475). -/
def R.SVC_TRCTL : RegDesc := ⟨"SVC_TRCTL", 0x1000400, 8, 0x8, 1, 0x0, [⟨63, 63, .rw, 0, []⟩, ⟨62, 62, .rw, 0, []⟩, ⟨61, 54, .rw, 0, []⟩, ⟨11, 0, .ro, 0, []⟩]⟩
def F.SVC_TRCTL_EN : Fld := ⟨0x1000400, 0x8, 0x0, 63, 63⟩
def F.SVC_TRCTL_PIDF : Fld := ⟨0x1000400, 0x8, 0x0, 62, 62⟩
def F.SVC_TRCTL_PID : Fld := ⟨0x1000400, 0x8, 0x0, 61, 54⟩
def F.SVC_TRCTL_WR : Fld := ⟨0x1000400, 0x8, 0x0, 11, 0⟩
/-- PKG_STRAP (23_package_electrical.md R493). -/
def R.PKG_STRAP : RegDesc := ⟨"PKG_STRAP", 0xD000, 1, 0x0, 1, 0x0, [⟨63, 63, .ro, 0, []⟩, ⟨9, 6, .ro, 0, []⟩, ⟨5, 3, .ro, 0, []⟩, ⟨2, 0, .ro, 0, []⟩]⟩
def F.PKG_STRAP_STABLE : Fld := ⟨0xD000, 0x0, 0x0, 63, 63⟩
def F.PKG_STRAP_WALL : Fld := ⟨0xD000, 0x0, 0x0, 9, 6⟩
def F.PKG_STRAP_COURSE : Fld := ⟨0xD000, 0x0, 0x0, 5, 3⟩
def F.PKG_STRAP_POS : Fld := ⟨0xD000, 0x0, 0x0, 2, 0⟩
/-- PKG_GPIOIN (23_package_electrical.md R493). -/
def R.PKG_GPIOIN : RegDesc := ⟨"PKG_GPIOIN", 0xD008, 1, 0x0, 1, 0x0, [⟨23, 0, .ro, 0, []⟩]⟩
def F.PKG_GPIOIN_LVL : Fld := ⟨0xD008, 0x0, 0x0, 23, 0⟩
/-- PKG_GPIO (23_package_electrical.md R493). -/
def R.PKG_GPIO : RegDesc := ⟨"PKG_GPIO", 0xD100, 24, 0x8, 1, 0x0, [⟨63, 56, .rw, 0, [(0, 254)]⟩, ⟨55, 55, .rw, 0, []⟩, ⟨54, 53, .rw, 0, [(0, 2)]⟩, ⟨41, 32, .rw, 0, [(0, 1000)]⟩, ⟨2, 2, .rw, 0, []⟩, ⟨1, 1, .rw, 0, []⟩, ⟨0, 0, .rw, 0, []⟩]⟩
def F.PKG_GPIO_PID : Fld := ⟨0xD100, 0x8, 0x0, 63, 56⟩
def F.PKG_GPIO_IE : Fld := ⟨0xD100, 0x8, 0x0, 55, 55⟩
def F.PKG_GPIO_EDGE : Fld := ⟨0xD100, 0x8, 0x0, 54, 53⟩
def F.PKG_GPIO_FILT : Fld := ⟨0xD100, 0x8, 0x0, 41, 32⟩
def F.PKG_GPIO_OD : Fld := ⟨0xD100, 0x8, 0x0, 2, 2⟩
def F.PKG_GPIO_DIR : Fld := ⟨0xD100, 0x8, 0x0, 1, 1⟩
def F.PKG_GPIO_OUT : Fld := ⟨0xD100, 0x8, 0x0, 0, 0⟩
/-- KEY_REQ (17_keystone.md R375). U at reset; here 0 (DESIGN CHOICE, log 1). -/
def R.KEY_REQ : RegDesc := ⟨"KEY_REQ", 0xF00080, 64, 0x200, 16, 0x8, [⟨63, 0, .rw, 0, []⟩]⟩
def F.KEY_REQ_D : Fld := ⟨0xF00080, 0x200, 0x8, 63, 0⟩
/-- KEY_RSP (17_keystone.md R376). -/
def R.KEY_RSP : RegDesc := ⟨"KEY_RSP", 0xF00100, 64, 0x200, 16, 0x8, [⟨63, 0, .ro, 0, []⟩]⟩
def F.KEY_RSP_D : Fld := ⟨0xF00100, 0x200, 0x8, 63, 0⟩
/-- FLT_LOG (20_faults.md R446). -/
def R.FLT_LOG : RegDesc := ⟨"FLT_LOG", 0x308000, 4096, 0x20, 4, 0x8, [⟨63, 0, .ro, 0, []⟩]⟩
def F.FLT_LOG_D : Fld := ⟨0x308000, 0x20, 0x8, 63, 0⟩
/-- SVC_TRACE (22_service_port_debug.md R475). -/
def R.SVC_TRACE : RegDesc := ⟨"SVC_TRACE", 0x1008000, 8, 0x10000, 8192, 0x8, [⟨63, 0, .ro, 0, []⟩]⟩
def F.SVC_TRACE_D : Fld := ⟨0x1008000, 0x10000, 0x8, 63, 0⟩
/-- SVC_MSIX (22_service_port_debug.md R465). -/
def R.SVC_MSIX : RegDesc := ⟨"SVC_MSIX", 0x1001000, 32, 0x10, 1, 0x0, [⟨63, 0, .rw, 0, []⟩]⟩
def F.SVC_MSIX_D : Fld := ⟨0x1001000, 0x10, 0x0, 63, 0⟩
/-- The second doubleword of a vector (PCI Express: message data, vector control with its mask bit). -/
def R.SVC_MSIXD : RegDesc := ⟨"SVC_MSIXD", 0x1001008, 32, 0x10, 1, 0x0, [⟨32, 32, .rw, 1, []⟩, ⟨31, 0, .rw, 0, []⟩]⟩
def F.SVC_MSIXD_MASK : Fld := ⟨0x1001008, 0x10, 0x0, 32, 32⟩
/-- SVC_PBA (22_service_port_debug.md R465). -/
def R.SVC_PBA : RegDesc := ⟨"SVC_PBA", 0x1001800, 1, 0x0, 1, 0x0, [⟨63, 0, .ro, 0, []⟩]⟩
def F.SVC_PBA_D : Fld := ⟨0x1001800, 0x0, 0x0, 63, 0⟩
/-- MEM_BCAST (11_memory_controllers.md R282). -/
def R.MEM_BCAST : RegDesc := ⟨"MEM_BCAST", 0x908800, 64, 0x20, 3, 0x8, [⟨63, 0, .rw, 0, []⟩]⟩
def F.MEM_BCAST_D : Fld := ⟨0x908800, 0x20, 0x8, 63, 0⟩

/-- Registers of window SYS (22 Table SVC-3). -/
def regsSYS : List RegDesc := [R.STO_ILV_BASE, R.STO_ILV_CTL, R.STO_ILV_TGT, R.MCS_PLVL, R.MCS_PDSMR, R.SVC_WSTAT, R.PKG_STRAP, R.PKG_GPIOIN, R.PKG_GPIO]
/-- Registers of window BOO (22 Table SVC-3). -/
def regsBOO : List RegDesc := [R.BOO_STAT, R.BOO_DOOR, R.BOO_RST, R.BOO_IPL0, R.BOO_IPL1, R.BOO_IPL2]
/-- Registers of window CLK (22 Table SVC-3). -/
def regsCLK : List RegDesc := [R.CLK_SRC, R.CLK_AONCAUSE, R.CLK_PWR, R.CLK_REQ, R.CLK_SBLK, R.CLK_SWLOG, R.CLK_GEAR]
/-- Registers of window FLT (22 Table SVC-3). -/
def regsFLT : List RegDesc := [R.FLT_LOGSTAT, R.FLT_LOGRD, R.FLT_ERRPIN, R.FLT_FENCE, R.FLT_CNTSEL, R.FLT_CNTDATA, R.FLT_SRC_CFG, R.FLT_LOG]
/-- Registers of window LIF (22 Table SVC-3). -/
def regsLIF : List RegDesc := [R.LIF_SNSEL, R.LIF_SNDATA, R.LIF_ODOSTAT, R.LIF_ODOCMD, R.LIF_ODOSEL, R.LIF_ODODATA]
/-- Registers of window TAN (22 Table SVC-3). -/
def regsTAN : List RegDesc := [R.TAN_SPARE, R.TAN_SPREQ, R.TAN_CKSEL, R.TAN_CKDATA, R.TAN_MODE, R.TAN_LCMAP, R.TAN_PCSTAT]
/-- Registers of window CAC (22 Table SVC-3). -/
def regsCAC : List RegDesc := [R.CAC_RNGSTAT, R.CAC_LOCKBASE, R.CAC_LOCKLIM, R.CAC_LOCKCTL, R.CAC_WAYPWR, R.CAC_WAYPST, R.CAC_SLC, R.CAC_SLCECC]
/-- Registers of window COH (22 Table SVC-3). -/
def regsCOH : List RegDesc := [R.COH_LKBASE, R.COH_LKLIM, R.COH_TMO, R.COH_DIRSTAT, R.COH_RESV, R.COH_NACKCNT]
/-- Registers of window FAB (22 Table SVC-3). -/
def regsFAB : List RegDesc := [R.FAB_ID, R.FAB_SYS, R.FAB_ARB, R.FAB_TMASTER, R.FAB_TBSTAT, R.FAB_TBSET, R.FAB_DIGEST, R.FAB_FNDEST, R.FAB_DROP, R.FAB_PRESENT, R.FAB_GLT, R.FAB_PSTAT, R.FAB_PERR, R.FAB_PTC0]
/-- Registers of window MEM (22 Table SVC-3). -/
def regsMEM : List RegDesc := [R.MEM_RGN_BASE, R.MEM_RGN_LIM, R.MEM_RGN_CTL, R.MEM_RGN_ERR0, R.MEM_RGN_ERR1, R.MEM_POP, R.MEM_SCRUB, R.MEM_LOC, R.MEM_CHSTAT, R.MEM_ECC, R.MEM_ECCADR, R.MEM_BCAST]
/-- Registers of window VLX (22 Table SVC-3). -/
def regsVLX : List RegDesc := [R.VLX_CTL, R.VLX_BUDDY, R.VLX_STAT, R.VLX_SCTBASE, R.VLX_SCCMD, R.VLX_MTMO, R.VLX_JSEL, R.VLX_JDATA]
/-- Registers of window VEN (22 Table SVC-3). -/
def regsVEN : List RegDesc := [R.VEN_FW, R.VEN_CTXSEL, R.VEN_CTXDATA, R.VEN_ENG]
/-- Registers of window VPT (22 Table SVC-3). -/
def regsVPT : List RegDesc := [R.VPT_CTL, R.VPT_STAT, R.VPT_ERR, R.VPT_XCH, R.VPT_CRED]
/-- Registers of window ZIP (22 Table SVC-3). -/
def regsZIP : List RegDesc := [R.ZIP_ENG, R.ZIP_CNT, R.ZIP_POOL]
/-- Registers of window CIP (22 Table SVC-3). -/
def regsCIP : List RegDesc := [R.CIP_WALL, R.CIP_CNT]
/-- Registers of window KEY (22 Table SVC-3). -/
def regsKEY : List RegDesc := [R.KEY_MBCTL, R.KEY_MBSTAT, R.KEY_STAT, R.KEY_HOLD, R.KEY_REQ, R.KEY_RSP]
/-- Registers of window SVC (22 Table SVC-3). -/
def regsSVC : List RegDesc := [R.SVC_NOTE, R.SVC_DBGCTL, R.SVC_DBGIDX, R.SVC_DBGDATA, R.SVC_BP, R.SVC_BPPID, R.SVC_TRCTL, R.SVC_TRACE, R.SVC_MSIX, R.SVC_MSIXD, R.SVC_PBA]

/-- The registers of a window (22 Table SVC-3): bits 25 to 20 of the offset name the window. -/
def regsOf (off : Nat) : List RegDesc :=
  match off / 0x100000 with
  | 0 => regsSYS
  | 1 => regsBOO ++ [R.SVC_WSTAT]
  | 2 => regsCLK ++ [R.SVC_WSTAT]
  | 3 => regsFLT ++ [R.SVC_WSTAT]
  | 4 => regsLIF ++ [R.SVC_WSTAT]
  | 5 => regsTAN ++ [R.SVC_WSTAT]
  | 6 => regsCAC ++ [R.SVC_WSTAT]
  | 7 => regsCOH ++ [R.SVC_WSTAT]
  | 8 => regsFAB ++ [R.SVC_WSTAT]
  | 9 => regsMEM ++ [R.SVC_WSTAT]
  | 10 => regsVLX ++ [R.SVC_WSTAT]
  | 11 => regsVEN ++ [R.SVC_WSTAT]
  | 12 => regsVPT ++ [R.SVC_WSTAT]
  | 13 => regsZIP ++ [R.SVC_WSTAT]
  | 14 => regsCIP ++ [R.SVC_WSTAT]
  | 15 => regsKEY ++ [R.SVC_WSTAT]
  | 16 => regsSVC ++ [R.SVC_WSTAT]
  | _ => []

/-- Does offset `off` hold an element of register array `r`. -/
def RegDesc.covers (r : RegDesc) (off : Nat) : Bool :=
  decide (r.base ≤ off) &&
    (let d := off - r.base
     if r.s1 = 0 then (if r.s2 = 0 then d == 0 else d % r.s2 == 0 && decide (d / r.s2 < r.n2))
     else
       let i := d / r.s1
       let e := d % r.s1
       decide (i < r.n1) && (if r.s2 = 0 then e == 0 else e % r.s2 == 0 && decide (e / r.s2 < r.n2)))

/-- The register at an offset, if a chapter maps one there (22 R467). -/
def regAt (off : Nat) : Option RegDesc := (regsOf off).find? (fun r => r.covers off)

/-- The reset value of a register: its fields at the values of the Reset column (00 R9), reserved bits zero. -/
def RegDesc.resetVal (r : RegDesc) : W64 :=
  BitVec.ofNat 64 ((r.flds.map (fun f => f.reset * 2 ^ f.lo)).foldl (· + ·) 0)

/-- What the control register at an offset reads as after cold reset. -/
def ctlReset (off : Nat) : W64 :=
  match regAt off with
  | some r => r.resetVal
  | none => 0

end Sys2Proof.Machine
end

