-- ==== Sys2Proof/Machine/State.lean ====
section
/-! DEFINITION. The state of one OZ7200 complex, as plain data: everything the spec gives it (INVENTORY.md, State), the state after reset, and the reasons a step can stop. -/

namespace Sys2Proof.Machine

/-- Why a step stops with a fault. -/
inductive Fault where
  /-- The command names a unit number that no OZ7200 has (a port above 15, a logical core above 47, ...), so it stands for no event of the hardware. Raised by every meaning with a unit operand. Safe. -/
  | noSuchUnit
deriving DecidableEq, Repr

/-- Why a command is refused. -/
inductive Refusal where
  /-- The command has no meaning in the model yet. Raised by arms of `exec` alone. Safe. -/
  | notModelled (mnemonic : String)
deriving DecidableEq, Repr

/-- The program status word (02 Table COR-3), without its reserved bits, which read zero. -/
structure Psw where
  pid : BitVec 8
  bank : BitVec 3
  state : BitVec 2
  asm : BitVec 2
  cc : BitVec 2
  iom : Bool
  exm : Bool
  mcm : Bool
  fom : Bool
  dom : Bool
  ct : Bool
  ia : BitVec 64
deriving DecidableEq, Repr

/-- The architected state of a logical core (02 Table COR-1, R30, R53; 05 R123; 07 R183; 08 R199; 12 R301; 22 R473).
`g` is keyed by bank * 16 + register, `w` by bank * 64 + frame * 8 + register, `f` by bank * 32 + register, `wsp` and `wst` by bank, `sr` by special-register number, `bp` by breakpoint 0 to 3, with SVC_BPPID at 4. -/
structure Arch where
  psw : Psw
  g : Tab W64
  w : Tab W64
  f : Tab W64
  wsp : Tab W64
  wst : Tab W64
  sr : Tab W64
  tbc : W64
  bp : Tab W64
deriving DecidableEq, Repr

/-- An entry of the store buffer: up to 64 aligned bytes with byte enables (07 R170). Bit i of `mask` and byte i of `data` (from the most significant end) belong to address `addr` + i. -/
structure StEnt where
  addr : Nat
  mask : BitVec 64
  data : BitVec 512
  pid : BitVec 8
  conf : Bool
deriving DecidableEq, Repr

/-- A held machine check (20 R494, R440). -/
structure HeldMc where
  cls : Nat
  key : Nat
  id : W64
deriving DecidableEq, Repr

/-- A program interruption, intercept, machine check or supervisor call with its identification (02 Table COR-5). -/
inductive IntReq where
  | program (code : BitVec 16) (ilc : Nat) (detail : Byte) (bank : BitVec 3) (addr : W64)
  | intercept (reason : Byte) (words : W64) (detail level bankByte : Byte) (va pra : W64)
  | svc (imm : BitVec 16)
  | external (code : BitVec 16) (aux : W64)
  | io (isc : BitVec 3) (scsw : BitVec 256)
  | restart
  | machine (id : W64) (absAddr : Option W64)
deriving DecidableEq, Repr

/-- A pending interruption by its source; a failed transfer of the spill and fill engine by its bank (02 R45, Table COR-5). -/
inductive IntSrc where
  | machine (m : HeldMc)
  | poison (bank : Nat)
  | spill (bank : Nat)
  | program
  | external (code : Nat)
  | io (isc : Nat) (sch : BitVec 16)
  | restart
deriving DecidableEq, Repr

/-- The kinds of input-log entries (07 R172). An interruption decision carries its class and code as `IntReq.info` numbers them. -/
inductive LogKind where
  | timeBase | atom | loadc | storec | subch | signal | tlb | cache | engine | interruption (code : Nat)
deriving DecidableEq, Repr

/-- An input-log entry: instruction address, kind, the value and the condition code that came back; for an interruption decision, its source, its identification and the words that an intercept for its prefix stores (07 R172). -/
structure LogEnt where
  ia : W64
  kind : LogKind
  val : BitVec 256
  cc : BitVec 2
  int : Option (IntSrc × IntReq × W64) := none
deriving DecidableEq, Repr

/-- What a logical core is doing (20 R494, 07 TAN_LCMAP, 19 R428, 22 R471). -/
inductive RunSt where
  | stopped | running | checkStop | lost | held | halted | fenced
deriving DecidableEq, Repr

/-- A TLB entry: combined translation of a 4 KiB piece of a page, tagged with PID, ASID and the size of the page, as a power of two (05 R130). -/
structure TlbEnt where
  pid : BitVec 8
  asid : BitVec 8
  size : Nat
  page : Nat
  frame : Nat
  rights : BitVec 4
deriving DecidableEq, Repr

/-- What a logical core waits for outside itself. `sync`: a SYNC has retired and waits for its cadence's confirmation and for its stores (07 R168, 09 R222). -/
inductive CoreWait where
  | none
  | sync
  | window (word : BitVec 32)
  | ssch (idx : Nat)
  | tsch (idx : Nat)
  | tlbAcks (cxs : List Nat)
  | signal (cx : Nat)
  | ccGot (cc : BitVec 2)
  | atom (line : Nat)
  | atomGot (line : Nat) (old : W128) (cc : BitVec 2)
  | atomFail (line : Nat) (why : Nat)
  | unit (kind : Nat) (blk : Nat)
  | unitGot (consumed : Nat)
deriving DecidableEq, Repr

/-- A logical core: its architected state, the checkpoint of it (07 R167), and the unarchitected state the spec names. `retired`, `entries`: instructions and interruption entries of the running interval; `pmcDue`: by counter, the instructions of the interval that it counts at confirmation (02 R55, R57); `pmcInt`: a counter has wrapped in the interval with OIE = 1. `bounded`: the running interval has ended and its comparison is due; `sig`, `cad`: the comparison mode in force (R166, R169); `retryLeft`: instructions and entries of the discarded interval still to be confirmed (R175); `replay`: its input log (R173); `trbuf`: trace records of the running interval (22 R475); `xfer`: the bank whose frame the spill and fill engine is transferring, true for a spill (02 R41); `spillWhy`: by bank, the interruption of its spill fault (02 R45, R46); `pendSpill`: the banks whose failed transfer still owes its interruption, with it, oldest first; `pendProg`: a completed instruction's program interruption that could not be entered, with the instruction's words; `kept`: the interruption that a failed partition area keeps pending until the monitor returns (02 R51). -/
structure Core where
  arch : Arch
  ckpt : Arch
  run : RunSt
  phys : Nat
  stbuf : List StEnt
  inlog : List LogEnt
  replay : List LogEnt
  retired : Nat
  entries : Nat
  pmcDue : Tab Nat
  pmcInt : Bool
  lastIlc : Nat
  bounded : Bool
  retry : Nat
  retryLeft : Nat
  retryStart : Option W64
  sig : Bool
  cad : Nat
  trbuf : List (BitVec 128)
  spareReq : Bool
  spareFailing : Bool
  broken : Bool
  brokenSince : W64
  haltPend : Bool
  haltWhy : BitVec 2
  haltBpn : BitVec 2
  pendExt : List (BitVec 16)
  pendRestart : Bool
  pendSpill : List (Nat × IntReq)
  pendProg : Option (IntReq × W64)
  kept : Option IntSrc
  spillWhy : Tab IntReq
  xfer : Option (Nat × Bool)
  wait : CoreWait
  tlb : List TlbEnt
  lostCkpt : Bool
deriving DecidableEq, Repr

/-- Stable states of a line in one complex (09 Table COH-1). -/
inductive Moesi where
  | m | o | e | s
deriving DecidableEq, Repr

/-- A line held by the complex, with the PID and rights of its region check (05 R139, 09 R206) and the source type of the agent that wrote it (05 R134; 0 for a core). `cores` are the presence bits (09, Line states): the L1 and L2 copies stand in the tag arrays. -/
structure CLine where
  st : Moesi
  pid : BitVec 8
  rights : BitVec 3
  data : Line
  stype : BitVec 4 := 0
deriving DecidableEq, Repr

/-- A valid way of a cache array. -/
structure TagEnt where
  line : Nat
  pid : BitVec 8
deriving DecidableEq, Repr

/-- A queued range operation (08 R196, R197). `page`: of the page that was translated last, its size as a power of two, its number and its absolute address; `counted`: the line at hand has been counted as a locked line's hit (R194). -/
structure RangeOp where
  lc : Nat
  kind : CmoKind
  next : W64
  last : W64
  pid : BitVec 8
  asm : BitVec 2
  state : BitVec 2
  pasce : W64
  sasce : W64
  psce : W64
  submitted : Bool
  page : Option (Nat × Nat × Nat)
  counted : Bool
deriving DecidableEq, Repr

/-- Directory states (09 Table COH-3). -/
inductive DirSt where
  | s | x | o
deriving DecidableEq, Repr

/-- A directory entry (09 Table COH-3) in its logical way (R208): precise sharers in `ptrs`, the coarse group vector in `gvec`. What its ECC finds arrives as a fault event of the directory's sources. -/
structure DirEnt where
  st : DirSt
  busy : Bool
  owner : Nat
  coarse : Bool
  ptrs : List Nat
  gvec : BitVec 64
  way : Nat := 0
deriving DecidableEq, Repr

/-- The request kinds of 09 Table COH-4. -/
inductive ReqKind where
  | rds | rdo | upg | rdsnap | wrpl | atom | cmo (k : CmoKind)
deriving DecidableEq, Repr

/-- A request with the fields of its own kind. -/
structure Req where
  kind : ReqKind
  hdr : CohReq
  place : BitVec 18
  first : Nat
  last : Nat
  data : Line
  op : Nat
  far : Bool
  op1 : W128
  op2 : W128
deriving DecidableEq, Repr

/-- How an owner answered a forward (09 Table COH-4): FWDACK with WBP and DIRTY, or NOCOPY. -/
inductive FwdAns where
  | ack (wbp dirty : Bool)
  | nocopy
deriving DecidableEq, Repr

/-- An open transaction of the home (09 R214). `req` is none for a directory eviction. Awaited: `acks` (INVACK, or the reply to a BINV), `fwd` (FWDACK or NOCOPY), `dataWait` (recalled data), `unblk`. `owner` is a recorded owner not yet contacted; `wbSeen`: the owner's WB came while the forward was open; `sent`: the response has gone out. `remote`: the directory named the line when the transaction opened (R220). `held`: the request waits for a directory way (R210); of an eviction, `victimFor` is the line whose request waits for it. `lock`: the messages travel in TC0 (R213). -/
structure Txn where
  req : Option Req
  acks : List Nat
  owner : Option Nat
  fwd : Option Nat
  dataWait : Bool
  answer : Option FwdAns
  sent : Bool
  unblk : Bool
  wbSeen : Bool
  victimFor : Option Nat
  remote : Bool
  held : Bool
  lock : Bool
deriving DecidableEq, Repr

/-- Transient states of a requesting complex (09 Table COH-2), with the waits of agents without caches, and the answers an agent has not yet picked up (`failed 0`: refused by the regions; else poisoned, with the REASON of 20 Table FLT-5). -/
inductive Transient where
  | isD | imD | smG | snap | wait
  | failed (why : Nat)
  | got (d : DataRsp)
  | cmp
deriving DecidableEq, Repr

/-- An outstanding request of this complex (09 R206, R224): how often it has been sent and when first; whether it backs off, until when, or has stopped until an INVITE. -/
structure ReqEnt where
  req : Req
  st : Transient
  sends : Nat
  backoff : Bool
  stopped : Bool
  born : W64
  due : W64
deriving DecidableEq, Repr

/-- A writeback buffer of this complex as owner: MI_W or OI_W (09 Table COH-2). -/
structure WbEnt where
  data : Line
  poison : Bool
  pid : BitVec 8
  stype : BitVec 4
  fromM : Bool
deriving DecidableEq, Repr

/-- A WB as its home takes it (09 R232): its sender, the line, PID and source type of 05 R134, whether it travels in TC0, whether the line lay in a locked way (08 R194; log 57), its data and poison. -/
structure WbMsg where
  src : Nat
  line : Nat
  pid : Nat
  stype : Nat
  keep : Bool
  lock : Bool
  data : Line
  poison : Bool
deriving DecidableEq, Repr

/-- A message to another agent. `chan` names the way out. -/
inductive Chan where
  | coh | fab | journal | felardCtl (port : Nat) | velex (vp : Nat) | msix | gpio | tap | avs
deriving DecidableEq, Repr

structure Msg where
  chan : Chan
  dst : Nat
  code : Nat
  args : List Nat
deriving DecidableEq, Repr

/-- A packet in a replay buffer (10 R249): its link sequence number, header and data. -/
structure Pkt where
  lseq : BitVec 8
  hdr : BitVec 256
  data : Option Line
deriving DecidableEq, Repr

/-- A Felard port's link state (10 R248 to R256). By virtual lane, in the order of Table FAB-7: `waitq`, packets that wait to be sent; `credits`, packets that the neighbour can still take; `granted`, the CRED value that it last sent; `freed`, packets taken off the lane's receive buffers. `served`: flits that each of TC1 to TC3 has sent in the running round (R254). `bucket` is the time at which the TC0 token bucket is full, in 1/1000 of a time-base unit (log 30). -/
structure FPort where
  replay : List Pkt
  waitq : Tab (List Pkt)
  txSeq : BitVec 8
  rxSeq : BitVec 8
  credits : Tab Nat
  granted : Tab Nat
  freed : Tab Nat
  served : Tab Nat
  resends : Nat
  retrainFails : Nat
  bucket : Nat
  badLanes : List Nat
  paused : Bool
  loadOnly : Bool
deriving DecidableEq, Repr

/-- A memory controller's state outside its registers (11 R274, R279, R281). Ranks are numbered 2 * DIMM + rank. -/
structure McSt where
  powerDown : List Nat
  selfRef : List Nat
  copyRank : Option Nat
  copyPtr : Nat
  spares : Tab Nat
deriving DecidableEq, Repr

/-- A subchannel (12 R283, R288, R301, R309). -/
structure Subch where
  valid : Bool
  def_ : BitVec 256
  active : Option (Bool × Nat)
  final : Bool
  inter : Bool
  scsw : BitVec 256
  reason : Byte
deriving DecidableEq, Repr

/-- A journal entry (12 Table VLX-6) in a table of its fields, with whether its step waits for the buddy's JACK, how often it has been resent, and the final status whose step waits for that JACK (R298: one JWR of an entry at a time). -/
structure JEnt where
  img : BitVec 512
  quar : Bool
  outst : Bool
  tries : Nat
  fin : Option Nat
deriving DecidableEq, Repr

/-- A sequencer descriptor (13 Table VEN-8). -/
structure PdsDesc where
  exid : BitVec 24
  cmd : Byte
  flags : BitVec 10
  count : BitVec 25
  daddr : BitVec 56
  zh : BitVec 16
  ch : BitVec 16
  nseq : BitVec 16
  cmdix : BitVec 16
  devcmd : BitVec 128
deriving DecidableEq, Repr

/-- An open exchange while it runs (13 R314, R315, R325; 14 R333, R341): pending event kinds, its engine, whether it runs from the mirror array, its journal index, the subchannel that gets its status, the port that carries it, its sequence numbers, whether its timer runs, the final status that waits for the end of an ABORT, whether the adapter's STATUS is still to be acknowledged and what it held, whether it is the IPL. `cur` is the command at the port data sequencer, `sent` whether its CMD frame has gone out, `got` its data bytes moved, `buf` its inbound bytes held until they are decrypted or decompressed, or its outbound bytes before encryption, `rdAck` a READ whose DATA step is written, `resume` whether a RESUME waits for its step to be mirrored. -/
structure Exch where
  ev : Byte
  eng : Nat
  running : Bool
  mirror : Bool
  idx : Nat
  sch : Nat
  vp : Nat
  outNext : BitVec 16
  inExp : BitVec 16
  timer : Bool
  aborting : Option Byte
  owed : Bool
  dstat : Byte
  scode : BitVec 3
  resid : BitVec 25
  ipl : Bool
  cur : Option PdsDesc
  sent : Bool
  got : Nat
  buf : List Byte
  rdAck : Option (BitVec 16)
  resume : Bool
deriving DecidableEq, Repr

/-- A mirror message under way: its tries and the journal entry or subchannel (12 R298). -/
structure Mirr where
  jdef : Option Nat
  jdefTries : Nat
  jdefDef : BitVec 256
  jhnd : Tab Nat
  jrd : Tab Nat
deriving DecidableEq, Repr

/-- Status of a Velex engine context (13 R315, R326). -/
inductive VeSt where
  | free | running | parked | waitJack | waitPds
deriving DecidableEq, Repr

/-- A Velex engine context (13 Table VEN-2). `prods` are products on their way to MH and ML (R322). -/
structure VeCtx where
  st : VeSt
  e : Tab W32
  bk : Tab (BitVec 44)
  mh : W32
  ml : W32
  flags : BitVec 4
  pc : BitVec 15
  pid : BitVec 8
  exid : BitVec 24
  evt : BitVec 8
  prods : List W64
  cause : Byte
  desc : Tab W32
deriving DecidableEq, Repr

/-- A stream handle of a port engine or a cipher record handle (13 R323). -/
structure Handle where
  exid : BitVec 24
  kind : Nat
  state : Nat
  zlib : Bool
  slot : Nat
  mode : Nat
deriving DecidableEq, Repr

/-- A Velex frame in a replay buffer (14 R337). -/
structure Frame where
  lseq : BitVec 8
  vc : Nat
  msg : Msg
deriving DecidableEq, Repr

/-- A Velex port's link state (14 R337 to R346), by virtual channel (0 command, 1 data, 2 status, 3 urgent): credits in hand, nothing listed before the link has come up; cumulative returns, the adapter's last count under 0 to 3 and the complex's own under 4 to 7; `alt`: the last frame of the command and data channels was a data frame. -/
structure VPort where
  replay : List Frame
  waitq : List Frame
  txSeq : BitVec 8
  rxSeq : BitVec 8
  cred : Tab Nat
  returned : Tab Nat
  resends : Nat
  retrainFails : Nat
  badLanes : List Nat
  alt : Bool
  fencing : Byte
  tie : Bool
deriving DecidableEq, Repr

/-- What an adapter keeps for an exchange (12 R306; 14 R333 to R336): next outbound XSEQ it expects, commands executed, whether it holds unexecuted frames, and whether it has sent STATUS. -/
structure AdEx where
  exp : BitVec 16
  executed : BitVec 16
  partialCmd : Bool
  statusSent : Bool
  vp : Nat
  ended : Bool
deriving DecidableEq, Repr

/-- A core's compression request with a stream context (15 R348, R357): its engine, progress, the originals of the records closed so far, the bytes of the partial record, whether the last record has been read. -/
structure ZCtx where
  eng : Nat
  inDone : Nat
  outDone : Nat
  recs : List (List Byte)
  pend : List Byte
  ended : Bool
deriving DecidableEq, Repr

/-- A core's cipher context in a wall (16 R370): its wall, progress, the key it was checked against, the input consumed, whether its tag has checked good. -/
structure CCtx where
  wall : Nat
  inDone : Nat
  out : Nat
  key : Option (BitVec 512)
  buf : List Byte
  tagOk : Bool
deriving DecidableEq, Repr

/-- A segment queued at a wall (16 R360): of a port (its index in the command under `handle`) or of a core (its context under `handle`), slot, mode, direction, stripes assigned and finished, stripes to be done again, whether its slot check has been made, refused, and with which key. -/
structure Seg where
  port : Bool
  handle : Nat
  exid : BitVec 24
  pid : BitVec 8
  slot : Nat
  mode : Nat
  dec : Bool
  bytes : Nat
  assigned : Nat
  done : Nat
  redo : Nat
  checked : Bool
  refused : Bool
  key : BitVec 512
deriving DecidableEq, Repr

/-- A key slot (16 R364, Table CIP-3). -/
structure KSlot where
  v : Bool
  pid : BitVec 8
  modes : BitVec 4
  enc : Bool
  dec : Bool
  key : BitVec 512
deriving DecidableEq, Repr

/-- A cipher wall outside its registers: retired bricks, spares in use, the segment of each running stripe by brick, stripes since the last known-answer test by brick, the slots in its key cache by way, its segment queue, the assignments since the last core stripe (R360). -/
structure Wall where
  retired : List Nat
  active : List Nat
  busy : Tab Nat
  stripes : Tab Nat
  cache : List Nat
  segs : List Seg
  turn : Nat
deriving DecidableEq, Repr

/-- A port buffer reservation (16 R367). -/
structure PortBuf where
  used : Nat
  queue : List (BitVec 24 × Nat)
  granted : List (BitVec 24 × Nat)
deriving DecidableEq, Repr

/-- Counting state of a fault instance (20 R432 to R434). -/
structure FltInst where
  count : BitVec 32
  ovf : Bool
  wcnt : Nat
  wstart : W64
  open_ : Bool
  escc : Nat
deriving DecidableEq, Repr

/-- A pending summary entry (20 R447). -/
structure Summary where
  first : W64
  last : W64
  dropped : Nat
deriving DecidableEq, Repr

/-- Notice counts of a group (22 R470) or an FNOTE destination (20 R449). -/
structure NoteCnt where
  noted : Nat
  recur : Nat
  severe : Nat
  lastSrc : Nat
  lastUnit : Nat
  due : Bool
  last : Option W64
deriving DecidableEq, Repr

/-- A monitor (21 R451 to R456), in the units of LIF_SNDATA: its last reading, PEAK (ageing), highest or lowest reading since cold reset (thermal, droop); whether it is retired, the consecutive readings out of range and out of step with its neighbours (Table LIF-3); ageing: the last readings, newest first; whether the margin detectors of its units are armed. -/
structure Mon where
  val : Int
  peak : Int
  seen : Bool
  retired : Bool
  bad : Nat
  dev : Nat
  hist : List Int
  armed : Bool
deriving DecidableEq, Repr

/-- A block that the derailleur can gate or power down (18 R408). -/
inductive BlkSt where
  | run | gated | off
deriving DecidableEq, Repr

/-- The odometer (21 R457 to R461): the live image's counts (keyed by byte offset divided by 4; SPARES items under 10000 + item), the flash slots, the write under way and the one pending. -/
structure Odo where
  cnt : Tab Nat
  slots : Tab (Tab Nat)
  writing : Option Nat
  tries : Nat
  pendReason : Option Nat
  minutes : Nat
  hotSince : Int
deriving DecidableEq, Repr

/-- A TLB operation that waits for the accesses of this complex's cores that used the entries it removed (05 R131): the asking complex and its tag, the held stores still to drain by core, the cores with an atomic under way. -/
structure TlbWait where
  cx : Nat
  tag : Nat
  stores : List (Nat × Nat)
  atoms : List Nat
deriving DecidableEq, Repr

/-- Caches, the coherence home and requester, and storage. `poison` gives each poisoned DRAM line its REASON of 20 Table FLT-5. `late` holds the writebacks still to come from a complex that served a forward from its writeback buffer: line, complex, whether ownership was left at the home (R232). `kept`: by entry kept, the complex invited for it (R226). `wbUsed`, `wbQ`: of the 256 writeback buffers those in use, and the WBs that wait for one (R227). `mc`: the memory controllers by number. -/
structure Mem where
  bytes : Tab Byte
  poison : Tab Nat
  lines : Tab CLine
  tags : Tab TagEnt
  lfsr : Tab (BitVec 16)
  range : Tab (List RangeOp)
  dir : Tab DirEnt
  txns : Tab Txn
  stored : List Req
  kept : List Nat
  invVec : List Nat
  invLast : Nat
  rrLast : Nat
  reqs : Tab ReqEnt
  wbuf : Tab WbEnt
  late : List (Nat × Nat × Bool)
  wbUsed : Nat
  wbQ : List WbMsg
  tlbWaits : List TlbWait
  mc : Tab McSt
deriving DecidableEq, Repr

/-- The Felard fabric and the time base. `down`: links of this wall that an LSN has reported down. `rate`: the present steering of the time base in parts per million, `frac` its fraction of a unit, in millionths (10 R263, R265). -/
structure Fab where
  ports : Tab FPort
  down : List (Nat × Nat)
  tb : W64
  rate : Int
  frac : Nat
  firstExch : Bool
  synced : Bool
  missed : Nat
  master : Option Nat
  discovered : Bool
deriving DecidableEq, Repr

/-- The channel subsystem, its engines, ports, compression and cipher units, and the adapters. `parkOrder`: by engine, its parked contexts, oldest first (13 R326); `veMoving`: engines whose planned move waits (R327); `pdsStop`: ports whose sequencer an uncorrectable control-store error has stopped (06 R156). -/
structure Chn where
  sch : Tab Subch
  jrn : Tab JEnt
  mir : Tab JEnt
  jnext : Nat
  jfreed : List Nat
  fifos : Tab (List (BitVec 16))
  exch : Tab Exch
  mirr : Mirr
  iram : Tab W32
  ctx : Tab VeCtx
  parkOrder : Tab (List Nat)
  veMoving : List Nat
  sram : Tab Byte
  handles : Tab Handle
  hnext : Nat
  pdsq : Tab (List PdsDesc)
  pdsStop : List Nat
  vports : Tab VPort
  adEx : Tab AdEx
  adFenced : List Nat
  zctx : Tab ZCtx
  cctx : Tab CCtx
  walls : Tab Wall
  keys : Tab KSlot
  pbuf : Tab PortBuf
  frozen : Bool
  iplTries : Nat
  iplHeld : Bool
deriving DecidableEq, Repr

/-- Keystone, the derailleur, start-up, faults, monitors, debug and pins. `entBad`: the entropy source has failed a health test and has not passed a retest (17 R384). `moving`: the logical core whose sparing move has been accepted (07 Table TAN-5). `reqOp`, `reqTgt`: the open request of CLK_REQ, which a write without GO does not change (18 R408). -/
structure Svc where
  tkey : Tab (BitVec 256)
  krr : Nat
  kForced : Bool
  entBad : Bool
  ktime : W64
  drbg : Nat
  holdOver : Bool
  blk : Tab BlkSt
  avsHeld : List Nat
  domSel : Tab Nat
  gearTo : Tab Nat
  env : Option BootEnv
  fw : Option FwSet
  stores : Stores
  flashMr : BitVec 384
  window : Tab Byte
  winStart : W64
  locked : Bool
  powered : Bool
  porst : Bool
  trip : Bool
  aonGood : Bool
  resetHold : Bool
  inst : Tab FltInst
  log : Tab (BitVec 256)
  logSeq : BitVec 32
  summ : Option Summary
  pulse : Bool
  notes : Tab NoteCnt
  fnote : Tab NoteCnt
  pendFlt : Tab (Nat × Nat)
  mcs : List HeldMc
  mons : Tab Mon
  odo : Odo
  agedNoSpare : List Nat
  powHigh : Nat
  powLow : Nat
  powUnder : Nat
  trace : Tab (BitVec 128)
  traceLost : Tab Nat
  msixPend : List Nat
  tapReg : Nat
  tapBoundary : Nat
  tapSample : Nat
  pcieUp : Bool
  gpioLevel : BitVec 24
  gpioPend : Tab (BitVec 24)
  hiZ : Bool
  ckptCount : Tab Nat
  selfSlot : Tab Nat
  sparePend : List (Nat × Nat)
  moving : Option Nat
  reqOp : Nat
  reqTgt : Nat
deriving DecidableEq, Repr

/-- One OZ7200 complex. `ctl` holds the registers of control space, keyed by offset; an offset that is not listed reads as its reset value. `p2base` is STO_P2BASE. -/
structure State where
  pending : List Instr
  part : Part
  cores : Tab Core
  p2base : W64
  ctl : Tab W64
  mem : Mem
  fab : Fab
  chn : Chn
  svc : Svc
  out : List Msg
  freeCtr : Nat
  busData : W64
deriving DecidableEq, Repr

/-- The outcome of a command. -/
abbrev Out := Host.Outcome State Fault Refusal

/-- The PSW after cold reset (02 Table COR-3). -/
def Psw.reset : Psw :=
  { pid := 0, bank := 7, state := 2, asm := 0, cc := 0, iom := false, exm := false, mcm := false, fom := false, dom := false, ct := false, ia := 0 }

/-- The reset value of a special register: zero, but COR_PMSEL0 to 7 with STS 0b111 (02 R55). The ROOT and ADDR fields that the spec leaves undefined are 0 (DESIGN CHOICE, log 1). -/
def srReset (n : Nat) : W64 := if 0x18 ≤ n ∧ n ≤ 0x1F then 0x70000 else 0

/-- The reset value of COR_WSTATE: NRES 1, all else 0 (02 R37). -/
def wstReset : W64 := 0x10

/-- Architected state after reset: G, W, F and WSP, which 02 R29 leaves undefined, are 0 (DESIGN CHOICE, log 1). -/
def Arch.reset : Arch :=
  { psw := Psw.reset, g := [], w := [], f := [], wsp := [], wst := [], sr := [], tbc := 0xFFFFFFFFFFFFFFFF, bp := [] }

/-- A logical core after reset: stopped (19 R428). -/
def Core.reset : Core :=
  { arch := Arch.reset, ckpt := Arch.reset, run := .stopped, phys := 0xFF, stbuf := [], inlog := [], replay := [], retired := 0, entries := 0, pmcDue := [], pmcInt := false, lastIlc := 4,
    bounded := false, retry := 0, retryLeft := 0, retryStart := none, sig := false, cad := 64, trbuf := [], spareReq := false, spareFailing := false, broken := false, brokenSince := 0,
    haltPend := false, haltWhy := 0, haltBpn := 0, pendExt := [], pendRestart := false, pendSpill := [],
    pendProg := none, kept := none, spillWhy := [], xfer := none, wait := .none, tlb := [], lostCkpt := false }

/-- Felard link state after reset. -/
def FPort.reset : FPort :=
  { replay := [], waitq := [], txSeq := 0, rxSeq := 0, credits := [], granted := [], freed := [], served := [], resends := 0, retrainFails := 0, bucket := 0, badLanes := [], paused := false, loadOnly := false }

/-- Memory controller state after reset. -/
def McSt.reset : McSt := { powerDown := [], selfRef := [], copyRank := none, copyPtr := 0, spares := [] }

/-- A subchannel after reset: not valid, with the reason 0x80 (12 R309, Table VLX-10). -/
def Subch.reset : Subch := { valid := false, def_ := 0, active := none, final := false, inter := false, scsw := 0, reason := 0x80 }

def JEnt.reset : JEnt := { img := 0, quar := false, outst := false, tries := 0, fin := none }

def Exch.reset : Exch :=
  { ev := 0, eng := 0, running := false, mirror := false, idx := 0, sch := 0, vp := 0, outNext := 0, inExp := 0, timer := false, aborting := none,
    owed := false, dstat := 0, scode := 0, resid := 0, ipl := false, cur := none, sent := false, got := 0, buf := [], rdAck := none, resume := false }

def VeCtx.reset : VeCtx :=
  { st := .free, e := [], bk := [], mh := 0, ml := 0, flags := 0, pc := 0, pid := 0, exid := 0, evt := 0, prods := [], cause := 0, desc := [] }

def VPort.reset : VPort :=
  { replay := [], waitq := [], txSeq := 0, rxSeq := 0, cred := [], returned := [], resends := 0, retrainFails := 0, badLanes := [], alt := false, fencing := 0, tie := false }

def AdEx.reset : AdEx := { exp := 0, executed := 0, partialCmd := false, statusSent := false, vp := 0, ended := false }

/-- A wall after reset: bricks 0 to 255 active, 256 to 271 spare (16). -/
def Wall.reset : Wall :=
  { retired := [], active := [], busy := [], stripes := [], cache := [], segs := [], turn := 0 }

/-- A key slot after cold reset (17 R379). -/
def KSlot.reset : KSlot := { v := false, pid := 0, modes := 0, enc := false, dec := false, key := 0 }

def PortBuf.reset : PortBuf := { used := 0, queue := [], granted := [] }

def FltInst.reset : FltInst := { count := 0, ovf := false, wcnt := 0, wstart := 0, open_ := false, escc := 0 }

def NoteCnt.reset : NoteCnt := { noted := 0, recur := 0, severe := 0, lastSrc := 0x1FF, lastUnit := 0, due := false, last := none }

def Mon.reset : Mon := { val := 0, peak := 0, seen := false, retired := false, bad := 0, dev := 0, hist := [], armed := false }

def Mirr.reset : Mirr := { jdef := none, jdefTries := 0, jdefDef := 0, jhnd := [], jrd := [] }

/-- The complex right after cold reset, before its start-up sequence has run: every register at its reset value, memory with nothing listed, no command waiting. The odometer flash holds the record of manufacture, SEQ 0 (21 R461). -/
def State.reset : State :=
  { pending := []
    part := .b48
    cores := []
    p2base := 0
    ctl := []
    mem := { bytes := [], poison := [], lines := [], tags := [], lfsr := [], range := [], dir := [], txns := [], stored := [], kept := [],
             invVec := [], invLast := 0, rrLast := 0, reqs := [], wbuf := [], late := [], wbUsed := 0, wbQ := [], tlbWaits := [], mc := [] }
    fab := { ports := [], down := [], tb := 0, rate := 0, frac := 0, firstExch := false, synced := false, missed := 0, master := none, discovered := false }
    chn := { sch := [], jrn := [], mir := [], jnext := 0, jfreed := [], fifos := [], exch := [], mirr := Mirr.reset, iram := [], ctx := [],
             parkOrder := [], veMoving := [], sram := [], handles := [], hnext := 0, pdsq := [], pdsStop := [], vports := [], adEx := [], adFenced := [], zctx := [], cctx := [],
             walls := [], keys := [], pbuf := [], frozen := false, iplTries := 0, iplHeld := false }
    svc := { tkey := [], krr := 63, kForced := false, entBad := false, ktime := 0, drbg := 0, holdOver := false, blk := [], avsHeld := [], domSel := [], gearTo := [], env := none, fw := none, stores := { cisPatch := [], nanoPatch := [], cisMatch := [], pdsPatch := [], pdsMatch := [] }, flashMr := 0,
             window := [], winStart := 0, locked := false, powered := true, porst := false, trip := false, aonGood := true, resetHold := false, inst := [],
             log := [], logSeq := 0, summ := none, pulse := false, notes := [], fnote := [], pendFlt := [], mcs := [], mons := [],
             odo := { cnt := [], slots := [(0, [(1, 0x10000)])], writing := none, tries := 0, pendReason := none, minutes := 0, hotSince := 0 },
             agedNoSpare := [], powHigh := 0, powLow := 0, powUnder := 0, trace := [], traceLost := [], msixPend := [], tapReg := 0, tapBoundary := 0, tapSample := 0,
             pcieUp := false, gpioLevel := 0, gpioPend := [], hiZ := false, ckptCount := [], selfSlot := [], sparePend := [], moving := none, reqOp := 0, reqTgt := 0 }
    out := []
    freeCtr := 0
    busData := 0 }

end Sys2Proof.Machine
end

