-- ==== Sys2Proof/Machine/VFrame.lean ====
section
/-! DEFINITION. The Velex frame as bits (14 Tables VPT-1 to VPT-4): header, payload and the CRC-32C over both. -/

namespace Sys2Proof.Machine

/-- The 16-byte header (Table VPT-1), big-endian. -/
def velexHdr (type vc lseq lack exid xseq len spec : Nat) : Nat :=
  type * 2 ^ 120 + vc * 2 ^ 118 + lseq * 2 ^ 104 + lack * 2 ^ 96 + exid % 2 ^ 24 * 2 ^ 72 + xseq % 2 ^ 16 * 2 ^ 56 + len * 2 ^ 40 + spec % 2 ^ 40

/-- The CRC of a frame: header and payload (R331; 03 R495). -/
def velexCrc (hdr : Nat) (payload : List Byte) : Nat := (crcIscsi (toBytes 16 hdr ++ payload)).toNat

/-- What the header and the payload of a frame hold besides its link fields. -/
structure VParts where
  exid : Nat
  xseq : Nat
  spec : Nat
  pay : List Byte
deriving DecidableEq, Repr

/-- The parts of a frame that a port sends, from its type and contents (Tables VPT-3, VPT-4). -/
def velexParts (code : Nat) (a : List Nat) : VParts :=
  let g := fun i => a.getD i 0
  match code with
  | 1 =>
    match g 0 with
    | 1 => { exid := g 1, xseq := g 2, spec := 2 ^ 36 + g 3 % 4 * 2 ^ 33 + g 4 % 2 ^ 16 * 2 ^ 16 + g 5 % 2 ^ 16, pay := toBytes 32 (g 6) }
    | 2 => { exid := g 1, xseq := g 2, spec := 2 * 2 ^ 36 + g 3 % 2 * 2 ^ 35 + g 5 % 4 * 2 ^ 33 + g 4 % 2 ^ 16 * 2 ^ 16, pay := [] }
    | k => { exid := g 1, xseq := g 2, spec := k * 2 ^ 36 + g 3 % 4 * 2 ^ 33, pay := [] }
  | 2 => { exid := g 0, xseq := g 1, spec := g 2 % 2 ^ 16 * 2 ^ 24 + g 3 % 2 * 2 ^ 23, pay := toBytes (g 4) (g 5) }
  | 4 => { exid := g 0, xseq := g 1, spec := g 2 % 2 ^ 16 * 2 ^ 24 + g 3 % 16 * 2 ^ 20, pay := [] }
  | 6 => { exid := 0, xseq := 0, spec := g 0 % 256 * 2 ^ 32 + g 1 % 256 * 2 ^ 24 + g 2 % 256 * 2 ^ 16 + g 3 % 256 * 2 ^ 8, pay := [] }
  | 8 => { exid := 0, xseq := 0, spec := g 0 % 2 ^ 32 * 2 ^ 8, pay := [] }
  | _ => { exid := 0, xseq := 0, spec := g 0 % 256 * 2 ^ 32, pay := [] }

/-- A frame as it leaves: its contents, then its header and its CRC. -/
def velexWire (vc code lseq lack : Nat) (args : List Nat) : List Nat :=
  let p := velexParts code args
  let h := velexHdr code vc lseq lack p.exid p.xseq p.pay.length p.spec
  args ++ [h, velexCrc h p.pay]

/-! Frames received -/

/-- The reserved bits of a type's header (Tables VPT-1, VPT-3): those that must be zero. -/
def velexRsv (code : Nat) : Nat :=
  let link := 255 * 2 ^ 104 + (2 ^ 24 - 1) * 2 ^ 72
  63 * 2 ^ 112 + (match code with
    | 1 => 2 ^ 32
    | 2 => 2 ^ 23 - 1
    | 3 => 15 * 2 ^ 25
    | 4 => 2 ^ 20 - 1
    | 6 | 8 => link + 255
    | _ => link + (2 ^ 32 - 1))

/-- The header bits of a type that no operand of its command gives: the reserved ones, and URG of a CMD. -/
def velexRest (code : Nat) : Nat := velexRsv code + (if code = 1 then 3 * 2 ^ 33 else 0)

end Sys2Proof.Machine

namespace Sys2Proof

open Machine

/-- The bits of a received header besides those that the operands give. -/
def LinkHdr.restHdr (h : LinkHdr) (code : Nat) : Nat := (h.rest.toNat / 2 ^ 64) &&& velexRest code

/-- The header of a received frame of a type: VC as its type has it, or urgent; the link frames have none. -/
def LinkHdr.hdr (h : LinkHdr) (code : Nat) (p : VParts) : Nat :=
  let vc := if 5 ≤ code then 0 else if h.urgent then 3 else if code = 1 then 0 else if code = 2 then 1 else 2
  (velexHdr code vc (if 5 ≤ code then 0 else h.lseq.toNat) h.lack.toNat p.exid p.xseq p.pay.length p.spec) ||| h.restHdr code

/-- The payload of a received STATUS frame: CMDIX, then six bytes that must be zero. -/
def LinkHdr.stsPay (h : LinkHdr) (cmdix : BitVec 16) : List Byte := toBytes 8 (cmdix.toNat * 2 ^ 48 + h.rest.toNat % 2 ^ 48)

/-- Is the CRC of a received frame good (R332). -/
def LinkHdr.crcOk (h : LinkHdr) (code : Nat) (p : VParts) : Bool := h.crc.toNat == velexCrc (h.hdr code p) p.pay

/-- Are its reserved fields zero (R332). -/
def LinkHdr.rsvOk (h : LinkHdr) (code : Nat) : Bool :=
  (h.rest.toNat / 2 ^ 64) &&& velexRsv code == 0 && (code != 3 || h.rest.toNat % 2 ^ 48 == 0)

end Sys2Proof
end

