-- ==== Sys2Proof/Machine/Ops.lean ====
section
/-! DEFINITION. Operations every family uses: bit fields, control registers, messages, the fault collector with its reactions, the fence of the complex, requests for sparing, confirmation of a checkpoint interval. -/

namespace Sys2Proof.Machine

/-! Bit fields -/

/-- Bits [hi:lo] of a number. -/
def bits (x hi lo : Nat) : Nat := x / 2 ^ lo % 2 ^ (hi + 1 - lo)

/-- A number with bits [hi:lo] replaced. -/
def putBits (x hi lo v : Nat) : Nat :=
  x / 2 ^ (hi + 1) * 2 ^ (hi + 1) + v % 2 ^ (hi + 1 - lo) * 2 ^ lo + x % 2 ^ lo

/-- Bits [hi:lo] of a bit vector, as a number. -/
def fieldOf {n : Nat} (w : BitVec n) (hi lo : Nat) : Nat := bits w.toNat hi lo

/-- A bit vector with bits [hi:lo] replaced. -/
def putField {n : Nat} (w : BitVec n) (hi lo v : Nat) : BitVec n := BitVec.ofNat n (putBits w.toNat hi lo v)

/-- A Boolean as 0 or 1. -/
def b2n (b : Bool) : Nat := if b then 1 else 0

/-- Add with saturation at 2^w - 1. -/
def satAdd (w x y : Nat) : Nat := min (x + y) (2 ^ w - 1)

/-! Control registers -/

/-- The register at an offset. -/
def State.reg (s : State) (off : Nat) : W64 :=
  match s.ctl.find off with
  | some v => v
  | none => ctlReset off

/-- Store a whole register. -/
def State.setReg (s : State) (off : Nat) (v : W64) : State := { s with ctl := s.ctl.put off v }

/-- The offset of a field's register. -/
def Fld.off (f : Fld) (i : Nat := 0) (j : Nat := 0) : Nat := f.base + i * f.s1 + j * f.s2

/-- A register field. -/
def State.fld (s : State) (f : Fld) (i : Nat := 0) (j : Nat := 0) : Nat := fieldOf (s.reg (f.off i j)) f.hi f.lo

/-- A one-bit register field. -/
def State.flag (s : State) (f : Fld) (i : Nat := 0) (j : Nat := 0) : Bool := s.fld f i j != 0

/-- Set a register field. -/
def State.setFld (s : State) (f : Fld) (v : Nat) (i : Nat := 0) (j : Nat := 0) : State :=
  s.setReg (f.off i j) (putField (s.reg (f.off i j)) f.hi f.lo v)

/-- Set a one-bit register field. -/
def State.setFlag (s : State) (f : Fld) (v : Bool) (i : Nat := 0) (j : Nat := 0) : State := s.setFld f (b2n v) i j

/-- Add to a counter field that saturates and then sets its overflow bit (21 Table LIF-7). -/
def State.count (s : State) (f : Fld) (ovf : Option Fld) (i : Nat := 0) (j : Nat := 0) (n : Nat := 1) : State :=
  let w := f.hi + 1 - f.lo
  let v := s.fld f i j + n
  let s' := s.setFld f (min v (2 ^ w - 1)) i j
  match ovf with
  | some o => if 2 ^ w ≤ v then s'.setFlag o true i j else s'
  | none => s'

/-- Record a refused write in the window's SVC_WSTAT (22 R469). -/
def State.cfgErr (s : State) (src : Src) (off : Nat) : State :=
  let a := off / 0x100000 * 0x100000 + 0xFFFF8
  let w := s.reg a
  if fieldOf w 63 63 = 1 then s.setReg a (putField w 62 62 1)
  else s.setReg a (putField (putField (putField w 63 63 1) 61 61 (match src with | .core => 0 | .host => 1)) 19 3 (off / 8))

/-! Messages, time, free values -/

/-- Send a message to another agent. -/
def State.send (s : State) (chan : Chan) (dst code : Nat) (args : List Nat := []) : State :=
  { s with out := s.out ++ [{ chan := chan, dst := dst, code := code, args := args }] }

/-- Raise the time base to a moment, never lower it (10 R262). -/
def State.reach (s : State) (t : Nat) : State :=
  if s.fab.tb.toNat < t then { s with fab := { s.fab with tb := BitVec.ofNat 64 t } } else s

/-- Take the next free value. -/
def State.free (s : State) : State × W64 := ({ s with freeCtr := s.freeCtr + 1 }, Config.freeValue s.freeCtr)

/-- This complex's ID. -/
def State.cxid (s : State) : Nat := s.fld F.FAB_ID_CFGCX

/-- The time-base units of one microsecond, R262. -/
def usec : Nat := 4096

/-! Logical cores -/

/-- Logical cores of the part (00 R1). -/
def State.nLc (s : State) : Nat := match s.part with | .b48 => 48 | .b32 => 32

/-- Does the logical core exist (00 R2). -/
def State.lcExists (s : State) (lc : Nat) : Bool := decide (lc < s.nLc)

def State.core (s : State) (lc : Nat) : Core := s.cores.get Core.reset lc

def State.setCore (s : State) (lc : Nat) (c : Core) : State := { s with cores := s.cores.put lc c }

def State.updCore (s : State) (lc : Nat) (f : Core → Core) : State := s.setCore lc (f (s.core lc))

/-- The physical core that carries a logical core (07 TAN_LCMAP.PC). -/
def State.pcOf (s : State) (lc : Nat) : Nat := (s.core lc).phys

/-- Is a logical core operating (20 R494). -/
def State.operating (s : State) (lc : Nat) : Bool := s.lcExists lc && decide ((s.core lc).run = .running)

/-- The lowest-numbered operating logical core (20 R494). -/
def State.lowestCore (s : State) : Option Nat := (List.range s.nLc).find? (fun n => s.operating n)

/-- The special register `n` of a core's architected state (02 Table COR-2, 05, 07, 08, 12). -/
def Arch.getSr (a : Arch) (n : Nat) : W64 := match a.sr.find n with | some v => v | none => srReset n

def Arch.setSr (a : Arch) (n : Nat) (v : W64) : Arch := { a with sr := a.sr.put n v }

def Core.setArch (c : Core) (a : Arch) : Core := { c with arch := a }

/-! Performance counters (02 R55 to R58) -/

/-- Does PMC `n` count event `ev` in the present state. -/
def Arch.pmcOn (a : Arch) (n ev : Nat) : Bool :=
  let ctl := a.getSr 0x10
  let sel := a.getSr (0x18 + n)
  fieldOf ctl 0 0 == 1 && fieldOf ctl 1 1 == 0 && fieldOf sel 15 0 == ev && decide (ev ≠ 0) &&
    fieldOf sel (16 + a.psw.state.toNat) (16 + a.psw.state.toNat) == 1 &&
    (fieldOf sel 19 19 == 0 || fieldOf sel 27 20 == a.psw.pid.toNat)

/-- Events marked "Uncore" (02 Table COR-7), which stop while KFRZ = 1 (R56). -/
def uncoreEvent (ev : Nat) : Bool := ev == 6 || ev == 7 || ev == 8 || ev == 0x11

/-- Add `k` to counter `n`; on the wrap set OVFn, and with OIE = 1 report that external 0x1301 is due. -/
def Arch.pmcBump (a : Arch) (n k : Nat) : Arch × Bool :=
  let v := (a.getSr (0x20 + n)).toNat + k
  let a' := a.setSr (0x20 + n) (BitVec.ofNat 64 v)
  if 2 ^ 64 ≤ v then (a'.setSr 0x10 (putField (a'.getSr 0x10) (8 + n) (8 + n) 1), fieldOf (a.getSr 0x10) 2 2 == 1)
  else (a', false)

/-- Add `k` occurrences of an event to counter `n`, if it counts them. -/
def Arch.pmcAdd (a : Arch) (n ev k : Nat) : Arch × Bool :=
  if a.pmcOn n ev && !(uncoreEvent ev && fieldOf (a.getSr 0x10) 16 16 == 1) then a.pmcBump n k else (a, false)

/-- Count an event in all eight counters. -/
def Arch.pmc (a : Arch) (ev k : Nat) : Arch × Bool :=
  (List.range 8).foldl (fun p n => let q := p.1.pmcAdd n ev k; (q.1, p.2 || q.2)) (a, false)

/-- Make an external interruption pending on a core (02 Table COR-6). -/
def Core.pendExternal (c : Core) (code : BitVec 16) : Core :=
  if c.pendExt.contains code then c else { c with pendExt := c.pendExt ++ [code] }

/-- Count an event of a logical core; both the running state and the checkpoint see it, for it belongs to no interval. -/
def Core.pmcNow (c : Core) (ev k : Nat) : Core :=
  if c.run ≠ .running then c else
    let p := c.arch.pmc ev k
    let q := c.ckpt.pmc ev k
    let c' := { c with arch := p.1, ckpt := q.1 }
    if p.2 then c'.pendExternal 0x1301 else c'

/-- Count an event in the running interval only: the count, with the interruption that its wrap asks for, is part of the interval. -/
def Core.pmcRun (c : Core) (ev k : Nat) : Core :=
  let p := c.arch.pmc ev k
  { c with arch := p.1, pmcInt := c.pmcInt || p.2 }

/-! Checkpoints (07 R167) -/

/-- The counters that count an instruction (event 0x0002) which ran in the architected state `b`: they get it at confirmation (02 R55, R57). -/
def Core.countIns (c : Core) (b : Arch) : Core :=
  { c with pmcDue := (List.range 8).foldl (fun d n => if b.pmcOn n 2 then d.upd 0 n (fun k => k + 1) else d) c.pmcDue }

/-- The architected state with the interval's instructions counted, and whether 0x1301 is due. -/
def Core.counted (c : Core) : Arch × Bool :=
  c.pmcDue.foldl (fun (p : Arch × Bool) q => let r := p.1.pmcBump q.1 q.2; (r.1, p.2 || r.2)) (c.arch, c.pmcInt)

/-- Has the interval anything that a checkpoint-bound operation must see confirmed first: an instruction, an entry, or a store (of the spill engine). -/
def Core.begun (c : Core) : Bool := c.retired + c.entries != 0 || c.stbuf.any (fun e => !e.conf)

/-- Confirm the running interval: instructions retired are counted, the checkpoint becomes the present state, held stores become eligible to drain, input-log entries are freed, waiting range operations are submitted (by the caller). -/
def Core.confirm (c : Core) : Core :=
  let p := c.counted
  let c' := { c with arch := p.1, ckpt := p.1, stbuf := c.stbuf.map (fun e => { e with conf := true }), inlog := [], replay := [],
                     retired := 0, entries := 0, pmcDue := [], pmcInt := false, bounded := false, trbuf := [] }
  if p.2 then c'.pendExternal 0x1301 else c'

/-- Throw the unconfirmed interval away and go back to the checkpoint (07 R174). Its input log waits to be replayed (R173); a transfer of the spill and fill engine is abandoned (R183), and the fault of one that failed in the interval with it. -/
def Core.discard (c : Core) : Core :=
  { c with arch := c.ckpt, stbuf := c.stbuf.filter (fun e => e.conf), retryLeft := max c.retryLeft (c.retired + c.entries), retired := 0, entries := 0,
           pmcDue := [], pmcInt := false, bounded := false, trbuf := [], replay := c.inlog ++ c.replay, inlog := [], xfer := none,
           pendSpill := c.pendSpill.filter (fun p => fieldOf (c.ckpt.wst.get wstReset p.1) 10 10 == 1),
           wait := if c.wait = .sync then .none else c.wait }

/-- Release the range operations that a core has reserved and not submitted, those for which `p` holds (08 R196). -/
def State.releaseRange (s : State) (lc : Nat) (p : RangeOp → Bool) : State :=
  { s with mem := { s.mem with range := s.mem.range.map (fun q => (q.1, q.2.filter (fun o => !(o.lc == lc && !o.submitted && p o)))) } }

/-- Discard a core's interval: the reservation of its CLEANR or CLINVR is released with it; that of an INVALR, which is in the input log, stays for its replay (07 R171, 08 R196). -/
def State.discardCore (s : State) (lc : Nat) : State := (s.updCore lc Core.discard).releaseRange lc (fun o => o.kind != .inval)

/-- An interruption whose entry was logged and will not be replayed is pending again. -/
def State.repend (s : State) (lc : Nat) (x : IntSrc) (q : IntReq) (words : W64) : State :=
  let pid := (s.core lc).ckpt.psw.pid.toNat
  match x with
  | .machine m => { s with svc := { s.svc with mcs := m :: s.svc.mcs } }
  | .poison b | .spill b => s.updCore lc (fun c => { c with pendSpill := (b, q) :: c.pendSpill.filter (fun p => p.1 != b) })
  | .program => s.updCore lc (fun c => { c with pendProg := some (q, words) })
  | .external code =>
    let aux := match q with
      | .external _ a => a
      | _ => 0
    if code = 0x1001 then s
    else if code = 0x1601 then
      if s.svc.pendFlt.has pid then s else { s with svc := { s.svc with pendFlt := s.svc.pendFlt.put pid (fieldOf aux 63 55, fieldOf aux 54 39) } }
    else if code = 0x1701 then { s with svc := { s.svc with gpioPend := s.svc.gpioPend.put pid (s.svc.gpioPend.get 0 pid ||| aux.setWidth 24) } }
    else s.updCore lc (fun c => c.pendExternal (BitVec.ofNat 16 code))
  | .io isc sch => { s with chn := { s.chn with fifos := s.chn.fifos.upd [] (pid * 8 + isc) (fun l => sch :: l) } }
  | .restart => s.updCore lc (fun c => { c with pendRestart := true })

/-- Give up log entries that will not be replayed (07 R173): their interruptions are pending again, the reservation of their INVALR is released. -/
def State.dropLog (s : State) (lc : Nat) : List LogEnt → State
  | [] => s
  | e :: r =>
    let s := State.dropLog s lc r
    let s := if e.kind = .cache then s.releaseRange lc (fun o => o.kind == .inval) else s
    match e.int with
    | some (x, q, w) => s.repend lc x q w
    | none => s

/-- Give up all that is left of a core's log. -/
def State.dropReplay (s : State) (lc : Nat) : State :=
  (s.updCore lc (fun c => { c with replay := [] })).dropLog lc (s.core lc).replay

/-! Sparing requests (07 R180, R185) -/

/-- Request the sparing of a logical core. A failing core is held at its checkpoint. A core in check stop keeps the request until its restart. -/
def State.requestSparing (s : State) (lc : Nat) (failing : Bool) : State :=
  let c := s.core lc
  if c.run = .lost || !s.lcExists lc then s
  else
    let c1 := { c with spareReq := true, spareFailing := c.spareFailing || failing }
    let s := s.setCore lc c1
    let s := if failing && c.run = .running && !c.broken then (s.discardCore lc).updCore lc (fun c => { c with run := .held }) else s
    s.setFld F.TAN_PCSTAT_ROLE 4 c.phys

/-! Fault sources (20 R430, Table FLT-1) -/

/-- A source number from its group and row. -/
def src (g i : Nat) : Nat := g * 16 + i

/-- Rows of each group's table. -/
def fltRows (g : Nat) : Nat := ([3, 8, 9, 7, 9, 14, 8, 11, 5, 13, 5, 8, 5, 7, 5, 12, 5].getD g 0)

/-- Is the source number assigned to a row (20 R430). -/
def fltUsed (n : Nat) : Bool := decide (n % 16 < fltRows (n / 16))

/-- Sources whose class at first event is severe (20 R434): the rows marked Severe in the source tables. -/
def fixSevere (n : Nat) : Bool :=
  [0x01, 0x11, 0x16, 0x24, 0x25, 0x26, 0x27, 0x28, 0x33, 0x41, 0x46, 0x47, 0x48, 0x58, 0x59, 0x5A, 0x5B, 0x5C, 0x5D, 0x65, 0x66, 0x67,
   0x78, 0x79, 0x7A, 0x84, 0x9B, 0x9C, 0xA4, 0xB6, 0xB7, 0xC2, 0xC3, 0xC4, 0xD5, 0xD6, 0xE3, 0xE4, 0xFA, 0xFB].contains n

/-- How many instances a source has (20 R431, Table FLT-3): one for each unit that its row names; a core for check stop (02 R48), an engine for RAM errors (13 R327), a way for directory errors (09 R211) (log 9). -/
def fltUnits (n : Nat) : Nat :=
  (([[1, 1, 1024], [1, 1, 56, 56, 56, 16, 16, 1], [1, 1, 1, 1, 1, 1, 1, 1, 56], [56, 544, 1, 1, 544, 544, 1],
     [17, 1, 17, 17, 1, 1, 1, 1, 1], [16, 16, 128, 1, 1, 16, 1, 1, 1, 1, 1, 1, 1, 1], [1280, 1, 1, 1280, 1, 1, 1, 1],
     [1, 1, 1, 1, 1, 1, 1, 1, 1, 1, 1], [68, 1, 68, 68, 1], [16, 16, 128, 1, 16, 1, 1, 1, 1, 1, 1, 1, 1], [22, 22, 22, 22, 16],
     [4352, 1, 4352, 16, 1, 1, 16, 16], [1, 1, 1, 1, 1], [1, 1, 1, 1, 1, 1, 1], [1, 1, 1, 1, 1], [1, 1, 1, 1, 8, 56, 88, 1, 1, 1, 1, 1],
     [1, 1, 1, 8, 1]].getD (n / 16) []).getD (n % 16) 0)

/-- Sources with a sparable instance, for which the reaction SPARE is a legal encoding (20 R437; log 9): physical cores, L3 and directory ways, DRAM devices, engines, bricks. -/
def sparable (n : Nat) : Bool :=
  [0x12, 0x13, 0x14, 0x28, 0x30, 0x31, 0x40, 0x60, 0x80, 0x82, 0xA0, 0xA1, 0xB0, 0xF5].contains n

/-- Sources whose UNIT is a physical core. -/
def coreSource (n : Nat) : Bool := [0x12, 0x13, 0x14, 0x28, 0x30, 0xF5].contains n

/-- Sources whose recurring threshold starts a sparing by their own chapter's rule (20 R437: R205, R211, R274, R327, R349, R371). -/
def recurSpares (n : Nat) : Bool := [0x31, 0x40, 0x60, 0x82, 0xA0, 0xB0].contains n

/-! ERR_N (20 R445) -/

/-- FLT_ERRPIN as it stands: HOLD is software's, PULSE the running pulse, HWHOLD a fence or SDROP, PIN the level; the pin is low while one of them holds it. -/
def State.errWord (s : State) : W64 :=
  let hold := s.flag F.FLT_ERRPIN_HOLD
  let hw := s.flag F.FLT_FENCE_CXF || s.flag F.FLT_LOGSTAT_SDROP
  BitVec.ofNat 64 (b2n hold * 2 ^ 63 + b2n s.svc.pulse * 2 ^ 62 + b2n hw * 2 ^ 61 + b2n (!(hold || s.svc.pulse || hw)) * 2 ^ 60)

/-- ERR_N follows its causes. -/
def State.errPin (s : State) : State := if s.reg F.FLT_ERRPIN_PIN.base = s.errWord then s else s.setReg F.FLT_ERRPIN_PIN.base s.errWord

/-- What every command ends with: the queue is as the step left it, and ERR_N follows its causes. -/
def settled (s : State) (o : Host.Outcome State Fault Refusal) : Host.Outcome State Fault Refusal :=
  match o with
  | .next t => .next ({ t with pending := s.pending } : State).errPin
  | .fault r => .fault r
  | .refused r => .refused r

/-- Start, or start again, the 20 us pulse. -/
def State.errPulse (s : State) : State := { s with svc := { s.svc with pulse := true } }

/-! The fence of the complex (20 R443, Table FLT-6; 10, 14 R343, 11 R281) -/

/-- Is a Felard port up (10 FAB_PSTAT.STATE). -/
def State.portUp (s : State) (p : Nat) : Bool := (s.fld F.FAB_PSTAT_STATE p == 2 || s.fld F.FAB_PSTAT_STATE p == 3)

def State.fport (s : State) (p : Nat) : FPort := s.fab.ports.get FPort.reset p
def State.setFport (s : State) (p : Nat) (x : FPort) : State := { s with fab := { s.fab with ports := s.fab.ports.put p x } }

/-- The CRED field of a control flit (10 Table FAB-6): by lane, the packets that this end has ever granted, modulo 16 (log 30). -/
def FPort.cred (x : FPort) : Nat := (List.range 45).foldl (fun c l => c + (Config.laneBuffers l + x.freed.get 0 l) % 16 * 2 ^ (236 - 4 * l)) 0

/-- A control flit: CTYPE, SEQ, CRED and CRC. -/
def FPort.flit (x : FPort) (ctype seq : Nat) : Nat :=
  let w := ctype * 2 ^ 248 + seq % 256 * 2 ^ 240 + x.cred
  w + (crcIscsi ((toBytes 32 w).take 28)).toNat

/-- Send a control flit. -/
def State.ctlFlit (s : State) (p ctype seq : Nat) : State := s.send (.felardCtl p) 0 ctype [(s.fport p).flit ctype seq]

/-- Is a Velex port up (14 VPT_STAT.STATE). -/
def State.vpUp (s : State) (v : Nat) : Bool := s.fld F.VPT_STAT_STATE v == 2 || s.fld F.VPT_STAT_STATE v == 3

/-- A Velex port's link state. -/
def State.vport (s : State) (v : Nat) : VPort := s.chn.vports.get VPort.reset v
def State.setVport (s : State) (v : Nat) (p : VPort) : State := { s with chn := { s.chn with vports := s.chn.vports.put v p } }

/-- Send a link frame: NAK, CREDIT, FENCE or ECHO (14 R332), with LACK as every frame carries it. -/
def State.sendLink (s : State) (v code : Nat) (args : List Nat) : State :=
  s.send (.velex v) 0 code (velexWire 0 code 0 ((s.vport v).rxSeq - 1).toNat args)

/-- Every Velex port that is up or trains is fenced: FENCE with the reason where a link carries it, and no training afterwards (14 R343). -/
def State.fencePorts (s : State) (reason : Byte) : State :=
  (List.range 16).foldl (fun s v =>
    let st := s.fld F.VPT_STAT_STATE v
    if st = 7 then s else
    let s := if s.vpUp v || st == 4 then s.sendLink v 7 [reason.toNat] else s
    (if st = 0 then s else s.setFld F.VPT_STAT_STATE 4 v).setVport v { s.vport v with fencing := reason }) s

/-- Fence the complex: CXF set, every core stops and abandons its unconfirmed interval, FENCE flits on the Felard ports that are up, GPIO to high impedance, ERR_N low, FENCE on every Velex port, all ranks in self-refresh. -/
def State.fence (s : State) (source unit : Nat) : State :=
  if s.flag F.FLT_FENCE_CXF then s else
  let s := ((s.setFlag F.FLT_FENCE_CXF true).setFld F.FLT_FENCE_SRC source).setFld F.FLT_FENCE_UNIT unit
  let s := (List.range s.nLc).foldl (fun s n =>
    let c := s.core n
    if c.run = .lost || c.run = .stopped then s else s.setCore n { c.discard with run := .fenced }) s
  let s := (List.range 16).foldl (fun s p => if s.portUp p then s.ctlFlit p 3 0 else s) s
  let s := { s with svc := { s.svc with hiZ := true } }
  let s := s.fencePorts 1
  (List.range 16).foldl (fun s m => s.setFld F.MEM_CHSTAT_PWR 3 m) s

/-! Machine checks held for the complex (20 R440, R494) -/

/-- Class and UNIT as the notice of class 0x04 carries them (Table FLT-5). -/
def mcNotice (source cls unit pid : Nat) (more : Bool) : W64 :=
  BitVec.ofNat 64 (0x04 * 2 ^ 56 + source * 2 ^ 47 + cls * 2 ^ 45 + unit * 2 ^ 29 + pid * 2 ^ 21 + b2n more * 2 ^ 20)

/-- Hold a machine check: one per named core for classes 0x01 and 0x02, one per PID for 0x05. -/
def State.holdMc (s : State) (cls key : Nat) (id : W64) : State :=
  if s.svc.mcs.any (fun m => m.cls == cls && m.key == key) then s
  else { s with svc := { s.svc with mcs := s.svc.mcs ++ [{ cls := cls, key := key, id := id }] } }

/-- A class 0x04 notice: it merges into a pending one and sets MORE; the identification is that of the notice of highest class, and of the latest among those (R440). -/
def State.imon (s : State) (source cls unit pid : Nat) : State :=
  match s.svc.mcs.find? (fun m => m.cls == 4) with
  | none => s.holdMc 4 0 (mcNotice source cls unit pid false)
  | some m =>
    let id := if fieldOf m.id 46 45 ≤ cls then mcNotice source cls unit pid true else putField m.id 20 20 1
    { s with svc := { s.svc with mcs := s.svc.mcs.map (fun m => if m.cls == 4 then { m with id := id } else m) } }

/-- Stop every core that runs the PID, in the check-stop state, at its boundary, and hold class 0x05 (R439). PID 0 does not fence: IMON. -/
def State.fpart (s : State) (source cls unit pid : Nat) : State :=
  if pid = 0 then s.imon source cls unit pid else
  let s := (List.range s.nLc).foldl (fun s n =>
    let c := s.core n
    if c.arch.psw.pid.toNat = pid && (c.run = .running || c.run = .halted || c.run = .held) then s.setCore n { c.confirm with run := .checkStop } else s) s
  s.holdMc 5 pid (BitVec.ofNat 64 (0x05 * 2 ^ 56 + pid * 2 ^ 48 + source * 2 ^ 39 + unit * 2 ^ 23))

/-! The fault collector (20 R432 to R449) -/

/-- The window T of a source in time-base units (20 FLT_SRC_CFG.TVAL, TU). -/
def State.fltT (s : State) (n : Nat) : Nat :=
  s.fld F.FLT_SRC_CFG_TVAL n * (if s.flag F.FLT_SRC_CFG_TU n then 1000000 * usec else 1000 * usec)

def fltKey (source unit : Nat) : Nat := source * 65536 + unit

/-- One event on the counting state of an instance: count (R432), window (R433), escalation (R434). Classes: 0 noted, 1 recurring, 2 severe. -/
def FltInst.event (x : FltInst) (severe : Bool) (n escn t now : Nat) : FltInst × Nat :=
  let v := x.count.toNat + 1
  let x := { x with count := BitVec.ofNat 32 (min v (2 ^ 32 - 1)), ovf := x.ovf || decide (2 ^ 32 ≤ v) }
  if severe then (x, 2) else
  let fresh := !x.open_ || decide (t ≤ now - x.wstart.toNat)
  let x := if fresh then { x with escc := if x.open_ then 0 else x.escc, wstart := BitVec.ofNat 64 now, wcnt := 1, open_ := true }
           else { x with wcnt := x.wcnt + 1 }
  if n ≤ x.wcnt then
    let e := x.escc + 1
    if escn ≠ 0 && decide (escn ≤ e) then ({ x with open_ := false, wcnt := 0, escc := 0 }, 2)
    else ({ x with open_ := false, wcnt := 0, escc := min e 15 }, 1)
  else (x, 0)

/-- Count and classify an event. -/
def State.fltClass (s : State) (source unit : Nat) : State × Nat :=
  let k := fltKey source unit
  let r := (s.svc.inst.get FltInst.reset k).event (fixSevere source) (s.fld F.FLT_SRC_CFG_N source) (s.fld F.FLT_SRC_CFG_ESCN source)
    (s.fltT source) s.fab.tb.toNat
  ({ s with svc := { s.svc with inst := s.svc.inst.put k r.1 } }, r.2)

/-- Write one log entry of four doublewords at WR (Table FLT-7). -/
def State.logPut (s : State) (d0 d1 d2 dropped : Nat) : State :=
  let wr := s.fld F.FLT_LOGRD_WR
  let seq := s.svc.logSeq + 1
  let e := BitVec.ofNat 256 (d0 % 2 ^ 64 * 2 ^ 192 + d1 % 2 ^ 64 * 2 ^ 128 + d2 % 2 ^ 64 * 2 ^ 64 + seq.toNat * 2 ^ 32 + dropped)
  let s := { s with svc := { s.svc with log := s.svc.log.put wr e, logSeq := seq } }
  (s.setFld F.FLT_LOGRD_WR ((wr + 1) % 4096)).setFld F.FLT_LOGSTAT_USED (s.fld F.FLT_LOGSTAT_USED + 1)

/-- Write the pending summary when fewer than 3,840 entries are unread (R447). -/
def State.logSummary (s : State) : State :=
  match s.svc.summ with
  | some m =>
    if s.fld F.FLT_LOGSTAT_USED < 3840 then
      { s.logPut m.first.toNat (3 * 2 ^ 62) m.last.toNat m.dropped with svc := { (s.logPut m.first.toNat (3 * 2 ^ 62) m.last.toNat m.dropped).svc with summ := none } }
    else s
  | none => s

/-- Log an event, after the summary that is ahead of it (R446, R447); say whether it was dropped. -/
def State.logEvent (s : State) (ev : FaultEv) (cls reacts : Nat) : State × Bool :=
  let s := s.logSummary
  let used := s.fld F.FLT_LOGSTAT_USED
  if used < (if cls = 2 then 4096 else 3840) then
    (s.logPut s.fab.tb.toNat (cls * 2 ^ 62 + ev.src * 2 ^ 53 + ev.unit * 2 ^ 37 + (ev.pid.getD 0) * 2 ^ 29 + b2n ev.pid.isSome * 2 ^ 28 + reacts * 2 ^ 21)
      ev.detail.toNat 0, false)
  else
    let m := s.svc.summ.getD { first := s.fab.tb, last := s.fab.tb, dropped := 0 }
    let s := { s with svc := { s.svc with summ := some { m with last := s.fab.tb, dropped := min (m.dropped + 1) (2 ^ 32 - 1) } } }
    (s.setFlag F.FLT_LOGSTAT_DROP true, true)

/-- Has `gap` time passed since the last notice. -/
def NoteCnt.ripe (x : NoteCnt) (gap now : Nat) : Bool := match x.last with | some t => decide (t.toNat + gap ≤ now) | none => true

/-- A notice goes out at `now`: the counts start again. -/
def NoteCnt.taken (now : W64) : NoteCnt := { NoteCnt.reset with last := some now }

/-- Add an event to the counts that the next notice of its group carries (R449, 22 R470). -/
def NoteCnt.add (x : NoteCnt) (cls : Nat) : NoteCnt :=
  match cls with
  | 0 => { x with noted := x.noted + 1 }
  | 1 => { x with recur := x.recur + 1 }
  | _ => { x with severe := x.severe + 1 }

/-- Feed the FNOTE of each destination that FAB_FNDEST names (R449). -/
def State.feedFnote (s : State) (cls source unit : Nat) : State :=
  (List.range 2).foldl (fun s d =>
    if s.flag (if d = 0 then F.FAB_FNDEST_EN0 else F.FAB_FNDEST_EN1) then
      let x := (s.svc.fnote.get NoteCnt.reset d).add cls
      let x := if cls = 2 then { x with lastSrc := source, lastUnit := unit } else x
      { s with svc := { s.svc with fnote := s.svc.fnote.put d { x with due := true } } }
    else s) s

/-- The instance's sparing (R436 bit 4): a physical core's logical core is requested to move; any other unit is noted for the sparing step of its chapter. -/
def State.spareReact (s : State) (source unit : Nat) : State :=
  if coreSource source then
    match (List.range s.nLc).find? (fun n => (s.core n).phys == unit) with
    | some lc => s.requestSparing lc false
    | none => s
  else { s with svc := { s.svc with sparePend := if s.svc.sparePend.contains (source, unit) then s.svc.sparePend else s.svc.sparePend ++ [(source, unit)] } }

/-- The reactions that apply to an event (R436). -/
def fltMask (mask : Nat) (ev : FaultEv) : Nat :=
  let m := if ev.pid.isNone then putBits (putBits mask 1 1 0) 5 5 0 else mask
  if sparable ev.src then m else putBits m 4 4 0

/-- Reactions 1 to 6, in increasing bit order. -/
def State.fltReact (s : State) (ev : FaultEv) (cls mask : Nat) : State :=
  let on := fun k => bits mask k k == 1
  let s := if on 1 then { s with svc := { s.svc with pendFlt := s.svc.pendFlt.put (ev.pid.getD 0) (ev.src, ev.unit) } } else s
  let s := if on 2 then s.imon ev.src cls ev.unit (ev.pid.getD 0) else s
  let s := if on 3 then { s with svc := { s.svc with notes := s.svc.notes.upd NoteCnt.reset (ev.src / 16) (fun x => { x with due := true }) } } else s
  let s := if on 3 || cls = 2 then s.feedFnote cls ev.src ev.unit else s
  let s := if on 4 then s.spareReact ev.src ev.unit else s
  let s := if cls = 1 && recurSpares ev.src then s.spareReact ev.src ev.unit else s
  let s := if on 5 then s.fpart ev.src cls ev.unit (ev.pid.getD 0) else s
  if on 6 then s.fence ev.src ev.unit else s

/-- What every event counts besides its instance: its group's notice counts and the odometer's EVENTS (21 Table LIF-6). -/
def State.fltTally (s : State) (source cls : Nat) : State :=
  { s with svc := { s.svc with
      notes := s.svc.notes.upd NoteCnt.reset (source / 16) (fun x => x.add cls)
      odo := { s.svc.odo with cnt := s.svc.odo.cnt.upd 0 (408 + source / 16) (fun n => satAdd 32 n 1) } } }

/-- The reaction mask of a class. -/
def State.fltCfgMask (s : State) (source cls : Nat) : Nat :=
  match cls with
  | 0 => s.fld F.FLT_SRC_CFG_RNO source
  | 1 => s.fld F.FLT_SRC_CFG_RR source
  | _ => s.fld F.FLT_SRC_CFG_RS source

/-- A fault event: counted, classified, its reactions performed, logged; a dropped entry counts at group 0 (R432 to R447). -/
def State.fault (s : State) (ev : FaultEv) : State :=
  let r := s.fltClass ev.src ev.unit
  let s := r.1.fltTally ev.src r.2
  let s := if r.2 = 2 then s.errPulse else s
  let mask := fltMask (s.fltCfgMask ev.src r.2) ev
  let l := if bits mask 0 0 = 1 then s.logEvent ev r.2 mask else (s, false)
  let s := l.1.fltReact ev r.2 mask
  if l.2 then
    let ev0 : FaultEv := { src := 0, unit := 0, pid := none, detail := 0 }
    let d := s.fltClass 0 0
    let s := d.1.fltTally 0 d.2
    let s := if d.2 = 2 then s.errPulse else s
    let s := s.fltReact ev0 d.2 (fltMask (s.fltCfgMask 0 d.2) ev0)
    if r.2 = 2 then
      let s := (s.setFlag F.FLT_LOGSTAT_SDROP true).count F.FLT_LOGSTAT_SDROPCNT (some F.FLT_LOGSTAT_SDOVF)
      let d := s.fltClass 1 0
      d.1.fltTally 1 2
    else s
  else s

/-- A fault event of a source by group and row; a source without units has the instance 0 (R431). -/
def State.flt (s : State) (g i : Nat) (unit : Nat := 0) (pid : Option Nat := none) (detail : W64 := 0) : State :=
  s.fault { src := g * 16 + i, unit := if fltUnits (g * 16 + i) = 1 then 0 else unit, pid := pid, detail := detail }

/-- A spare of an item of 21 Table LIF-8 is consumed: the odometer counts it (R457, R462). -/
def State.consume (s : State) (item : Nat) : State :=
  { s with svc := { s.svc with odo := { s.svc.odo with cnt := s.svc.odo.cnt.upd 0 (10000 + item) (fun n => satAdd 16 n 1) } } }

/-- Refuse a command that names a unit no OZ7200 has. -/
def chk (ok : Bool) (s : State) : Out := if ok then .next s else .fault .noSuchUnit

end Sys2Proof.Machine
end

