-- ==== Sys2Proof/Machine/Micro.lean ====
section
/-! DEFINITION. The control stores (06): what a micro-word, a nano-word and a PDS word hold, the sequencers' next address, match registers, dispatch, and the loader's check of patch contents. What a nano-word makes the datapath do is Kenade's own (R145) and a unit of operation runs as one command, so the sequencing stands beside the instructions' effects (log 67). -/

namespace Sys2Proof

open Machine

/-! CIS micro-words (Table MCS-2) and nano-words (R145) -/

def muNano (w : W32) : Nat := fieldOf w 31 19
def muNa (w : W32) : Nat := fieldOf w 18 5
def muCond (w : W32) : Nat := fieldOf w 4 2
/-- The ticks that a micro-word spends (R146). -/
def muTicks (w : W32) : Nat := fieldOf w 1 0 + 1

/-- An address of a sequencer's store: ROM, or patch RAM (R148, R153). -/
inductive UAddr where
  | rom (a : Nat)
  | patch (a : Nat)
deriving DecidableEq, Repr

/-- A word of patch RAM that no set has loaded reads as zero (DESIGN CHOICE, log 66). -/
def Stores.micro (st : Stores) : UAddr → W32
  | .rom a => Config.cisRom a
  | .patch a => st.cisPatch.getD a 0

/-- The nano-word at a nano-address: ROM below 0x1E00, patch RAM from there on (R145). -/
def Stores.nano (st : Stores) (a : Nat) : BitVec 160 := if a < 0x1E00 then Config.nanoRom a else st.nanoPatch.getD (a - 0x1E00) 0

/-- A nano-word of all zeros performs no datapath action (R145). -/
def nanoIdle (w : BitVec 160) : Bool := w == 0

/-- A fetch of the CIS: an enabled match of a ROM address fetches the patch word in its place; patch RAM is never matched (R151). -/
def Stores.cisFetch (st : Stores) : UAddr → UAddr
  | .rom a => match st.cisMatch.find? (fun m => m.en && m.rom.toNat == a) with
    | some m => .patch m.patch.toNat
    | none => .rom a
  | .patch a => .patch a

/-- What an address field of a word names: in a ROM word ROM addresses, in a patch word ROM below 0x3800 and patch words above (R148). -/
def cisName (cur : UAddr) (na : Nat) : UAddr :=
  match cur with
  | .rom _ => .rom na
  | .patch _ => if na < 0x3800 then .rom na else .patch (na - 0x3800)

/-- The next micro-address of a word in native mode (Table MCS-3), none at the end of the instruction or unit. `c`: the condition that COND selects. -/
def nativeNext (cur : UAddr) (w : W32) (c : Bool) : Option UAddr :=
  match muCond w with
  | 0 => some (cisName cur (muNa w))
  | 7 => none
  | _ => some (cisName cur (muNa w / 2 * 2 + b2n c))

/-- The word after another, wrapping at the end of its store (R150). -/
def UAddr.succ : UAddr → UAddr
  | .rom a => .rom ((a + 1) % 16384)
  | .patch a => .patch ((a + 1) % 2048)

/-- A target in the current page: the 4,096-word block of ROM, or the whole patch RAM (R150). -/
def UAddr.target (t : Nat) : UAddr → UAddr
  | .rom a => .rom (a / 4096 * 4096 + t % 4096)
  | .patch _ => .patch (t % 2048)

/-- The next micro-address of a word in incrementer mode (Table MCS-4). COND 0 is always true. -/
def incrNext (cur : UAddr) (w : W32) (c : Bool) : Option UAddr :=
  let t := muNa w % 4096
  match muNa w / 4096 with
  | 0 => some cur.succ
  | 1 => some (if c || muCond w == 0 then cur.target t else cur.succ)
  | 2 => some (cur.target t)
  | _ => none

/-! Dispatch (R149, Table MCS-8) -/

/-- Is a complex instruction sequenced in incrementer mode (Table MCS-8)? none: no opcode of majors 0x38 to 0x3D that the CIS knows. -/
def cisMode (major minor : Nat) : Option Bool :=
  match major with
  | 0x38 => if minor = 1 || minor = 2 then some false else none
  | 0x39 => if minor = 1 then some true else if minor = 2 || minor = 3 then some false else none
  | 0x3A => if minor = 1 || minor = 2 || minor = 5 then some true else if minor = 3 || minor = 4 then some false else none
  | 0x3B | 0x3C => some true
  | 0x3D => if 1 ≤ minor && minor ≤ 3 then some false else none
  | _ => none

/-- Is a complex instruction a long one (Table MCS-8). -/
def cisLong (major : Nat) : Bool := major == 0x38 || major == 0x39 || major == 0x3D

/-- Where a CIS stands: its address before redirection, its mode (incrementer: true), the ticks spent. -/
structure CisSt where
  at_ : UAddr
  incr : Bool
  ticks : Nat
deriving DecidableEq, Repr

/-- The dispatch of an instruction: its start address, and the mode of its table entry unless a match register redirects the start address (R149). An undefined opcode never reaches the CIS. -/
def Stores.dispatch (st : Stores) (major minor : Nat) : Option CisSt :=
  (cisMode major minor).map (fun m =>
    let a := Config.cisStart major minor % 16384
    match st.cisMatch.find? (fun r => r.en && r.rom.toNat == a) with
    | some r => { at_ := .rom a, incr := r.mode, ticks := 0 }
    | none => { at_ := .rom a, incr := m, ticks := 0 })

/-- One micro-word: fetched, its ticks spent, the next address taken; none at the end of the instruction or unit. -/
def Stores.cisStep (st : Stores) (x : CisSt) (c : Bool) : CisSt × Bool :=
  let a := st.cisFetch x.at_
  let w := st.micro a
  match (if x.incr then incrNext a w c else nativeNext a w c) with
  | some n => ({ x with at_ := n, ticks := x.ticks + muTicks w }, false)
  | none => ({ x with ticks := x.ticks + muTicks w }, true)

/-- A routine as long as conditions are given for it: where the CIS stands, and whether the routine has ended. -/
def Stores.cisRun (st : Stores) : CisSt → List Bool → CisSt × Bool
  | x, [] => (x, false)
  | x, c :: r => let p := st.cisStep x c; if p.2 then p else Stores.cisRun st p.1 r

/-! PDS words (Tables MCS-5, MCS-6) -/

def pdsNa (w : BitVec 144) : Nat := fieldOf w 143 131
def pdsCond (w : BitVec 144) : Nat := fieldOf w 130 127
def pdsMrd (w : BitVec 144) : Nat := fieldOf w 126 110
def pdsMwr (w : BitVec 144) : Nat := fieldOf w 109 93
def pdsZfd (w : BitVec 144) : Nat := fieldOf w 92 81
def pdsCfd (w : BitVec 144) : Nat := fieldOf w 80 69
def pdsCrc (w : BitVec 144) : Nat := fieldOf w 68 61
def pdsFrm (w : BitVec 144) : Nat := fieldOf w 60 37
def pdsJrn (w : BitVec 144) : Nat := fieldOf w 36 22
def pdsCrd (w : BitVec 144) : Nat := fieldOf w 21 10

/-- What NA names: ROM at 0x0000 to 0x0FFF, patch words at 0x1000 to 0x11FF; the rest is reserved (R153). -/
def pdsName (na : Nat) : Option UAddr := if na < 0x1000 then some (.rom na) else if na < 0x1200 then some (.patch (na - 0x1000)) else none

/-- The shared PDS ROM, or the patch RAM of a sequencer; every one holds the same (R143, R155). -/
def Stores.pds (st : Stores) : UAddr → BitVec 144
  | .rom a => Config.pdsRom a
  | .patch a => st.pdsPatch.getD a 0

/-- A fetch of a PDS (R151). -/
def Stores.pdsFetch (st : Stores) : UAddr → UAddr
  | .rom a => match st.pdsMatch.find? (fun m => m.en && m.rom.toNat == a) with
    | some m => .patch m.patch.toNat
    | none => .rom a
  | .patch a => .patch a

/-- The next address of a PDS word (Table MCS-6); none: a reserved value, which the loader admits in no patch. -/
def pdsNext (w : BitVec 144) (c : Bool) : Option UAddr :=
  match pdsCond w with
  | 0 => pdsName (pdsNa w)
  | k => if 12 ≤ k then none else pdsName (pdsNa w / 2 * 2 + b2n c)

/-! The loader's check (R155) -/

/-- Does a micro-word of patch RAM keep the reserved fields of native mode zero (R147). -/
def nativeOk (w : W32) : Bool :=
  match muCond w with
  | 0 => true
  | 7 => muNa w == 0
  | _ => muNa w % 2 == 0

/-- Those of incrementer mode, in patch RAM (R150). -/
def incrOk (w : W32) : Bool :=
  let t := muNa w % 4096
  match muNa w / 4096 with
  | 0 => t == 0 && muCond w != 7
  | 1 => decide (t < 2048) && muCond w != 7
  | 2 => decide (t < 2048) && muCond w == 0
  | _ => t == 0 && muCond w == 0

/-- A patch word carries no mode: it is refused when it is reserved in both (DESIGN CHOICE, log 66). -/
def microOk (w : W32) : Bool := nativeOk w || incrOk w

/-- Does a nano-word keep its reserved bits zero; which they are is not listed (R145; log 66). -/
def nanoOk (w : BitVec 160) : Bool := w &&& Config.nanoReserved == 0

/-- Does a PDS word keep its reserved fields zero and use no reserved value (R153). -/
def pdsOk (w : BitVec 144) : Bool :=
  fieldOf w 9 0 == 0 && decide (pdsCond w < 12) && (pdsName (pdsNa w)).isSome && (pdsCond w == 0 || pdsNa w % 2 == 0)

/-- Match registers: not too many, every address inside its store, no two enabled ones of one ROM address. -/
def matchOk (l : List MatchReg) (n rom patch : Nat) : Bool :=
  decide (l.length ≤ n) && l.all (fun m => decide (m.rom.toNat < rom) && decide (m.patch.toNat < patch)) &&
    decide (((l.filter (fun m => m.en)).map (fun m => m.rom)).Nodup)

/-- Is the CIS patch of a set good. -/
def Stores.cisOk (st : Stores) : Bool :=
  decide (st.cisPatch.length ≤ 2048) && decide (st.nanoPatch.length ≤ 512) && st.cisPatch.all microOk && st.nanoPatch.all nanoOk && matchOk st.cisMatch 64 16384 2048

/-- Is the PDS patch of a set good. -/
def Stores.pdsSetOk (st : Stores) : Bool :=
  decide (st.pdsPatch.length ≤ 512) && st.pdsPatch.all pdsOk && matchOk st.pdsMatch 32 4096 512

/-- How many match registers are enabled (R157). -/
def enabledMr (l : List MatchReg) : Nat := (l.filter (fun m => m.en)).length

end Sys2Proof
end

