-- ==== Sys2Proof/Machine/Aes.lean ====
section
/-! DEFINITION. The cipher modes that 16 R359 names: AES (FIPS 197), GCM (SP 800-38D) and XTS (IEEE 1619), and the key wrapping of RFC 3394 (17 R382). -/

namespace Sys2Proof.Machine

/-! AES -/

/-- Multiply by x in the field of AES. -/
def aesX (b : Byte) : Byte := (b <<< 1) ^^^ (if b.getLsbD 7 then 0x1B else 0)

/-- Product in the field of AES. -/
def aesMul (a b : Byte) : Byte :=
  ((List.range 8).foldl (fun (p : Byte × Byte) i => (if b.getLsbD i then p.1 ^^^ p.2 else p.1, aesX p.2)) (0, a)).1

/-- Inverse in the field of AES, 0 for 0: the 254th power. -/
def aesInv (b : Byte) : Byte :=
  ((List.range 7).foldl (fun (p : Byte × Byte) _ => let q := aesMul p.2 p.2; (aesMul p.1 q, q)) ((1 : Byte), b)).1

def aesSub (b : Byte) : Byte :=
  let i := aesInv b
  i ^^^ i.rotateLeft 1 ^^^ i.rotateLeft 2 ^^^ i.rotateLeft 3 ^^^ i.rotateLeft 4 ^^^ 0x63

def aesUnsub (b : Byte) : Byte := aesInv (b.rotateLeft 1 ^^^ b.rotateLeft 3 ^^^ b.rotateLeft 6 ^^^ 0x05)

/-- The bytes of a number, the first the most significant. -/
def bytesOf (n : Nat) (v : Nat) : List Byte := (List.range n).map (fun i => BitVec.ofNat 8 (v / 256 ^ (n - 1 - i)))
def ofBytes (l : List Byte) : Nat := l.foldl (fun a b => a * 256 + b.toNat) 0

/-- The bytes of a 16-byte state, in the order of the input. -/
def stBytes (b : W128) : List Byte := bytesOf 16 b.toNat
def bytesSt (l : List Byte) : W128 := BitVec.ofNat 128 (ofBytes l)

/-- Words of the key schedule, the latest first: `nk` words of key, `n` words still to make. -/
def aesExpand (nk : Nat) : Nat → Nat → Byte → List W32 → List W32
  | 0, _, _, l => l
  | n + 1, i, rc, l =>
    let prev := l.headD 0
    let sub := fun (w : W32) => BitVec.ofNat 32 (ofBytes ((bytesOf 4 w.toNat).map aesSub))
    let t := if i % nk = 0 then sub (prev.rotateLeft 8) ^^^ BitVec.ofNat 32 (rc.toNat * 2 ^ 24) else if nk = 8 && i % 8 == 4 then sub prev else prev
    aesExpand nk n (i + 1) (if i % nk = 0 then aesX rc else rc) ((l.getD (nk - 1) 0 ^^^ t) :: l)

/-- The round keys, first round first, of a key of `kl` bytes (16 or 32) in the low bits. -/
def aesKeys (kl : Nat) (key : Nat) : List W128 :=
  let nk := kl / 4
  let rounds := nk + 6
  let w := (aesExpand nk (4 * (rounds + 1) - nk) nk 1 ((List.range nk).map (fun i => BitVec.ofNat 32 (key / 2 ^ (32 * i))))).reverse
  (List.range (rounds + 1)).map (fun r => BitVec.ofNat 128 ((List.range 4).foldl (fun a i => a * 2 ^ 32 + (w.getD (4 * r + i) 0).toNat) 0))

/-- Permute the rows of the state: the byte at row r, column c comes from column c + d * r. -/
def aesRows (d : Nat) (b : W128) : W128 :=
  let l := stBytes b
  bytesSt ((List.range 16).map (fun k => l.getD (k % 4 + 4 * ((k / 4 + d * (k % 4)) % 4)) 0))

/-- Multiply every column by the circulant matrix of a first row. -/
def aesCols (m : List Byte) (b : W128) : W128 :=
  let l := stBytes b
  bytesSt ((List.range 16).map (fun k => (List.range 4).foldl (fun s j => s ^^^ aesMul (m.getD ((j + 4 - k % 4) % 4) 0) (l.getD (k / 4 * 4 + j) 0)) 0))

/-- The forward cipher of one block. -/
def aesEnc (kl key : Nat) (b : W128) : W128 :=
  let ks := aesKeys kl key
  let n := kl / 4 + 6
  let sub := fun (b : W128) => bytesSt ((stBytes b).map aesSub)
  let b := (List.range (n - 1)).foldl (fun b r => aesCols [2, 3, 1, 1] (aesRows 1 (sub b)) ^^^ ks.getD (r + 1) 0) (b ^^^ ks.headD 0)
  aesRows 1 (sub b) ^^^ ks.getD n 0

/-- The inverse cipher of one block. -/
def aesDec (kl key : Nat) (b : W128) : W128 :=
  let ks := aesKeys kl key
  let n := kl / 4 + 6
  let unsub := fun (b : W128) => bytesSt ((stBytes b).map aesUnsub)
  let b := (List.range (n - 1)).foldl (fun b r => aesCols [14, 11, 13, 9] (unsub (aesRows 3 b) ^^^ ks.getD (n - 1 - r) 0)) (b ^^^ ks.getD n 0)
  unsub (aesRows 3 b) ^^^ ks.headD 0

/-! GCM -/

/-- Product in the field of GHASH. -/
def ghMul (x y : W128) : W128 :=
  ((List.range 128).foldl (fun (p : W128 × W128) i =>
    (if x.getLsbD (127 - i) then p.1 ^^^ p.2 else p.1,
     (p.2 >>> 1) ^^^ (if p.2.getLsbD 0 then 0xE1000000000000000000000000000000 else 0))) ((0 : W128), y)).1

/-- Blocks of 16 bytes, the last padded with zeros. -/
def blocks16 : Nat → List Byte → List W128
  | 0, _ => []
  | n + 1, l => bytesSt ((l.take 16) ++ List.replicate (16 - (l.take 16).length) 0) :: blocks16 n (l.drop 16)

def blocksOf (l : List Byte) : List W128 := blocks16 ((l.length + 15) / 16) l

/-- GHASH over additional data and ciphertext. -/
def ghash (h : W128) (aad ct : List Byte) : W128 :=
  (blocksOf aad ++ blocksOf ct ++ [BitVec.ofNat 128 (aad.length * 8 * 2 ^ 64 + ct.length * 8)]).foldl (fun y b => ghMul (y ^^^ b) h) 0

/-- The k-th increment of J0 = IV followed by 1, in its low 32 bits. -/
def gcmCtr (iv : BitVec 96) (k : Nat) : W128 := BitVec.ofNat 128 (iv.toNat * 2 ^ 32 + (1 + k) % 2 ^ 32)

/-- XOR of two byte lists. -/
def xorBytes (a b : List Byte) : List Byte := List.zipWith (· ^^^ ·) a b

/-- Encrypt or decrypt in counter mode. -/
def gcmCrypt (kl key : Nat) (iv : BitVec 96) (l : List Byte) : List Byte :=
  xorBytes l ((List.range ((l.length + 15) / 16)).flatMap (fun k => stBytes (aesEnc kl key (gcmCtr iv (k + 1)))))

/-- The tag of a ciphertext. -/
def gcmTag (kl key : Nat) (iv : BitVec 96) (aad ct : List Byte) : List Byte :=
  stBytes (ghash (aesEnc kl key 0) aad ct ^^^ aesEnc kl key (gcmCtr iv 0))

/-! XTS -/

/-- Multiply a tweak by alpha: the 16 bytes are little-endian. -/
def xtsAlpha (t : W128) : W128 :=
  let v := ofBytes (stBytes t).reverse
  let d := v * 2 % 2 ^ 128
  bytesSt (bytesOf 16 (if 2 ^ 127 ≤ v then Nat.xor d 0x87 else d)).reverse

/-- Blocks of one data unit under running tweaks. -/
def xtsBlocks (f : W128 → W128) : List W128 → W128 → List W128
  | [], _ => []
  | b :: r, t => (f (b ^^^ t) ^^^ t) :: xtsBlocks f r (xtsAlpha t)

/-- One data unit; the tweak is 16 bytes in cipher order. -/
def xtsUnit (dec : Bool) (kl k1 k2 : Nat) (tweak : W128) (l : List Byte) : List Byte :=
  (xtsBlocks (if dec then aesDec kl k1 else aesEnc kl k1) (blocksOf l) (aesEnc kl k2 tweak)).flatMap stBytes

/-- Add to a tweak, taken as a little-endian number (IEEE 1619). -/
def tweakAdd (t : W128) (n : Nat) : W128 := bytesSt (bytesOf 16 ((ofBytes (stBytes t).reverse + n) % 2 ^ 128)).reverse

/-- A run of data units of `du` bytes. -/
def xtsCrypt (dec : Bool) (kl k1 k2 du : Nat) : Nat → W128 → List Byte → List Byte
  | 0, _, _ => []
  | n + 1, t, l => if l.isEmpty then [] else xtsUnit dec kl k1 k2 t (l.take du) ++ xtsCrypt dec kl k1 k2 du n (tweakAdd t 1) (l.drop du)

/-! The 512 key bits of a slot, the first key byte in the most significant bits (16 R364) -/

/-- Bytes of one key in a mode: AES-128 for CMODE 1 and 3. -/
def modeKl (mode : Nat) : Nat := if mode = 1 || mode = 3 then 16 else 32

/-- The first key, and the second of an XTS mode. -/
def keyOne (mode : Nat) (k : BitVec 512) : Nat := k.toNat / 2 ^ (512 - 8 * modeKl mode)
def keyTwo (mode : Nat) (k : BitVec 512) : Nat := k.toNat / 2 ^ (512 - 16 * modeKl mode) % 2 ^ (8 * modeKl mode)

/-! RFC 3394 -/

def kwIv : W64 := 0xA6A6A6A6A6A6A6A6

/-- One step of wrapping: A and R[i] under counter t. -/
def kwStep (key : Nat) (a r : W64) (t : Nat) : W64 × W64 :=
  let b := aesEnc 32 key (a ++ r)
  (b.extractLsb' 64 64 ^^^ BitVec.ofNat 64 t, b.extractLsb' 0 64)

def kwUnstep (key : Nat) (a r : W64) (t : Nat) : W64 × W64 :=
  let b := aesDec 32 key ((a ^^^ BitVec.ofNat 64 t) ++ r)
  (b.extractLsb' 64 64, b.extractLsb' 0 64)

/-- Wrap n doublewords. -/
def kwWrap (key : Nat) (p : List W64) : List W64 :=
  let n := p.length
  let q := (List.range (6 * n)).foldl (fun (x : W64 × List W64) k =>
    let i := k % n
    let y := kwStep key x.1 (x.2.getD i 0) (k + 1)
    (y.1, x.2.set i y.2)) (kwIv, p)
  q.1 :: q.2

/-- Unwrap; none when the integrity check fails. -/
def kwUnwrap (key : Nat) (c : List W64) : Option (List W64) :=
  let n := c.length - 1
  let q := (List.range (6 * n)).foldl (fun (x : W64 × List W64) j =>
    let k := 6 * n - 1 - j
    let i := k % n
    let y := kwUnstep key x.1 (x.2.getD i 0) (k + 1)
    (y.1, x.2.set i y.2)) (c.headD 0, c.drop 1)
  if q.1 = kwIv then some q.2 else none

end Sys2Proof.Machine
end

