-- ==== Sys2Proof/Machine/Home.lean ====
section
/-! DEFINITION. Storage: homes and regions (05), DRAM lines (11), the lines this complex holds and its L3 (08), the home agent and the requester (09). -/

namespace Sys2Proof.Machine

/-! Bytes of a line, big-endian (00 R6) -/

/-- Bytes as one number, the first in the most significant place. -/
def packBytes (l : List Byte) : Nat := l.foldl (fun a b => a * 256 + b.toNat) 0

/-- Byte `i` of a line. -/
def lineByte (d : Line) (i : Nat) : Byte := BitVec.ofNat 8 (d.toNat / 2 ^ (8 * (255 - i)))

/-- A line with byte `i` replaced. -/
def setLineByte (d : Line) (i : Nat) (b : Byte) : Line := putField d (8 * (255 - i) + 7) (8 * (255 - i)) b.toNat

/-- A line made of 256 bytes. -/
def mkLine (f : Nat → Byte) : Line := BitVec.ofNat 2048 (packBytes ((List.range 256).map f))

/-- A byte of DRAM. A byte that nothing has written reads as 0 (11 R280 leaves memory undefined after cold reset; DESIGN CHOICE, log 3). -/
def Mem.byte (m : Mem) (a : Nat) : Byte := m.bytes.get 0 a

/-- The DRAM contents of a line. -/
def Mem.line (m : Mem) (l : Nat) : Line := mkLine (fun i => m.byte (l * 256 + i))

/-- Write some bytes of DRAM, in rising order. -/
def Mem.putBytes (m : Mem) (a : Nat) : List Byte → Mem
  | [] => m
  | b :: r => Mem.putBytes { m with bytes := m.bytes.set 0 a b } (a + 1) r

/-- Write a whole line to DRAM; its poison is cleared, or set with its reason (11 R273). -/
def Mem.putLine (m : Mem) (l : Nat) (d : Line) (poison : Nat) : Mem :=
  let m := m.putBytes (l * 256) ((List.range 256).map (lineByte d))
  { m with poison := if poison = 0 then m.poison.del l else m.poison.put l poison }

def State.updMem (s : State) (f : Mem → Mem) : State := { s with mem := f s.mem }

/-! Homes (05 R132) -/

/-- The interleave range that covers an absolute address: the first enabled one. -/
def State.ilvRange (s : State) (a : Nat) : Option Nat :=
  (List.range 64).find? (fun n =>
    s.flag F.STO_ILV_BASE_EN n && decide (s.fld F.STO_ILV_BASE_BASE n ≤ bits a 55 30) && decide (bits a 55 30 ≤ s.fld F.STO_ILV_CTL_LIMIT n))

/-- The valid bit and complex of a target-table entry (05 R132: four entries to a doubleword, the lowest-numbered in bits [63:48]). -/
def State.tgtEntry (s : State) (k : Nat) : Option Nat :=
  let w := s.reg (F.STO_ILV_TGT_V0.base + k / 4 * 8)
  let lo := 48 - 16 * (k % 4)
  if fieldOf w (lo + 15) (lo + 15) = 1 then some (fieldOf w (lo + 9) lo) else none

/-- The home complex of an absolute address. -/
def State.homeOf (s : State) (a : Nat) : Option Nat :=
  match s.ilvRange a with
  | none => none
  | some n =>
    let shift := if s.flag F.STO_ILV_CTL_GRAN n then 30 else 12
    s.tgtEntry (s.fld F.STO_ILV_CTL_TGT n + a / 2 ^ shift % 2 ^ s.fld F.STO_ILV_CTL_WAYS n)

/-- The granules of range `n` at its target index `k`, of 2^shift bytes: the first one's distance from BASE, and how many there are (05 R132, 11 R268): those congruent to `k`, one in each 2^WAYS granules from BASE on. -/
def State.ilvShare (s : State) (n k : Nat) : Nat × Nat :=
  let shift := if s.flag F.STO_ILV_CTL_GRAN n then 30 else 12
  let w := 2 ^ s.fld F.STO_ILV_CTL_WAYS n
  let total := (s.fld F.STO_ILV_CTL_LIMIT n + 1 - s.fld F.STO_ILV_BASE_BASE n) * 2 ^ (30 - shift)
  let first := (k + w - s.fld F.STO_ILV_BASE_BASE n * 2 ^ (30 - shift) % w) % w
  (first, if total ≤ first then 0 else (total - first - 1) / w + 1)

/-- The local DRAM offset of an address homed here (11 R268). -/
def State.localOff (s : State) (a : Nat) : Nat :=
  match s.ilvRange a with
  | none => a
  | some n =>
    let shift := if s.flag F.STO_ILV_CTL_GRAN n then 30 else 12
    s.fld F.MEM_LOC_LOCBASE n * 4096 + (a - s.fld F.STO_ILV_BASE_BASE n * 2 ^ 30) / 2 ^ (shift + s.fld F.STO_ILV_CTL_WAYS n) * 2 ^ shift + a % 2 ^ shift

/-- The controller of a local offset (11 Table MEM-2). -/
def State.mcOf (s : State) (a : Nat) : Nat :=
  let o := s.localOff a
  if s.flag F.MEM_POP_CH8 then 2 * (bits o 10 8 ^^^ bits o 18 16 ^^^ bits o 26 24)
  else bits o 11 8 ^^^ bits o 19 16 ^^^ bits o 27 24

/-! Ranks and their power states (11 R279, Table MEM-5) -/

def State.mc (s : State) (m : Nat) : McSt := s.mem.mc.get McSt.reset m
def State.setMc (s : State) (m : Nat) (x : McSt) : State := s.updMem (fun k => { k with mc := k.mc.put m x })

/-- The ranks of a channel, 2 x DIMM + rank within it (MEM_POP). -/
def State.ranks (s : State) : List Nat :=
  [0, 1, 2, 3].filter (fun r => decide (r / 2 < max 1 (s.fld F.MEM_POP_DPC)) && decide (r % 2 < max 1 (s.fld F.MEM_POP_RPD)))

/-- The rank that holds line `q` of a channel: the controller's mapping, within the population. -/
def State.rankOf (s : State) (q : Nat) : Nat :=
  let r := (Config.rankOf q).val
  2 * (r / 2 % max 1 (s.fld F.MEM_POP_DPC)) + r % 2 % max 1 (s.fld F.MEM_POP_RPD)

/-- The line within its channel of an address homed here (Table MEM-2). -/
def State.chanLine (s : State) (a : Nat) : Nat := s.localOff a / (if s.flag F.MEM_POP_CH8 then 2 ^ 11 else 2 ^ 12)

/-- PWR: the deepest state of any rank; a fenced controller stays so. -/
def State.pwr (s : State) (m : Nat) : State :=
  if s.fld F.MEM_CHSTAT_PWR m = 3 then s else
  let x := s.mc m
  let p := if !x.selfRef.isEmpty then 2 else if !x.powerDown.isEmpty then 1 else 0
  if s.fld F.MEM_CHSTAT_PWR m = p then s else s.setFld F.MEM_CHSTAT_PWR p m

/-- An access of a channel's line: its rank becomes active (R279). -/
def State.rankAccess (s : State) (m q : Nat) : State :=
  let x := s.mc m
  if x.powerDown.isEmpty && x.selfRef.isEmpty then s else
  let r := s.rankOf q
  (s.setMc m { x with powerDown := x.powerDown.filter (fun k => k != r), selfRef := x.selfRef.filter (fun k => k != r) }).pwr m

/-- A DRAM access of a line homed here. -/
def State.dram (s : State) (line : Nat) : State := s.rankAccess (s.mcOf (line * 256)) (s.chanLine (line * 256))

/-! Region check (05 R136 to R138) -/

/-- What an access needs of a region register. -/
inductive Need where
  | rd | wr | fx | at | cr | cw
deriving DecidableEq, Repr

/-- Region `n` of controller `m` covers the address, is in use, and admits the PID (and the source, for KO). -/
def State.rgnHit (s : State) (m n a pid : Nat) (keystone : Bool) : Bool :=
  s.flag F.MEM_RGN_CTL_EN m n && decide (s.fld F.MEM_RGN_BASE_BASE m n ≤ bits a 55 12) && decide (bits a 55 12 ≤ s.fld F.MEM_RGN_LIM_LIMIT m n) &&
    s.fld F.MEM_RGN_CTL_PID m n == pid && (!s.flag F.MEM_RGN_CTL_KO m n || keystone)

/-- Does region `n` of controller `m` give the right. -/
def State.rgnRight (s : State) (m n : Nat) : Need → Bool
  | .rd => s.flag F.MEM_RGN_CTL_RD m n
  | .wr => s.flag F.MEM_RGN_CTL_WR m n
  | .fx => s.flag F.MEM_RGN_CTL_FX m n
  | .at => s.flag F.MEM_RGN_CTL_RD m n && s.flag F.MEM_RGN_CTL_WR m n
  | .cr => s.flag F.MEM_RGN_CTL_CR m n
  | .cw => s.flag F.MEM_RGN_CTL_CW m n

/-- Does the address's controller admit the access (R136). -/
def State.admits (s : State) (a pid : Nat) (need : Need) (keystone : Bool := false) : Bool :=
  let m := s.mcOf a
  (List.range 64).any (fun n => s.rgnHit m n a pid keystone && s.rgnRight m n need)

/-- The core rights RD, WR, FX that the regions grant a PID for a line (R139), RD in bit 2. -/
def State.rightsOf (s : State) (line pid : Nat) : BitVec 3 :=
  BitVec.ofNat 3 (4 * b2n (s.admits (line * 256) pid .rd) + 2 * b2n (s.admits (line * 256) pid .wr) + b2n (s.admits (line * 256) pid .fx))

/-- The ACC code of a need (05 Table STO-6). -/
def Need.acc : Need → Nat
  | .fx => 0
  | .rd | .cr => 1
  | .wr | .cw => 2
  | .at => 3

/-- A refused access: captured by the controller, noted fault logged (R138). -/
def State.rgnFail (s : State) (a pid stype cx : Nat) (need : Need) : State :=
  let m := s.mcOf a
  let s := if s.flag F.MEM_RGN_ERR0_VAL m then s.setFlag F.MEM_RGN_ERR0_MORE true m else
    let s := s.setReg (F.MEM_RGN_ERR0_VAL.off m) (BitVec.ofNat 64 (2 ^ 63 + (fieldOf (s.reg (F.MEM_RGN_ERR0_VAL.off m)) 62 62) * 2 ^ 62 + stype * 2 ^ 58 + need.acc * 2 ^ 56 + a % 2 ^ 56))
    s.setReg (F.MEM_RGN_ERR1_PID.off m) (BitVec.ofNat 64 (pid * 2 ^ 56 + cx * 2 ^ 46))
  s.flt 6 4 m (some pid) (BitVec.ofNat 64 a)

/-! Cache arrays (08) -/

/-- The slice of an absolute address (R188). -/
def sliceOf (a : Nat) : Nat :=
  bits a 12 8 ^^^ bits a 28 24 ^^^ bits a 33 29 ^^^ bits a 38 34 ^^^ bits a 43 39 ^^^ bits a 48 44 ^^^ bits a 53 49 ^^^ bits a 55 54

/-- Place of a way in the table of tags: array number (R190), set, way. -/
def tagKey (array set way : Nat) : Nat := (array * 2048 + set) * 16 + way

/-- The LFSR of an array, 0xACE1 xor the array number at cold reset (R190). The directory, the requester and a wall's key cache have no number there: what theirs hold at reset is open (log 6). -/
def Mem.lfsrOf (m : Mem) (array : Nat) : BitVec 16 :=
  match m.lfsr.find array with
  | some v => v
  | none => if array < 0x120 then 0xACE1 ^^^ BitVec.ofNat 16 array else Config.lfsrSeed array

/-- One step of the LFSR (R190). -/
def lfsrStep (l : BitVec 16) : BitVec 16 :=
  let r := l >>> 1
  if l.getLsbD 0 then r ^^^ 0xB400 else r

/-- The victim among the candidate ways (R190). -/
def Mem.victim (m : Mem) (array set : Nat) (cands : List Nat) : Option (Nat × Mem) :=
  match cands.find? (fun w => !m.tags.has (tagKey array set w)) with
  | some w => some (w, m)
  | none =>
    if cands.isEmpty then none else
      let l := lfsrStep (m.lfsrOf array)
      some (cands.getD (l.toNat * cands.length / 65536) 0, { m with lfsr := m.lfsr.put array l })

/-- The way that holds a line in an array's set. -/
def Mem.wayOf (m : Mem) (array set line : Nat) (ways : Nat) : Option Nat :=
  (List.range ways).find? (fun w => match m.tags.find (tagKey array set w) with | some t => t.line == line | none => false)

/-- Set index of a line in an array (Table CAC-1): L1 arrays a[13:8], L2 a[17:8], L3 a[23:13]. -/
def setOf (array line : Nat) : Nat :=
  if array < 0x100 then (if array % 4 = 2 then line % 1024 else line % 64) else line / 32 % 2048

/-- Ways of an array. -/
def waysOf (array : Nat) : Nat := if array < 0x100 && array % 4 ≠ 2 then 8 else 16

/-- Drop a line from every L1 and L2 array (back-invalidation through the presence bits, R191). -/
def Mem.backInval (m : Mem) (line : Nat) : Mem :=
  { m with tags := m.tags.filter (fun p => !(p.2.line == line && decide (p.1 / 32768 < 0x100))) }

/-- Drop a line from every array. -/
def Mem.dropTags (m : Mem) (line : Nat) : Mem := { m with tags := m.tags.filter (fun p => p.2.line != line) }

/-- Install a line in an L1 or L2 array of a core; an L2 victim leaves its L1 arrays too (R191). -/
def State.fillPrivate (s : State) (array line pid : Nat) : State :=
  let set := setOf array line
  if (s.mem.wayOf array set line (waysOf array)).isSome then s else
  match s.mem.victim array set (List.range (waysOf array)) with
  | none => s
  | some (w, m) =>
    let k := tagKey array set w
    let m := match m.tags.find k with
      | some v => if array % 4 = 2 then { m with tags := m.tags.filter (fun p => !(p.2.line == v.line && decide (p.1 / 32768 / 4 = array / 4) && decide (p.1 / 32768 < 0x100))) } else m
      | none => m
    { s with mem := { m with tags := m.tags.put k { line := line, pid := BitVec.ofNat 8 pid } } }

/-- Is a way of a slice retired (R205), or its power group off or in transition (R203). -/
def State.wayRetired (s : State) (sl w : Nat) : Bool := bits (s.fld F.CAC_SLC_RETIRED sl) w w == 1
def State.wayOff (s : State) (sl w : Nat) : Bool :=
  decide (8 ≤ w) && (bits (s.reg 0x600000).toNat (2 * sl + (w - 8) / 4) (2 * sl + (w - 8) / 4) == 1 ||
    bits (s.reg 0x600008).toNat (2 * sl + (w - 8) / 4) (2 * sl + (w - 8) / 4) == 1)

/-- The ways that enabled, ready lock entries hold in a slice: entry, way (R201). -/
def State.locks (s : State) (sl : Nat) : List (Nat × Nat) :=
  (List.range 4).filterMap (fun n =>
    if s.flag F.CAC_LOCKCTL_EN n && s.flag F.CAC_LOCKCTL_READY n && bits (s.fld F.CAC_LOCKCTL_SLICES n) sl sl == 1
    then some (n, s.fld F.CAC_LOCKCTL_WAY n) else none)

/-- Does a lock entry cover the line for the PID. -/
def State.lockCovers (s : State) (n line pid : Nat) : Bool :=
  s.fld F.CAC_LOCKCTL_PID n == pid && decide (s.fld F.CAC_LOCKBASE_PAGE n ≤ line / 16) && decide (line / 16 ≤ s.fld F.CAC_LOCKLIM_PAGE n)

/-- Is a way of a slice locked. -/
def State.wayLocked (s : State) (sl w : Nat) : Bool := (s.locks sl).any (fun p => p.2 == w)

/-- The physical way that carries a logical way of a slice (R205). -/
def State.physWay (s : State) (sl w : Nat) : Nat := if s.flag F.CAC_SLC_SPUSED sl && s.fld F.CAC_SLC_SPWAY sl == w then 16 else w

/-- Is a way's sparing due: fills no longer allocate in it (R205, Table CAC-3 step 1). -/
def State.wayFailing (s : State) (sl w : Nat) : Bool := s.svc.sparePend.contains (0x31, 17 * sl + s.physWay sl w)

/-- The candidate ways of an L3 fill (R191; R205 for a lost lock and a failing way). A fill with no candidate keeps its line without a place in the L3 (DESIGN CHOICE, log 56: the spec does not say). -/
def State.l3Cands (s : State) (sl line pid : Nat) : List Nat :=
  let lk := ((s.locks sl).filter (fun p => s.lockCovers p.1 line pid)).map (·.2)
  let ok := (List.range 16).filter (fun w => !s.wayRetired sl w && !s.wayFailing sl w)
  let a := ok.filter (fun w => lk.contains w)
  if a.isEmpty then ok.filter (fun w => !s.wayOff sl w && !s.wayLocked sl w) else a

/-- Count an invalidation that hit a locked line (R194). -/
def State.lockHit (s : State) (line : Nat) : State × Bool :=
  let sl := sliceOf (line * 256)
  match s.mem.wayOf (0x100 + sl) (setOf 0x100 line) line 16 with
  | some w => if s.wayLocked sl w then (s.count F.CAC_SLC_LKHIT (some F.CAC_SLC_LKOVF) sl, true) else (s, false)
  | none => (s, false)

/-! Messages of the coherence protocol -/

/-- Does a line travel in TC0 (R213): the lock-line ranges of the requesting complex decide. -/
def State.lockLine (s : State) (line : Nat) : Bool :=
  (List.range 8).any (fun n => s.flag F.COH_LKBASE_EN n && decide (s.fld F.COH_LKBASE_BASE n ≤ line) && decide (line ≤ s.fld F.COH_LKLIM_LIMIT n))

/-- The traffic class of a coherence message outside TC0 (R213): REQ and SNP in TC1, RSP and DAT in TC2. -/
def cohClass (code : Nat) : Nat := if code < 0x10 || (0x20 ≤ code && code < 0x30) then 1 else 2

/-- Send a coherence message (Table COH-4), in the class of the request that caused it (R213). -/
def State.coh (s : State) (dst code line : Nat) (lock : Bool) (args : List Nat := []) : State :=
  s.send .coh dst code (line :: (if lock then 0 else cohClass code) :: args)

/-- The fields of a data response. -/
def rspArgs (d : DataRsp) : List Nat := [b2n d.poison, d.rights.toNat, d.data.toNat]

/-- Has the complex a line. -/
def State.held (s : State) (line : Nat) : Option CLine := s.mem.lines.find line

/-- Is the line dirty in this state. -/
def Moesi.dirty : Moesi → Bool
  | .m | .o => true
  | _ => false

def Moesi.writable : Moesi → Bool
  | .m | .e => true
  | _ => false

/-- The right that a writeback needs: that of the agent that wrote the line last (05 R134, R140; DESIGN CHOICE, log 55). -/
def wbNeed (stype : Nat) : Need := if stype < 2 then .wr else .cw

/-- Write data home; what the regions do not admit is dropped and logged (05 R138, R140). -/
def State.wbStore (s : State) (src line pid stype : Nat) (data : Line) (poison : Bool) : State :=
  if s.admits (line * 256) pid (wbNeed stype) (stype == 6) then (s.dram line).updMem (fun m => m.putLine line data (if poison then 2 else 0))
  else s.rgnFail (line * 256) pid stype src (wbNeed stype)

/-- Write back a dirty line: to DRAM when its home is here, else as a WB that stays in the writeback buffer until WBACK (Table COH-2). `keep`: the line lay in a locked way, so its data goes to memory even under INVAL (08 R194; log 57). -/
def State.writeback (s : State) (line : Nat) (c : CLine) (poison : Bool := false) (keep : Bool := false) (lock : Bool := false) : State :=
  match s.homeOf (line * 256) with
  | none => s
  | some h =>
    if h = s.cxid then s.wbStore h line c.pid.toNat c.stype.toNat c.data poison
    else (s.updMem (fun m => { m with wbuf := m.wbuf.put line { data := c.data, poison := poison, pid := c.pid, stype := c.stype, fromM := c.st == .m } })).coh h 0x10 line
        (lock || s.lockLine line) [c.pid.toNat, c.stype.toNat, b2n keep, b2n poison, c.data.toNat]

/-- Take a line out of the complex; dirty data is written back unless it is to be discarded. -/
def State.dropLine (s : State) (line : Nat) (discard : Bool := false) (keep : Bool := false) (lock : Bool := false) : State :=
  match s.held line with
  | none => s
  | some c =>
    let s := if c.st.dirty && !discard then s.writeback line c false keep lock else s
    s.updMem (fun m => ({ m with lines := m.lines.del line }).dropTags line)

/-- A line with an uncorrectable error in dirty data is written home poisoned (R204). -/
def State.poisonLine (s : State) (line : Nat) : State :=
  match s.held line with
  | none => s
  | some c => (s.writeback line c true).updMem (fun m => ({ m with lines := m.lines.del line }).dropTags line)

/-- Install a line in the complex: a way of its L3 slice is found by R190 and R191, its victim leaves. -/
def State.install (s : State) (line : Nat) (c : CLine) : State :=
  let sl := sliceOf (line * 256)
  let arr := 0x100 + sl
  let set := setOf arr line
  match s.mem.wayOf arr set line 16 with
  | some w => s.updMem (fun m => { m with lines := m.lines.put line c, tags := m.tags.put (tagKey arr set w) { line := line, pid := c.pid } })
  | none =>
    match s.mem.victim arr set (s.l3Cands sl line c.pid.toNat) with
    | none => s.updMem (fun m => { m with lines := m.lines.put line c })
    | some (w, m') =>
      let s := { s with mem := m' }
      let s := match s.mem.tags.find (tagKey arr set w) with
        | some v => s.dropLine v.line
        | none => s
      s.updMem (fun m => { m with lines := m.lines.put line c, tags := m.tags.put (tagKey arr set w) { line := line, pid := c.pid } })

/-- The value of a line at this home: the home copy's, else DRAM's. -/
def State.homeData (s : State) (line : Nat) : Line :=
  match s.held line with
  | some c => c.data
  | none => s.mem.line line

def State.linePoison (s : State) (line : Nat) : Bool := s.mem.poison.has line && (s.held line).isNone

/-! The directory (R207 to R210) -/

def DirEnt.hasSharer (e : DirEnt) (cx : Nat) : Bool :=
  if e.coarse then e.gvec.getLsbD (cx / 16) else e.ptrs.contains cx

/-- Add a sharer; a fifth converts the entry to coarse format (R209). -/
def DirEnt.addSharer (e : DirEnt) (cx : Nat) : DirEnt :=
  if e.coarse then { e with gvec := e.gvec ||| (1 <<< (cx / 16)) }
  else if e.ptrs.contains cx then e
  else if e.ptrs.length < 4 then { e with ptrs := e.ptrs ++ [cx] }
  else { e with coarse := true, ptrs := [], gvec := (cx :: e.ptrs).foldl (fun g c => g ||| (1 <<< (c / 16))) e.gvec }

/-- Complexes present in the system (10 FAB_PRESENT). -/
def State.present (s : State) (cx : Nat) : Bool :=
  decide (cx < 1024) && fieldOf (s.reg (F.FAB_PRESENT_PRES.base + cx / 64 * 8)) (cx % 64) (cx % 64) == 1

/-- The complexes that an INV goes to: every recorded sharer, in coarse format every existing complex of a marked group, without the requester, the home and the owner (R209). -/
def State.sharers (s : State) (e : DirEnt) (requester : Nat) : List Nat :=
  let all := if e.coarse then (List.range 1024).filter (fun c => e.gvec.getLsbD (c / 16) && s.present c) else e.ptrs
  all.filter (fun c => c != requester && c != s.cxid && !(e.st != .s && c == e.owner))

def DirEnt.x (cx : Nat) : DirEnt := { st := .x, busy := false, owner := cx, coarse := false, ptrs := [], gvec := 0 }

/-- The physical way that carries a logical way of the directory (R211). -/
def State.dirPhys (s : State) (w : Nat) : Nat := if s.flag F.COH_DIRSTAT_SPUSED && s.fld F.COH_DIRSTAT_SPWAY == w then 16 else w

/-- The directory ways that take new entries: neither retired nor failing while their sparing is due (R210, R211; 08 Table CAC-3). -/
def State.dirWays (s : State) : List Nat :=
  (List.range 16).filter (fun w => bits (s.fld F.COH_DIRSTAT_RETIRED) w w == 0 && !s.svc.sparePend.contains (0x40, s.dirPhys w))

/-- The entries of a line's directory set (R208: 524,288 sets; which address bits index them is open, log 6). -/
def State.dirSetOf (s : State) (line : Nat) : List (Nat × DirEnt) := s.mem.dir.filter (fun p => decide (Config.dirSet p.1 = Config.dirSet line))

/-- A free way of a line's set: the lowest-numbered (R210; DESIGN CHOICE, log 6). -/
def State.freeWay (s : State) (line : Nat) : Option Nat :=
  let used := (s.dirSetOf line).map (fun p => p.2.way)
  s.dirWays.find? (fun w => !used.contains w)

/-- Record a directory entry, in its way or a free one, or free it when it names nobody. -/
def State.setDir (s : State) (line : Nat) (e : Option DirEnt) : State :=
  match e with
  | some e =>
    if e.st = .s && !e.coarse && e.ptrs.isEmpty then s.updMem (fun m => { m with dir := m.dir.del line })
    else
      let w := match s.mem.dir.find line with
        | some o => o.way
        | none => (s.freeWay line).getD 0
      s.updMem (fun m => { m with dir := m.dir.put line { e with way := w, busy := m.txns.has line } })
  | none => s.updMem (fun m => { m with dir := m.dir.del line })

/-- The entry without its owner: X becomes none, O becomes S. -/
def DirEnt.noOwner (e : DirEnt) : Option DirEnt :=
  match e.st with
  | .x => none
  | _ => some { e with st := .s }

/-- Remove the recorded owner. -/
def State.dropOwner (s : State) (line : Nat) : State :=
  match s.mem.dir.find line with
  | some e => s.setDir line e.noOwner
  | none => s

def Txn.new (r : Option Req) (lock : Bool) : Txn :=
  { req := r, acks := [], owner := none, fwd := none, dataWait := false, answer := none, sent := false, unblk := false, wbSeen := false,
    victimFor := none, remote := false, held := false, lock := lock }

def State.setTxn (s : State) (line : Nat) (t : Option Txn) : State :=
  match t with
  | some t => s.updMem (fun m => { m with txns := m.txns.put line t, dir := match m.dir.find line with | some e => m.dir.put line { e with busy := true } | none => m.dir })
  | none => s.updMem (fun m => { m with txns := m.txns.del line, dir := match m.dir.find line with | some e => m.dir.put line { e with busy := false } | none => m.dir })

/-- Entries of the reservation table in use, with the kept ones (R225, R226), reported in COH_RESV. -/
def State.resvCur (s : State) : Nat := s.mem.stored.length + s.mem.kept.length

def State.resvStat (s : State) : State :=
  let n := s.resvCur
  let s := (s.setFld F.COH_RESV_CUR n).setFlag F.COH_RESV_INVP (!s.mem.invVec.isEmpty)
  if s.fld F.COH_RESV_MAX < n then s.setFld F.COH_RESV_MAX n else s

/-- Refuse a request for the moment (R224, Table COH-9). A request of this complex meets the refusal by waiting. -/
def State.nackReq (s : State) (r : Req) (reason : NackReason) : State :=
  if r.hdr.src = s.cxid then s else
  let s := s.count F.COH_NACKCNT_NACKS (some F.COH_NACKCNT_NOVF)
  let s := if reason = .setfull then s.count F.COH_NACKCNT_SETFULL (some F.COH_NACKCNT_FOVF) else s
  s.coh r.hdr.src 0x3B r.hdr.line r.hdr.lock [match reason with | .busy => 1 | .setfull => 2 | .reserved => 3 | .resfull => 4]

/-! Answers -/

/-- Deliver a snapshot, an atomic's result or a completion to an agent of this complex. -/
def State.deliver (s : State) (r : Req) (t : Transient) : State :=
  s.updMem (fun m => { m with reqs := m.reqs.put (r.hdr.line + 2 ^ 48 * (r.hdr.tag + 1)) { req := r, st := t, sends := 1, backoff := false, stopped := false, born := s.fab.tb, due := 0 } })

/-- The result of an atomic: what storage becomes, and CC (03 Table INS-10). -/
def atomFn (op : Nat) (old op1 op2 : W128) : W128 × BitVec 2 :=
  let o : W64 := old.setWidth 64
  let b : W64 := op2.setWidth 64
  let lift := fun (w : W64) => (w.setWidth 128 : W128)
  match op with
  | 1 => (lift (o + b), 0)
  | 2 => (lift b, 0)
  | 3 => if o = op1.setWidth 64 then (lift b, 0) else (lift o, 1)
  | 4 => if old = op1 then (op2, 0) else (old, 1)
  | 5 => (lift (if o.toInt ≤ b.toInt then o else b), 0)
  | 6 => (lift (if o.toInt ≤ b.toInt then b else o), 0)
  | 7 => (lift (if o.toNat ≤ b.toNat then o else b), 0)
  | 8 => (lift (if o.toNat ≤ b.toNat then b else o), 0)
  | 9 => (lift (o &&& b), 0)
  | 10 => (lift (o ||| b), 0)
  | _ => (lift (o ^^^ b), 0)

/-- `n` bytes of a line from byte `off`, as a number. -/
def lineNat (d : Line) (off n : Nat) : Nat := packBytes ((List.range n).map (fun i => lineByte d (off + i)))

/-- A line with `n` bytes from `off` replaced by a number, big-endian. -/
def setLineNat (d : Line) (off n v : Nat) : Line :=
  (List.range n).foldl (fun d i => setLineByte d (off + i) (BitVec.ofNat 8 (v / 256 ^ (n - 1 - i)))) d

/-- Answer an atomic (R219, R220): executed at the home L3 when FAR = 0 and the line lies there or in other complexes only (`remote`), else at the memory controller; the result goes to the issuing core. -/
def State.doAtom (s : State) (r : Req) (remote : Bool) : State :=
  let line := r.hdr.line
  let size := if r.op = 4 then 16 else 8
  let off := r.first % 256
  let reply := fun (s : State) (old : W128) (cc : BitVec 2) (poison : Bool) (rights : BitVec 3) =>
    if r.hdr.src = s.cxid then
      s.updCore r.hdr.tag (fun c => { c with wait := if poison then .atomFail line (if rights = 0 then 0 else s.mem.poison.get 1 line) else .atomGot line old cc })
    else s.coh r.hdr.src 0x39 line r.hdr.lock [r.hdr.tag, old.toNat, cc.toNat, b2n poison, rights.toNat]
  if s.linePoison line then reply s 0 0 true (s.rightsOf line r.hdr.pid) else
  let d := s.homeData line
  let old : W128 := BitVec.ofNat 128 (lineNat d off size)
  let res := atomFn r.op old r.op1 r.op2
  let d' := setLineNat d off size res.1.toNat
  let s :=
    if !r.far && ((s.held line).isSome || remote) then
      match s.held line with
      | some c => s.updMem (fun m => ({ m with lines := m.lines.put line { c with st := .m, data := d', stype := 0 } }).backInval line)
      | none => s.install line { st := .m, pid := BitVec.ofNat 8 r.hdr.pid, rights := s.rightsOf line r.hdr.pid, data := d' }
    else
      let s := s.dropLine line
      s.updMem (fun m => m.putLine line d' 0)
  reply s old res.2 false (s.rightsOf line r.hdr.pid)

/-- Can a logical core of this complex take a placed copy (R218): it exists and is neither moving, lost, powered down nor in check stop. -/
def State.coreTakes (s : State) (u : Nat) : Bool :=
  s.lcExists u && ((s.core u).run == .running || (s.core u).run == .halted || (s.core u).run == .stopped) && !(s.core u).spareReq

/-- Is the place that a hint names able to take a copy (R218, Table COH-6). Of another complex the home knows that it is present; the target itself judges its core (log 58). -/
def State.placeOk (s : State) (place : BitVec 18) : Bool :=
  let kind := fieldOf place 17 16
  let cx := fieldOf place 15 6
  let u := fieldOf place 5 0
  if kind = 1 then (if cx = s.cxid then s.coreTakes u else s.present cx && decide (u < 48))
  else if kind = 2 then decide (u < 32) && (cx == s.cxid || s.present cx)
  else false

/-- Install a placed copy in M, in the L2 of a core too where the hint names one (R218). -/
def State.placeLine (s : State) (line pid stype : Nat) (place : BitVec 18) (rights : BitVec 3) (d : Line) : State :=
  let s := s.install line { st := .m, pid := BitVec.ofNat 8 pid, rights := rights, data := d, stype := BitVec.ofNat 4 stype }
  if fieldOf place 17 16 = 1 then s.fillPrivate (4 * s.pcOf (fieldOf place 5 0) + 2) line pid else s

/-- Finish a WRPL whose line has been recalled (R218): merge, place, CMP. -/
def State.doWrpl (s : State) (r : Req) : State :=
  let line := r.hdr.line
  let bytes := (List.range (r.last + 1 - r.first)).map (fun i => lineByte r.data (r.first + i))
  let full := r.first = 0 && r.last = 255
  let s := s.dropLine line
  let s := s.updMem (fun m => m.putBytes (line * 256 + r.first) bytes)
  let s := if full then s.updMem (fun m => { m with poison := m.poison.del line }) else s
  let poisoned := s.linePoison line
  let rights := s.rightsOf line r.hdr.pid
  let s :=
    if !poisoned && s.placeOk r.place then
      let cx := fieldOf r.place 15 6
      if cx = s.cxid then s.placeLine line r.hdr.pid r.hdr.stype r.place rights (s.mem.line line)
      else (s.setDir line (some (DirEnt.x cx))).coh cx 0x32 line r.hdr.lock
        (rspArgs { data := s.mem.line line, poison := false, rights := rights : DataRsp } ++ [r.hdr.pid, r.hdr.stype, r.place.toNat])
    else s.count F.COH_DIRSTAT_PLMISS (some F.COH_DIRSTAT_POVF)
  if r.hdr.src = s.cxid then s.deliver r .cmp else s.coh r.hdr.src 0x3A line r.hdr.lock

/-- Does an INVAL discard the modifications of a copy (08 R193): issued with PID 0, or with the PID that the copy carries. -/
def Req.discards (r : Req) (pid : Nat) : Bool := r.kind == .cmo .inval && (r.hdr.pid == 0 || r.hdr.pid == pid)

/-- Act on the home's own copy for a maintenance operation (08 R193, R194). -/
def State.cmoHome (s : State) (r : Req) (k : CmoKind) : State :=
  let line := r.hdr.line
  match s.held line with
  | none => s
  | some c =>
    match k with
    | .clean =>
      if c.st.dirty then (s.writeback line c).updMem (fun m => { m with lines := m.lines.put line { c with st := if c.st == .m then .e else .s } })
      else s
    | _ =>
      let h := s.lockHit line
      h.1.dropLine line (!h.2 && r.discards c.pid.toNat)

/-- Complete a maintenance operation toward its issuer. -/
def State.cmoDone (s : State) (r : Req) : State :=
  if r.hdr.src = s.cxid then s.deliver r .cmp else s.coh r.hdr.src 0x3A r.hdr.line r.hdr.lock

/-- Give the requester the line: a core of this complex installs it, another complex is sent DATA_S, DATA_E or GNT and its UNBLK is awaited. -/
def State.grantLine (s : State) (r : Req) (excl gnt : Bool) : State :=
  let line := r.hdr.line
  let poison := s.linePoison line
  let rights := s.rightsOf line r.hdr.pid
  let d := s.homeData line
  if r.hdr.src = s.cxid then
    if poison then s else
      let c : CLine := match s.held line with
        | some c => { c with st := if excl then (if c.st.dirty then Moesi.m else .e) else c.st }
        | none => { st := if excl then .e else .s, pid := 0, rights := 0, data := d }
      s.install line { c with pid := BitVec.ofNat 8 r.hdr.pid, rights := rights }
  else
    let s := if excl then s.dropLine line else
      match s.held line with
      | some c => s.updMem (fun m => { m with lines := m.lines.put line { c with st := if c.st == .m then .o else if c.st == .e then .s else c.st } })
      | none => s
    let e := (s.mem.dir.find line).getD { st := .s, busy := false, owner := 0, coarse := false, ptrs := [], gvec := 0 }
    let s := s.setDir line (some (if excl then DirEnt.x r.hdr.src else e.addSharer r.hdr.src))
    if gnt then s.coh r.hdr.src 0x34 line r.hdr.lock [r.hdr.pid, rights.toNat]
    else s.coh r.hdr.src (if excl then 0x31 else 0x30) line r.hdr.lock (rspArgs { data := d, poison := poison, rights := rights : DataRsp })

/-! The home's transactions (R214, R215) -/

/-- What a request needs of the regions (05 R135, R136, R138, R219, 08 R192). A snapshot that reads a translation table (05 R141) is marked by `far`: it needs RD, the right of walk reads. -/
def Req.need (r : Req) : Need :=
  match r.kind with
  | .rds => if r.hdr.stype = 1 then .fx else .rd
  | .rdo | .upg => .wr
  | .rdsnap => if r.far then .rd else .cr
  | .wrpl => .cw
  | .atom => .at
  | .cmo .inval => .wr
  | .cmo _ => .rd

/-- A refused request (R138): poison with no rights for a read, a dropped write with its completion. The capture names the line's address (DESIGN CHOICE, log 60). -/
def State.refuse (s : State) (r : Req) : State :=
  let line := r.hdr.line
  let s := s.rgnFail (line * 256) r.hdr.pid r.hdr.stype r.hdr.src r.need
  let own := r.hdr.src = s.cxid
  let dead := (rspArgs { data := 0, poison := true, rights := 0 : DataRsp })
  match r.kind with
  | .rds => if own then s else s.coh r.hdr.src 0x30 line r.hdr.lock dead
  | .rdo | .upg => if own then s else s.coh r.hdr.src 0x31 line r.hdr.lock dead
  | .rdsnap => if own then s.deliver r (.failed 0) else s.coh r.hdr.src 0x33 line r.hdr.lock dead
  | .wrpl => if own then s.deliver r (.failed 0) else s.coh r.hdr.src 0x3A line r.hdr.lock
  | .atom => if own then s.updCore r.hdr.tag (fun c => { c with wait := .atomFail line 0 }) else s.coh r.hdr.src 0x39 line r.hdr.lock [r.hdr.tag, 0, 0, 1, 0]
  | .cmo _ => if own then s.deliver r (.failed 0) else s.coh r.hdr.src 0x33 line r.hdr.lock dead

/-- The owner has served the requester by a forward: the directory's new state (Table COH-5, R232). A recall for WRPL or ATOM frees the entry when the operation is done. -/
def State.forwarded (s : State) (r : Req) (w : Nat) (wbp dirty : Bool) : State :=
  let line := r.hdr.line
  match s.mem.dir.find line with
  | none => s
  | some e =>
    match r.kind with
    | .rds =>
      let base : DirEnt := if wbp then { e with st := .s } else if dirty || e.st == .o then { e with st := .o } else ({ e with st := .s } : DirEnt).addSharer w
      if r.hdr.src = s.cxid then s.setDir line (some base) else s.setDir line (some (base.addSharer r.hdr.src))
    | .rdo | .upg => if r.hdr.src = s.cxid then s.setDir line none else s.setDir line (some (DirEnt.x r.hdr.src))
    | .rdsnap => if wbp then s.setDir line e.noOwner else s
    | .wrpl | .atom => s
    | .cmo .clean => if wbp then s.setDir line e.noOwner else if e.st == .o then s.setDir line (some (({ e with st := .s } : DirEnt).addSharer w)) else s
    | .cmo _ => s.setDir line none

/-- Send an SNP message to some complexes; one that is absent is resolved at once (10 R242): the severe fault, and no reply is awaited. -/
def State.snoop (s : State) (code line : Nat) (lock : Bool) (cxs : List Nat) : State :=
  cxs.foldl (fun s c => if s.present c then s.coh c code line lock else s.flt 4 7 0 none (BitVec.ofNat 64 c)) s

/-- A complex that does not answer holds no copy; the line of a lost owner, which may be dirty, is poisoned in memory (R234; log 28). -/
def State.ownerLost (s : State) (line cx : Nat) : State :=
  match s.mem.dir.find line with
  | some e => if e.st != .s && e.owner == cx then (s.setDir line e.noOwner).updMem (fun m => { m with poison := m.poison.put line 4 }) else s
  | none => s

/-- Contact the recorded owner for a request: the forward of Table COH-5, with the rights that the region check granted (R212; log 26). -/
def State.contact (s : State) (r : Req) (w : Nat) (t : Txn) : State × Txn :=
  let line := r.hdr.line
  let t := { t with owner := none }
  let me := s.cxid
  let args := [r.hdr.src, r.hdr.tag, (s.rightsOf line r.hdr.pid).toNat]
  let lock := r.hdr.lock
  match r.kind with
  | .rds => (s.coh w 0x20 line lock args, { t with fwd := some w, sent := true, unblk := decide (r.hdr.src ≠ me), dataWait := decide (r.hdr.src = me) })
  | .rdo | .upg => (s.coh w 0x21 line lock args, { t with fwd := some w, sent := true, unblk := decide (r.hdr.src ≠ me), dataWait := decide (r.hdr.src = me) })
  | .rdsnap => (s.coh w 0x22 line lock args, { t with fwd := some w, sent := true, dataWait := decide (r.hdr.src = me) })
  | .wrpl | .atom => (s.coh w 0x21 line lock [me, r.hdr.tag, 0], { t with fwd := some w, dataWait := true })
  | .cmo .clean => (s.coh w 0x25 line lock, { t with fwd := some w })
  | .cmo _ => (s.coh w 0x24 line lock, { t with acks := [w] })

/-- Is the requester of an upgrade recorded precisely as sharer or owner (Table COH-5). -/
def State.upgKnown (s : State) (r : Req) : Bool :=
  match s.mem.dir.find r.hdr.line with
  | some e => (!e.coarse && e.ptrs.contains r.hdr.src) || (e.st != .s && e.owner == r.hdr.src)
  | none => false

/-- Does the answer to a request take a line's data, or write it. -/
def ReqKind.reads : ReqKind → Bool
  | .cmo _ => false
  | _ => true

/-- Send the response of a request when nothing is awaited and no owner is left to contact. A shared read after NOCOPY is answered as in state S (Table COH-5). -/
def State.respond (s : State) (r : Req) (t : Txn) : State × Txn :=
  let remote := decide (r.hdr.src ≠ s.cxid)
  let s := if r.kind.reads && (s.held r.hdr.line).isNone then s.dram r.hdr.line else s
  match r.kind with
  | .rds =>
    let excl := (s.mem.dir.find r.hdr.line).isNone && (s.held r.hdr.line).isNone && t.answer != some .nocopy
    (s.grantLine r excl false, { t with sent := true, unblk := remote })
  | .rdo => ((if remote then s else s.setDir r.hdr.line none).grantLine r true false, { t with sent := true, unblk := remote })
  | .upg => ((if remote then s else s.setDir r.hdr.line none).grantLine r true (t.answer.isNone && remote && s.upgKnown r), { t with sent := true, unblk := remote })
  | .rdsnap =>
    let d : DataRsp := { data := s.homeData r.hdr.line, poison := s.linePoison r.hdr.line, rights := s.rightsOf r.hdr.line r.hdr.pid }
    (if remote then s.coh r.hdr.src 0x33 r.hdr.line r.hdr.lock (rspArgs d) else s.deliver r (.got d), { t with sent := true })
  | .wrpl => ((s.setDir r.hdr.line none).doWrpl r, { t with sent := true })
  | .atom => ((s.setDir r.hdr.line none).doAtom r t.remote, { t with sent := true })
  | .cmo k =>
    let s := s.cmoHome r k
    let s := if k = .clean then s else s.setDir r.hdr.line none
    (s.cmoDone r, { t with sent := true })

/-- Is every awaited message of the transaction in. -/
def Txn.quiet (t : Txn) : Bool := t.acks.isEmpty && t.fwd.isNone && !t.dataWait && !t.held

/-- Drive an open transaction: contact the owner, respond, close. Two turns suffice, because a turn ends in a wait or in the response. True: it has closed. -/
def State.advance (s : State) (line : Nat) : State × Bool :=
  match s.mem.txns.find line with
  | none => (s, false)
  | some t =>
    if !t.quiet then (s, false) else
    match t.req with
    | none => ((s.setDir line none).setTxn line none, true)
    | some r =>
      let p := match t.owner with
        | some w =>
          if s.present w then s.contact r w t
          else
            let t' := { t with owner := none, answer := some .nocopy }
            ((s.ownerLost line w).flt 4 7 0 none (BitVec.ofNat 64 w)).respond r t'
        | none => if t.sent then (s, t) else s.respond r t
      if p.2.quiet && p.2.sent && !p.2.unblk && p.2.owner.isNone then (p.1.setTxn line none, true)
      else (p.1.setTxn line (some p.2), false)

/-- Does a request need a directory entry that does not exist yet (R210). -/
def State.needsEntry (s : State) (r : Req) : Bool :=
  (s.mem.dir.find r.hdr.line).isNone && decide (r.hdr.src ≠ s.cxid) &&
    (match r.kind with
     | .rds | .rdo | .upg => true
     | .wrpl => s.placeOk r.place && decide (fieldOf r.place 15 6 ≠ s.cxid)
     | _ => false)

/-- Does a request remove the copies of others (Table COH-5). -/
def ReqKind.removes : ReqKind → Bool
  | .rdo | .upg | .wrpl | .atom | .cmo .inval | .cmo .clinv => true
  | _ => false

/-- Open the transaction of an accepted request: home copies and sharers are invalidated where Table COH-5 asks, the owner is contacted or the response sent. A recorded owner is contacted whoever asks, but for its own upgrade. -/
def State.openTxn (s : State) (r : Req) : State :=
  let line := r.hdr.line
  let lock := r.hdr.lock
  let e := s.mem.dir.find line
  let s := s.updMem (fun m => { m with rrLast := r.hdr.src })
  let shs := if r.kind.removes then (match e with | some e => s.sharers e r.hdr.src | none => []) else []
  let s := s.snoop 0x23 line lock shs
  let shs := shs.filter (fun c => s.present c)
  let s := match r.kind with
    | .rdo | .upg => if r.hdr.src = s.cxid then s else s.dropLine line
    | _ => s
  let owner := match e with
    | some e => if e.st != .s && !(r.kind == .upg && e.owner == r.hdr.src) then some e.owner else none
    | none => none
  -- an owner that is not the upgrading sharer gives its dirty data up by BINV
  let upgOwner : Bool := r.kind == .upg && (match owner with | some w => s.present w | none => false) &&
    (match e with
     | some e => e.st == .o && !e.coarse && e.ptrs.contains r.hdr.src
     | none => false)
  let s := if upgOwner then s.snoop 0x24 line lock owner.toList else s
  let t := { Txn.new (some r) lock with acks := if upgOwner then shs ++ owner.toList else shs, owner := if upgOwner then none else owner, remote := e.isSome }
  ((s.setTxn line (some t)).advance line).1

/-- Evict a directory entry (R210): BINV to its owner and its sharers; an absent one holds no copy. `for_`: the line whose request waits for the way. -/
def State.evictDir (s : State) (line : Nat) (e : DirEnt) (lock : Bool) (for_ : Option Nat) : State × Bool :=
  let who := s.sharers e s.cxid ++ (if e.st != .s then [e.owner] else [])
  let s := s.snoop 0x24 line lock who
  let s := who.foldl (fun s c => if s.present c then s else s.ownerLost line c) s
  let s := s.count F.COH_DIRSTAT_BINVS (some F.COH_DIRSTAT_BOVF)
  (s.setTxn line (some { Txn.new none lock with acks := who.filter (fun c => s.present c), victimFor := for_ })).advance line

/-- The array number of the directory's LFSR, in the model's own numbering (log 6). -/
def dirArray : Nat := 0x200

/-- Accept a request that finds its line idle (R210, R214, R215), none if all ways of its set are busy: one that the regions refuse is answered at once, one that needs a way of a full set is held while an idle entry, the LFSR's choice among them in way order, is evicted. -/
def State.accept (s : State) (r : Req) : Option State :=
  let line := r.hdr.line
  if !s.admits (line * 256) r.hdr.pid r.need (r.hdr.stype == 6) then some (s.refuse r)
  else if !s.needsEntry r || (s.freeWay line).isSome then some (s.openTxn r)
  else
    let set := s.dirSetOf line
    let idle := s.dirWays.filterMap (fun w => set.find? (fun p => p.2.way == w && !p.2.busy))
    match idle with
    | [] => none
    | d :: _ =>
      let l := lfsrStep (s.mem.lfsrOf dirArray)
      let v := idle.getD (l.toNat * idle.length / 65536) d
      let s := s.updMem (fun m => { m with lfsr := m.lfsr.put dirArray l })
      let s := s.setTxn line (some { Txn.new (some r) r.hdr.lock with held := true })
      let p := s.evictDir v.1 v.2 r.hdr.lock (some line)
      some (if p.2 then (p.1.setTxn line none).openTxn r else p.1)

/-- Free a reservation entry: while the invitation vector names a complex, the next one in round-robin order has the entry kept (R226). -/
def State.freeResv (s : State) : State :=
  (match s.mem.invVec.find? (fun c => decide (s.mem.invLast < c)) <|> s.mem.invVec.head? with
   | none => s
   | some c => (s.updMem (fun m => { m with kept := m.kept ++ [c], invVec := m.invVec.filter (fun x => x != c), invLast := c })).coh c 0x3D 0 false).resvStat

/-- Insert in a rising list. -/
def insertNat (x : Nat) : List Nat → List Nat
  | [] => [x]
  | y :: r => if x < y then x :: y :: r else if x = y then y :: r else y :: insertNat x r

/-- Serve one stored request: the oldest that is the first of its line, finds its line idle and can be accepted (R225). -/
def State.serveOne (s : State) : Option State :=
  s.mem.stored.findSome? (fun r =>
    if s.mem.txns.has r.hdr.line || s.mem.stored.find? (fun q => q.hdr.line == r.hdr.line) != some r then none
    else (s.accept r).map (fun t => (t.updMem (fun m => { m with stored := m.stored.erase r })).freeResv))

/-- Serve the stored requests as far as they can be. -/
def State.serveStored : Nat → State → State
  | 0, s => s
  | n + 1, s =>
    match s.serveOne with
    | none => s
    | some t => State.serveStored n t

/-- Place of a complex in the round-robin order that starts after the one granted last (R229). -/
def State.rrPlace (s : State) (cx : Nat) : Nat := (cx + 1023 - s.mem.rrLast) % 1024

/-- Does a request lose to a rival of the same cycle (R229). -/
def State.loses (s : State) (r : Req) : Bool := r.hdr.rivals.any (fun c => decide (s.rrPlace c < s.rrPlace r.hdr.src))

/-- Take a request at the home: a STARVE request is stored, or refused with RESFULL, and served as soon as it can be; another one is refused while its line is busy or reserved, while all ways of its set are busy, and when it loses to a rival of the same cycle (R214, R224 to R229). -/
def State.homeReq (s : State) (r : Req) : State :=
  let line := r.hdr.line
  let r := if r.hdr.src = s.cxid then { r with hdr := { r.hdr with lock := s.lockLine line } } else r
  if r.hdr.starve && decide (r.hdr.src ≠ s.cxid) then
    let kept := s.mem.kept.contains r.hdr.src
    if kept || s.resvCur < 32 then
      let s := s.updMem (fun m => { m with kept := if kept then m.kept.erase r.hdr.src else m.kept, stored := m.stored ++ [r] })
      let s := s.resvStat.count F.COH_RESV_STARVED (some F.COH_RESV_SOVF)
      State.serveStored s.mem.stored.length s
    else ((s.updMem (fun m => { m with invVec := insertNat r.hdr.src m.invVec })).nackReq r .resfull).resvStat.flt 4 5
  else if s.mem.txns.has line then s.nackReq r .busy
  else if s.mem.stored.any (fun q => q.hdr.line == line) then s.nackReq r .reserved
  else if s.loses r then s.nackReq r .busy
  else
    match s.accept r with
    | some t => t
    | none => s.nackReq r .setfull

/-- After a transaction closed: a request held for the directory way that it freed goes on, then the stored requests are served (R210, R225). -/
def State.closed (s : State) (waiting : Option Nat) : State :=
  let s := match waiting with
    | some l =>
      (match s.mem.txns.find l with
       | some t =>
         (match t.req with
          | some r => if t.held then (s.setTxn l none).openTxn r else s
          | none => s)
       | none => s)
    | none => s
  State.serveStored s.mem.stored.length s

/-- Change an open transaction, then drive it. -/
def State.onTxn (s : State) (line : Nat) (f : Txn → Txn) : State :=
  match s.mem.txns.find line with
  | none => s
  | some t =>
    let p := (s.setTxn line (some (f t))).advance line
    if p.2 then p.1.closed t.victimFor else p.1

/-! The requester (R206, R224 to R226) -/

/-- Count an uncore event of a logical core (02 Table COR-7). -/
def State.uncore (s : State) (lc ev : Nat) : State := if s.lcExists lc then s.updCore lc (fun c => c.pmcNow ev 1) else s

/-- The issuing complex drops its own shared copy for a request that removes every copy but keeps none with its requester; an exclusive or dirty copy is recalled by the home, which records it (R209, R218, R220; 08 R192). -/
def State.ownShared (s : State) (r : Req) : State :=
  let line := r.hdr.line
  match r.kind, s.held line with
  | .wrpl, some c | .atom, some c => if c.st = .s then s.dropLine line else s
  | .cmo k, some c => if c.st = .s && k != .clean then (s.lockHit line).1.dropLine line else s
  | _, _ => s

/-- A copy that has just become shared leaves at once while this complex has a request outstanding that removes every copy: the home sends its requester no INV (R209, R216). -/
def State.ownStale (s : State) (line : Nat) : State :=
  match s.mem.reqs.find? (fun p => p.1 % 2 ^ 48 == line && p.2.st == .wait) with
  | some p => s.ownShared p.2.req
  | none => s

/-- A coherent request of this complex goes to a remote home, in the class that this complex's lock-line ranges give (R213); a core's counts as event 7 when it is first sent. -/
def State.sendReq (s : State) (home : Nat) (r : Req) (key : Nat) (st : Transient) : State :=
  let code := match r.kind with
    | .rds => 1 | .rdo => 2 | .upg => 3 | .rdsnap => 4 | .wrpl => 5 | .atom => 6 | .cmo _ => 7
  let extra := match r.kind with
    | .rdsnap => [b2n r.far]
    | .wrpl => [r.place.toNat, r.first, r.last, r.data.toNat]
    | .atom => [r.first, r.op, b2n r.far, r.op1.toNat, r.op2.toNat]
    | .cmo k => [match k with | .clean => 1 | .inval => 2 | .clinv => 3]
    | _ => []
  let r := { r with hdr := { r.hdr with lock := s.lockLine r.hdr.line } }
  let old := s.mem.reqs.find key
  let s := if r.hdr.stype < 2 && old.isNone then s.uncore r.hdr.tag 7 else s
  let s := s.ownShared r
  let s := s.coh home code r.hdr.line r.hdr.lock ([r.hdr.src, r.hdr.tag, r.hdr.pid, r.hdr.stype, b2n r.hdr.starve] ++ extra)
  let q : ReqEnt :=
    match old with
    | some q => { q with req := r, st := st, sends := q.sends + 1, backoff := false, stopped := false }
    | none => { req := r, st := st, sends := 1, backoff := false, stopped := false, born := s.fab.tb, due := 0 }
  s.updMem (fun m => { m with reqs := m.reqs.put key q })

def Req.mk0 (k : ReqKind) (src tag line pid stype : Nat) : Req :=
  { kind := k, hdr := { src := src, tag := tag, line := line, pid := pid, stype := stype, starve := false }, place := 0, first := 0, last := 0, data := 0, op := 0, far := false, op1 := 0, op2 := 0 }

/-- Does a request await its answer. -/
def Transient.open : Transient → Bool
  | .isD | .imD | .smG | .snap | .wait => true
  | _ => false

/-- The one outstanding request of this complex for a line, with its key (R206). -/
def State.outst (s : State) (line : Nat) : Option (Nat × ReqEnt) := s.mem.reqs.find? (fun p => p.1 % 2 ^ 48 == line && p.2.st.open)

/-- Is a line in a transient state of Table COH-2: a request for it is outstanding, or it leaves in a writeback. -/
def State.transient (s : State) (line : Nat) : Bool := (s.outst line).isSome || s.mem.wbuf.has line

/-- How an access to a line ends: the line is held with the right (and writable for a store); refused by the regions; poisoned; no home; or the complex waits for it. -/
inductive Acq where
  | ok (s : State) (c : CLine)
  | refused (s : State)
  | poison (s : State) (reason : Nat)
  | noHome
  | wait (s : State)

/-- The right that a need asks of a held copy (R139). -/
def rightsHave (r : BitVec 3) : Need → Bool
  | .rd => r.getLsbD 2
  | .wr => r.getLsbD 1
  | .fx => r.getLsbD 0
  | .at => r.getLsbD 2 && r.getLsbD 1
  | _ => false

/-- Does a held copy serve the access. -/
def CLine.serves (c : CLine) (pid : Nat) (need : Need) : Bool :=
  c.pid.toNat == pid && rightsHave c.rights need && (need != .wr || c.st.writable)

/-- Ask a remote home for a line. A shared or owned copy that has the right asks for its upgrade; another copy that does not serve the access leaves the complex first, by a writeback if it is dirty (R139; DEDUCED, log 59). -/
def State.askHome (s : State) (h line pid lc stype : Nat) (need : Need) : State :=
  let upg := need == .wr && (match s.held line with | some c => c.pid.toNat == pid && rightsHave c.rights .wr | none => false)
  if upg then s.sendReq h (Req.mk0 .upg s.cxid lc line pid stype) line .smG else
  let s := if (s.held line).isNone then s.uncore lc 6 else s.dropLine line
  if s.mem.wbuf.has line then s
  else s.sendReq h (Req.mk0 (if need = .wr then .rdo else .rds) s.cxid lc line pid stype) line (if need = .wr then .imD else .isD)

/-- Bring a line into the complex for a core access (R139, R206; 01 Table SYS-5). `stype` 0 is core data, 1 core fetch. -/
def State.acquire (s : State) (line pid lc stype : Nat) (need : Need) : Acq :=
  match s.held line with
  | some c =>
    if c.serves pid need then .ok s c else acquireMiss s line pid lc stype need
  | none => acquireMiss s line pid lc stype need
where
  /-- A miss, checked at the home. -/
  acquireMiss (s : State) (line pid lc stype : Nat) (need : Need) : Acq :=
    match s.homeOf (line * 256) with
    | none => .noHome
    | some h =>
      if h = s.cxid then
        if !s.admits (line * 256) pid need then .refused (s.rgnFail (line * 256) pid stype s.cxid need)
        else if s.linePoison line then .poison s (s.mem.poison.get 1 line)
        else
          let s' := if s.mem.txns.has line then s else
            (if (s.held line).isNone then s.uncore lc 6 else s).homeReq (Req.mk0 (if need = .wr then .rdo else .rds) s.cxid lc line pid stype)
          match s'.held line with
          | some c => if c.serves pid need then .ok s' c else .wait s'
          | none => if s'.linePoison line then .poison s' (s'.mem.poison.get 1 line) else .wait s'
      else
        match s.mem.reqs.find line with
        | some q =>
          match q.st with
          | .failed why =>
            if q.req.hdr.pid = pid then
              let s' := s.updMem (fun m => { m with reqs := m.reqs.del line })
              if why = 0 then .refused s' else .poison s' why
            else .wait (s.updMem (fun m => { m with reqs := m.reqs.del line }))
          | _ => .wait s
        | none =>
          if !s.present h then .poison (s.flt 4 6) 3
          else if s.transient line then .wait s
          else .wait (s.askHome h line pid lc stype need)

/-! Answers of agents without caches -/

/-- An answer that is there to be picked up. -/
def Transient.answered : Transient → Bool
  | .got _ | .cmp | .failed _ => true
  | _ => false

/-- An agent's access that waits is made again as a whole: the answers it had picked up stay at hand. `t`: the state it has reached; `s`: the state it started from. -/
def State.keep (t s : State) (tag : Nat) : State :=
  t.updMem (fun m => { m with reqs := (s.mem.reqs.filter (fun p => p.1 / 2 ^ 48 == tag + 1 && p.2.st.answered)).foldl (fun r p => r.put p.1 p.2) m.reqs })

/-- Forget the answers of an agent that has given its access up. -/
def State.forget (s : State) (tag : Nat) : State :=
  s.updMem (fun m => { m with reqs := m.reqs.filter (fun p => !(p.1 / 2 ^ 48 == tag + 1 && p.2.st.answered)) })

end Sys2Proof.Machine
end

