-- ==== Sys2Proof/Machine/Dma.lean ====
section
/-! DEFINITION. Storage accesses of agents without caches: snapshots and placement writes (09 R217, R218), checked with the channel rights (05 R135, R138). -/

namespace Sys2Proof.Machine

/-- How such an access ends: a value; refused by the regions or without a home (05 R133); poisoned, with the reason; waiting for a message. -/
inductive DmaRes (α : Type) where
  | ok (s : State) (a : α)
  | refused (s : State)
  | poison (s : State) (reason : Nat)
  | wait (s : State)

def DmaRes.bind {α β : Type} (x : DmaRes α) (f : State → α → DmaRes β) : DmaRes β :=
  match x with
  | .ok s a => f s a
  | .refused s => .refused s
  | .poison s r => .poison s r
  | .wait s => .wait s

/-- The agent of an access: its tag, its PID and its source type (05 R134, R138). -/
structure Agent where
  tag : Nat
  pid : Nat
  stype : Nat
deriving DecidableEq, Repr

/-- Pick up the answer to an agent's request, if it is there. -/
def State.pickDma (s : State) (key : Nat) (d : Line) : DmaRes Line :=
  match s.mem.reqs.find key with
  | some q =>
    let s' := s.updMem (fun m => { m with reqs := m.reqs.del key })
    match q.st with
    | .got r => if r.poison then .poison s' 1 else .ok s' r.data
    | .cmp => .ok s' d
    | .failed 0 => .refused s'
    | .failed why => .poison s' why
    | _ => .wait s
  | none => .wait s

/-- Issue a request, or pick up its answer. A fenced complex serves none (11 R281). An address without a home fails as a region check does (05 R133); the controller that the address would map to here captures it (DESIGN CHOICE, log 61). -/
def State.dmaReq (s : State) (a : Agent) (r : Req) : DmaRes Line :=
  let key := r.hdr.line + 2 ^ 48 * (a.tag + 1)
  if s.flag F.FLT_FENCE_CXF then .wait s else
  if s.mem.reqs.has key then s.pickDma key 0 else
  match s.homeOf (r.hdr.line * 256) with
  | none => .refused (s.rgnFail (r.hdr.line * 256) r.hdr.pid r.hdr.stype s.cxid r.need)
  | some h =>
    if h = s.cxid then
      if s.mem.txns.has r.hdr.line then .wait s else (s.homeReq r).pickDma key 0
    else if s.present h then .wait (if s.transient r.hdr.line then s else s.sendReq h r key (if r.kind = .rdsnap then .snap else .wait))
    else .poison (s.flt 4 6) 3

/-- A snapshot of a line. -/
def State.dmaLine (s : State) (a : Agent) (line : Nat) : DmaRes Line :=
  s.dmaReq a (Req.mk0 .rdsnap s.cxid a.tag line a.pid a.stype)

/-- A doubleword of a translation table (05 R141), read as a snapshot with PID 0. -/
def State.dmaWalk (s : State) (a : Agent) (abs : Nat) : DmaRes Nat :=
  match s.dmaReq a { Req.mk0 .rdsnap s.cxid a.tag (abs / 256) 0 a.stype with far := true } with
  | .ok s d => .ok s (lineNat d (abs % 256) 8)
  | .refused s => .refused s
  | .poison s w => .poison s w
  | .wait s => .wait s

/-- Write bytes within a line, with a placement hint. -/
def State.dmaPut (s : State) (a : Agent) (place : BitVec 18) (abs : Nat) (bs : List Byte) : DmaRes Unit :=
  let off := abs % 256
  let d := (List.range bs.length).foldl (fun d i => setLineByte d (off + i) (bs.getD i 0)) (0 : Line)
  let r := { Req.mk0 .wrpl s.cxid a.tag (abs / 256) a.pid a.stype with place := place, first := off, last := off + bs.length - 1, data := d }
  match s.dmaReq a r with
  | .ok s _ => .ok s ()
  | .refused s => .refused s
  | .poison s w => .poison s w
  | .wait s => .wait s

/-- Read bytes at an absolute address, line by line. -/
def State.dmaRead (s : State) (a : Agent) : Nat → Nat → Nat → DmaRes (List Byte)
  | 0, _, _ => .ok s []
  | fuel + 1, abs, n =>
    if n = 0 then .ok s [] else
      let k := min n (256 - abs % 256)
      (s.dmaLine a (abs / 256)).bind fun s d =>
        (State.dmaRead s a fuel (abs + k) (n - k)).bind fun s r => .ok s ((List.range k).map (fun i => lineByte d (abs % 256 + i)) ++ r)

/-- Write bytes at an absolute address, line by line. -/
def State.dmaWrite (s : State) (a : Agent) (place : BitVec 18) : Nat → Nat → List Byte → DmaRes Unit
  | 0, _, _ => .ok s ()
  | fuel + 1, abs, bs =>
    if bs.isEmpty then .ok s () else
      let k := min bs.length (256 - abs % 256)
      (s.dmaPut a place abs (bs.take k)).bind fun s _ => State.dmaWrite s a place fuel (abs + k) (bs.drop k)

/-- Lines that `n` bytes can touch. -/
def linesFor (n : Nat) : Nat := n / 256 + 2

end Sys2Proof.Machine
end

