-- ==== Sys2Proof/Machine/Inflate.lean ====
section
/-! DEFINITION. The record stream of the compression engines (15 R350 to R354): DEFLATE (RFC 1951), the zlib wrapper (RFC 1950), record headers. -/

namespace Sys2Proof.Machine

/-! Bit reader: the bytes as one little-endian number and a bit position -/

structure BitSrc where
  val : Nat
  len : Nat

def BitSrc.of (l : List Byte) : BitSrc := { val := l.foldr (fun b a => a * 256 + b.toNat) 0, len := 8 * l.length }

/-- `k` bits at a position, the first in the least significant place. -/
def BitSrc.get (s : BitSrc) (p k : Nat) : Option Nat := if p + k ≤ s.len then some (s.val / 2 ^ p % 2 ^ k) else none

/-! Huffman codes -/

/-- Symbols of a code length, in increasing order. -/
def symsOf (lens : List Nat) (l : Nat) : List Nat := (List.range lens.length).filter (fun i => lens.getD i 0 == l)

/-- Decode one symbol of a canonical code: `fuel` lengths to try, the present length, the code so far, the first code of this length. -/
def huffGo (s : BitSrc) (lens : List Nat) : Nat → Nat → Nat → Nat → Nat → Option (Nat × Nat)
  | 0, _, _, _, _ => none
  | fuel + 1, l, p, code, first =>
    match s.get p 1 with
    | none => none
    | some b =>
      let code := 2 * code + b
      let syms := symsOf lens l
      if code < first + syms.length then (if first ≤ code then some (syms.getD (code - first) 0, p + 1) else none)
      else huffGo s lens fuel (l + 1) (p + 1) code ((first + syms.length) * 2)

def huffSym (s : BitSrc) (lens : List Nat) (p : Nat) : Option (Nat × Nat) := huffGo s lens 15 1 p 0 0

/-- Is a set of code lengths over-subscribed. -/
def huffOver (lens : List Nat) : Bool :=
  decide (2 ^ 15 < lens.foldl (fun a l => if l = 0 then a else a + 2 ^ (15 - l)) 0)

/-! Blocks -/

def lenBase : List Nat := [3, 4, 5, 6, 7, 8, 9, 10, 11, 13, 15, 17, 19, 23, 27, 31, 35, 43, 51, 59, 67, 83, 99, 115, 131, 163, 195, 227, 258]
def lenExtra (i : Nat) : Nat := if i < 8 || i = 28 then 0 else (i - 4) / 4
def distExtra (i : Nat) : Nat := if i < 4 then 0 else (i - 2) / 2
def distBase (i : Nat) : Nat := if i < 4 then i + 1 else (2 + i % 2) * 2 ^ distExtra i + 1

/-- Copy a match: `n` bytes at distance `d`; the output stands with its latest byte first. -/
def copyMatch (d : Nat) : Nat → List Byte → List Byte
  | 0, o => o
  | n + 1, o => copyMatch d n (o.getD (d - 1) 0 :: o)

/-- The symbols of a compressed block; matches reach back `win` bytes at most. -/
def inflateSyms (s : BitSrc) (ll dl : List Nat) (win : Nat) : Nat → Nat → List Byte → Option (Nat × List Byte)
  | 0, _, _ => none
  | fuel + 1, p, o => do
    let (sym, p) ← huffSym s ll p
    if sym < 256 then inflateSyms s ll dl win fuel p (BitVec.ofNat 8 sym :: o)
    else if sym = 256 then some (p, o)
    else if 285 < sym then none
    else
      let i := sym - 257
      let x ← s.get p (lenExtra i)
      let p := p + lenExtra i
      let (ds, p) ← huffSym s dl p
      if 29 < ds then none else
      let y ← s.get p (distExtra ds)
      let d := distBase ds + y
      if o.length < d || win < d then none
      else inflateSyms s ll dl win fuel (p + distExtra ds) (copyMatch d (lenBase.getD i 0 + x) o)

def clOrder : List Nat := [16, 17, 18, 0, 8, 7, 9, 6, 10, 5, 11, 4, 12, 3, 13, 2, 14, 1, 15]

/-- The code lengths of a dynamic block, the latest first. -/
def dynLens (s : BitSrc) (cl : List Nat) (want : Nat) : Nat → Nat → List Nat → Option (Nat × List Nat)
  | 0, _, _ => none
  | fuel + 1, p, o =>
    if want ≤ o.length then (if o.length = want then some (p, o) else none) else do
      let (sym, p) ← huffSym s cl p
      if sym < 16 then dynLens s cl want fuel p (sym :: o)
      else if sym = 16 then
        let x ← s.get p 2
        if o.isEmpty then none else dynLens s cl want fuel (p + 2) (List.replicate (3 + x) (o.headD 0) ++ o)
      else if sym = 17 then
        let x ← s.get p 3
        dynLens s cl want fuel (p + 3) (List.replicate (3 + x) 0 ++ o)
      else
        let x ← s.get p 7
        dynLens s cl want fuel (p + 7) (List.replicate (11 + x) 0 ++ o)

/-- Set an element of a list of code lengths. -/
def fixedLl : List Nat := List.replicate 144 8 ++ List.replicate 112 9 ++ List.replicate 24 7 ++ List.replicate 8 8

/-- One block: position, output, and whether BFINAL was set. `raw`: only stored blocks are allowed; `win`: the largest distance. -/
def inflateBlock (s : BitSrc) (raw : Bool) (win p : Nat) (o : List Byte) : Option (Nat × List Byte × Bool) := do
  let fin ← s.get p 1
  let typ ← s.get (p + 1) 2
  let p := p + 3
  if raw && typ != 0 then none
  else if typ = 0 then
    let p := (p + 7) / 8 * 8
    let n ← s.get p 16
    let m ← s.get (p + 16) 16
    let data ← s.get (p + 32) (8 * n)
    if n + m ≠ 65535 then none
    else some (p + 32 + 8 * n, (List.range n).foldl (fun o i => BitVec.ofNat 8 (data / 256 ^ i) :: o) o, fin == 1)
  else if typ = 1 then
    let (p, o) ← inflateSyms s fixedLl (List.replicate 30 5) win s.len p o
    some (p, o, fin == 1)
  else if typ = 2 then
    let hl ← s.get p 5
    let hd ← s.get (p + 5) 5
    let hc ← s.get (p + 10) 4
    let cls ← (List.range (hc + 4)).mapM (fun i => s.get (p + 14 + 3 * i) 3)
    let cl := (List.range 19).map (fun k => match clOrder.idxOf? k with | some i => cls.getD i 0 | none => 0)
    let (p, l) ← dynLens s cl (hl + 257 + hd + 1) 400 (p + 14 + 3 * (hc + 4)) []
    let l := l.reverse
    let ll := l.take (hl + 257)
    let dl := l.drop (hl + 257)
    if huffOver cl || huffOver ll || huffOver dl || 29 < hl || 29 < hd then none
    else
      let (p, o) ← inflateSyms s ll dl win s.len p o
      some (p, o, fin == 1)
  else none

/-- Blocks to the end: of the last body when BFINAL comes, of any other when its bits end. -/
def inflateGo (s : BitSrc) (raw last : Bool) : Nat → Nat → List Byte → Option (Nat × List Byte)
  | 0, _, _ => none
  | fuel + 1, p, o =>
    if !last && p = s.len then some (p, o) else do
      let (p, o, fin) ← inflateBlock s raw 32768 p o
      if fin then (if last then some (p, o) else none) else inflateGo s raw last fuel p o

/-- What a body decodes to after the originals `hist` (latest byte first), with the bytes that its blocks use. -/
def inflateBody (hist : List Byte) (raw last : Bool) (body : List Byte) : Option (List Byte × Nat) := do
  let s := BitSrc.of body
  let (p, o) ← inflateGo s raw last (s.len + 1) 0 hist
  if !last && p % 8 ≠ 0 then none
  else some ((o.take (o.length - hist.length)).reverse, (p + 7) / 8)

/-- Is a zlib header acceptable (R354). -/
def zlibHdrOk (b0 b1 : Byte) : Bool :=
  b0.toNat % 16 == 8 && decide (b0.toNat / 16 ≤ 7) && (b0.toNat * 256 + b1.toNat) % 31 == 0 && !b1.getLsbD 5

/-- The data of a body, with its part of the zlib wrapper checked and taken off. `hist`: all originals so far, latest first. -/
def bodyData (hist : List Byte) (zlib first last raw : Bool) (body : List Byte) : Option (List Byte) := do
  let head := zlib && first
  if head && !(2 ≤ body.length && zlibHdrOk (body.getD 0 0) (body.getD 1 0)) then none else
  let b := if head then body.drop 2 else body
  let (d, used) ← inflateBody hist raw last b
  let rest := b.drop used
  if zlib && last then
    if rest = (List.range 4).map (fun i => BitVec.ofNat 8 (adler32 (hist.reverse ++ d) / 256 ^ (3 - i))) then some d else none
  else if rest.isEmpty then some d else none

/-! Records (R350, R354) -/

/-- What stands at the front of a record stream: too little yet, an invalid record, one whose CRC does not match, or the record's originals, its length and whether it is the last. -/
inductive RecRes where
  | short
  | bad
  | badCrc
  | ok (orig : List Byte) (len : Nat) (last raw : Bool)
deriving DecidableEq, Repr

/-- Decode the record at the front of `l`. -/
def readRecord (hist : List Byte) (first zlib : Bool) (l : List Byte) : RecRes :=
  if l.length < 16 then .short else
  let n := fun (i k : Nat) => ((l.drop i).take k).foldl (fun a b => a * 256 + b.toNat) 0
  let flags : Byte := l.getD 3 0
  let last := flags.getLsbD 5
  let raw := flags.getLsbD 7
  if n 0 2 ≠ 0x4B5A || n 2 1 ≠ 1 || flags.toNat % 16 ≠ 0 || flags.getLsbD 6 != first || flags.getLsbD 4 != zlib || 65536 < n 4 4 then .bad else
  let clen := n 8 4
  if l.length < 16 + clen then .short else
  match bodyData hist zlib first last raw ((l.drop 16).take clen) with
  | none => .bad
  | some d =>
    if d.length ≠ n 4 4 then .bad
    else if (crcIscsi d).toNat ≠ n 12 4 then .badCrc
    else .ok d (16 + clen) last raw

/-- The stored blocks of a RAW body (R351). -/
def rawBlocks (last : Bool) (d : List Byte) : List Byte :=
  let blk := fun (fin : Bool) (l : List Byte) =>
    [if fin then (1 : Byte) else 0, BitVec.ofNat 8 l.length, BitVec.ofNat 8 (l.length / 256), BitVec.ofNat 8 (65535 - l.length), BitVec.ofNat 8 ((65535 - l.length) / 256)] ++ l
  if d.length ≤ 65535 then blk last d else blk false (d.take 65535) ++ blk last (d.drop 65535)

/-- Is a byte string a compressed form of `d` as R351 and R353 have it: one block, with the fixed codes in the first record of a stream and dynamic codes in a later one, distances up to 16,384, then, in a record that is not the last, the empty stored block that ends on a byte boundary. -/
def formOk (hist d : List Byte) (first last : Bool) (form : List Byte) : Bool :=
  let s := BitSrc.of form
  s.get 1 2 == some (if first then 1 else 2) &&
    (match inflateBlock s false 16384 0 hist.reverse with
     | some (p, o, fin) =>
       let q := if last then (p + 7) / 8 else (p + 10) / 8
       fin == last && o == d.reverse ++ hist.reverse && s.val / 2 ^ p == (if last then 0 else 0xFFFF0000 * 2 ^ (8 * q - p)) && form.length == q + (if last then 0 else 4)
     | none => false)

/-- The record of the original bytes `d` after the originals `hist` (R350 to R353); which matches and code lengths the compressed form has is the engine's (log 8). The flag says whether it is RAW. -/
def writeRecord (hist : List (List Byte)) (zlib last : Bool) (d : List Byte) : List Byte × Bool :=
  let first := hist.isEmpty
  let form := if d.isEmpty then [0x03, 0x00] else Config.deflate hist d last
  let raw := !d.isEmpty && (decide (d.length ≤ form.length) || !formOk hist.flatten d first last form)
  let data := if raw then rawBlocks last d else form
  let all := hist.flatten ++ d
  let body := (if zlib && first then [0x78, 0x01] else []) ++ data ++
    (if zlib && last then (List.range 4).map (fun i => BitVec.ofNat 8 (adler32 all / 256 ^ (3 - i))) else [])
  let be4 := fun (v : Nat) => (List.range 4).map (fun i => BitVec.ofNat 8 (v / 256 ^ (3 - i)))
  let flags : Byte := BitVec.ofBool raw ++ BitVec.ofBool first ++ BitVec.ofBool last ++ BitVec.ofBool zlib ++ (0 : BitVec 4)
  ([0x4B, 0x5A, 0x01, flags] ++ be4 d.length ++ be4 body.length ++ be4 (crcIscsi d).toNat ++ body, raw)

end Sys2Proof.Machine
end

