-- ==== Sys2Proof/Machine/Operands.lean ====
section
/-! DEFINITION. Operand forms of the core: general, windowed and floating-point registers (02, 03 R63), register pairs (R64), immediates and effective addresses (R61). -/

namespace Sys2Proof.Machine

/-- COR_WSTATE of a bank (02 R37). -/
def Arch.wstOf (a : Arch) (bank : Nat) : W64 := a.wst.get wstReset bank

def Arch.setWst (a : Arch) (bank : Nat) (w : W64) : Arch := { a with wst := a.wst.put bank w }

/-- Frame of the current window's in registers, and resident windows, of a bank. -/
def Arch.cwp (a : Arch) (bank : Nat) : Nat := fieldOf (a.wstOf bank) 2 0
def Arch.nres (a : Arch) (bank : Nat) : Nat := fieldOf (a.wstOf bank) 6 4
def Arch.spdepth (a : Arch) (bank : Nat) : Nat := fieldOf (a.wstOf bank) 63 32

/-- Set CWP and NRES of a bank. -/
def Arch.setWin (a : Arch) (bank cwp nres : Nat) : Arch :=
  a.setWst bank (putField (putField (a.wstOf bank) 2 0 cwp) 6 4 nres)

/-- Has the spill and fill engine work for a bank: true for a spill (02 R41). B7 is never served. -/
def Arch.engineWork (a : Arch) (bank : Nat) : Option Bool :=
  if 7 ≤ bank || fieldOf (a.wstOf bank) 10 10 = 1 then none
  else if 6 ≤ a.nres bank then some true
  else if a.nres bank ≤ 2 && decide (0 < a.spdepth bank) then some false
  else none

/-- The transfer the engine takes up next: the current bank first, then the lowest-numbered other (02 R41). -/
def Arch.engineNext (a : Arch) : Option (Nat × Bool) :=
  (a.psw.bank.toNat :: List.range 7).findSome? (fun b => (a.engineWork b).map (fun k => (b, k)))

/-- The engine begins a transfer when it has none (02 R41). -/
def Core.engine (c : Core) : Core := { c with xfer := match c.xfer with | some x => some x | none => c.arch.engineNext }

/-- COR_WSTATE as it reads: SPB and FLB show the transfer in progress. -/
def Core.wstRead (c : Core) (bank : Nat) : W64 :=
  putField (putField (c.arch.wstOf bank) 8 8 (b2n (c.xfer == some (bank, true)))) 9 9 (b2n (c.xfer == some (bank, false)))

/-- Register 0 to 15 of the window whose in registers are `frame` (02, Register windows). -/
def winKey (bank frame i : Nat) : Nat := bank * 64 + (frame + i / 8) % 8 * 8 + i % 8

/-- A general register of a bank: 0 to 15 are G, 16 to 31 the current window's W (03 R63). -/
def Arch.getGB (a : Arch) (bank : Nat) (r : Nat) : W64 :=
  if r < 16 then a.g.get 0 (bank * 16 + r) else a.w.get 0 (winKey bank (a.cwp bank) (r - 16))

def Arch.setGB (a : Arch) (bank : Nat) (r : Nat) (v : W64) : Arch :=
  if r < 16 then { a with g := a.g.put (bank * 16 + r) v } else { a with w := a.w.put (winKey bank (a.cwp bank) (r - 16)) v }

/-- A general register of the current bank. -/
def Arch.getG (a : Arch) (r : BitVec 5) : W64 := a.getGB a.psw.bank.toNat r.toNat
def Arch.setG (a : Arch) (r : BitVec 5) (v : W64) : Arch := a.setGB a.psw.bank.toNat r.toNat v

/-- A floating-point register of the current bank. -/
def Arch.getF (a : Arch) (r : BitVec 5) : W64 := a.f.get 0 (a.psw.bank.toNat * 32 + r.toNat)
def Arch.setF (a : Arch) (r : BitVec 5) (v : W64) : Arch := { a with f := a.f.put (a.psw.bank.toNat * 32 + r.toNat) v }

/-- The registers of a pair: the even one holds the more significant doubleword (03 R64). -/
def Arch.getPair (a : Arch) (r : BitVec 5) : W128 := a.getG r ++ a.getG (r + 1)
def Arch.setPair (a : Arch) (r : BitVec 5) (v : W128) : Arch := (a.setG r (v.extractLsb' 64 64)).setG (r + 1) (v.extractLsb' 0 64)

/-- A pair must start at an even number (03 R64). -/
def oddPair (r : BitVec 5) : Bool := r.getLsbD 0

/-- Sign extension of an immediate to 64 bits. -/
def sext {n : Nat} (v : BitVec n) : W64 := v.signExtend 64
def zext {n : Nat} (v : BitVec n) : W64 := v.setWidth 64

/-- Effective address of format C: base plus displacement, modulo 2^64 (03 R61). -/
def Arch.ea (a : Arch) (base : BitVec 5) (disp : BitVec 16) : W64 := a.getG base + sext disp

/-- Effective address of format A: a plus b. -/
def Arch.eax (a : Arch) (x y : BitVec 5) : W64 := a.getG x + a.getG y

/-- Set the condition code. -/
def Arch.setCc (a : Arch) (cc : BitVec 2) : Arch := { a with psw := { a.psw with cc := cc } }

def Arch.setIa (a : Arch) (ia : W64) : Arch := { a with psw := { a.psw with ia := ia } }

/-- Doubleword 0 of the PSW (02 Table COR-3). -/
def Psw.dw0 (p : Psw) : W64 :=
  p.pid ++ p.bank ++ p.state ++ p.asm ++ p.cc ++ BitVec.ofBool p.iom ++ BitVec.ofBool p.exm ++ BitVec.ofBool p.mcm ++
    BitVec.ofBool p.fom ++ BitVec.ofBool p.dom ++ BitVec.ofBool p.ct ++ (0 : BitVec 41)

/-- The PSW from its two doublewords. -/
def Psw.ofDws (d0 d1 : W64) : Psw :=
  { pid := d0.extractLsb' 56 8, bank := d0.extractLsb' 53 3, state := d0.extractLsb' 51 2, asm := d0.extractLsb' 49 2, cc := d0.extractLsb' 47 2,
    iom := d0.getLsbD 46, exm := d0.getLsbD 45, mcm := d0.getLsbD 44, fom := d0.getLsbD 43, dom := d0.getLsbD 42, ct := d0.getLsbD 41, ia := d1 }

/-- Does the image hold a value that LPSW refuses with a specification exception (02 R32): a reserved bit, STATE or ASM 0b11, an unaligned IA. -/
def pswBad (d0 d1 : W64) : Bool :=
  d0.extractLsb' 0 41 != 0 || d0.extractLsb' 51 2 == 3 || d0.extractLsb' 49 2 == 3 || d1.extractLsb' 0 2 != 0

/-! The instruction words, rebuilt from their fields (03 Table INS-1): they are stored with an intercept (05 Table STO-5). The first word is the upper half. -/

def wordsA (op minor : Nat) (t a b c : BitVec 5) : W64 :=
  BitVec.ofNat 64 ((op * 2 ^ 26 + t.toNat * 2 ^ 21 + a.toNat * 2 ^ 16 + b.toNat * 2 ^ 11 + c.toNat * 2 ^ 6 + minor) * 2 ^ 32)
def wordsB (op : Nat) (t a : BitVec 5) (imm : BitVec 16) : W64 :=
  BitVec.ofNat 64 ((op * 2 ^ 26 + t.toNat * 2 ^ 21 + a.toNat * 2 ^ 16 + imm.toNat) * 2 ^ 32)
def wordsD (op : Nat) (off : BitVec 26) : W64 := BitVec.ofNat 64 ((op * 2 ^ 26 + off.toNat) * 2 ^ 32)
def wordsE (op sub : Nat) (t a : BitVec 5) (sys : BitVec 10) : W64 :=
  BitVec.ofNat 64 ((op * 2 ^ 26 + sub * 2 ^ 20 + t.toNat * 2 ^ 15 + a.toNat * 2 ^ 10 + sys.toNat) * 2 ^ 32)
def wordsLI (op sub : Nat) (t a : BitVec 5) (rsv : BitVec 11) (imm : BitVec 32) : W64 :=
  BitVec.ofNat 64 ((op * 2 ^ 26 + t.toNat * 2 ^ 21 + a.toNat * 2 ^ 16 + sub * 2 ^ 11 + rsv.toNat) * 2 ^ 32 + imm.toNat)
def wordsLS (op sub : Nat) (b1 b2 : BitVec 5) (l1 l2 : BitVec 4) (d1 d2 : BitVec 16) : W64 :=
  BitVec.ofNat 64 ((op * 2 ^ 26 + b1.toNat * 2 ^ 21 + b2.toNat * 2 ^ 16 + l1.toNat * 2 ^ 12 + l2.toNat * 2 ^ 8 + sub) * 2 ^ 32 + d1.toNat * 2 ^ 16 + d2.toNat)

end Sys2Proof.Machine
end

