-- ==== Sys2Proof/Machine/Flags.lean ====
section
/-! DEFINITION. Condition codes (03 Table INS-4) and signed overflow (04 R94). -/

namespace Sys2Proof.Machine

/-- Does a true result fit in a signed width. -/
def fitsSigned (w : Nat) (x : Int) : Bool := decide (-(2 ^ (w - 1) : Int) ≤ x) && decide (x < 2 ^ (w - 1))

/-- Key A without overflow: zero, negative, positive. -/
def ccSign (x : Int) : BitVec 2 := if x = 0 then 0 else if x < 0 then 1 else 2

/-- A signed result of width `w`: its value reduced modulo 2^w and sign-extended, CC by key A, and whether it overflowed (04 R93, R94). -/
def arith (w : Nat) (x : Int) : W64 × BitVec 2 × Bool :=
  let r := BitVec.ofInt w x
  if fitsSigned w x then (r.signExtend 64, ccSign x, false) else (r.signExtend 64, 3, true)

/-- Key Cm: equal, low, high. -/
def ccCmp (x y : Int) : BitVec 2 := if x = y then 0 else if x < y then 1 else 2

/-- Key L: zero, nonzero. -/
def ccLogic (x : W64) : BitVec 2 := if x = 0 then 0 else 1

end Sys2Proof.Machine
end

