-- ==== Sys2Proof/Machine/Storage.lean ====
section
/-! DEFINITION. Storage accesses of a logical core: the two translation stages (05 R120 to R130), loads with forwarding from held stores, held stores and their drain (07 R170). -/

namespace Sys2Proof.Machine

/-- Why an access fails: a program exception with its access detail and virtual address (R129), an intercept of the monitor for stage 2 (R127), or poisoned data at an absolute address (20 R441). -/
inductive SFail where
  | prog (code : BitVec 16) (detail : Byte) (va : W64)
  | icpt (detail level : Byte) (va pra : W64)
  | poison (abs acc reason : Nat)
deriving DecidableEq, Repr

/-- The outcome of a step of an access: a value, a failure, or a wait for a message. -/
inductive SRes (α : Type) where
  | ok (s : State) (a : α)
  | fail (s : State) (f : SFail)
  | wait (s : State)

/-- Go on with a value. -/
def SRes.bind {α β : Type} (x : SRes α) (f : State → α → SRes β) : SRes β :=
  match x with
  | .ok s a => f s a
  | .fail s e => .fail s e
  | .wait s => .wait s

/-- Who makes an access: the logical core, and the PID, state, address-space mode and control elements in force (R120, R197). -/
structure XCtx where
  lc : Nat
  pid : Nat
  st : Nat
  asm : Nat
  pasce : W64
  sasce : W64
  psce : W64
deriving DecidableEq, Repr

/-- The context of a core as its PSW stands. -/
def Core.xctx (c : Core) (lc : Nat) : XCtx :=
  { lc := lc, pid := c.arch.psw.pid.toNat, st := c.arch.psw.state.toNat, asm := c.arch.psw.asm.toNat,
    pasce := c.arch.getSr 0x30, sasce := c.arch.getSr 0x31, psce := c.arch.getSr 0x32 }

/-- The access detail byte (Table STO-6). -/
def detailByte (acc lvl why : Nat) : Byte := BitVec.ofNat 8 (acc * 64 + lvl * 16 + why)

/-! Held stores (07 R170) -/

/-- Does a store-buffer entry hold the byte. -/
def StEnt.covers (e : StEnt) (a : Nat) : Bool := decide (e.addr ≤ a) && decide (a < e.addr + 64) && e.mask.getLsbD (a - e.addr)

def StEnt.byte (e : StEnt) (a : Nat) : Byte := BitVec.ofNat 8 (e.data.toNat / 2 ^ (8 * (63 - (a - e.addr))))

/-- The byte a core sees: its newest held store, else what the line holds. -/
def fwdByte (buf : List StEnt) (a : Nat) (d : Byte) : Byte := buf.foldl (fun b e => if e.covers a then e.byte a else b) d

/-- Put one byte into an entry. -/
def StEnt.put (e : StEnt) (a : Nat) (b : Byte) : StEnt :=
  { e with mask := e.mask ||| (1 <<< (a - e.addr)), data := putField e.data (8 * (63 - (a - e.addr)) + 7) (8 * (63 - (a - e.addr))) b.toNat }

/-- Add a byte to the buffer: merged into the interval's entry of the same 64-byte block, else a new entry (R170). -/
def stPut (buf : List StEnt) (a : Nat) (b : Byte) (pid : BitVec 8) : List StEnt :=
  let blk := a / 64 * 64
  if buf.any (fun e => !e.conf && e.addr == blk) then buf.map (fun e => if !e.conf && e.addr == blk then e.put a b else e)
  else buf ++ [({ addr := blk, mask := 0, data := 0, pid := pid, conf := false } : StEnt).put a b]

def stPutAll (buf : List StEnt) (a : Nat) (pid : BitVec 8) : List Byte → List StEnt
  | [] => buf
  | b :: r => stPutAll (stPut buf a b pid) (a + 1) pid r

/-! Access to a line -/

/-- What an absolute access needs: the line with the right, or a failure reported against `va` (R133, R138). -/
def State.reach4 (s : State) (abs : Nat) (pid lc stype : Nat) (need : Need) (acc why : Nat) (va : W64) : SRes CLine :=
  match s.acquire (abs / 256) pid lc stype need with
  | .ok s c => .ok s c
  | .refused s => .fail s (.prog 5 (detailByte acc 0 why) va)
  | .poison s why => .fail s (.poison abs acc why)
  | .noHome => .fail s (.prog 5 (detailByte acc 0 7) va)
  | .wait s => .wait s

/-- A doubleword of a translation table, read coherently; a core's own store is seen once it is confirmed (R125). -/
def State.readEntry (s : State) (x : XCtx) (abs pid acc : Nat) (va : W64) : SRes W64 :=
  (s.reach4 abs pid x.lc 0 .rd acc 6 va).bind fun s c =>
    let buf := ((s.core x.lc).stbuf).filter (fun e => e.conf)
    .ok s (BitVec.ofNat 64 (packBytes ((List.range 8).map (fun i => fwdByte buf (abs + i) (lineByte c.data (abs % 256 + i))))))

/-! Table walks -/

/-- Does a table entry with V = 1 break the format (R124). -/
def entryBad (lvl : Nat) (stage2 : Bool) (e : W64) : Bool :=
  let leaf := e.getLsbD 62
  e.extractLsb' 56 2 != 0 || e.extractLsb' 8 4 != 0 || (e.extractLsb' 0 8 != 0 && !(lvl == 4 && !leaf)) ||
  (leaf && lvl == 4) || (!leaf && lvl == 1) ||
  (leaf && lvl == 3 && e.extractLsb' 12 18 != 0) || (leaf && lvl == 2 && e.extractLsb' 12 8 != 0) ||
  (!leaf && lvl == 3 && e.getLsbD 12) ||
  (!leaf && e.extractLsb' 58 4 != 0) || (stage2 && e.getLsbD 58) ||
  (leaf && !e.getLsbD 61 && e.getLsbD 60)

/-- The index of an address in a table of level `lvl` (Table STO-2). -/
def walkIdx (lvl : Nat) (va : Nat) : Nat :=
  match lvl with
  | 4 => bits va 63 47
  | 3 => bits va 46 30
  | 2 => bits va 29 20
  | _ => bits va 19 12

/-- Bytes that a leaf of a level maps, as a power of two. -/
def leafBits (lvl : Nat) : Nat := match lvl with | 3 => 30 | 2 => 20 | _ => 12

/-- Does a leaf give the right that an access needs, apart from U (R125, R126). -/
def leafHas (e : W64) : Need → Bool
  | .rd | .cr => e.getLsbD 61
  | .wr | .cw => e.getLsbD 60
  | .fx => e.getLsbD 59
  | .at => e.getLsbD 61 && e.getLsbD 60

/-- How a walk ends: the leaf, the translated address and the size of the leaf's page as a power of two, or the level (0 for L1 to 3 for L4) and the reason of Table STO-6. -/
inductive Walk where
  | leaf (e : W64) (addr size : Nat)
  | stop (lvl why : Nat)
deriving DecidableEq, Repr

/-- Walk a table of four levels. `rd` reads the entry at an address for a level; `limit` is the number of entries of the table at hand. -/
def walkTable (rd : State → Nat → Nat → SRes W64) (stage2 : Bool) (va : Nat) : Nat → State → Nat → Nat → SRes Walk
  | 0, s, _, _ => .ok s (.stop 0 1)
  | lvl + 1, s, table, limit =>
    let i := walkIdx (lvl + 1) va
    if limit ≤ i then .ok s (.stop lvl 2) else
      (rd s (lvl + 1) (table + 8 * i)).bind fun s e =>
        if !e.getLsbD 63 then .ok s (.stop lvl 1)
        else if entryBad (lvl + 1) stage2 e then .ok s (.stop lvl 3)
        else if e.getLsbD 62 then .ok s (.leaf e (fieldOf e 55 12 * 4096 / 2 ^ leafBits (lvl + 1) * 2 ^ leafBits (lvl + 1) + va % 2 ^ leafBits (lvl + 1)) (leafBits (lvl + 1)))
        else walkTable rd stage2 va lvl s (fieldOf e 55 12 * 4096) (if lvl + 1 = 4 then 512 * (fieldOf e 7 0 + 1) else if lvl + 1 = 3 then 1024 else 256)

/-- Stage 2: a partition real address becomes absolute; any failure is an intercept (R126, R127). `need` is the right asked of the leaf, `acc` the original access, `level` the stage-1 table it names (0: the access itself). -/
def State.stage2 (s : State) (x : XCtx) (pra : Nat) (need : Need) (acc level : Nat) (va : W64) : SRes (Nat × W64 × Nat) :=
  let icpt := fun (lvl why : Nat) => SFail.icpt (detailByte acc lvl why) (BitVec.ofNat 8 level) va (BitVec.ofNat 64 pra)
  let rd := fun (s : State) (_ : Nat) (a : Nat) =>
    match s.readEntry x a 0 acc va with
    | .fail s (.prog _ d _) => SRes.fail s (.icpt d (BitVec.ofNat 8 level) va (BitVec.ofNat 64 pra))
    | r => r
  (walkTable rd true pra 4 s (fieldOf x.psce 55 12 * 4096) 512).bind fun s w =>
    match w with
    | .stop lvl why => .fail s (icpt lvl why)
    | .leaf e a z => if leafHas e need then .ok s (a, e, z) else .fail s (icpt 0 4)

/-- The ASID and root that an access uses (Table STO-1). -/
def XCtx.asce (x : XCtx) (need : Need) : W64 := if x.asm = 2 && need != .fx then x.sasce else x.pasce

/-- A TLB entry of the core for the page (R130). -/
def Core.tlbFind (c : Core) (pid asid : BitVec 8) (page : Nat) : Option TlbEnt :=
  c.tlb.find? (fun e => e.pid == pid && e.asid == asid && e.page == page)

/-- Rights of a TLB entry: U, RD, WR, X in bits 3 to 0. -/
def tlbHas (r : BitVec 4) (st : Nat) : Need → Bool
  | .rd | .cr => r.getLsbD 2 && (st != 0 || r.getLsbD 3)
  | .wr | .cw => r.getLsbD 1 && (st != 0 || r.getLsbD 3)
  | .fx => r.getLsbD 0 && (st != 0 || r.getLsbD 3)
  | .at => r.getLsbD 2 && r.getLsbD 1 && (st != 0 || r.getLsbD 3)

/-- Enter a piece of a combined translation in the TLB, with the size of the page that both stages map as one. -/
def State.tlbAdd (s : State) (x : XCtx) (va asce : W64) (abs : Nat) (e1 e2 : W64) (size : Nat) : State :=
  let t : TlbEnt :=
    { pid := BitVec.ofNat 8 x.pid, asid := asce.extractLsb' 56 8, size := size, page := va.toNat / 4096, frame := abs / 4096,
      rights := BitVec.ofBool (e1.getLsbD 58) ++ BitVec.ofBool (e1.getLsbD 61 && e2.getLsbD 61) ++ BitVec.ofBool (e1.getLsbD 60 && e2.getLsbD 60) ++ BitVec.ofBool (e1.getLsbD 59 && e2.getLsbD 59) }
  let old := fun (u : TlbEnt) => u.pid == t.pid && u.asid == t.asid && u.page == t.page
  s.updCore x.lc (fun c => { c with tlb := t :: c.tlb.filter (fun u => !old u) })

/-- What a translation through the tables gives: the absolute address, the leaves of both stages and the size of the page that they map as one. -/
structure Trans where
  abs : Nat
  e1 : W64
  e2 : W64
  size : Nat

/-- The stage-1 walk, its permission, then stage 2 of the leaf's address. -/
def State.walk1 (s : State) (x : XCtx) (va : W64) (need : Need) (asce : W64) (acc : Nat) : SRes Trans :=
  let rd := fun (s : State) (lvl : Nat) (a : Nat) =>
    if x.pid = 0 then s.readEntry x a 0 acc va
    else (s.stage2 x a .rd acc lvl va).bind fun s p => s.readEntry x p.1 x.pid acc va
  (walkTable rd false va.toNat 4 s (fieldOf asce 55 12 * 4096) (512 * (fieldOf asce 7 0 + 1))).bind fun s w =>
    match w with
    | .stop lvl why => .fail s (.prog 0x10 (detailByte acc lvl why) va)
    | .leaf e a z =>
      if !leafHas e need || (x.st = 0 && !e.getLsbD 58) then .fail s (.prog 4 (detailByte acc 0 4) va)
      else if x.pid = 0 then .ok s { abs := a, e1 := e, e2 := e, size := z }
      else (s.stage2 x a need acc 0 va).bind fun s p => .ok s { abs := p.1, e1 := e, e2 := p.2.1, size := min z p.2.2 }

/-- Translate in real mode: absolute for PID 0, through stage 2 for another (Table STO-1). -/
def State.realVa (s : State) (x : XCtx) (va : W64) (need : Need) : SRes Trans :=
  let acc := need.acc
  if fieldOf va 63 56 ≠ 0 then .fail s (.prog 5 (detailByte acc 0 8) va)
  else if x.pid = 0 then .ok s { abs := va.toNat, e1 := 0, e2 := 0, size := 56 }
  else (s.stage2 x va.toNat need acc 0 0).bind fun s p => .ok s { abs := p.1, e1 := 0, e2 := p.2.1, size := p.2.2 }

/-- Translate through the tables as they stand, for an engine that holds no TLB (08 R197). -/
def State.walkVa (s : State) (x : XCtx) (va : W64) (need : Need) : SRes Trans :=
  if x.asm = 0 then s.realVa x va need else s.walk1 x va need (x.asce need) need.acc

/-- Translate a virtual address to an absolute one (R120 to R129); what the tables gave enters the TLB. -/
def State.translate (s : State) (x : XCtx) (va : W64) (need : Need) : SRes Nat :=
  let acc := need.acc
  if x.asm = 0 then (s.realVa x va need).bind fun s r => .ok s r.abs
  else
    let asce := x.asce need
    let walk := (s.walk1 x va need asce acc).bind fun s r => .ok (s.tlbAdd x va asce r.abs r.e1 r.e2 r.size) r.abs
    match (s.core x.lc).tlbFind (BitVec.ofNat 8 x.pid) (asce.extractLsb' 56 8) (va.toNat / 4096) with
    | some t => if tlbHas t.rights x.st need then .ok s (t.frame * 4096 + va.toNat % 4096) else walk
    | none => walk

/-- Is a copy in O with the right that a store needs: its ownership is asked for when the store drains, for GNT leaves the copy in E and the store then makes it M (R170; 09 Tables COH-1, COH-2). -/
def CLine.ownedFor (c : CLine) (pid : Nat) (need : Need) : Bool :=
  c.st == .o && (need == .wr || need == .at) && c.pid.toNat == pid && rightsHave c.rights .wr

/-- The line of a translated access: a copy in O that a store may write stays as it is, else the line is brought in. -/
def State.lineFor (s : State) (x : XCtx) (va : W64) (need : Need) (abs : Nat) : SRes CLine :=
  let reach := s.reach4 abs x.pid x.lc (if need = .fx then 1 else 0) (if need = .at then .wr else need) need.acc 5 va
  match s.held (abs / 256) with
  | some c => if c.ownedFor x.pid need then .ok s c else reach
  | none => reach

/-- Translate and bring in the line of one address: the absolute address and the line. -/
def State.access (s : State) (x : XCtx) (va : W64) (need : Need) : SRes (Nat × CLine) :=
  (s.translate x va need).bind fun s abs => (s.lineFor x va need abs).bind fun s c => .ok s (abs, c)

/-- How many of `n` bytes from an address lie in its line. -/
def inLine (va : W64) (n : Nat) : Nat := min n (256 - va.toNat % 256)

/-- The bytes an access reads, the lower address first: at most two lines for an ordinary load (R65). -/
def State.loadBytes (s : State) (x : XCtx) : Nat → W64 → Nat → SRes (List Byte)
  | 0, _, _ => .ok s []
  | fuel + 1, va, n =>
    if n = 0 then .ok s [] else
      let k := inLine va n
      (s.access x va .rd).bind fun s p =>
        let here := (List.range k).map (fun i => fwdByte (s.core x.lc).stbuf (p.1 + i) (lineByte p.2.data (p.1 % 256 + i)))
        (State.loadBytes s x fuel (va + BitVec.ofNat 64 k) (n - k)).bind fun s rest => .ok s (here ++ rest)

/-- The places that a store of `n` bytes writes: every line is checked before anything is held (R65). -/
def State.checkStore (s : State) (x : XCtx) (need : Need) : Nat → W64 → Nat → SRes (List (Nat × Nat))
  | 0, _, _ => .ok s []
  | fuel + 1, va, n =>
    if n = 0 then .ok s [] else
      let k := inLine va n
      (s.access x va need).bind fun s p =>
        (State.checkStore s x need fuel (va + BitVec.ofNat 64 k) (n - k)).bind fun s rest => .ok s ((p.1, k) :: rest)

/-- Hold the bytes of a store at the places found. -/
def holdBytes (buf : List StEnt) (pid : BitVec 8) : List (Nat × Nat) → List Byte → List StEnt
  | [], _ => buf
  | (a, k) :: r, bs => holdBytes (stPutAll buf a pid (bs.take k)) pid r (bs.drop k)

/-- Store-buffer entries (R170). -/
def stbufMax : Nat := 80

/-- A store: checked as a whole, then held; it waits when all 80 entries are occupied (R170). -/
def State.storeBytes (s : State) (x : XCtx) (va : W64) (bs : List Byte) : SRes Unit :=
  (s.checkStore x .wr (bs.length / 256 + 2) va bs.length).bind fun s places =>
    let c := s.core x.lc
    let buf := holdBytes c.stbuf (BitVec.ofNat 8 x.pid) places bs
    if stbufMax < buf.length then .wait s else .ok (s.setCore x.lc { c with stbuf := buf }) ()

/-- A load of `n` bytes as a number. -/
def State.loadNat (s : State) (x : XCtx) (va : W64) (n : Nat) : SRes Nat :=
  (s.loadBytes x (n / 256 + 2) va n).bind fun s bs => .ok s (packBytes bs)

/-! Draining (07 R170, 09 R221) -/

/-- Write an entry's bytes into its line. -/
def StEnt.merge (e : StEnt) (d : Line) : Line :=
  (List.range 64).foldl (fun d i => if e.mask.getLsbD i then setLineByte d (e.addr % 256 + i) (e.byte (e.addr + i)) else d) d

/-- A TLB operation that waits is over when no access that used the removed entries is left; one of another complex is answered then (05 R131, 10 Table FAB-5). -/
def State.tlbDone (s : State) (keep : TlbWait → TlbWait) : State :=
  let ws := s.mem.tlbWaits.map keep
  let ended := fun (w : TlbWait) => w.stores.isEmpty && w.atoms.isEmpty
  let s := s.updMem (fun m => { m with tlbWaits := ws.filter (fun w => !ended w) })
  (ws.filter (fun w => ended w && w.cx != s.cxid)).foldl (fun s w => s.send .fab w.cx 0x4B [w.tag]) s

/-- One of a core's held stores has gone: the TLB operations that wait for it count it. -/
def State.storeGone (s : State) (lc : Nat) : State :=
  if s.mem.tlbWaits.isEmpty then s else
    s.tlbDone (fun w => { w with stores := (w.stores.map (fun p => if p.1 = lc then (p.1, p.2 - 1) else p)).filter (fun p => p.2 != 0) })

/-- A core's held stores that were not confirmed are discarded, or its atomic has ended: what the TLB operations wait for follows. -/
def State.accessGone (s : State) (lc : Nat) : State :=
  if s.mem.tlbWaits.isEmpty then s else
    let n := (s.core lc).stbuf.length
    let atom := match (s.core lc).wait with
      | .atom _ => true
      | _ => false
    s.tlbDone (fun w => { w with stores := (w.stores.map (fun p => if p.1 = lc then (p.1, min p.2 n) else p)).filter (fun p => p.2 != 0),
                                 atoms := w.atoms.filter (fun k => k != lc || atom) })

/-- Drain the oldest entry if it is confirmed: the line is brought in with ownership and becomes M. `false` when it must wait. -/
def State.drainOne (s : State) (lc : Nat) : State × Bool :=
  match (s.core lc).stbuf with
  | [] => (s, false)
  | e :: r =>
    if !e.conf then (s, false) else
      let pop := fun (s : State) => (s.updCore lc (fun c => { c with stbuf := r })).storeGone lc
      match s.acquire (e.addr / 256) e.pid.toNat lc 0 .wr with
      | .ok s c => (pop (s.updMem (fun m => { m with lines := m.lines.put (e.addr / 256) { c with st := .m, data := e.merge c.data, stype := 0 } })), true)
      | .refused s => (pop s, true)
      | .poison s _ => (pop s, true)
      | .noHome => (pop s, true)
      | .wait s => (s, false)

/-- The store for which a core asked for a line is made as the line arrives writable (09 Table COH-10 step 4). -/
def State.drainLine (s : State) (lc line : Nat) : State :=
  match (s.core lc).stbuf, s.held line with
  | e :: _, some c => if e.addr / 256 = line && c.serves e.pid.toNat .wr then (s.drainOne lc).1 else s
  | _, _ => s

/-- Drain confirmed entries until none is left or one must wait. -/
def State.drain (s : State) (lc : Nat) : Nat → State
  | 0 => s
  | n + 1 => let p := s.drainOne lc; if p.2 then State.drain p.1 lc n else p.1

/-- Drain everything confirmed. -/
def State.drainAll (s : State) (lc : Nat) : State := s.drain lc stbufMax

/-- The byte of storage that every agent sees: the line's copy in this complex, else DRAM. -/
def State.byteAt (s : State) (a : Nat) : Byte :=
  match s.held (a / 256) with
  | some c => lineByte c.data (a % 256)
  | none => s.mem.byte a

end Sys2Proof.Machine
end

