-- ==== Sys2Proof/Machine/Enter.lean ====
section
/-! DEFINITION. How the core runs an instruction: checkpoint intervals (07 R166 to R173), the checks before it in the order of 03 Table INS-3, taking an interruption (02 R47 to R52), retiring. -/

namespace Sys2Proof.Machine

/-! Trace (22 R475) -/

/-- Put a record in a cluster's ring. Once the ring has wrapped, its oldest slot holds the gap marker with the records lost since EN was set. -/
def State.tracePut (s : State) (cl : Nat) (r : BitVec 128) : State :=
  let w := s.fld F.SVC_TRCTL_WR cl
  let n := s.svc.traceLost.get 0 cl + 1
  let tr := s.svc.trace.put (cl * 4096 + w) r
  let tr := if 4096 < n then tr.put (cl * 4096 + (w + 1) % 4096) (BitVec.ofNat 128 (15 * 2 ^ 124 + min (n - 4095) (2 ^ 32 - 1) * 2 ^ 64)) else tr
  let s := { s with svc := { s.svc with trace := tr, traceLost := s.svc.traceLost.put cl n } }
  let s := s.setFld F.SVC_TRCTL_WR ((w + 1) % 4096) cl
  if n = 4097 then s.flt 16 3 cl else s

/-- Does a cluster's ring record a PID: EN, the filter, and no sleep of the trace buffers (18 R407). -/
def State.traceOn (s : State) (cl pid : Nat) : Bool :=
  s.flag F.SVC_TRCTL_EN cl && (!s.flag F.SVC_TRCTL_PIDF cl || s.fld F.SVC_TRCTL_PID cl == pid) && s.fld F.CLK_SBLK_TRACE == 0

/-- A trace record of the core's running interval, if its cluster records it. -/
def State.trace (s : State) (lc kind info : Nat) (addr : W64) : State :=
  let c := s.core lc
  if s.traceOn (c.phys / 7) c.arch.psw.pid.toNat then
    s.setCore lc { c with trbuf := c.trbuf ++ [BitVec.ofNat 128 (kind * 2 ^ 124 + lc * 2 ^ 118 + c.arch.psw.pid.toNat * 2 ^ 110 + bits s.fab.tb.toNat 25 12 * 2 ^ 96 + info * 2 ^ 64 + addr.toNat)] }
  else s

/-! Checkpoint intervals -/

/-- Does the core compare in per-cycle mode: the monitor, a retry, or the partition's choice (07 R166). -/
def Core.perCycle (c : Core) : Bool := c.arch.psw.pid == 0 || c.retry != 0 || !c.sig

/-- The mode and cadence that TAN_MODE gives a PID; PID 0 and 255 have none (07 R166). -/
def State.modeOf (s : State) (pid : Nat) : Bool × Nat :=
  let lo := 56 - 8 * (pid % 8)
  let w := s.reg (0x500100 + pid / 8 * 8)
  if pid = 0 || pid = 255 then (false, 64) else (fieldOf w (lo + 2) (lo + 2) == 1, 64 * 2 ^ fieldOf w (lo + 1) lo)

/-- Confirm the core's running interval (07 R167): checkpoint, trace, range operations submitted (08 R196), the PID's mode (R169), the retry's progress (R174, R175), a waiting sparing request (R180). -/
def State.confirmCore (s : State) (lc : Nat) : State :=
  let c := s.core lc
  let n := c.retired + c.entries
  let md := s.modeOf c.arch.psw.pid.toNat
  let whole := decide (c.retryLeft ≤ n)
  let recovered := c.retry != 0 && whole
  let d := { c.confirm with sig := md.1, cad := md.2, retryLeft := c.retryLeft - n, replay := if whole then [] else c.replay,
                            retry := if recovered then 0 else c.retry, retryStart := if recovered then none else c.retryStart,
                            run := if c.spareReq && !c.broken && c.run = .running then .held else c.run }
  let s := s.setCore lc d
  let s := if whole then s.dropLog lc c.replay else s
  let s := c.trbuf.foldl (fun s r => s.tracePut (c.phys / 7) r) s
  let s := s.updMem (fun m => { m with range := m.range.map (fun p => (p.1, p.2.map (fun o => if o.lc = lc then { o with submitted := true } else o))) })
  let s := { s with svc := { s.svc with ckptCount := s.svc.ckptCount.upd 0 c.phys (fun k => k + 1) } }
  if recovered then s.flt 2 0 c.phys else s

/-- A SYNC that has retired completes once its cadence is confirmed and its stores are visible (07 R168, 09 R222). -/
def State.endSync (s : State) (lc : Nat) : State :=
  if (s.core lc).wait != .sync then s else
    let s := if (s.core lc).begun then s.confirmCore lc else s
    let s := s.drainAll lc
    if (s.core lc).stbuf.isEmpty then s.updCore lc (fun c => { c with wait := .none }) else s

/-- What an instruction needs beside its operation: length, words, the lowest state that may run it, whether its opcode or operand is undefined, whether a reserved field or value or alignment is broken, the STO_ICTL class, whether it is checkpoint-bound (07 R171) or an interval of its own, or needs an input-log entry, or is SYNC, which ends its cadence (07 R168). -/
structure Pre where
  ilc : Nat := 4
  words : W64 := 0
  low : Nat := 0
  op : Bool := false
  pv : Bool := false
  sp : Bool := false
  ictl : Option Nat := none
  bound : Bool := false
  alone : Bool := false
  logs : Bool := false
  sync : Bool := false

/-- How the operation of an instruction ends: completed, branched, PSW loaded, waiting, stopped by an access, suppressed with a code, completed with a code; `gone`: the core has left the instruction stream. -/
inductive IRes where
  | done (s : State)
  | jump (s : State) (ia : W64)
  | loaded (s : State)
  | stay (s : State)
  | fail (s : State) (f : SFail)
  | exc (s : State) (code : Nat)
  | excFp (s : State) (dxc : Nat)
  | doneExc (s : State) (code : Nat) (dxc : Nat)
  | intr (s : State) (q : IntReq)
  | gone (s : State)

/-- A storage access inside an operation. -/
def SRes.run {α : Type} (x : SRes α) (f : State → α → IRes) : IRes :=
  match x with
  | .ok s a => f s a
  | .fail s e => .fail s e
  | .wait s => .stay s

/-! Taking an interruption (02 R49 to R52) -/

/-- Check stop of a logical core (02 R48): it stops, its state is kept, a severe fault is counted, a class 0x01 machine check is held. REASON 1: B7 exhausted; 2: prefix failure. -/
def State.checkStop (s : State) (lc reason : Nat) (oldIa : W64) : State :=
  let c := s.core lc
  let c := { c with arch := c.arch.setIa oldIa }
  let s := s.setCore lc { c.confirm with run := .checkStop }
  let s := s.holdMc 1 lc (BitVec.ofNat 64 (1 * 2 ^ 56 + lc * 2 ^ 48 + reason * 2 ^ 40 + c.phys * 2 ^ 34))
  s.flt 2 8 c.phys

/-- Offsets of the old PSW in the prefix area (Table COR-5); the new PSW lies 16 bytes above it. -/
def IntReq.old : IntReq → Nat
  | .machine _ _ => 0x080
  | .program _ _ _ _ _ => 0x060
  | .intercept .. => 0x0C0
  | .svc _ => 0x040
  | .external _ _ => 0x020
  | .io _ _ => 0x0A0
  | .restart => 0x000

/-- The identification stores of a class: offset and bytes (Table COR-5, 05 Table STO-5, 20 R438, 23 R489). A program interruption stores an access detail and an address for the codes that have them (05 R129, 02 R45), and leaves these places as they were for the others (log 50). -/
def IntReq.ident (q : IntReq) (pid : BitVec 8) : List (Nat × List Byte) :=
  match q with
  | .machine id abs => [(0x118, toBytes 8 id.toNat)] ++ (match abs with | some a => [(0x170, toBytes 8 a.toNat)] | none => [])
  | .program code ilc detail bank addr =>
    if code = 0x11 then [(0x108, toBytes 2 code.toNat ++ [BitVec.ofNat 8 ilc, detail, bank.setWidth 8]), (0x110, toBytes 8 addr.toNat)]
    else if code = 4 || code = 5 || code = 0x10 then [(0x108, toBytes 2 code.toNat ++ [BitVec.ofNat 8 ilc, detail]), (0x110, toBytes 8 addr.toNat)]
    else [(0x108, toBytes 2 code.toNat ++ [BitVec.ofNat 8 ilc])]
  | .intercept reason words detail level bankByte va pra =>
    [(0x108, toBytes 2 0x12), (0x140, toBytes 8 words.toNat ++ [pid, reason, detail, level, bankByte]), (0x150, toBytes 8 va.toNat ++ toBytes 8 pra.toNat)]
  | .svc imm => [(0x104, toBytes 2 imm.toNat)]
  | .external code aux =>
    [(0x100, toBytes 2 code.toNat)] ++ (if code = 0x1601 then [(0x160, toBytes 8 aux.toNat)] else if code = 0x1701 then [(0x168, toBytes 8 aux.toNat)] else [])
  | .io _ blk => [(0x120, toBytes 32 blk.toNat)]
  | .restart => []

/-- Is the class always taken in the monitor area. -/
def IntReq.monitor : IntReq → Bool
  | .machine _ _ => true
  | .intercept .. => true
  | .restart => true
  | _ => false

/-- The class number that a trace record carries, with the code (log 13). -/
def IntReq.info : IntReq → Nat
  | .machine id _ => 1 * 65536 + fieldOf id 63 56
  | .program code _ _ _ _ => 2 * 65536 + code.toNat
  | .intercept .. => 2 * 65536 + 0x12
  | .svc imm => 3 * 65536 + imm.toNat
  | .external code _ => 4 * 65536 + code.toNat
  | .io isc _ => 5 * 65536 + isc.toNat
  | .restart => 6 * 65536

/-- How an entry's accesses to one area end: the places to store and the new PSW; a failure with the access detail and the address; a wait. -/
inductive AreaRes where
  | ok (s : State) (places : List (List (Nat × Nat) × List Byte)) (d0 d1 : W64)
  | fail (s : State) (detail : Byte) (pra : W64)
  | wait (s : State)

/-- The access detail of a failed prefix-area access, with its ACC (05 Table STO-5). -/
def SFail.areaDetail (f : SFail) (acc : Nat) : Byte :=
  match f with
  | .prog _ d _ => putField d 7 6 acc
  | .icpt d _ _ _ => putField d 7 6 acc
  | .poison _ _ _ => BitVec.ofNat 8 (acc * 64)

/-- Check that every store of an entry can be made. -/
def State.areaStores (s : State) (x : XCtx) (base : Nat) : List (Nat × List Byte) → AreaRes
  | [] => .ok s [] 0 0
  | (off, bs) :: r =>
    match s.checkStore x .wr 3 (BitVec.ofNat 64 (base + off)) bs.length with
    | .wait s => .wait s
    | .fail s f => .fail s (f.areaDetail 2) (BitVec.ofNat 64 (base + off))
    | .ok s pl =>
      match State.areaStores s x base r with
      | .ok s ps _ _ => .ok s ((pl, bs) :: ps) 0 0
      | e => e

/-- Check the stores of an entry, then fetch and check the new PSW (R51). -/
def State.areaCheck (s : State) (x : XCtx) (base new : Nat) (partition : Bool) (stores : List (Nat × List Byte)) : AreaRes :=
  match s.areaStores x base stores with
  | .ok s ps _ _ =>
    match s.loadNat x (BitVec.ofNat 64 (base + new)) 16 with
    | .wait s => .wait s
    | .fail s f => .fail s (f.areaDetail 1) (BitVec.ofNat 64 (base + new))
    | .ok s v =>
      let d0 := BitVec.ofNat 64 (v / 2 ^ 64)
      let d1 := BitVec.ofNat 64 v
      if pswBad d0 d1 || (partition && d0.extractLsb' 51 2 == 2) then .fail s 0 (BitVec.ofNat 64 (base + new)) else .ok s ps d0 d1
  | e => e

/-- The B7 window that an entry selects (R47): window 0 from another bank and for a restart, else one window on; none when B7 is exhausted. -/
def Arch.trapWindow (a : Arch) (restart : Bool) : Option Arch :=
  if a.psw.bank ≠ 7 || restart then some (a.setWin 7 0 1)
  else if 4 ≤ a.nres 7 || 3 ≤ a.cwp 7 then none
  else some (a.setWin 7 (a.cwp 7 + 1) (a.nres 7 + 1))

/-- The outcome of an attempt to enter: entered; failed with detail and address; B7 exhausted; waiting for storage. -/
inductive Entry where
  | ok (s : State)
  | fail (s : State) (detail : Byte) (pra : W64)
  | exhausted
  | wait (s : State)

/-- The accesses of an entry at one level, with the core's translation off (R51): the old PSW and the identification are stored, the new PSW is fetched. -/
def State.entryArea (s : State) (lc : Nat) (q : IntReq) (oldIa : W64) (monitor : Bool) : AreaRes :=
  let c := s.core lc
  let a := c.arch
  let base := (if monitor then fieldOf (a.getSr 2) 55 13 else fieldOf (a.getSr 1) 55 13) * 8192
  let x : XCtx := { c.xctx lc with asm := 0, pid := if monitor then 0 else a.psw.pid.toNat, st := 2 }
  let oldp : Psw := { a.psw with ia := oldIa }
  s.areaCheck x base (q.old + 16) (!monitor) ((q.old, toBytes 8 oldp.dw0.toNat ++ toBytes 8 oldIa.toNat) :: q.ident a.psw.pid)

/-- Enter an interruption at one level: stores, new PSW with BANK 7, B7's window, PID (R51). It waits while its stores find no free store-buffer entry (07 R170). For an IEEE exception DXC is written (04 R107). -/
def State.enterAt (s : State) (lc : Nat) (q : IntReq) (oldIa : W64) (monitor : Bool) : Entry :=
  let a := (s.core lc).arch
  match a.trapWindow (match q with | .restart => true | _ => false) with
  | none => .exhausted
  | some a1 =>
    match s.entryArea lc q oldIa monitor with
    | .wait s => .wait s
    | .fail s d p => .fail s d p
    | .ok s ps d0 d1 =>
      let n := { Psw.ofDws d0 d1 with bank := 7, pid := if monitor then 0 else a.psw.pid }
      let c := (s.core lc).pmcNow 0x0F 1
      let buf := ps.foldl (fun b p => holdBytes b (if monitor then 0 else a.psw.pid) p.1 p.2) c.stbuf
      if stbufMax < buf.length then .wait s else
      let a2 := match q with
        | .program 0x0C _ _ _ dxc => c.arch.setSr 0x0C (putField (c.arch.getSr 0x0C) 15 8 dxc.toNat)
        | _ => c.arch
      .ok ((s.setCore lc { c with arch := { a2 with psw := n, wst := a1.wst }, stbuf := buf }).trace lc 2 q.info n.ia)

/-- Is an intercept or the monitor's own state the level that takes the class (Table COR-5). -/
def IntReq.toMonitor (q : IntReq) (p : Psw) : Bool := q.monitor || p.state == 2

/-- An entry has been made by a core that ran with PID `pid0`: it belongs to the interval that begins with it, which it ends where PSW.PID has changed or the core compares in every cycle (07 R166, R168). A core whose lock-step is broken confirms at once (07 R178). -/
def State.entered (s : State) (lc : Nat) (pid0 : BitVec 8) : State :=
  let s := s.updCore lc (fun c => { c with entries := c.entries + 1, bounded := c.bounded || c.perCycle || c.arch.psw.pid != pid0 })
  if (s.core lc).broken then (s.confirmCore lc).drainAll lc else s

/-- What came of taking an interruption: the core has entered its handler; it has entered the monitor instead, for an invalid prefix; it has stopped; it waits for storage. -/
inductive Taken where
  | entered | toMonitor | stopped | waits
deriving DecidableEq, Repr

/-- Take an interruption (R51, R48). `words`: what an intercept for an invalid prefix stores at 0x140. -/
def State.takeInt (s : State) (lc : Nat) (q : IntReq) (oldIa words : W64) : State × Taken :=
  let p := (s.core lc).arch.psw
  match s.enterAt lc q oldIa (q.toMonitor p) with
  | .ok s => (s.entered lc p.pid, .entered)
  | .wait s => (s, .waits)
  | .exhausted => (s.checkStop lc 1 oldIa, .stopped)
  | .fail s d a =>
    if q.toMonitor p then (s.checkStop lc 2 oldIa, .stopped) else
      match s.enterAt lc (.intercept 2 words d 0 0 0 a) oldIa true with
      | .ok s => (s.entered lc p.pid, .toMonitor)
      | .wait s => (s, .waits)
      | .exhausted => (s.checkStop lc 1 oldIa, .stopped)
      | .fail s _ _ => (s.checkStop lc 2 oldIa, .stopped)

/-- A failed access as the interruption it raises (05 R129, R127, 20 R441), and the count of consumed poison (20 R441). -/
def SFail.toInt (f : SFail) (lc ilc : Nat) (words : W64) : IntReq :=
  match f with
  | .prog code d va => .program code ilc d 0 va
  | .icpt d lvl va pra => .intercept 3 words d lvl 0 va pra
  | .poison a acc why => .machine (BitVec.ofNat 64 (3 * 2 ^ 56 + lc * 2 ^ 48 + why * 2 ^ 40 + acc * 2 ^ 38)) (some (BitVec.ofNat 64 a))

def State.countPoison (s : State) (f : SFail) : State :=
  match f with
  | .poison a _ _ => s.flt 1 7 0 none (BitVec.ofNat 64 a)
  | _ => s

/-! Running an instruction -/

/-- May the core run an instruction now (20 R494, R443). -/
def State.canRun (s : State) (lc : Nat) : Bool := s.operating lc && !s.flag F.FLT_FENCE_CXF && !s.svc.resetHold

/-- Fetch check of an instruction's words (03 Table INS-3 priority 1; 05 R125). -/
def State.fetch (s : State) (lc : Nat) (ilc : Nat) : SRes Unit :=
  let c := s.core lc
  let x := c.xctx lc
  (s.access x c.arch.psw.ia .fx).bind fun s _ =>
    if ilc = 8 then (s.access x (c.arch.psw.ia + 4) .fx).bind fun s _ => .ok s () else .ok s ()

/-- The words of an instruction whose fetch failed, as an intercept stores them: a word that was not fetched is zero (05 Table STO-5). -/
def State.fetchedWords (s : State) (lc : Nat) (words : W64) : W64 :=
  match s.access ((s.core lc).xctx lc) (s.core lc).arch.psw.ia .fx with
  | .ok _ _ => words &&& 0xFFFFFFFF00000000
  | _ => 0

/-- End the running interval before an instruction that needs it: its comparison finds no difference, else CHECKPOINT_COMPARISON would have come (log 10). A checkpoint-bound instruction also waits until the stores are visible (09 R222), every instruction until a SYNC before it has completed. -/
def State.beginIns (s : State) (lc : Nat) (p : Pre) : State :=
  let s := s.endSync lc
  let c := s.core lc
  let s := if c.bounded || ((p.bound || p.alone) && c.begun) || (p.logs && decide (64 ≤ c.inlog.length)) then s.confirmCore lc else s
  if p.bound then s.drainAll lc else s

/-- After retirement of an instruction that ran in the architected state `b`: the next address, the count of the interval, and whether it ends here (07 R166, R168, R178; 22 R471). -/
def State.retire (s : State) (lc : Nat) (p : Pre) (b : Arch) (ia : W64) : State :=
  let c := s.core lc
  let c := (({ c with arch := c.arch.setIa ia, retired := c.retired + 1, lastIlc := p.ilc, wait := if p.sync then .sync else .none } : Core).countIns b).engine
  let full := decide (64 ≤ (c.stbuf.filter (fun e => !e.conf)).length)
  let ends := c.perCycle || decide (c.cad ≤ c.retired) || full || p.bound || p.alone || p.sync || c.arch.psw.pid != b.psw.pid
  let s := s.setCore lc { c with bounded := ends }
  if c.broken then
    let s := (s.confirmCore lc).drainAll lc
    if c.haltPend then s.updCore lc (fun c => { c with haltPend := false, run := .halted }) else s
  else s

/-- A suppressed or nullified instruction: its interruption is taken with the old PSW at the instruction. The interval before it is confirmed. -/
def State.suppress (s : State) (lc : Nat) (words : W64) (q : IntReq) : State :=
  let s := if (s.core lc).begun then s.confirmCore lc else s
  let ia := (s.core lc).arch.psw.ia
  (s.takeInt lc q ia words).1

/-- A program interruption of a completed instruction that its partition area could not take stays pending until the monitor returns (02 R51). -/
def State.keepProg (s : State) (lc : Nat) (q : IntReq) (words : W64) : State :=
  s.updCore lc (fun c => { c with pendProg := some (q, words), kept := some .program })

/-- A completed instruction that also raises an exception: the interruption is taken with the old PSW at the next instruction; while its entry waits, or until the monitor has mended the prefix, it is pending. `before` is the core before the instruction. -/
def State.completeInt (s : State) (lc : Nat) (p : Pre) (before : Core) (code dxc : Nat) : State :=
  let ia := before.arch.psw.ia + BitVec.ofNat 64 p.ilc
  let q : IntReq := .program (BitVec.ofNat 16 code) p.ilc 0 0 (BitVec.ofNat 64 dxc)
  let s1 := (s.retire lc p before.arch ia).confirmCore lc
  let r := s1.takeInt lc q ia p.words
  match r.2 with
  | .waits => r.1.updCore lc (fun c => { c with pendProg := some (q, p.words) })
  | .toMonitor => r.1.keepProg lc q p.words
  | _ => r.1

/-! The input log (07 R172, R173) -/

/-- The value that a retry takes from the log for an input of this kind at this address; a mismatch discards the rest of the log. -/
def State.replayed (s : State) (lc : Nat) (kind : LogKind) : State × Option LogEnt :=
  let c := s.core lc
  match c.replay with
  | e :: r =>
    if e.ia = c.arch.psw.ia && e.kind == kind then (s.setCore lc { c with replay := r, inlog := c.inlog ++ [e] }, some e)
    else (s.dropReplay lc, none)
  | [] => (s, none)

/-- A checkpoint-bound operation takes its logged outcome in a retry, and is not issued again (07 R171). -/
def State.once (s : State) (lc : Nat) (kind : LogKind) (again : State → LogEnt → IRes) (issue : State → IRes) : IRes :=
  let p := s.replayed lc kind
  match p.2 with
  | some e => again p.1 e
  | none => issue p.1

/-- Log an input. -/
def State.logInput (s : State) (lc : Nat) (kind : LogKind) (val : BitVec 256) (cc : BitVec 2) : State :=
  s.updCore lc (fun c => { c with inlog := c.inlog ++ [{ ia := c.arch.psw.ia, kind := kind, val := val, cc := cc }] })

/-- The logged interruption decision that a retry takes at the boundary where the core stands (07 R172, R173). -/
def Core.logged (c : Core) : Option (LogEnt × IntSrc × IntReq × W64) :=
  match c.replay with
  | e :: _ => if e.ia = c.arch.psw.ia then e.int.map (fun p => (e, p)) else none
  | [] => none

/-- Take an asynchronous interruption at the boundary: what was done before it is confirmed, then it is entered, and the decision is logged in the interval that the entry begins (07 R168, R172). -/
def State.takeAsync (s : State) (lc : Nat) (x : IntSrc) (q : IntReq) (words : W64) : State × Taken :=
  let s := if (s.core lc).begun then s.confirmCore lc else s
  if !s.operating lc then (s, .waits) else
  let ia := (s.core lc).arch.psw.ia
  let r := s.takeInt lc q ia words
  let r1 := if r.2 = .entered && !(r.1.core lc).broken then
    r.1.updCore lc (fun c => { c with inlog := c.inlog ++ [{ ia := ia, kind := .interruption q.info, val := 0, cc := 0, int := some (x, q, words) }] }) else r.1
  if r.2 = .waits then (r1, .waits) else (r1.updCore lc (fun c => { c with wait := .none }), r.2)

/-- A failed transfer or a kept program interruption no longer owes its interruption. -/
def Core.unowed (c : Core) (x : IntSrc) : Core :=
  match x with
  | .program => { c with pendProg := none }
  | .poison b | .spill b => { c with pendSpill := c.pendSpill.filter (fun q => q.1 != b) }
  | _ => c

/-- Take the logged decision of this boundary again: its source has already been served. -/
def State.takeLogged (s : State) (lc : Nat) (x : IntSrc) (q : IntReq) (words : W64) : State :=
  let r := s.takeAsync lc x q words
  match r.2 with
  | .waits => r.1
  | .toMonitor => (r.1.repend lc x q words).updCore lc (fun c => { c with kept := some x, replay := c.replay.tail })
  | _ => r.1.updCore lc (fun c => ({ c with replay := c.replay.tail } : Core).unowed x)

/-- The synchronous interruption that the core owes at this boundary before it runs another instruction: that of a failed transfer (02 R45), else that of a completed instruction; one that the monitor has still to mend is not owed yet (02 R51), and that of a transfer waits during a retry (07 R173). A failed transfer comes first: both have priority 2 (DESIGN CHOICE, log 51). -/
def Core.owed (c : Core) : Option IntSrc :=
  match c.pendSpill.find? (fun p => c.retry == 0 && c.replay.isEmpty && c.kept != some (.spill p.1)) with
  | some p => some (match p.2 with | .machine _ _ => .poison p.1 | _ => .spill p.1)
  | none => if c.pendProg.isSome && c.kept != some .program then some .program else none

/-- The interruption of a failed transfer of a bank. -/
def Core.spillReq (c : Core) (bank : Nat) : IntReq := (c.pendSpill.find? (fun p => p.1 == bank)).elim .restart (fun p => p.2)

/-- The interruption that is owed, and the words that an intercept for an invalid prefix stores at 0x140 (R51): those of the nullified CALLW or RETW, or of the completed instruction. -/
def Core.owedReq (c : Core) (x : IntSrc) : IntReq × W64 :=
  match x with
  | .poison b | .spill b => (c.spillReq b, match c.wait with | .window w => w ++ (0 : BitVec 32) | _ => 0)
  | .program => c.pendProg.getD (.restart, 0)
  | _ => (.restart, 0)

/-- Take what is owed. A fault of a waiting CALLW or RETW recurs with it, and is not kept when its partition area fails. -/
def State.takeOwed (s : State) (lc : Nat) (x : IntSrc) : State :=
  let c := s.core lc
  let p := c.owedReq x
  let waiting := match c.wait with | .window _ => true | _ => false
  let r := s.takeAsync lc x p.1 p.2
  match r.2 with
  | .waits | .stopped => r.1
  | .entered => r.1.updCore lc (fun c => c.unowed x)
  | .toMonitor => if waiting && x != .program then r.1.updCore lc (fun c => c.unowed x) else r.1.updCore lc (fun c => { c with kept := some x })

/-- The outcome of the checks before an operation. -/
inductive Pro where
  | go (s : State)
  | stop (s : State)

/-- The checks before an operation: a logged interruption of this boundary comes first in a retry (07 R173), then one that is owed; then, in the order of 03 Table INS-3, the fetch, Op, Pv, Sp, In. -/
def State.prologue (s : State) (lc : Nat) (p : Pre) : Pro :=
  if !s.canRun lc then .stop s else
  let s := s.beginIns lc p
  if !s.canRun lc || (s.core lc).wait == .sync || (p.bound && !(s.core lc).stbuf.isEmpty) then .stop s else
  match (s.core lc).logged with
  | some (_, x, q, w) => .stop (s.takeLogged lc x q w)
  | none =>
  match (s.core lc).owed with
  | some x => .stop (s.takeOwed lc x)
  | none =>
  match s.fetch lc p.ilc with
  | .wait s => .stop s
  | .fail t f =>
    let w := s.fetchedWords lc p.words
    .stop ((t.countPoison f).suppress lc w (f.toInt lc 0 w))
  | .ok s _ =>
    let a := (s.core lc).arch
    let prog := fun (code : Nat) => Pro.stop (s.suppress lc p.words (.program (BitVec.ofNat 16 code) p.ilc 0 0 0))
    if p.op then prog 1
    else if a.psw.state.toNat < p.low || p.pv then prog 2
    else if p.sp then prog 6
    else if a.psw.pid ≠ 0 && (match p.ictl with | some b => (a.getSr 0x33).getLsbD b | none => false) then
      .stop (s.suppress lc p.words (.intercept 1 p.words 0 0 0 0 0))
    else .go s

/-- What follows from how the operation ended. -/
def State.finish (lc : Nat) (p : Pre) (before : Core) (r : IRes) : State :=
  let b := before.arch
  let next := before.arch.psw.ia + BitVec.ofNat 64 p.ilc
  match r with
  | .done s => s.retire lc p b next
  | .jump s ia => s.retire lc p b ia
  | .loaded s => s.retire lc p b (s.core lc).arch.psw.ia
  | .stay s => s
  | .gone s => s
  | .fail s f => (s.countPoison f).suppress lc p.words (f.toInt lc p.ilc p.words)
  | .exc s code => s.suppress lc p.words (.program (BitVec.ofNat 16 code) p.ilc 0 0 0)
  | .excFp s dxc => s.suppress lc p.words (.program 0x0C p.ilc 0 0 (BitVec.ofNat 64 dxc))
  | .doneExc s code dxc => s.completeInt lc p before code dxc
  | .intr s q => s.suppress lc p.words q

/-- Run an instruction of logical core `lc`. -/
def runCore (lc : Nat) (p : Pre) (s : State) (body : State → IRes) : Out :=
  if !decide (lc < 48) then .fault .noSuchUnit else settled s <|
  match s.prologue lc p with
  | .stop s => .next s
  | .go s =>
    match body s with
    | .stay t => .next (t.keep s (128 + lc))
    | r => .next (State.finish lc p (s.core lc) r)

/-- Change the core's architected state. -/
def State.updArch (s : State) (lc : Nat) (f : Arch → Arch) : State := s.updCore lc (fun c => { c with arch := f c.arch })

def State.arch (s : State) (lc : Nat) : Arch := (s.core lc).arch

end Sys2Proof.Machine
end

