-- ==== Sys2Proof/Machine/LoadStore.lean ====
section
/-! DEFINITION. Loads, stores, prefetch and atomic operations (03 R80 to R82; 05; 07 R170; 09 R219 to R221). -/

namespace Sys2Proof.Machine

/-- The access context of a core as it stands. -/
def State.xc (s : State) (lc : Nat) : XCtx := (s.core lc).xctx lc

/-- A load of `n` bytes; `put` writes the register. -/
def loadIns (lc : Nat) (p : Pre) (ea : Arch → W64) (n : Nat) (put : Arch → Nat → Arch) (s : State) : Out :=
  runCore lc p s fun s =>
    (s.loadNat (s.xc lc) (ea (s.arch lc)) n).run fun s v => .done (s.updArch lc (fun a => put a v))

/-- A store of `n` bytes; `val` reads the register. -/
def storeIns (lc : Nat) (p : Pre) (ea : Arch → W64) (n : Nat) (val : Arch → Nat) (s : State) : Out :=
  runCore lc p s fun s =>
    (s.storeBytes (s.xc lc) (ea (s.arch lc)) (toBytes n (val (s.arch lc)))).run fun s _ => .done s

/-- Zero and sign extension of a loaded value of `w` bits. -/
def zx (v : Nat) : W64 := BitVec.ofNat 64 v
def sx (w v : Nat) : W64 := (BitVec.ofNat w v).signExtend 64

/-- Ld (R80): t ← doubleword at EA. -/
def execLd (lc : Nat) (t a : BitVec 5) (imm : BitVec 16) (s : State) : Out :=
  loadIns lc { words := wordsB 0x10 t a imm } (fun r => r.ea a imm) 8 (fun r v => r.setG t (zx v)) s

/-- Lw (R80): t ← word, zero-extended at EA. -/
def execLw (lc : Nat) (t a : BitVec 5) (imm : BitVec 16) (s : State) : Out :=
  loadIns lc { words := wordsB 0x11 t a imm } (fun r => r.ea a imm) 4 (fun r v => r.setG t (zx v)) s

/-- Lws (R80): t ← word, sign-extended at EA. -/
def execLws (lc : Nat) (t a : BitVec 5) (imm : BitVec 16) (s : State) : Out :=
  loadIns lc { words := wordsB 0x12 t a imm } (fun r => r.ea a imm) 4 (fun r v => r.setG t (sx 32 v)) s

/-- Lh (R80): t ← halfword, zero-extended at EA. -/
def execLh (lc : Nat) (t a : BitVec 5) (imm : BitVec 16) (s : State) : Out :=
  loadIns lc { words := wordsB 0x13 t a imm } (fun r => r.ea a imm) 2 (fun r v => r.setG t (zx v)) s

/-- Lhs (R80): t ← halfword, sign-extended at EA. -/
def execLhs (lc : Nat) (t a : BitVec 5) (imm : BitVec 16) (s : State) : Out :=
  loadIns lc { words := wordsB 0x14 t a imm } (fun r => r.ea a imm) 2 (fun r v => r.setG t (sx 16 v)) s

/-- Lb (R80): t ← byte, zero-extended at EA. -/
def execLb (lc : Nat) (t a : BitVec 5) (imm : BitVec 16) (s : State) : Out :=
  loadIns lc { words := wordsB 0x15 t a imm } (fun r => r.ea a imm) 1 (fun r v => r.setG t (zx v)) s

/-- Lbs (R80): t ← byte, sign-extended at EA. -/
def execLbs (lc : Nat) (t a : BitVec 5) (imm : BitVec 16) (s : State) : Out :=
  loadIns lc { words := wordsB 0x16 t a imm } (fun r => r.ea a imm) 1 (fun r v => r.setG t (sx 8 v)) s

/-- Ldp (R80, R64): pair t ← quadword at EA, EA 16-byte aligned. -/
def execLdp (lc : Nat) (t a : BitVec 5) (imm : BitVec 16) (s : State) : Out :=
  let e := (s.arch lc).ea a imm
  loadIns lc { words := wordsB 0x17 t a imm, sp := oddPair t || e.toNat % 16 != 0 } (fun r => r.ea a imm) 16 (fun r v => r.setPair t (BitVec.ofNat 128 v)) s

/-- Std (R80): doubleword at EA ← low bits of t. -/
def execStd (lc : Nat) (t a : BitVec 5) (imm : BitVec 16) (s : State) : Out :=
  storeIns lc { words := wordsB 0x18 t a imm } (fun r => r.ea a imm) 8 (fun r => (r.getG t).toNat) s

/-- Stw (R80): word at EA ← low bits of t. -/
def execStw (lc : Nat) (t a : BitVec 5) (imm : BitVec 16) (s : State) : Out :=
  storeIns lc { words := wordsB 0x19 t a imm } (fun r => r.ea a imm) 4 (fun r => (r.getG t).toNat) s

/-- Sth (R80): halfword at EA ← low bits of t. -/
def execSth (lc : Nat) (t a : BitVec 5) (imm : BitVec 16) (s : State) : Out :=
  storeIns lc { words := wordsB 0x1a t a imm } (fun r => r.ea a imm) 2 (fun r => (r.getG t).toNat) s

/-- Stb (R80): byte at EA ← low bits of t. -/
def execStb (lc : Nat) (t a : BitVec 5) (imm : BitVec 16) (s : State) : Out :=
  storeIns lc { words := wordsB 0x1b t a imm } (fun r => r.ea a imm) 1 (fun r => (r.getG t).toNat) s

/-- Stp (R80, R64): quadword at EA ← pair t, EA 16-byte aligned. -/
def execStp (lc : Nat) (t a : BitVec 5) (imm : BitVec 16) (s : State) : Out :=
  let e := (s.arch lc).ea a imm
  storeIns lc { words := wordsB 0x1C t a imm, sp := oddPair t || e.toNat % 16 != 0 } (fun r => r.ea a imm) 16 (fun r => (r.getPair t).toNat) s

/-- Lea (R80): t ← EA. -/
def execLea (lc : Nat) (t a : BitVec 5) (imm : BitVec 16) (s : State) : Out :=
  runCore lc { words := wordsB 0x1D t a imm } s fun s =>
    .done (s.updArch lc (fun r => r.setG t (r.ea a imm)))

/-- Pref (R80, R81): prefetch of the line at EA; a failing address does nothing. -/
def execPref (lc : Nat) (t a : BitVec 5) (imm : BitVec 16) (s : State) : Out :=
  runCore lc { words := wordsB 0x1E t a imm, sp := decide (2 < t.toNat) } s fun s =>
    match s.access (s.xc lc) ((s.arch lc).ea a imm) (if t = 0 then .rd else if t = 1 then .wr else .fx) with
    | .ok s' _ => .done s'
    | .wait s' => .done s'
    | .fail _ _ => .done s

/-- Ldf (R80): t ← doubleword at EA. -/
def execLdf (lc : Nat) (t a : BitVec 5) (imm : BitVec 16) (s : State) : Out :=
  loadIns lc { words := wordsB 0x1f t a imm } (fun r => r.ea a imm) 8 (fun r v => r.setF t (zx v)) s

/-- Lfs (R80): Ft[31:0] ← word at EA, the rest 0. -/
def execLfs (lc : Nat) (t a : BitVec 5) (imm : BitVec 16) (s : State) : Out :=
  loadIns lc { words := wordsB 0x20 t a imm } (fun r => r.ea a imm) 4 (fun r v => r.setF t (zx v)) s

/-- Stf (R80): doubleword at EA ← Ft. -/
def execStf (lc : Nat) (t a : BitVec 5) (imm : BitVec 16) (s : State) : Out :=
  storeIns lc { words := wordsB 0x21 t a imm } (fun r => r.ea a imm) 8 (fun r => (r.getF t).toNat) s

/-- Stfs (R80): word at EA ← Ft[31:0]. -/
def execStfs (lc : Nat) (t a : BitVec 5) (imm : BitVec 16) (s : State) : Out :=
  storeIns lc { words := wordsB 0x22 t a imm } (fun r => r.ea a imm) 4 (fun r => (r.getF t).toNat) s

/-- Ldx (R81): Ld at a + b. -/
def execLdx (lc : Nat) (t a b c : BitVec 5) (s : State) : Out :=
  loadIns lc { words := wordsA 0x23 0x01 t a b c, sp := c != 0 } (fun r => r.eax a b) 8 (fun r v => r.setG t (zx v)) s

/-- Lwx (R81): Lw at a + b. -/
def execLwx (lc : Nat) (t a b c : BitVec 5) (s : State) : Out :=
  loadIns lc { words := wordsA 0x23 0x02 t a b c, sp := c != 0 } (fun r => r.eax a b) 4 (fun r v => r.setG t (zx v)) s

/-- Lwsx (R81): Lws at a + b. -/
def execLwsx (lc : Nat) (t a b c : BitVec 5) (s : State) : Out :=
  loadIns lc { words := wordsA 0x23 0x03 t a b c, sp := c != 0 } (fun r => r.eax a b) 4 (fun r v => r.setG t (sx 32 v)) s

/-- Lhx (R81): Lh at a + b. -/
def execLhx (lc : Nat) (t a b c : BitVec 5) (s : State) : Out :=
  loadIns lc { words := wordsA 0x23 0x04 t a b c, sp := c != 0 } (fun r => r.eax a b) 2 (fun r v => r.setG t (zx v)) s

/-- Lhsx (R81): Lhs at a + b. -/
def execLhsx (lc : Nat) (t a b c : BitVec 5) (s : State) : Out :=
  loadIns lc { words := wordsA 0x23 0x05 t a b c, sp := c != 0 } (fun r => r.eax a b) 2 (fun r v => r.setG t (sx 16 v)) s

/-- Lbx (R81): Lb at a + b. -/
def execLbx (lc : Nat) (t a b c : BitVec 5) (s : State) : Out :=
  loadIns lc { words := wordsA 0x23 0x06 t a b c, sp := c != 0 } (fun r => r.eax a b) 1 (fun r v => r.setG t (zx v)) s

/-- Lbsx (R81): Lbs at a + b. -/
def execLbsx (lc : Nat) (t a b c : BitVec 5) (s : State) : Out :=
  loadIns lc { words := wordsA 0x23 0x07 t a b c, sp := c != 0 } (fun r => r.eax a b) 1 (fun r v => r.setG t (sx 8 v)) s

/-- Stdx (R81): Std at a + b. -/
def execStdx (lc : Nat) (t a b c : BitVec 5) (s : State) : Out :=
  storeIns lc { words := wordsA 0x23 0x08 t a b c, sp := c != 0 } (fun r => r.eax a b) 8 (fun r => (r.getG t).toNat) s

/-- Stwx (R81): Stw at a + b. -/
def execStwx (lc : Nat) (t a b c : BitVec 5) (s : State) : Out :=
  storeIns lc { words := wordsA 0x23 0x09 t a b c, sp := c != 0 } (fun r => r.eax a b) 4 (fun r => (r.getG t).toNat) s

/-- Sthx (R81): Sth at a + b. -/
def execSthx (lc : Nat) (t a b c : BitVec 5) (s : State) : Out :=
  storeIns lc { words := wordsA 0x23 0x0a t a b c, sp := c != 0 } (fun r => r.eax a b) 2 (fun r => (r.getG t).toNat) s

/-- Stbx (R81): Stb at a + b. -/
def execStbx (lc : Nat) (t a b c : BitVec 5) (s : State) : Out :=
  storeIns lc { words := wordsA 0x23 0x0b t a b c, sp := c != 0 } (fun r => r.eax a b) 1 (fun r => (r.getG t).toNat) s

/-- Ldfx (R81): Ldf at a + b. -/
def execLdfx (lc : Nat) (t a b c : BitVec 5) (s : State) : Out :=
  loadIns lc { words := wordsA 0x23 0x0c t a b c, sp := c != 0 } (fun r => r.eax a b) 8 (fun r v => r.setF t (zx v)) s

/-- Lfsx (R81): Lfs at a + b. -/
def execLfsx (lc : Nat) (t a b c : BitVec 5) (s : State) : Out :=
  loadIns lc { words := wordsA 0x23 0x0d t a b c, sp := c != 0 } (fun r => r.eax a b) 4 (fun r v => r.setF t (zx v)) s

/-- Stfx (R81): Stf at a + b. -/
def execStfx (lc : Nat) (t a b c : BitVec 5) (s : State) : Out :=
  storeIns lc { words := wordsA 0x23 0x0e t a b c, sp := c != 0 } (fun r => r.eax a b) 8 (fun r => (r.getF t).toNat) s

/-- Stfsx (R81): Stfs at a + b. -/
def execStfsx (lc : Nat) (t a b c : BitVec 5) (s : State) : Out :=
  storeIns lc { words := wordsA 0x23 0x0f t a b c, sp := c != 0 } (fun r => r.eax a b) 4 (fun r => (r.getF t).toNat) s

/-! Atomic operations -/

/-- The end of an atomic: t receives the old value, CC by key X for CAS and CAS128. -/
def Arch.setAtom (r : Arch) (op : Nat) (t : BitVec 5) (old : W128) (cc : BitVec 2) : Arch :=
  let r := if op = 4 then r.setPair t old else r.setG t (old.setWidth 64)
  if op = 3 || op = 4 then r.setCc cc else r

/-- The request of an atomic. -/
def atomReq (src lc pid op abs : Nat) (far : Bool) (op1 op2 : W128) : Req :=
  { Req.mk0 .atom src lc (abs / 256) pid 0 with first := abs % 256, op := op, far := far, op1 := op1, op2 := op2 }

/-- The answer of an atomic is in: it is logged, and event 0x11 counts once for the instruction, also where a retry replays it (02 R57, 07 R175). -/
def State.endAtom (s : State) (lc op : Nat) (t : BitVec 5) (old : W128) (cc : BitVec 2) : IRes :=
  .done (((s.updCore lc (fun k => { k.pmcRun 0x11 1 with wait := .none, arch := (k.pmcRun 0x11 1).arch.setAtom op t old cc })).accessGone lc).logInput lc .atom (old.setWidth 256) cc)

/-- An atomic that the regions refuse (`why` 0) or that meets poisoned data. -/
def State.failAtom (s : State) (lc abs : Nat) (va : W64) (why : Nat) : IRes :=
  .fail ((s.updCore lc (fun k => { k.pmcRun 0x11 1 with wait := .none })).accessGone lc) (if why ≠ 0 then .poison abs 3 why else .prog 5 (detailByte 3 0 5) va)

/-- Issue an atomic once: to the home here, or as a message (R219; 07 R171). -/
def State.issueAtom (s : State) (lc op : Nat) (t a b c : BitVec 5) : IRes :=
  let r := s.arch lc
  let x := s.xc lc
  let va := r.getG a
  (s.translate x va .at).run fun s abs =>
    let line := abs / 256
    let op1 := if op = 4 then r.getPair t else (r.getG t).setWidth 128
    let op2 := if op = 4 then r.getPair b else (r.getG b).setWidth 128
    let q := atomReq s.cxid lc x.pid op abs (c.getLsbD 0) op1 op2
    match s.homeOf abs with
    | none => .fail s (.prog 5 (detailByte 3 0 7) va)
    | some h =>
      if h = s.cxid then
        if s.mem.txns.has line then .stay s else
          let s := s.homeReq q
          match (s.core lc).wait with
          | .none => if s.mem.txns.has line then .stay (s.updCore lc (fun k => { k with wait := .atom line })) else .stay s
          | .atomGot _ old cc => s.endAtom lc op t old cc
          | .atomFail _ why => s.failAtom lc abs va why
          | _ => .stay s
      else if s.transient line then .stay s
      else if !s.present h then (s.flt 4 6).failAtom lc abs va 3
      else .stay ((s.sendReq h q (line + 2 ^ 48 * (lc + 1)) .wait).updCore lc (fun k => { k with wait := .atom line }))
/-- An instruction of the ATOM group: checkpoint-bound; a replayed one takes its logged value (07 R171 to R173); one whose answer has come completes with it. -/
def atomIns (op lc : Nat) (t a b c : BitVec 5) (s : State) : Out :=
  let va := (s.arch lc).getG a
  let bad := c.extractLsb' 1 4 != 0 || va.toNat % (if op = 4 then 16 else 8) != 0 || (op == 4 && (oddPair t || oddPair b))
  runCore lc { words := wordsA 0x24 op t a b c, sp := bad, bound := true } s fun s =>
    s.once lc .atom (fun s e => .done (s.updCore lc (fun k => { k.pmcRun 0x11 1 with arch := (k.pmcRun 0x11 1).arch.setAtom op t (e.val.setWidth 128) e.cc }))) (fun s =>
      match (s.core lc).wait with
      | .atom _ => .stay s
      | .atomGot _ old cc => s.endAtom lc op t old cc
      | .atomFail line why => s.failAtom lc (line * 256 + va.toNat % 256) va why
      | _ => s.issueAtom lc op t a b c)

/-- Ldadd (R82, R220): t ← old; storage ← old + b. -/
def execLdadd (lc : Nat) (t a b c : BitVec 5) (s : State) : Out :=
  atomIns 1 lc t a b c s

/-- Swp (R82, R220): t ← old; storage ← b. -/
def execSwp (lc : Nat) (t a b c : BitVec 5) (s : State) : Out :=
  atomIns 2 lc t a b c s

/-- Cas (R82, R220): t ← old; if old = t, storage ← b. -/
def execCas (lc : Nat) (t a b c : BitVec 5) (s : State) : Out :=
  atomIns 3 lc t a b c s

/-- Cas128 (R82, R220): t ← old; CAS on quadwords, pairs t and b. -/
def execCas128 (lc : Nat) (t a b c : BitVec 5) (s : State) : Out :=
  atomIns 4 lc t a b c s

/-- Ldmin (R82, R220): t ← old; signed minimum. -/
def execLdmin (lc : Nat) (t a b c : BitVec 5) (s : State) : Out :=
  atomIns 5 lc t a b c s

/-- Ldmax (R82, R220): t ← old; signed maximum. -/
def execLdmax (lc : Nat) (t a b c : BitVec 5) (s : State) : Out :=
  atomIns 6 lc t a b c s

/-- Ldminu (R82, R220): t ← old; unsigned minimum. -/
def execLdminu (lc : Nat) (t a b c : BitVec 5) (s : State) : Out :=
  atomIns 7 lc t a b c s

/-- Ldmaxu (R82, R220): t ← old; unsigned maximum. -/
def execLdmaxu (lc : Nat) (t a b c : BitVec 5) (s : State) : Out :=
  atomIns 8 lc t a b c s

/-- Ldand (R82, R220): t ← old; old AND b. -/
def execLdand (lc : Nat) (t a b c : BitVec 5) (s : State) : Out :=
  atomIns 9 lc t a b c s

/-- Ldor (R82, R220): t ← old; old OR b. -/
def execLdor (lc : Nat) (t a b c : BitVec 5) (s : State) : Out :=
  atomIns 10 lc t a b c s

/-- Ldxor (R82, R220): t ← old; old XOR b. -/
def execLdxor (lc : Nat) (t a b c : BitVec 5) (s : State) : Out :=
  atomIns 11 lc t a b c s

end Sys2Proof.Machine
end

