-- ==== Sys2Proof/Machine/Long.lean ====
section
/-! DEFINITION. Long instructions that run in the core: MOVL, CMPL, TRTL, CKSM, CKSM16 (03 R90; 06 R158 to R160; 04 R101). Each execution is one unit of operation. -/

namespace Sys2Proof.Machine

/-- The most operand bytes of a unit (R158). -/
def unitMax : Nat := 4096

/-- Page boundaries that `n` bytes from an address cross. -/
def crossings (x : W64) (n : Nat) : Nat := if n = 0 then 0 else (x.toNat + n - 1) / 4096 - x.toNat / 4096

/-- Bytes of a unit whose steps of `size` bytes spend `per` ticks each: a step is begun while it and the ending fit in 4,096 ticks (R158, R159). `extra n` are the page-crossing ticks of `n` bytes. -/
def fitLen (base per size : Nat) (extra : Nat → Nat) (maxn : Nat) : Nat → Nat → Nat → Nat
  | 0, n, _ => n
  | fuel + 1, n, ticks =>
    let k := min size (maxn - n)
    let ticks' := ticks + (per * k + size - 1) / size
    if k = 0 then n
    else if base + ticks' + extra (n + k) ≤ 4096 then fitLen base per size extra maxn fuel (n + k) ticks'
    else n

/-- Bytes of a unit: under CT = 1 always the least of 4,096 and the length (04 R101). -/
def unitLen (ct : Bool) (base per size : Nat) (extra : Nat → Nat) (len : W64) : Nat :=
  let maxn := min unitMax len.toNat
  if ct then maxn else fitLen base per size extra maxn 65 0 0

/-- A step of MOVL and CMPL is cheaper when both addresses agree modulo 16 (Table MCS-7). -/
def movPer (t a : W64) : Nat := if t.toNat % 16 = a.toNat % 16 then 16 else 32

/-- The registers of a long instruction must differ and c is reserved (R90). -/
def longBad (t a b c : BitVec 5) : Bool := t == a || t == b || a == b || c != 0

/-- A unit that fails or waits leaves no held store behind (03 R71). -/
def unitRun {α : Type} (lc : Nat) (buf : List StEnt) (x : SRes α) (f : State → α → IRes) : IRes :=
  match x with
  | .ok s v => f s v
  | .fail s e => .fail (s.updCore lc (fun c => { c with stbuf := buf })) e
  | .wait s => .stay (s.updCore lc (fun c => { c with stbuf := buf }))

/-- Set CC; a unit that ends with CC 3 counts as event 0x10 (02 Table COR-7). -/
def State.unitCc (s : State) (lc : Nat) (cc : BitVec 2) : State :=
  s.updCore lc (fun c => let c := { c with arch := c.arch.setCc cc }; if cc = 3 then c.pmcRun 0x10 1 else c)

/-- Copy bytes one by one in ascending order. -/
def State.copyBytes (s : State) (x : XCtx) : Nat → W64 → W64 → SRes Unit
  | 0, _, _ => .ok s ()
  | n + 1, t, a =>
    (s.loadBytes x 2 a 1).bind fun s bs =>
      (s.storeBytes x t bs).bind fun s _ => State.copyBytes s x n (t + 1) (a + 1)

/-- MOVL (R90): copy b bytes from a to t, as if byte by byte. Operand 1 is checked before operand 2. -/
def execMovl (lc : Nat) (t a b c : BitVec 5) (s : State) : Out :=
  runCore lc { words := wordsA 0x38 0x01 t a b c, sp := longBad t a b c, alone := true } s fun s =>
    let r := s.arch lc
    let x := s.xc lc
    let vt := r.getG t
    let va := r.getG a
    let len := r.getG b
    let n := unitLen r.psw.ct 32 (movPer vt va) 256 (fun k => 4 * (crossings vt k + crossings va k)) len
    let buf := (s.core lc).stbuf
    unitRun lc buf ((s.checkStore x .wr (n / 256 + 2) vt n).bind fun s _ =>
      (s.loadBytes x (n / 256 + 2) va n).bind fun s _ => s.copyBytes x n vt va) fun s _ =>
        let k := BitVec.ofNat 64 n
        let s := s.updArch lc (fun r => ((r.setG t (vt + k)).setG a (va + k)).setG b (len - k))
        .done (s.unitCc lc (if n = len.toNat then 0 else 3))

/-- Compare byte by byte up to the first difference: the bytes compared equal, and the differing pair. -/
def State.compareBytes (s : State) (x : XCtx) (i : Nat) : Nat → W64 → W64 → SRes (Nat × Option (Byte × Byte))
  | 0, _, _ => .ok s (i, none)
  | n + 1, t, a =>
    (s.loadBytes x 2 t 1).bind fun s p =>
      (s.loadBytes x 2 a 1).bind fun s q =>
        if p = q then State.compareBytes s x (i + 1) n (t + 1) (a + 1) else .ok s (i, some (p.headD 0, q.headD 0))

/-- The first difference of two byte lists. -/
def firstDiff (i : Nat) : List Byte → List Byte → Nat × Option (Byte × Byte)
  | p :: l, q :: r => if p = q then firstDiff (i + 1) l r else (i, some (p, q))
  | _, _ => (i, none)

/-- CMPL (R90, R101, R158): compare b bytes at t with b bytes at a. Under CT = 1 every byte of the unit is read. -/
def execCmpl (lc : Nat) (t a b c : BitVec 5) (s : State) : Out :=
  runCore lc { words := wordsA 0x38 0x02 t a b c, sp := longBad t a b c, alone := true } s fun s =>
    let r := s.arch lc
    let x := s.xc lc
    let vt := r.getG t
    let va := r.getG a
    let len := r.getG b
    let n := unitLen r.psw.ct 32 (movPer vt va) 256 (fun k => 4 * (crossings vt k + crossings va k)) len
    let res :=
      if r.psw.ct then
        (s.loadBytes x (n / 256 + 2) vt n).bind fun s p => (s.loadBytes x (n / 256 + 2) va n).bind fun s q => .ok s (firstDiff 0 p q)
      else s.compareBytes x 0 n vt va
    res.run fun s d =>
      let k := BitVec.ofNat 64 d.1
      let s := s.updArch lc (fun r => ((r.setG t (vt + k)).setG a (va + k)).setG b (len - k))
      .done (s.unitCc lc (match d.2 with
        | some (p, q) => if p.toNat < q.toNat then 1 else 2
        | none => if n = len.toNat then 0 else 3))

/-- TRTL (R90): replace each of b bytes at t by the byte that it indexes in the table at a; the table is read once per unit (R159). -/
def execTrtl (lc : Nat) (t a b c : BitVec 5) (s : State) : Out :=
  runCore lc { words := wordsA 0x39 0x01 t a b c, sp := longBad t a b c, alone := true } s fun s =>
    let r := s.arch lc
    let x := s.xc lc
    let vt := r.getG t
    let va := r.getG a
    let len := r.getG b
    let n := unitLen r.psw.ct (24 + 4 * crossings va 256) 64 64 (fun k => 4 * crossings vt k) len
    if n = 0 then .done (s.unitCc lc 0) else
    let buf := (s.core lc).stbuf
    unitRun lc buf ((s.loadBytes x (n / 256 + 2) vt n).bind fun s bs =>
      (s.checkStore x .wr (n / 256 + 2) vt n).bind fun s _ =>
        (s.loadBytes x 3 va 256).bind fun s tab =>
          s.storeBytes x vt (bs.map (fun i => tab.getD i.toNat 0))) fun s _ =>
            let k := BitVec.ofNat 64 n
            let s := s.updArch lc (fun r => (r.setG t (vt + k)).setG b (len - k))
            .done (s.unitCc lc (if n = len.toNat then 0 else 3))

/-- A unit of CKSM or CKSM16: `f` advances the sum in t over the bytes at a. -/
def cksmUnit (lc : Nat) (p : Pre) (t a b : BitVec 5) (f : W64 → List Byte → W64) (s : State) : Out :=
  runCore lc p s fun s =>
    let r := s.arch lc
    let va := r.getG a
    let len := r.getG b
    let n := unitLen r.psw.ct 24 16 256 (fun k => 4 * crossings va k) len
    (s.loadBytes (s.xc lc) (n / 256 + 2) va n).run fun s bs =>
      let k := BitVec.ofNat 64 n
      let s := s.updArch lc (fun r => ((r.setG t (f (r.getG t) bs)).setG a (va + k)).setG b (len - k))
      .done (s.unitCc lc (if n = len.toNat then 0 else 3))

/-- CKSM (R90, R160): the CRC-32C state in t[31:0] advanced over b bytes at a. -/
def execCksm (lc : Nat) (t a b c : BitVec 5) (s : State) : Out :=
  cksmUnit lc { words := wordsA 0x39 0x02 t a b c, sp := longBad t a b c, alone := true } t a b
    (fun v bs => (crc32c (v.setWidth 32) bs).setWidth 64) s

/-- CKSM16 (R90, R160): the 16-bit ones'-complement sum in t[15:0] advanced over b bytes at a. -/
def execCksm16 (lc : Nat) (t a b c : BitVec 5) (s : State) : Out :=
  cksmUnit lc { words := wordsA 0x39 0x03 t a b c, sp := longBad t a b c, alone := true } t a b
    (fun v bs => BitVec.ofNat 64 (ones16 (fieldOf v 15 0) bs)) s

end Sys2Proof.Machine
end

