-- ==== Sys2Proof/Machine/Maint.lean ====
section
/-! DEFINITION. Maintenance of caches by line and by set and way (08 R192 to R195, R200), and of TLBs (05 R131). -/

namespace Sys2Proof.Machine

/-- How a maintenance operation on one line stands: done, refused by the regions, no home, or under way. -/
inductive CmoRes where
  | done (s : State)
  | refused (s : State)
  | noHome
  | wait (s : State)

/-- The right that an operation needs (08 R192). -/
def cmoNeed : CmoKind → Need
  | .inval => .wr
  | _ => .rd

/-- One line through its home (08 R192). `tag` is the issuer: a logical core, or 64 and the number of a range engine. -/
def State.cmoLine (s : State) (tag pid stype line : Nat) (k : CmoKind) : CmoRes :=
  let key := line + 2 ^ 48 * (tag + 1)
  let pick := fun (s : State) =>
    match s.mem.reqs.find key with
    | some q =>
      let s' := s.updMem (fun m => { m with reqs := m.reqs.del key })
      match q.st with
      | .cmp => CmoRes.done s'
      | .got _ => CmoRes.done s'
      | .failed 0 => CmoRes.refused s'
      | .failed _ => CmoRes.done s'
      | _ => CmoRes.wait s
    | none => CmoRes.wait s
  if s.mem.reqs.has key then pick s else
  match s.homeOf (line * 256) with
  | none => .noHome
  | some h =>
    let r := Req.mk0 (.cmo k) s.cxid tag line pid stype
    if h = s.cxid then
      if s.mem.txns.has line then .wait s else pick (s.homeReq r)
    else if s.present h then .wait (if s.transient line then s else s.sendReq h r key .wait)
    else .done (s.flt 4 6)

/-- Does a confirmed store of the core to a line still wait to drain. -/
def Core.storesTo (c : Core) (line : Nat) : Bool := c.stbuf.any (fun e => e.conf && e.addr / 256 == line)

/-- One line for a core: its earlier confirmed stores to the line drain first (08 R192). -/
def State.cmoCore (s : State) (lc tag pid stype line : Nat) (k : CmoKind) : CmoRes :=
  let s := s.drainAll lc
  if (s.core lc).storesTo line then .wait s else s.cmoLine tag pid stype line k

/-- By-address maintenance of one line by a core (08 R192). -/
def State.cmoAddr (s : State) (lc : Nat) (va : W64) (k : CmoKind) : IRes :=
  let c := s.core lc
  let x := c.xctx lc
  let acc := (cmoNeed k).acc
  (s.translate x va (cmoNeed k)).run fun s abs =>
    match s.cmoCore lc lc x.pid 0 (abs / 256) k with
    | .done s => .done s
    | .refused s => .fail s (.prog 5 (detailByte acc 0 5) va)
    | .noHome => .fail s (.prog 5 (detailByte acc 0 7) va)
    | .wait s => .stay s

/-- Is a set-and-way operand refused (08 Table CAC-2, R200)? `inval`: INVALS. -/
def setWayBad (a : W64) (inval : Bool) : Bool :=
  let level := fieldOf a 63 62
  fieldOf a 61 53 != 0 || fieldOf a 47 44 != 0 || fieldOf a 39 11 != 0 ||
    (level != 3 && fieldOf a 52 48 != 0) || (decide (level < 2) && (decide (7 < fieldOf a 43 40) || decide (63 < fieldOf a 10 0))) ||
    (level == 2 && decide (1023 < fieldOf a 10 0)) || (level == 0 && !inval)

/-- Clean a held line in place for a set-and-way operation of a core: to DRAM when it is homed here; a line homed elsewhere through its home, by the CLEAN that its own CLN answers (log 17). -/
def State.cleanLine (s : State) (lc line : Nat) : CmoRes :=
  match s.held line with
  | none => .done s
  | some c =>
    if !c.st.dirty then .done s
    else if s.homeOf (line * 256) = some s.cxid then
      .done ((s.writeback line c).updMem (fun m =>
        { m with lines := m.lines.put line { c with st := if c.st == .m then .e else .s } }))
    else s.cmoLine lc c.pid.toNat 0 line .clean

/-- Remove a line from the L1 and L2 arrays of a physical core. -/
def Mem.dropPrivate (m : Mem) (line pc : Nat) : Mem :=
  { m with tags := m.tags.filter (fun e => !(e.2.line == line && decide (e.1 / 32768 / 4 = pc) && decide (e.1 / 32768 < 0x100))) }

/-- A set-and-way operation (08 R200): on the arrays of the physical core or on an L3 slice. An L3 line that is removed leaves with its dirty data. -/
def State.setWay (s : State) (lc : Nat) (a : W64) (k : CmoKind) : CmoRes :=
  let level := fieldOf a 63 62
  let sl := fieldOf a 52 48
  let way := fieldOf a 43 40
  let array := if level = 3 then 0x100 + sl else 4 * s.pcOf lc + level
  let key := tagKey array (fieldOf a 10 0) way
  if level = 3 && (s.wayOff sl way || s.wayRetired sl way) then .done s else
  match s.mem.tags.find key with
  | none => .done s
  | some t =>
    if level = 3 && k != .clean then .done ((s.lockHit t.line).1.dropLine t.line) else
    match (if level = 0 then .done s else s.cleanLine lc t.line) with
    | .done s =>
      .done (if k = .clean then s
        else s.updMem (fun m => if level = 2 then m.dropPrivate t.line (s.pcOf lc) else { m with tags := m.tags.del key }))
    | r => r

/-- A set-and-way instruction ends when its operation has; the regions refuse no way (R200). -/
def CmoRes.ends (r : CmoRes) (s : State) (f : State → IRes) : IRes :=
  match r with
  | .done s => f s
  | .refused s => f s
  | .noHome => f s
  | .wait s => .stay s

/-- The scope of a TLB operation covers an entry (05 Table STO-7). -/
def TlbEnt.hit (t : TlbEnt) (k : TlbKind) (pid : BitVec 8) (va : W64) : Bool :=
  match k with
  | .va => t.pid == pid && t.page * 4096 / 2 ^ t.size == va.toNat / 2 ^ t.size
  | .pidAll => t.pid == pid
  | .everything => true

/-- Drop the matching entries of every core of this complex. -/
def State.dropTlb (s : State) (k : TlbKind) (pid : BitVec 8) (va : W64) : State :=
  { s with cores := s.cores.map (fun p => (p.1, { p.2 with tlb := p.2.tlb.filter (fun t => !t.hit k pid va) })) }

/-- The complexes that a TLB operation reaches beside this one: those present in the system. -/
def State.others (s : State) : List Nat := (List.range 1024).filter (fun c => s.present c && c != s.cxid)

/-- Is a PID in the scope of a TLB operation. -/
def tlbScope (k : TlbKind) (pid p : BitVec 8) : Bool :=
  match k with
  | .everything => true
  | _ => p == pid

/-- The accesses of this complex's cores that used entries in scope and are outstanding: held stores, counted up to the last one in scope, and atomics and engine requests under way. -/
def State.tlbLeft (s : State) (k : TlbKind) (pid : BitVec 8) : List (Nat × Nat) × List Nat :=
  let last := fun (c : Core) => (c.stbuf.reverse.dropWhile (fun e => !tlbScope k pid e.pid)).length
  let busy := fun (c : Core) => tlbScope k pid c.arch.psw.pid && (match c.wait with | .atom _ => true | .unit _ _ => true | _ => false)
  (((List.range s.nLc).map (fun n => (n, last (s.core n)))).filter (fun p => p.2 != 0), (List.range s.nLc).filter (fun n => busy (s.core n)))

/-- Does a TLB operation of an agent still wait for accesses of this complex. -/
def State.tlbBusy (s : State) (cx tag : Nat) : Bool := s.mem.tlbWaits.any (fun w => w.cx == cx && w.tag == tag)

/-- Drop the entries here and note the accesses that must end first. -/
def State.tlbLocal (s : State) (cx tag : Nat) (k : TlbKind) (pid : BitVec 8) (va : W64) : State :=
  let left := s.tlbLeft k pid
  let s := s.dropTlb k pid va
  if left.1.isEmpty && left.2.isEmpty then s
  else s.updMem (fun m => { m with tlbWaits := m.tlbWaits ++ [{ cx := cx, tag := tag, stores := left.1, atoms := left.2 }] })

/-- A TLB operation (05 R131): the entries of this complex go, the other complexes are told by TLBI; it completes when all have answered and no access that used an entry is left here. -/
def State.tlbOp (s : State) (lc : Nat) (k : TlbKind) (pid : BitVec 8) (va : W64) : IRes :=
  let done := fun (s : State) => IRes.done (s.logInput lc .tlb 0 0)
  match (s.core lc).wait with
  | .tlbAcks l => if l.isEmpty && !s.tlbBusy s.cxid lc then done s else .stay s
  | _ =>
    let s := s.tlbLocal s.cxid lc k pid va
    let cxs := s.others
    let s := cxs.foldl (fun s c => s.send .fab c 0x4A [lc, match k with | .va => 0 | .pidAll => 1 | .everything => 2, pid.toNat, va.toNat]) s
    if cxs.isEmpty && !s.tlbBusy s.cxid lc then done s else .stay (s.updCore lc (fun c => { c with wait := .tlbAcks cxs }))

/-- The range engine of a logical core: one for each pair of clusters (08 R196). -/
def State.rangeEngine (s : State) (lc : Nat) : Nat := s.pcOf lc / 14

/-- Set the status registers of a core's range operation, in its state and in its checkpoint (08 R199). -/
def State.rangeStat (s : State) (lc : Nat) (f : W64 → W64) (addr : W64) : State :=
  s.updCore lc (fun c => { c with arch := (c.arch.setSr 0x3A (f (c.arch.getSr 0x3A))).setSr 0x3B addr,
                                  ckpt := (c.ckpt.setSr 0x3A (f (c.ckpt.getSr 0x3A))).setSr 0x3B addr })

/-- CAC_RSTAT and CAC_RADDR of an accepted operation (08 R199). -/
def Arch.rangeSr (r : Arch) (op : Nat) (start : W64) : Arch := (r.setSr 0x3A (BitVec.ofNat 64 (2 ^ 63 + op * 2 ^ 56))).setSr 0x3B start

/-- CLEANR, INVALR, CLINVR (08 R196): accepted with CC 0, or CC 2 when the engine is full or the core has an operation. The slot is reserved here and submitted at confirmation. The engine captures PID, ASM, STO_PASCE and STO_SASCE (R197), and with them STATE and STO_PSCE, which R197 does not list (DESIGN CHOICE, log 53). -/
def State.rangeIns (s : State) (lc : Nat) (t a : BitVec 5) (k : CmoKind) (op : Nat) : State × BitVec 2 :=
  let r := s.arch lc
  let len := r.getG t
  let start := r.getG a
  let g := s.rangeEngine lc
  let q := s.mem.range.get [] g
  if len = 0 then (s.updArch lc (fun r => r.setCc 0), 0)
  else if 8 ≤ q.length || s.mem.range.any (fun p => p.2.any (fun o => o.lc == lc)) then (s.updArch lc (fun r => r.setCc 2), 2)
  else
    let o : RangeOp := { lc := lc, kind := k, next := start, last := start + len - 1, pid := r.psw.pid, asm := r.psw.asm, state := r.psw.state,
                         pasce := r.getSr 0x30, sasce := r.getSr 0x31, psce := r.getSr 0x32, submitted := false, page := none, counted := false }
    let s := s.updMem (fun m => { m with range := m.range.put g (q ++ [o]) })
    (s.updArch lc (fun r => (r.setCc 0).rangeSr op start), 0)

/-- What a replayed INVALR leaves: its logged condition code, and for an accepted one the status of the operation that stands reserved (07 R171, R175). -/
def State.rangeAgain (s : State) (lc : Nat) (t a : BitVec 5) (op : Nat) (cc : BitVec 2) : State :=
  s.updArch lc (fun r => if cc = 0 && r.getG t != 0 then (r.setCc 0).rangeSr op (r.getG a) else r.setCc cc)

end Sys2Proof.Machine
end

