-- ==== Sys2Proof/Machine/EngineReq.lean ====
section
/-! DEFINITION. Requests of a core to a compression engine or a cipher wall: CMPRS and XPAND (15 R356 to R358), CIPH (16 R369, R370), and the completion of a unit by the engine. -/

namespace Sys2Proof.Machine

/-- A word of a block of doublewords. -/
def dw (v : Nat) (n i : Nat) : Nat := v / 2 ^ (64 * (n - 1 - i)) % 2 ^ 64

/-! Storage accesses of the engine on behalf of the core (15 R356) -/

/-- An access of the engine as the core meets its failure: an addressing exception, or poisoned data. -/
def DmaRes.lift {α : Type} (x : DmaRes α) (acc abs : Nat) (va : W64) : SRes α :=
  match x with
  | .ok s a => .ok s a
  | .refused s => .fail s (.prog 5 (detailByte acc 0 5) va)
  | .poison s r => .fail s (.poison abs acc r)
  | .wait s => .wait s

/-- The absolute places of `n` bytes, page by page, by the issuer's translation. -/
def State.places (s : State) (x : XCtx) (need : Need) : Nat → W64 → Nat → SRes (List (Nat × Nat × W64))
  | 0, _, _ => .ok s []
  | fuel + 1, va, n =>
    if n = 0 then .ok s [] else
      let k := min n (4096 - va.toNat % 4096)
      (s.translate x va need).bind fun s abs =>
        (State.places s x need fuel (va + BitVec.ofNat 64 k) (n - k)).bind fun s r => .ok s ((abs, k, va) :: r)

def State.placesOf (s : State) (x : XCtx) (need : Need) (va : W64) (n : Nat) : SRes (List (Nat × Nat × W64)) :=
  s.places x need (n / 4096 + 2) va n

/-- Read the bytes at places. -/
def State.engRead (s : State) (a : Agent) : List (Nat × Nat × W64) → SRes (List Byte)
  | [] => .ok s []
  | (abs, k, va) :: r =>
    ((s.dmaRead a (linesFor k) abs k).lift 1 abs va).bind fun s l => (State.engRead s a r).bind fun s m => .ok s (l ++ m)

/-- Write bytes at places. -/
def State.engWrite (s : State) (a : Agent) : List (Nat × Nat × W64) → List Byte → SRes Unit
  | [], _ => .ok s ()
  | (abs, k, va) :: r, bs =>
    ((s.dmaWrite a 0 (linesFor k) abs (bs.take k)).lift 2 abs va).bind fun s _ => State.engWrite s a r (bs.drop k)

def State.engLoad (s : State) (x : XCtx) (a : Agent) (va : W64) (n : Nat) : SRes (List Byte) :=
  (s.placesOf x .rd va n).bind fun s p => s.engRead a p

def State.engStore (s : State) (x : XCtx) (a : Agent) (va : W64) (bs : List Byte) : SRes Unit :=
  (s.placesOf x .wr va bs.length).bind fun s p => s.engWrite a p bs

/-! Completion of the instruction -/

/-- The completion word: CODE and OUT. -/
def compWord (code out : Nat) : W64 := BitVec.ofNat 64 (code * 2 ^ 56 + out % 2 ^ 32)

/-- End an execution: t receives the word, CC is set, both are logged (07 Table TAN-3). -/
def engDone (lc : Nat) (t : BitVec 5) (s : State) (word : W64) (cc : BitVec 2) : IRes :=
  .done ((((s.updArch lc (fun r => r.setG t word)).unitCc lc cc).accessGone lc).logInput lc .engine (word.setWidth 256) cc)

/-- Frame of the three instructions: checkpoint-bound, an interval of its own; a retry takes the logged completion word. -/
def engIns (lc minor : Nat) (t a b c : BitVec 5) (s : State) (body : State → W64 → IRes) : Out :=
  let addr := (s.arch lc).getG a
  runCore lc { words := wordsA 0x3D minor t a b c, sp := b != 0 || c != 0 || addr.toNat % 64 != 0, bound := true, alone := true } s fun s =>
    s.once lc .engine (fun s e => .done ((s.updArch lc (fun r => r.setG t (e.val.setWidth 64))).unitCc lc e.cc)) (fun s => body s addr)

/-! CMPRS and XPAND -/

/-- Pool engines in service (15 R347, R349), lowest-numbered first. -/
def State.poolEngines (s : State) : List Nat := (List.range 22).filter (fun z => s.fld F.ZIP_ENG_ROLE z == 0 && s.flag F.ZIP_ENG_POOL z)

/-- Drop a stream context and free its place in the engine. -/
def State.zFree (s : State) (key : Nat) : State :=
  match s.chn.zctx.find key with
  | some z => ({ s with chn := { s.chn with zctx := s.chn.zctx.del key } }).setFld F.ZIP_ENG_STREAMS (s.fld F.ZIP_ENG_STREAMS z.eng - 1) z.eng
  | none => s

def State.zPut (s : State) (key : Nat) (z : ZCtx) : State := { s with chn := { s.chn with zctx := s.chn.zctx.put key z } }

/-- Is the request block refused (Tables ZIP-3, ZIP-4)? The code. -/
def zRefusal (s : State) (dec : Bool) (b : Nat) : Option Nat :=
  let d0 := dw b 8 0
  let op := bits d0 63 56
  if (op ≠ 1 && op ≠ 2) || bits d0 53 52 ≠ 0 || bits d0 47 0 ≠ 0 || dw b 8 7 ≠ 0 || 2 ^ 32 ≤ dw b 8 2 || 2 ^ 32 ≤ dw b 8 4 then some 0x10
  else if (op = 2) != dec then some 0x12
  else if (if dec then bits d0 51 48 != 0 else bits d0 54 54 != 0) then some 0x10
  else if s.poolEngines.isEmpty then some 0x11
  else none

/-- What a unit of the engine makes: the bytes to write, the new context, and how the request stands. -/
structure ZUnit where
  out : List Byte
  z : ZCtx
  code : Nat
  raw : Nat
  fin : Bool

/-- Close the records that are complete: of `rsize` bytes, and the last at the end of the input (15 R351, R358). -/
def zEmit (zlib atEnd : Bool) (rsize dlen : Nat) : Nat → ZUnit → ZUnit
  | 0, u => u
  | n + 1, u =>
    let more := decide (rsize < u.z.pend.length) || (decide (rsize = u.z.pend.length) && !atEnd)
    if !more && !atEnd then u else
      let d := if more then u.z.pend.take rsize else u.z.pend
      let r := writeRecord u.z.recs zlib (!more) d
      if dlen < u.z.outDone + r.1.length then { u with code := 1, fin := true }
      else
        let u := { u with out := u.out ++ r.1, raw := u.raw + (if r.2 then 1 else 0), fin := !more,
                          z := { u.z with pend := u.z.pend.drop d.length, recs := u.z.recs ++ [d], outDone := u.z.outDone + r.1.length } }
        if more then zEmit zlib atEnd rsize dlen n u else u

/-- Read the records that are complete (15 R354, R358). -/
def zTake (zlib : Bool) (dlen : Nat) : Nat → ZUnit → ZUnit
  | 0, u => u
  | n + 1, u =>
    if u.z.pend.isEmpty then u
    else if u.z.ended then { u with code := 2, fin := true }
    else
      match readRecord u.z.recs.flatten.reverse u.z.recs.isEmpty zlib u.z.pend with
      | .short => u
      | .bad => { u with code := 2, fin := true }
      | .badCrc => { u with code := 3, fin := true }
      | .ok d len last _ =>
        if dlen < u.z.outDone + d.length then { u with code := 1, fin := true }
        else zTake zlib dlen n { u with out := u.out ++ d,
                                        z := { u.z with pend := u.z.pend.drop len, recs := u.z.recs ++ [d], outDone := u.z.outDone + d.length, ended := last } }

/-- A unit on `data` more input bytes; `atEnd`: they are the last. -/
def zUnit (dec : Bool) (b : Nat) (z : ZCtx) (data : List Byte) (atEnd : Bool) : ZUnit :=
  let d0 := dw b 8 0
  let zlib := bits d0 55 55 == 1
  let bare := bits d0 54 54 == 1
  let dlen := dw b 8 4
  let z := { z with pend := z.pend ++ data, inDone := z.inDone + data.length }
  let u : ZUnit := { out := [], z := z, code := 0, raw := 0, fin := false }
  if !dec then
    let r := bits d0 51 48
    zEmit zlib atEnd (if r = 0 then 65536 else r * 4096) dlen 3 u
  else if bare then
    if !atEnd then u else
      match bodyData [] zlib true true false z.pend with
      | none => { u with code := 2, fin := true }
      | some d => if dlen < d.length then { u with code := 1, fin := true } else { u with out := d, z := { z with outDone := d.length }, fin := true }
  else
    let u := zTake zlib dlen (z.pend.length + 1) u
    if u.fin then u
    else if atEnd then (if u.z.ended && u.z.pend.isEmpty then { u with fin := true } else { u with code := 2, fin := true })
    else u

/-- One execution of CMPRS or XPAND (15 R356 to R358). -/
def zExec (dec : Bool) (lc : Nat) (t : BitVec 5) (s : State) (addr : W64) : IRes :=
  let x := s.xc lc
  let clear := fun (s : State) => s.updCore lc (fun c => { c with wait := .none })
  (s.loadNat x addr 64).run fun s b =>
    (s.translate x addr .rd).run fun s abs =>
      let key := abs * 256 + x.pid
      match zRefusal s dec b with
      | some code => engDone lc t ((clear s).zFree key) (compWord code (dw b 8 6)) 2
      | none =>
        let slen := dw b 8 2
        let src : W64 := BitVec.ofNat 64 (dw b 8 1)
        let dst : W64 := BitVec.ofNat 64 (dw b 8 3)
        let s := if dw b 8 5 = 0 && (s.core lc).wait == .none then s.zFree key else s
        let agent : Agent := { tag := 128 + lc, pid := x.pid, stype := 4 }
        match (s.core lc).wait with
        | .unit _ _ => .stay s
        | .unitGot n =>
          match s.chn.zctx.find key with
          | none => .stay (clear s)
          | some z =>
            let n := min (min n 4096) (slen - z.inDone)
            (s.engLoad x agent (src + BitVec.ofNat 64 z.inDone) n).run fun s data =>
              let u := zUnit dec b z data (z.inDone + n = slen)
              ((s.placesOf x .wr (dst + BitVec.ofNat 64 z.outDone) u.out.length).bind fun s p =>
                (s.placesOf x .wr (addr + 40) 16).bind fun s q =>
                  (s.engWrite agent p u.out).bind fun s _ => s.engWrite agent q (toBytes 8 u.z.inDone ++ toBytes 8 u.z.outDone)).run fun s _ =>
                    let s := clear s
                    let s := if u.raw = 0 then s else s.count F.ZIP_CNT_RAWREC (some F.ZIP_CNT_ROVF) z.eng 0 u.raw
                    let s := if u.code = 2 || u.code = 3 then (s.count F.ZIP_CNT_BADSTR (some F.ZIP_CNT_BOVF) z.eng).flt 10 1 z.eng (some x.pid) else s
                    let s := if u.fin then s.zFree key else s.zPut key u.z
                    engDone lc t s (compWord u.code u.z.outDone) (if !u.fin then 3 else if u.code = 0 then 0 else 1)
        | _ =>
          let z? := match s.chn.zctx.find key with
            | some z => some (s, z)
            | none =>
              match s.poolEngines.find? (fun e => decide (s.fld F.ZIP_ENG_STREAMS e < 16)) with
              | none => none
              | some e =>
                let z : ZCtx := { eng := e, inDone := 0, outDone := 0, recs := [], pend := [], ended := false }
                some ((s.zPut key z).setFld F.ZIP_ENG_STREAMS (s.fld F.ZIP_ENG_STREAMS e + 1) e, z)
          match z? with
          | none => .stay s
          | some (s, z) =>
            (s.placesOf x .rd (src + BitVec.ofNat 64 z.inDone) (min 4096 (slen - z.inDone))).run fun s _ =>
              .stay (s.updCore lc (fun c => { c with wait := .unit (if dec then 1 else 0) key }))

/-- CMPRS: compress by the request block at a. -/
def execCmprs (lc : Nat) (t a b c : BitVec 5) (s : State) : Out := engIns lc 0x01 t a b c s (fun s addr => zExec false lc t s addr)

/-- XPAND: decompress by the request block at a. -/
def execXpand (lc : Nat) (t a b c : BitVec 5) (s : State) : Out := engIns lc 0x02 t a b c s (fun s addr => zExec true lc t s addr)

/-! CIPH -/

/-- The key of a slot for a request, or none when it is refused (16 R365). -/
def State.slotKey (s : State) (slot pid mode : Nat) (dec : Bool) : Option (BitVec 512) :=
  match s.chn.keys.find slot with
  | none => none
  | some k => if k.v && k.pid.toNat == pid && k.modes.getLsbD (mode - 1) && (if dec then k.dec else k.enc) then some k.key else none

/-- A wall of the complex. -/
def State.wall (s : State) (w : Nat) : Wall := s.chn.walls.get Wall.reset w
def State.setWall (s : State) (w : Nat) (x : Wall) : State := { s with chn := { s.chn with walls := s.chn.walls.put w x } }

/-- A wall that has not failed (16 R372). -/
def State.wallUp (s : State) (w : Nat) : Bool := s.fld F.CIP_WALL_STATE w != 2

/-- The wall for a new request: in service, with the fewest open core contexts, the lowest-numbered of several (16 R370). -/
def State.pickWall (s : State) : Option Nat :=
  (List.range 16).foldl (fun o w =>
    if !s.wallUp w then o else
      match o with
      | none => some w
      | some v => if s.fld F.CIP_WALL_CCTX w < s.fld F.CIP_WALL_CCTX v then some w else o) none

/-- Release a cipher context; its segment leaves the wall's queue. -/
def State.cFree (s : State) (key : Nat) : State :=
  match s.chn.cctx.find key with
  | none => s
  | some c =>
    let s := { s with chn := { s.chn with cctx := s.chn.cctx.del key } }
    let w := s.wall c.wall
    (s.setWall c.wall { w with segs := w.segs.filter (fun g => g.port || g.handle != key) }).setFld F.CIP_WALL_CCTX (s.fld F.CIP_WALL_CCTX c.wall - 1) c.wall

def State.cPut (s : State) (key : Nat) (c : CCtx) : State := { s with chn := { s.chn with cctx := s.chn.cctx.put key c } }

/-- Is the request block refused (Tables CIP-4, CIP-5)? The code. -/
def cRefusal (s : State) (b : Nat) : Option Nat :=
  let d0 := dw b 8 0
  let op := bits d0 63 56
  let mode := bits d0 55 53
  let gcm := mode = 1 || mode = 2
  let len := dw b 8 2
  if (op ≠ 1 && op ≠ 2) || mode = 0 || 4 < mode || bits d0 51 46 ≠ 0 || (gcm && (bits d0 52 52 ≠ 0 || bits (dw b 8 6) 31 0 ≠ 0)) then some 0x10
  else if 65536 < len || (if gcm then 4096 < bits d0 31 0 else bits d0 31 0 ≠ 0 || len < 16 || len % 16 ≠ 0) then some 0x12
  else if s.pickWall.isNone then some 0x13
  else none

/-- The cipher of a request on the bytes at hand. -/
def cCrypt (mode : Nat) (dec dus : Bool) (key : BitVec 512) (iv : Nat) (l : List Byte) : List Byte :=
  if mode = 1 || mode = 2 then gcmCrypt (modeKl mode) (keyOne mode key) (BitVec.ofNat 96 (iv / 2 ^ 32)) l
  else
    let n := l.length / 16 * 16
    xtsCrypt dec (modeKl mode) (keyOne mode key) (keyTwo mode key) (if dus then 4096 else 512) (n / 16 + 1) (BitVec.ofNat 128 iv) (l.take n)

/-- The key that the context was checked against: its segment's check, else the check made now (16 R365, R366). -/
def State.ctxKey (s : State) (key : Nat) (c : CCtx) (slot pid mode : Nat) (dec : Bool) : Option (BitVec 512) :=
  match c.key with
  | some k => some k
  | none =>
    match (s.wall c.wall).segs.find? (fun g => !g.port && g.handle == key) with
    | some g => if g.checked then (if g.refused then none else some g.key) else s.slotKey slot pid mode dec
    | none => s.slotKey slot pid mode dec

/-- One execution of CIPH (16 R369, R370). -/
def cExec (lc : Nat) (t : BitVec 5) (s : State) (addr : W64) : IRes :=
  let x := s.xc lc
  let clear := fun (s : State) => s.updCore lc (fun c => { c with wait := .none })
  (s.loadNat x addr 64).run fun s b =>
    (s.translate x addr .rd).run fun s abs =>
      let key := abs * 256 + x.pid
      match cRefusal s b with
      | some code => engDone lc t ((clear s).cFree key) (compWord code 0) 2
      | none =>
        let d0 := dw b 8 0
        let dec := bits d0 63 56 == 2
        let mode := bits d0 55 53
        let gcm := mode = 1 || mode = 2
        let len := dw b 8 2
        let slot := bits d0 45 32
        let src : W64 := BitVec.ofNat 64 (dw b 8 1)
        let dst : W64 := BitVec.ofNat 64 (dw b 8 3)
        let iv := dw b 8 5 * 2 ^ 64 + dw b 8 6
        let s := if dw b 8 7 = 0 && (s.core lc).wait == .none && (match s.chn.cctx.find key with | some c => !c.tagOk | none => false) then s.cFree key else s
        let agent : Agent := { tag := 128 + lc, pid := x.pid, stype := 5 }
        match (s.core lc).wait with
        | .unit _ _ => .stay s
        | .unitGot n =>
          match s.chn.cctx.find key with
          | none => .stay (clear s)
          | some c =>
            match s.ctxKey key c slot x.pid mode dec with
            | none =>
              let s := (((clear s).cFree key).count F.CIP_CNT_REFUSED (some F.CIP_CNT_ROVF) c.wall).flt 11 4 0 (some x.pid)
              engDone lc t s (compWord 0x11 0) 2
            | some k =>
              let n := min (min n 4096) (len - c.inDone)
              let fin := c.inDone + n = len
              let inBlk := fun (s : State) (v : Nat) => s.engStore x agent (addr + 56) (toBytes 8 v)
              let aadOf := fun (s : State) => if gcm then s.engLoad x agent (BitVec.ofNat 64 (dw b 8 4)) (bits d0 31 0) else .ok s []
              if dec && c.tagOk then
                let m := min 4096 (len - c.out)
                let bs := ((cCrypt mode true (bits d0 52 52 == 1) k iv c.buf).drop c.out).take m
                (s.engStore x agent (dst + BitVec.ofNat 64 c.out) bs).run fun s _ =>
                  let c' := { c with out := c.out + m }
                  let s := clear s
                  if c'.out = len then engDone lc t (s.cFree key) (compWord 0 len) 0 else engDone lc t (s.cPut key c') (compWord 0 c'.out) 3
              else
                (s.engLoad x agent (src + BitVec.ofNat 64 c.inDone) n).run fun s data =>
                  (aadOf s).run fun s aad =>
                    let buf := c.buf ++ data
                    let kl := modeKl mode
                    let iv96 := BitVec.ofNat 96 (iv / 2 ^ 32)
                    if dec then
                      (if gcm && fin then s.engLoad x agent (src + BitVec.ofNat 64 len) 16 else .ok s []).run fun s tag =>
                        (inBlk s (c.inDone + n)).run fun s _ =>
                          let c' := { c with inDone := c.inDone + n, buf := buf, key := some k, tagOk := fin }
                          let s := clear s
                          if fin && gcm && tag ≠ gcmTag kl (keyOne mode k) iv96 aad buf then
                            engDone lc t (((s.cFree key).count F.CIP_CNT_AUTHF (some F.CIP_CNT_AOVF) c.wall).flt 11 5 c.wall (some x.pid)) (compWord 1 0) 1
                          else if fin && len = 0 then engDone lc t (s.cFree key) (compWord 0 0) 0
                          else engDone lc t (s.cPut key c') (compWord 0 0) 3
                    else
                      let ct := cCrypt mode false (bits d0 52 52 == 1) k iv buf
                      let bs := ct.drop c.out ++ (if fin && gcm then gcmTag kl (keyOne mode k) iv96 aad ct else [])
                      ((s.engStore x agent (dst + BitVec.ofNat 64 c.out) bs).bind fun s _ => inBlk s (c.inDone + n)).run fun s _ =>
                        let c' := { c with inDone := c.inDone + n, buf := buf, key := some k, out := c.out + bs.length }
                        let s := clear s
                        if fin then engDone lc t (s.cFree key) (compWord 0 c'.out) 0 else engDone lc t (s.cPut key c') (compWord 0 c'.out) 3
        | _ =>
          let c? := match s.chn.cctx.find key with
            | some c => some (s, c)
            | none =>
              match s.pickWall with
              | none => none
              | some w =>
                if 16 ≤ s.fld F.CIP_WALL_CCTX w then none else
                  let c : CCtx := { wall := w, inDone := 0, out := 0, key := none, buf := [], tagOk := false }
                  let g : Seg := { port := false, handle := key, exid := 0, pid := BitVec.ofNat 8 x.pid, slot := slot, mode := mode, dec := dec, bytes := len,
                                   assigned := 0, done := 0, redo := 0, checked := false, refused := false, key := 0 }
                  let q := s.wall w
                  some (((s.cPut key c).setWall w { q with segs := q.segs ++ [g] }).setFld F.CIP_WALL_CCTX (s.fld F.CIP_WALL_CCTX w + 1) w, c)
          match c? with
          | none => .stay s
          | some (s, c) =>
            (s.placesOf x .rd (src + BitVec.ofNat 64 c.inDone) (min 4096 (len - c.inDone))).run fun s _ =>
              .stay (s.updCore lc (fun c => { c with wait := .unit 2 key }))

/-- CIPH: encrypt or decrypt by the request block at a. -/
def execCiph (lc : Nat) (t a b c : BitVec 5) (s : State) : Out := engIns lc 0x03 t a b c s (fun s addr => cExec lc t s addr)

/-- The engine has finished the unit that a core waits for (06 R158, 15 R358): the instruction, issued again, ends the unit. -/
def execEngineUnitCompletion (lc : Nat) (u : UnitEnd) (s : State) : Out := settled s <|
  if !decide (lc < 48) then .fault .noSuchUnit else
  match (s.core lc).wait with
  | .unit _ _ => .next (s.updCore lc (fun c => { c with wait := .unitGot u.consumed }))
  | _ => .next s

end Sys2Proof.Machine
end

