-- ==== Sys2Proof/Machine/VLink.lean ====
section
/-! DEFINITION. The Velex link as a port of the complex runs it (14 R331 to R341): frames sent under credits and the replay limit, frames received in order. -/

namespace Sys2Proof.Machine

/-- The virtual channel of a frame: the urgent one for an exchange of urgency 0b11 (R340). -/
def vcOf (urgent : Bool) (vc : Nat) : Nat := if urgent then 3 else vc

/-- The next frame to send (R340): urgent, then status, then command and data alternating, each with a credit in hand (R339). -/
def VPort.next (p : VPort) : Option Frame :=
  let pick := fun (vc : Nat) => if p.cred.get 0 vc = 0 then none else p.waitq.find? (fun f => f.vc == vc)
  match pick 3 with
  | some f => some f
  | none =>
    match pick 2 with
    | some f => some f
    | none =>
      let a := if p.alt then 0 else 1
      match pick a with
      | some f => some f
      | none => pick (1 - a)

/-- A sequenced frame goes out, with the last sequence number received in order, its header and CRC. -/
def State.sendSeq (s : State) (v : Nat) (f : Frame) : State :=
  let lack := ((s.vport v).rxSeq - 1).toNat
  s.send (.velex v) 0 f.msg.code (f.lseq.toNat :: lack :: velexWire f.vc f.msg.code f.lseq.toNat lack f.msg.args)

/-- Send waiting frames while fewer than 128 are unacknowledged (R337). -/
def State.vpump (s : State) (v : Nat) : Nat → State
  | 0 => s
  | n + 1 =>
    let p := s.vport v
    if 128 ≤ p.replay.length || !s.vpUp v || p.fencing != 0 then s else
    match p.next with
    | none => s
    | some f =>
      let g := { f with lseq := p.txSeq }
      let p := { p with waitq := p.waitq.erase f, replay := p.replay ++ [g], txSeq := p.txSeq + 1, cred := p.cred.upd 0 f.vc (fun c => c - 1),
                        alt := if f.vc = 1 then true else if f.vc = 0 then false else p.alt }
      State.vpump ((s.setVport v p).sendSeq v g) v n

/-- A link that came up and now retrains: its buffers are kept (R337). -/
def State.retraining (s : State) (v : Nat) : Bool := s.fld F.VPT_STAT_STATE v == 1 && !(s.vport v).cred.isEmpty

/-- Send a sequenced frame: CMD, DATA or ACK (R332). A port that is neither up nor retraining takes none. -/
def State.sendFrame (s : State) (v vc code : Nat) (args : List Nat) : State :=
  if !(s.vpUp v || s.retraining v) || (s.vport v).fencing != 0 then s else
  let p := s.vport v
  let f : Frame := { lseq := 0, vc := vc, msg := { chan := .velex v, dst := 0, code := code, args := args } }
  (s.setVport v { p with waitq := p.waitq ++ [f] }).vpump v (p.waitq.length + 1)

/-- Resend the replay buffer from a sequence number on (R337, as R249). -/
def State.vresend (s : State) (v : Nat) (from_ : BitVec 8) : State :=
  let p := s.vport v
  let l := p.replay.filter (fun f => decide ((f.lseq - from_).toNat < 128))
  let s := l.foldl (fun s f => s.sendSeq v f) s
  if l.isEmpty then s else
    ((s.setVport v { p with resends := p.resends + 1 }).count F.VPT_ERR_REPLAY (some F.VPT_ERR_ROVF) v)

/-- Take a cumulative acknowledgement (R337). -/
def State.vlack (s : State) (v : Nat) (lack : BitVec 8) : State :=
  let p := s.vport v
  let keep := p.replay.filter (fun f => decide (128 ≤ (lack - f.lseq).toNat))
  if keep.length = p.replay.length then s
  else (s.setVport v { p with replay := keep, resends := 0 }).vpump v (p.waitq.length + 1)

/-- CREDIT with the complex's cumulative returns (R339). -/
def State.sendCredit (s : State) (v : Nat) : State :=
  let r := (s.vport v).returned
  s.sendLink v 6 [r.get 0 4, r.get 0 5, r.get 0 6, r.get 0 7]

/-- Discard a frame under R332: counted, noted, answered by NAK. -/
def State.vbad (s : State) (v : Nat) : State :=
  ((s.count F.VPT_ERR_CRCERR (some F.VPT_ERR_COVF) v).flt 9 0 v).sendLink v 5 [(s.vport v).rxSeq.toNat]

/-- Receive a frame of a type at a port that is up: CRC, abort mark and length (R332), acknowledgement, order (R337), reserved fields (R332; `rsvOk`: those that operands give), the credit returned (R339, R340); then what the frame means. -/
def State.vrecv (s : State) (v : Nat) (h : LinkHdr) (code : Nat) (fr : VParts) (lenOk rsvOk : Bool) (vc : Option Nat) (f : State → State) : Out :=
  if 16 ≤ v then .fault .noSuchUnit else .next <|
  if !s.vpUp v || (s.vport v).fencing != 0 then s
  else if !h.crcOk code fr || h.aborted || !lenOk then s.vbad v
  else
    let s := s.vlack v h.lack
    match vc with
    | none => if h.rsvOk code && rsvOk then f s else s.flt 9 5
    | some c =>
      let p := s.vport v
      if h.lseq ≠ p.rxSeq then (if (h.lseq - p.rxSeq).toNat < 128 then s.sendLink v 5 [p.rxSeq.toNat] else s)
      else
        let c := vcOf h.urgent c
        let s := (s.setVport v { p with rxSeq := p.rxSeq + 1, returned := p.returned.upd 0 (4 + c) (fun n => (n + 1) % 256) }).sendCredit v
        if h.rsvOk code && rsvOk then f s else s.flt 9 5

end Sys2Proof.Machine
end

