-- ==== Sys2Proof/Machine/Journal.lean ====
section
/-! DEFINITION. The operation journal (12 R293 to R299, R303): entries, steps, mirroring, what a step releases, and the ways an exchange ends. -/

namespace Sys2Proof.Machine

/-! Entries (Table VLX-6) -/

/-- A journal entry's 64 bytes. -/
abbrev Img := BitVec 512

/-- Bits [hi:lo] of doubleword `d` of an entry. -/
def jget (x : Img) (d hi lo : Nat) : Nat := fieldOf x ((7 - d) * 64 + hi) ((7 - d) * 64 + lo)
def jput (x : Img) (d hi lo v : Nat) : Img := putField x ((7 - d) * 64 + hi) ((7 - d) * 64 + lo) v

/-- The CRC of an entry: doublewords 0 to 6 and DW7[63:32] (R296). -/
def jcrc (x : Img) : Nat := (crcIscsi ((toBytes 64 x.toNat).take 60)).toNat
def jseal (x : Img) : Img := jput x 7 31 0 (jcrc x)
def jok (x : Img) : Bool := jget x 7 31 0 == jcrc x

/-- State codes (Table VLX-5). -/
def jState (x : Img) : Nat := jget x 0 63 60
def jExid (x : Img) : Nat := jget x 0 23 0
def jStep (x : Img) : Nat := jget x 1 63 48
def jSolo (x : Img) : Bool := jget x 0 58 58 == 1

/-- Is step `a` later than step `b`, in 16-bit serial arithmetic (R298). -/
def stepLater (a b : Nat) : Bool := let d := (a + 65536 - b) % 65536; decide (1 ≤ d) && decide (d ≤ 32767)

/-- The own journal or the mirror array. -/
def State.jent (s : State) (mirror : Bool) (i : Nat) : JEnt := (if mirror then s.chn.mir else s.chn.jrn).get JEnt.reset i
def State.setJent (s : State) (mirror : Bool) (i : Nat) (e : JEnt) : State :=
  { s with chn := if mirror then { s.chn with mir := s.chn.mir.put i e } else { s.chn with jrn := s.chn.jrn.put i e } }

/-- The buddy, while it mirrors (R286, R303). -/
def State.buddy (s : State) : Option Nat :=
  if s.flag F.VLX_BUDDY_BV && s.fld F.VLX_STAT_BST == 1 then some (s.fld F.VLX_BUDDY_BCX) else none

/-! Exchanges: own ones under their entry's index, adopted ones under the index + 16384 -/

def exKey (mirror : Bool) (i : Nat) : Nat := if mirror then 16384 + i else i
def Exch.key (x : Exch) : Nat := exKey x.mirror x.idx

/-- The exchange that an EXID names here (R293). -/
def State.exOf (s : State) (exid : BitVec 24) : Option Exch :=
  let cx := exid.toNat / 16384
  let i := exid.toNat % 16384
  if cx = s.cxid then s.chn.exch.find i
  else if cx = s.fld F.VLX_BUDDY_BCX then s.chn.exch.find (16384 + i) else none

def State.setEx (s : State) (x : Exch) : State := { s with chn := { s.chn with exch := s.chn.exch.put x.key x } }
def State.img (s : State) (x : Exch) : Img := (s.jent x.mirror x.idx).img
def State.exid (s : State) (x : Exch) : Nat := if x.ipl then s.cxid * 16384 + x.idx else jExid (s.img x)

/-- The urgency of an exchange's frames (R340). -/
def State.urgent (s : State) (x : Exch) : Bool := jget (s.img x) 3 31 30 == 3

/-- Active engines, and the one with the fewest exchanges, the lowest-numbered of several (13 R314). -/
def State.veActive (s : State) (e : Nat) : Bool := s.fld F.VEN_ENG_ROLE e == 0
def State.leastEngine (s : State) : Option Nat :=
  (List.range 68).foldl (fun o e =>
    if !s.veActive e then o else
      match o with
      | none => some e
      | some b => if s.fld F.VEN_ENG_EXCH e < s.fld F.VEN_ENG_EXCH b then some e else o) none

/-- Assign an exchange to an engine: the journal's VE field and VEN_ENG.EXCH. -/
def State.assignEngine (s : State) (x : Exch) : State × Exch :=
  match s.leastEngine with
  | none => (s, x)
  | some e =>
    let s := s.setFld F.VEN_ENG_EXCH (s.fld F.VEN_ENG_EXCH e + 1) e
    let j := s.jent x.mirror x.idx
    (s.setJent x.mirror x.idx { j with img := jseal (jput j.img 1 15 8 e) }, { x with eng := e })

/-- Make an event of a kind pending (13 R315). -/
def Exch.raise (x : Exch) (kind : Nat) : Exch := { x with ev := x.ev ||| (1 <<< kind) }

/-! Frames of an exchange -/

/-- An exchange-level acknowledgement (14 Table VPT-3). -/
def State.sendAck (s : State) (x : Exch) (what cmdix : Nat) : State :=
  s.sendFrame x.vp (vcOf (s.urgent x) 2) 4 [s.exid x, (x.inExp - 1).toNat, cmdix, what]

/-- RESUME at the journal's restart point (14 R335); SR: the status is recorded. -/
def State.sendResume (s : State) (x : Exch) (sr : Bool) : State :=
  let i := s.img x
  s.sendFrame x.vp (vcOf (s.urgent x) 0) 1 [2, s.exid x, jget i 1 47 32, b2n sr, jget i 1 31 16, jget i 3 31 30]

/-- ABORT (14 R336). -/
def State.sendAbort (s : State) (x : Exch) : State := s.sendFrame x.vp (vcOf (s.urgent x) 0) 1 [3, s.exid x, x.outNext.toNat, jget (s.img x) 3 31 30]

/-! Status on the subchannel (R300 to R302) -/

/-- The status word of a final status (Table VLX-8). -/
def State.finalScsw (s : State) (x : Exch) (pci : Bool) : BitVec 256 :=
  let i := s.img x
  let d := (s.chn.sch.get Subch.reset x.sch).def_
  let d0 := x.sch * 2 ^ 48 + fieldOf d 247 240 * 2 ^ 40 + fieldOf d 239 237 * 2 ^ 37 + jget i 3 63 32
  let d1 := jget i 6 63 56 * 2 ^ 56 + jget i 6 55 48 * 2 ^ 48 + 2 ^ 47 + b2n pci * 2 ^ 45 + jget i 0 59 59 * 2 ^ 44 + jget i 0 58 58 * 2 ^ 43 + jget i 6 24 0
  BitVec.ofNat 256 (d0 * 2 ^ 192 + d1 * 2 ^ 128 + jget i 2 55 0 * 2 ^ 64 + s.exid x * 2 ^ 40 + s.cxid * 2 ^ 30)

/-- The FIFO of a subchannel's PID and ISC (R301). -/
def Subch.fifo (c : Subch) : Nat := fieldOf c.def_ 247 240 * 8 + fieldOf c.def_ 239 237

def State.setSch (s : State) (n : Nat) (c : Subch) : State := { s with chn := { s.chn with sch := s.chn.sch.put n c } }
def State.sch (s : State) (n : Nat) : Subch := s.chn.sch.get Subch.reset n

/-- Queue a subchannel in its FIFO, once. -/
def State.enqueue (s : State) (n : Nat) : State :=
  let k := (s.sch n).fifo
  let q := s.chn.fifos.get [] k
  let v : BitVec 16 := BitVec.ofNat 16 n
  if q.contains v then s else { s with chn := { s.chn with fifos := s.chn.fifos.put k (q ++ [v]) } }

/-- A final status becomes pending: an intermediate one merges into it (R302). -/
def State.finalPending (s : State) (x : Exch) : State :=
  let c := s.sch x.sch
  (s.setSch x.sch { c with final := true, inter := false, scsw := s.finalScsw x c.inter }).enqueue x.sch

/-- An intermediate status (R302). -/
def State.interPending (s : State) (x : Exch) : State :=
  let c := s.sch x.sch
  if c.final then s else
  let i := s.img x
  let d0 := x.sch * 2 ^ 48 + fieldOf c.def_ 247 240 * 2 ^ 40 + fieldOf c.def_ 239 237 * 2 ^ 37 + jget i 3 63 32
  let d1 := 3 * 2 ^ 45 + jget i 0 59 59 * 2 ^ 44 + jget i 0 58 58 * 2 ^ 43
  (s.setSch x.sch { c with inter := true, scsw := BitVec.ofNat 256 (d0 * 2 ^ 192 + d1 * 2 ^ 128 + jget i 2 55 0 * 2 ^ 64 + s.exid x * 2 ^ 40 + s.cxid * 2 ^ 30) }).enqueue x.sch

/-! Steps (R295, R298) -/

/-- The START SUBCHANNEL that waits for its STARTED step ends with a condition code (R289). -/
def State.wakeSsch (s : State) (i : Nat) (cc : BitVec 2) : State :=
  { s with cores := s.cores.map (fun (p : Nat × Core) => (p.1, if p.2.wait = CoreWait.ssch i then { p.2 with wait := .ccGot cc } else p.2)) }

/-- What a step releases (Table VLX-5). -/
def State.release (s : State) (x : Exch) : State :=
  match jState (s.img x) with
  | 1 =>
    let s := if x.mirror then s else s.wakeSsch x.idx 0
    s.setEx (x.raise 0)
  | 2 =>
    match x.rdAck with
    | some n => (s.sendAck x 3 n.toNat).setEx { x with rdAck := none }
    | none => s
  | 3 =>
    let s := if x.owed then (s.sendAck x 4 (jget (s.img x) 1 31 16)).setEx { x with owed := false } else s
    s.finalPending x
  | _ => s

/-- Release the step of an exchange as it stands now. -/
def State.releaseKey (s : State) (k : Nat) : State := match s.chn.exch.find k with | some x => s.release x | none => s

/-- Write a step: STEP counts, the entry is sealed and mirrored; without a mirror it is SOLO and released at once (R295, R298, R303, R305). -/
def State.writeStep (s : State) (x : Exch) (f : Img → Img) : State :=
  let j := s.jent x.mirror x.idx
  let i := f j.img
  let i := jput i 1 63 48 ((jStep j.img + 1) % 65536)
  match (if x.mirror || jSolo i then none else s.buddy) with
  | some b =>
    let i := jseal i
    (s.setJent false x.idx { j with img := i, outst := true, tries := 0 }).send .journal b 0x50 [i.toNat]
  | none =>
    let i := jseal (jput i 0 58 58 1)
    (s.setJent x.mirror x.idx { j with img := i, outst := false, tries := 0 }).releaseKey x.key

/-- Free the handles of an exchange and their stream contexts (13 R323). -/
def State.freeHandles (s : State) (exid : Nat) : State :=
  let mine := s.chn.handles.filter (fun p => p.2.exid.toNat == exid)
  let s := mine.foldl (fun s p => if p.2.kind = 0 && decide (p.2.slot < 22) then s.setFld F.ZIP_ENG_STREAMS (s.fld F.ZIP_ENG_STREAMS p.2.slot - 1) p.2.slot else s) s
  { s with chn := { s.chn with handles := s.chn.handles.filter (fun p => p.2.exid.toNat != exid) } }

/-- The mark of a brick that runs a stripe of a segment: of segment `i` of an exchange, or of a core context. -/
def segMark (port : Bool) (exid i : Nat) : Nat := if port then 2 * (exid * 1024 + i) + 1 else 2 * i

/-- Drop the segments of an exchange from the walls; bricks that run their stripes clear. -/
def State.dropSegs (s : State) (exid : Nat) : State :=
  { s with chn := { s.chn with walls := s.chn.walls.map (fun (p : Nat × Wall) =>
      (p.1, { p.2 with segs := p.2.segs.filter (fun g => !(g.port && g.exid.toNat == exid)), busy := p.2.busy.filter (fun b => !(b.2 % 2 == 1 && b.2 / 2048 == exid)) })) } }

/-- Take a command of an exchange away from the sequencer of a port, with its buffer reservation (13 R325; 16 R367). -/
def State.dropCmd (s : State) (x : Exch) : State :=
  let s := s.dropSegs (s.exid x)
  let exid : BitVec 24 := BitVec.ofNat 24 (s.exid x)
  let b := s.chn.pbuf.get PortBuf.reset x.vp
  let used := (b.granted.filter (fun p => p.1 == exid)).foldl (fun n p => n + p.2) 0
  { s with chn := { s.chn with
      pdsq := s.chn.pdsq.map (fun p => (p.1, p.2.filter (fun d => d.exid != exid)))
      pbuf := s.chn.pbuf.put x.vp { b with used := b.used - used, granted := b.granted.filter (fun p => p.1 != exid), queue := b.queue.filter (fun p => p.1 != exid) } } }

/-- The command of an exchange at a port's sequencer has ended: its descriptor leaves the queue, its reservation is freed. -/
def State.popCmd (s : State) (x : Exch) : State :=
  let s := s.dropSegs (s.exid x)
  let exid : BitVec 24 := BitVec.ofNat 24 (s.exid x)
  let b := s.chn.pbuf.get PortBuf.reset x.vp
  let used := (b.granted.filter (fun p => p.1 == exid)).foldl (fun n p => n + p.2) 0
  { s with chn := { s.chn with
      pdsq := s.chn.pdsq.upd [] x.vp (fun q => q.eraseP (fun d => d.exid == exid))
      pbuf := s.chn.pbuf.put x.vp { b with used := b.used - used, granted := b.granted.filter (fun p => p.1 != exid) } } }

/-- Free the context that runs an exchange: its event has ended (13 R317). -/
def State.freeCtx (s : State) (exid : Nat) : State :=
  let run := s.chn.ctx.filter (fun p => p.2.exid.toNat == exid && p.2.st != .parked && p.2.st != .free)
  let s := run.foldl (fun s p => s.setFld F.VEN_ENG_BUSY (s.fld F.VEN_ENG_BUSY (p.1 / 16) - 1) (p.1 / 16)) s
  { s with chn := { s.chn with ctx := s.chn.ctx.map (fun p => (p.1, if p.2.exid.toNat == exid && p.2.st != .parked && p.2.st != .free then { p.2 with st := .free } else p.2)) } }

/-- The complex itself gives the exchange its final status (R310): STATUS-PENDING with the code. A step that is not acknowledged yet comes first: an entry has one JWR outstanding (R298). -/
def State.finalStatus (s : State) (k fstat : Nat) : State :=
  match s.chn.exch.find k with
  | none => s
  | some x =>
    let s := (s.dropCmd x).freeCtx (s.exid x)
    let x := { x with ev := 0, running := false, cur := none, aborting := none, timer := false, buf := [], rdAck := none }
    let s := s.setEx x
    let j := s.jent x.mirror x.idx
    if x.ipl || jState j.img ≠ 1 && jState j.img ≠ 2 then s
    else if j.outst then s.setJent x.mirror x.idx { j with fin := some (j.fin.getD fstat) }
    else s.writeStep x (fun i => jput (jput (jput i 0 63 60 3) 6 63 56 fstat) 6 24 0 x.resid.toNat)

/-- End an exchange: engine, handles and context are free, the subchannel idle, the entry in quarantine (R294). -/
def State.endExch (s : State) (x : Exch) : State :=
  let s := ((s.dropCmd x).freeHandles (s.exid x)).freeCtx (s.exid x)
  let s := s.setFld F.VEN_ENG_EXCH (s.fld F.VEN_ENG_EXCH x.eng - 1) x.eng
  let c := s.sch x.sch
  let s := s.setSch x.sch { c with active := none }
  let j := s.jent x.mirror x.idx
  let s := s.setJent x.mirror x.idx { j with quar := !x.mirror, outst := false, fin := none }
  let s := if x.mirror then s.setFld F.VLX_STAT_ADOPTED (s.fld F.VLX_STAT_ADOPTED - 1) else s
  { s with chn := { s.chn with exch := s.chn.exch.del x.key } }

/-! Paths (R307) -/

/-- The ports of a subchannel's defined paths. -/
def Subch.paths (c : Subch) : List Nat :=
  (if fieldOf c.def_ 191 191 = 1 then [fieldOf c.def_ 187 184] else []) ++ (if fieldOf c.def_ 183 183 = 1 then [fieldOf c.def_ 179 176] else [])

/-- Its operational paths: ports that are up, with a sequencer that runs (06 R156). -/
def State.upPaths (s : State) (c : Subch) : List Nat := c.paths.filter (fun v => s.vpUp v && (s.vport v).fencing == 0 && !s.chn.pdsStop.contains v)

/-- RESUME goes out, and the RESTART event is raised unless the status is recorded (R307). -/
def State.resumeNow (s : State) (x : Exch) : State :=
  let x := { x with resume := false }
  let sr := jState (s.img x) == 3
  let s := (s.setEx x).sendResume x sr
  if sr then s else s.setEx (x.raise 3)

/-- Restart an exchange on a port by RESUME, from the journal's restart point (R307); a step that is not acknowledged yet is not shown to the adapter (06 R154). -/
def State.restartOn (s : State) (x : Exch) (v : Nat) : State :=
  let s := (s.dropCmd x).freeHandles (s.exid x)
  let x := { x with cur := none, sent := false, got := 0, buf := [], timer := false, rdAck := none, vp := v }
  let j := s.jent x.mirror x.idx
  let s := (s.setEx x).setJent x.mirror x.idx { j with img := jseal (jput j.img 1 7 4 v) }
  if j.outst then s.setEx { x with resume := true } else s.resumeNow x

/-- Move an exchange to another port of this complex by RESUME, or hand it to the buddy, or give it final status 0x20 (Table VLX-13). A step that is not acknowledged yet comes before the handoff (R295, R298). An exchange that is handed off runs here no more. -/
def State.pathLost (s : State) (k : Nat) : State :=
  match s.chn.exch.find k with
  | none => s
  | some x =>
    if x.ipl then s else
    let c := s.sch x.sch
    match (s.upPaths c).find? (fun v => v != x.vp) with
    | some v => (s.restartOn x v).flt 7 4
    | none =>
      let s := (s.dropCmd x).freeHandles (s.exid x)
      let x := { x with cur := none, sent := false, got := 0, buf := [], timer := false, rdAck := none, resume := false }
      let s := s.setEx x
      if jState (s.img x) = 3 then s
      else if (s.jent x.mirror x.idx).outst then s.setEx { x with resume := true }
      else
      match s.buddy, !x.mirror && fieldOf c.def_ 253 253 == 1 with
      | some b, true =>
        let s := (s.freeCtx (s.exid x)).setEx { x with ev := 0, running := false }
        (({ s with chn := { s.chn with mirr := { s.chn.mirr with jhnd := s.chn.mirr.jhnd.put x.idx 0 } } }).send .journal b 0x54 [(s.img x).toNat]).flt 7 5
      | _, _ => s.finalStatus k 0x20

/-- A step is acknowledged, or needs no acknowledgement any more: it is released; then the final status or the recovery that waited for it follows (R298; 06 R154). -/
def State.stepAcked (s : State) (k : Nat) : State :=
  let s := s.releaseKey k
  match s.chn.exch.find k with
  | none => s
  | some x =>
    let j := s.jent x.mirror x.idx
    match j.fin with
    | some f => (s.setJent x.mirror x.idx { j with fin := none }).finalStatus k f
    | none => if !x.resume then s else if (s.upPaths (s.sch x.sch)).contains x.vp then s.resumeNow x else s.pathLost k

/-- The exchanges that a port carries. -/
def State.exOn (s : State) (v : Nat) : List Nat := (s.chn.exch.filter (fun p => p.2.vp == v)).map (·.1)

/-- A port goes down (14 R337, R342, R344; 12 R307): frames are dropped, its exchanges move. -/
def State.portDown (s : State) (v : Nat) : State :=
  if !(s.vpUp v || s.retraining v) then s else
  let p := s.vport v
  let s := (s.setVport v { p with replay := [], waitq := [], cred := [], returned := [], resends := 0, retrainFails := 0, tie := false }).setFld F.VPT_STAT_STATE 0 v
  (s.exOn v).foldl (fun s k => s.pathLost k) (s.flt 9 4 v)

/-! Loss of the buddy (R303) -/

/-- Every open entry becomes SOLO: steps that wait are released. A START SUBCHANNEL whose STARTED step waits is refused unless SOLO operation is allowed (Table VLX-3, row 8). -/
def State.soloEntry (s : State) (k : Nat) : State :=
  match s.chn.exch.find k with
  | none => s
  | some x =>
    if x.mirror || x.ipl then s else
    let j := s.jent false x.idx
    if j.outst && jState j.img == 1 && !s.flag F.VLX_CTL_SOLO then
      let s := s.wakeSsch x.idx 3
      let s := s.setSch x.sch { s.sch x.sch with reason := 0x83 }
      (s.setJent false x.idx { j with img := jseal (jput j.img 0 63 60 4), outst := false }).endExch x
    else
      let s := s.setJent false x.idx { j with img := jseal (jput j.img 0 58 58 1), outst := false }
      if !j.outst then s else if jState j.img = 1 then (s.stepAcked k).flt 7 2 else s.stepAcked k

/-- A reload that awaits its JDACK ends when the buddy is lost: accepted without a mirror if SOLO operation is allowed, else ERR 4 (R284). -/
def State.sccDone (s : State) (err : Nat) : State := (s.setFlag F.VLX_SCCMD_BUSY false).setFld F.VLX_SCCMD_ERR err

/-- A definition comes into force. -/
def State.acceptDef (s : State) (n : Nat) (d : BitVec 256) : State :=
  let c := s.sch n
  (s.setSch n { c with def_ := d, valid := d.getLsbD 255 }).sccDone 0

/-- A journal entry that neither this complex nor its mirror can read is lost: the severe fault names it, the operation has no final status (R299). -/
def State.journalLost (s : State) (i : Nat) : State :=
  let s := s.flt 7 10 0 none (BitVec.ofNat 64 i)
  match s.chn.exch.find i with
  | some x => s.endExch x
  | none => s

/-- The buddy becomes lost (R303): open entries continue SOLO, what awaits the buddy's answer ends. -/
def State.buddyLost (s : State) : State :=
  if s.fld F.VLX_STAT_BST ≠ 1 then s else
  let s := (s.setFld F.VLX_STAT_BST 2).flt 7 8
  let s := (s.chn.exch.map (·.1)).foldl (fun s k => s.soloEntry k) s
  let m := s.chn.mirr
  let hands := m.jhnd.map (·.1)
  let s := match m.jdef with
    | some n => if s.flag F.VLX_CTL_SOLO then s.acceptDef n m.jdefDef else s.sccDone 4
    | none => s
  let s := { s with chn := { s.chn with mirr := { s.chn.mirr with jdef := none, jhnd := [], jrd := [] } } }
  let s := hands.foldl (fun s i => s.finalStatus i 0x20) s
  m.jrd.foldl (fun s p => s.journalLost p.1) s

end Sys2Proof.Machine
end

