-- ==== Sys2Proof/Machine/Pra.lean ====
section
/-! DEFINITION. Accesses of the channel subsystem to partition real storage (12 R292, 13 R317): stage 2 through STO_P2BASE (05 R141), then snapshots and placement writes. -/

namespace Sys2Proof.Machine

/-- A DMA step as a step of a table walk: a failed read stops the walk. -/
def DmaRes.toS {α : Type} (x : DmaRes α) : SRes α :=
  match x with
  | .ok s a => .ok s a
  | .refused s => .fail s (.prog 5 0 0)
  | .poison s w => .fail s (.poison 0 0 w)
  | .wait s => .wait s

/-- The absolute address of a partition real address, or none when translation fails. PID 0 has no stage 2. Reserved bits of an entry of the partition's stage-2 table are ignored (DESIGN CHOICE, log 69). -/
def State.praAbs (s : State) (a : Agent) (pra : Nat) (need : Need) : DmaRes (Option Nat) :=
  if 2 ^ 56 ≤ pra then .ok s none
  else if a.pid = 0 then .ok s (some pra)
  else if a.pid = 255 then .ok s none
  else
    (s.dmaWalk a (fieldOf s.p2base 55 12 * 4096 + 8 * a.pid)).bind fun s psce =>
      match walkTable (fun s _ x => ((s.dmaWalk a x).bind fun s v => .ok s (BitVec.ofNat 64 v)).toS) true pra 4 s (bits psce 55 12 * 4096) 512 with
      | .ok s (.leaf e x _) => .ok s (if leafHas e need then some x else none)
      | .ok s (.stop _ _) => .ok s none
      | .fail s (.poison _ _ w) => .poison s w
      | .fail s _ => .ok s none
      | .wait s => .wait s

/-- The absolute places of `n` bytes, page by page. -/
def State.praPlaces (s : State) (a : Agent) (need : Need) : Nat → Nat → Nat → DmaRes (Option (List (Nat × Nat)))
  | 0, _, _ => .ok s (some [])
  | fuel + 1, pra, n =>
    if n = 0 then .ok s (some []) else
      let k := min n (4096 - pra % 4096)
      (s.praAbs a pra need).bind fun s x =>
        match x with
        | none => .ok s none
        | some x => (State.praPlaces s a need fuel (pra + k) (n - k)).bind fun s r => .ok s (r.map (fun l => (x, k) :: l))

/-- Read at places. -/
def State.placesRead (s : State) (a : Agent) : List (Nat × Nat) → DmaRes (List Byte)
  | [] => .ok s []
  | (x, k) :: r => (s.dmaRead a (linesFor k) x k).bind fun s l => (State.placesRead s a r).bind fun s m => .ok s (l ++ m)

/-- Write at places. -/
def State.placesWrite (s : State) (a : Agent) (place : BitVec 18) : List (Nat × Nat) → List Byte → DmaRes Unit
  | [], _ => .ok s ()
  | (x, k) :: r, bs => (s.dmaWrite a place (linesFor k) x (bs.take k)).bind fun s _ => State.placesWrite s a place r (bs.drop k)

/-- How an access to partition real storage ends: done; failed with the final status 0x11, or 0x14 for poisoned data (12 R292, 20 R442); waiting. -/
inductive PraRes (α : Type) where
  | ok (s : State) (a : α)
  | bad (s : State) (fstat : Nat)
  | wait (s : State)

def DmaRes.toP {α β : Type} (x : DmaRes (Option α)) (f : State → α → DmaRes β) : PraRes β :=
  match x with
  | .ok s (some a) =>
    match f s a with
    | .ok s b => .ok s b
    | .refused s => .bad s 0x11
    | .poison s _ => .bad s 0x14
    | .wait s => .wait s
  | .ok s none => .bad s 0x11
  | .refused s => .bad s 0x11
  | .poison s _ => .bad s 0x14
  | .wait s => .wait s

/-- Read bytes of partition real storage. -/
def State.praRead (s : State) (a : Agent) (pra n : Nat) : PraRes (List Byte) :=
  (s.praPlaces a .rd (n / 4096 + 2) pra n).toP (fun s p => s.placesRead a p)

/-- Write bytes of partition real storage. -/
def State.praWrite (s : State) (a : Agent) (pra : Nat) (bs : List Byte) : PraRes Unit :=
  (s.praPlaces a .wr (bs.length / 4096 + 2) pra bs.length).toP (fun s p => s.placesWrite a 0 p bs)

end Sys2Proof.Machine
end

