-- ==== Sys2Proof/Machine/Pds.lean ====
section
/-! DEFINITION. The port data sequencers (13 R325): descriptors, CMD and DATA frames, the data's way through compression and cipher (12 R290, 15 R355, 16 R362 to R368), storage, and the ends of commands. -/

namespace Sys2Proof.Machine

/-! Descriptor flags, in the order CC, CD, SLI, SKIP, IDL, CMP, DCMP, ENC, DEC, PCI (Table VEN-8) -/

def PdsDesc.sli (d : PdsDesc) : Bool := d.flags.getLsbD 7
def PdsDesc.skip (d : PdsDesc) : Bool := d.flags.getLsbD 6
def PdsDesc.idl (d : PdsDesc) : Bool := d.flags.getLsbD 5
def PdsDesc.cmp (d : PdsDesc) : Bool := d.flags.getLsbD 4
def PdsDesc.dcmp (d : PdsDesc) : Bool := d.flags.getLsbD 3
def PdsDesc.enc (d : PdsDesc) : Bool := d.flags.getLsbD 2
def PdsDesc.dec (d : PdsDesc) : Bool := d.flags.getLsbD 1
def PdsDesc.pci (d : PdsDesc) : Bool := d.flags.getLsbD 0
/-- READ and SENSE take data in; WRITE sends it. -/
def PdsDesc.reads (d : PdsDesc) : Bool := d.cmd == 2 || d.cmd == 4
def PdsDesc.writes (d : PdsDesc) : Bool := d.cmd == 1

/-- The sequencer as an agent: it carries the exchange's PID (R325). -/
def State.pdsAgent (s : State) (x : Exch) : Agent := { tag := 8192 + x.key, pid := if x.ipl then 0 else jget (s.img x) 0 55 48, stype := 3 }

/-- The compression engine and the wall of a port (15 R347, R349; 16 R372). -/
def State.portEngine (s : State) (v : Nat) : Option Nat :=
  (List.range 22).find? (fun z => s.fld F.ZIP_ENG_ROLE z == 0 && !s.flag F.ZIP_ENG_POOL z && s.fld F.ZIP_ENG_PORT z == v)
def State.portWall (s : State) (v : Nat) : Option Nat :=
  if s.wallUp v then some v else (List.range 16).find? (fun w => s.fld F.CIP_WALL_STATE w == 1 && s.fld F.CIP_WALL_ALSO w == v)

/-! Data transformations -/

/-- Cut into pieces of `k` bytes. -/
def chunks (k : Nat) : Nat → List Byte → List (List Byte)
  | 0, _ => []
  | n + 1, l => if l.isEmpty then [] else l.take k :: chunks k n (l.drop k)

/-- The original data of a record stream up to its end or its first invalid record, and whether it is valid (15 R354). -/
def zData (zlib : Bool) : Nat → List Byte → Bool → List Byte → List Byte × Bool
  | 0, hist, _, _ => (hist, false)
  | n + 1, hist, first, l =>
    match readRecord hist.reverse first zlib l with
    | .ok d k last _ => if last then (hist ++ d, (l.drop k).isEmpty) else zData zlib n (hist ++ d) false (l.drop k)
    | _ => (hist, false)

/-- The tweak of data unit `u` of command `n`: IVSEED + n * 2^32 + u as 16 little-endian bytes (16 Table CIP-2). -/
def chanTweak (iv n u : Nat) : W128 := bytesSt (bytesOf 16 ((iv + n * 2 ^ 32 + u) % 2 ^ 128)).reverse

/-- The IV of segment `i` of command `n` (Table CIP-2). -/
def chanIv (iv n i : Nat) : BitVec 96 := BitVec.ofNat 96 (iv / 2 ^ 32) ^^^ BitVec.ofNat 96 (n * 2 ^ 16 + i)

/-- Encrypt segment `i` of a command into its wire form (Table CIP-2). -/
def segEnc (mode : Nat) (key : BitVec 512) (iv n i : Nat) (d : List Byte) : List Byte :=
  let kl := modeKl mode
  if mode ≤ 2 then
    let c := gcmCrypt kl (keyOne mode key) (chanIv iv n i) d
    c ++ gcmTag kl (keyOne mode key) (chanIv iv n i) [] c
  else xtsCrypt false kl (keyOne mode key) (keyTwo mode key) 4096 (d.length / 16 + 1) (chanTweak iv n (16 * i)) d

/-- Decrypt it; none when its tag fails (16 R368). -/
def segDec (mode : Nat) (key : BitVec 512) (iv n i : Nat) (w : List Byte) : Option (List Byte) :=
  let kl := modeKl mode
  if mode ≤ 2 then
    let c := w.take (w.length - 16)
    if w.length < 16 || gcmTag kl (keyOne mode key) (chanIv iv n i) [] c != w.drop (w.length - 16) then none else some (gcmCrypt kl (keyOne mode key) (chanIv iv n i) c)
  else some (xtsCrypt true kl (keyOne mode key) (keyTwo mode key) 4096 (w.length / 16 + 1) (chanTweak iv n (16 * i)) w)

/-- The segments of a command's data, or of its wire form. -/
def cmdSegs (mode : Nat) (wire : Bool) (d : List Byte) : List (List Byte) :=
  let k := if wire && decide (mode ≤ 2) then 65552 else 65536
  chunks k (d.length / k + 1) d

/-- The IV seed, ZLIB selection, mode and slot of a command: the ORB's, or those of its handles. -/
def State.ivSeed (s : State) (x : Exch) : Nat := jget (s.img x) 4 63 0 * 2 ^ 64 + jget (s.img x) 5 63 0
def State.cmdMode (s : State) (x : Exch) (d : PdsDesc) : Nat × Nat :=
  match s.chn.handles.find d.ch.toNat with
  | some h => (h.mode, h.slot)
  | none => (jget (s.img x) 3 13 11, jget (s.img x) 3 27 14)
def State.cmdZlib (s : State) (x : Exch) (d : PdsDesc) : Bool :=
  match s.chn.handles.find d.zh.toNat with
  | some h => h.zlib
  | none => jget (s.img x) 3 28 28 == 1

/-! Segments at the wall of the port (16 R360, R365) -/

/-- The segments of an exchange at a wall, in order. -/
def State.segsOf (s : State) (w exid : Nat) : List Seg := (s.wall w).segs.filter (fun g => g.port && g.exid.toNat == exid)

/-- Stripes of a segment. -/
def Seg.stripes (g : Seg) : Nat := (g.bytes + 511) / 512

/-- Queue the segments of a command at its wall. -/
def State.queueSegs (s : State) (x : Exch) (d : PdsDesc) (w : Nat) (dec : Bool) (pieces : List (List Byte)) : State :=
  let m := s.cmdMode x d
  let tag := if dec && decide (m.1 ≤ 2) then 16 else 0
  let segs := pieces.zipIdx.map (fun p =>
    ({ port := true, handle := p.2, exid := BitVec.ofNat 24 (s.exid x), pid := BitVec.ofNat 8 (s.pdsAgent x).pid, slot := m.2, mode := m.1, dec := dec,
       bytes := p.1.length - tag, assigned := 0, done := 0, redo := 0, checked := false, refused := false, key := 0 } : Seg))
  let q := s.wall w
  s.setWall w { q with segs := q.segs ++ segs }

/-- Are all segments of a command finished; with which keys. -/
def segKeys (g : List Seg) : Option (List (BitVec 512)) :=
  if g.all (fun g => g.checked && !g.refused && g.done == g.stripes) then some (g.map (·.key)) else none

/-- What a READ takes from its decrypted bytes, and whether its stream is valid and within COUNT: bytes of a record that failed and bytes beyond COUNT are not taken (15 R355). -/
def State.wireIn (s : State) (x : Exch) (d : PdsDesc) (l : List Byte) : List Byte × Bool × Bool :=
  if d.dcmp then
    let o := zData (s.cmdZlib x d) (l.length + 1) [] true l
    (o.1.take d.count.toNat, o.2, decide (o.1.length ≤ d.count.toNat))
  else (l.take d.count.toNat, true, true)

/-! Storage of a command -/

/-- The places of a command's data: its DADDR, or the entries of its indirect list until their lengths reach COUNT (R290, R291). `none`: a program check. -/
def State.idList (s : State) (a : Agent) (want : Nat) : Nat → Nat → Nat → PraRes (Option (List (Nat × Nat)))
  | 0, _, _ => .ok s none
  | fuel + 1, at_, got =>
    if got = want then .ok s (some [])
    else
      match s.praRead a at_ 16 with
      | .ok s l =>
        let v := packBytes l
        let len := bits v 31 0
        if at_ % 16 ≠ 0 || bits v 127 120 ≠ 0 || bits v 63 32 ≠ 0 || len = 0 || want < got + len then .ok s none
        else
          match State.idList s a want fuel (at_ + 16) (got + len) with
          | .ok s (some r) => .ok s (some ((bits v 119 64, len) :: r))
          | r => r
      | .bad s f => .bad s f
      | .wait s => .wait s

def State.cmdPlaces (s : State) (x : Exch) (d : PdsDesc) : PraRes (Option (List (Nat × Nat))) :=
  if d.idl then s.idList (s.pdsAgent x) d.count.toNat (d.count.toNat + 1) d.daddr.toNat 0 else .ok s (some [(d.daddr.toNat, d.count.toNat)])

def State.readAt (s : State) (a : Agent) : List (Nat × Nat) → PraRes (List Byte)
  | [] => .ok s []
  | (p, n) :: r =>
    match s.praRead a p n with
    | .ok s l =>
      match State.readAt s a r with
      | .ok s m => .ok s (l ++ m)
      | .bad s f => .bad s f
      | .wait s => .wait s
    | .bad s f => .bad s f
    | .wait s => .wait s

/-- Write bytes that begin at byte `skip` of the places. -/
def State.writeAt (s : State) (a : Agent) : List (Nat × Nat) → Nat → List Byte → PraRes Unit
  | [], _, _ => .ok s ()
  | (p, n) :: r, skip, bs =>
    if bs.isEmpty then .ok s ()
    else if n ≤ skip then State.writeAt s a r (skip - n) bs
    else
      match s.praWrite a (p + skip) (bs.take (n - skip)) with
      | .ok s _ => State.writeAt s a r 0 (bs.drop (n - skip))
      | .bad s f => .bad s f
      | .wait s => .wait s

/-! Frames of a command -/

/-- The payload of a CMD frame (14 Table VPT-4), as a number of 32 bytes. -/
def cmdPayload (d : PdsDesc) : Nat :=
  d.cmd.toNat * 2 ^ 248 + (b2n d.sli * 128 + b2n d.skip * 64 + b2n (d.cmp || d.dcmp) * 32 + b2n (d.enc || d.dec) * 16) * 2 ^ 240 + d.count.toNat * 2 ^ 192 + d.devcmd.toNat

/-- The final status that a command's failure leaves in the journal entry for the firmware to read (R325; log 37): no step. -/
def State.cmdFail (s : State) (x : Exch) (fstat resid : Nat) : State :=
  let s := (s.dropCmd x).forget (8192 + x.key)
  let x := { x with cur := none, buf := [], timer := false, resid := BitVec.ofNat 25 resid }
  let j := s.jent x.mirror x.idx
  let s := if x.ipl then s else s.setJent x.mirror x.idx { j with img := jseal (jput (jput j.img 6 63 56 fstat) 6 24 0 resid) }
  s.setEx (x.raise 7)

/-- The DATA frames of a WRITE, at most 4,096 bytes each. -/
def State.sendFrames (s : State) (x : Exch) (d : PdsDesc) (wire : List Byte) : State :=
  let fs := chunks 4096 (wire.length / 4096 + 1) wire
  let s := fs.zipIdx.foldl (fun s p =>
    s.sendFrame x.vp (vcOf (s.urgent x) 1) 2 [s.exid x, (x.outNext + BitVec.ofNat 16 p.2).toNat, d.cmdix.toNat, b2n (p.2 + 1 == fs.length), p.1.length, packBytes p.1]) s
  s.setEx { x with buf := [], outNext := x.outNext + BitVec.ofNat 16 fs.length }

/-- The outbound bytes are complete: encrypted by the port's wall where ENC asks for it, then sent. -/
def State.sendOut (s : State) (x : Exch) (d : PdsDesc) : State :=
  if !d.enc then s.sendFrames x d x.buf else
  match s.portWall x.vp with
  | none => s
  | some w =>
    let m := s.cmdMode x d
    let pieces := cmdSegs m.1 false x.buf
    let g := s.segsOf w (s.exid x)
    if g.isEmpty then s.queueSegs x d w false pieces
    else
      match segKeys g with
      | some keys => (s.dropSegs (s.exid x)).sendFrames x d ((pieces.zip keys).zipIdx.map (fun p => segEnc m.1 p.1.2 (s.ivSeed x) d.cmdix.toNat p.2 p.1.1)).flatten
      | none => s

/-- The data of a WRITE is read; with CMP its records come from the engine, one by one (ZE_RECORD_COMPLETE). -/
def State.sendData (s : State) (x : Exch) (d : PdsDesc) : State :=
  if !d.writes || x.outNext ≠ d.nseq + 1 then s
  else if x.got = d.count.toNat then s.sendOut x d
  else if d.cmp then s
  else
    let s0 := s
    match s.cmdPlaces x d with
    | .ok s (some ps) =>
      match s.readAt (s.pdsAgent x) ps with
      | .ok s l =>
        let x := { x with got := l.length, buf := l }
        (s.setEx x).sendOut x d
      | .bad s f => s.cmdFail x f d.count.toNat
      | .wait s => s.keep s0 (8192 + x.key)
    | .ok s none => s.cmdFail x 0x10 d.count.toNat
    | .bad s f => s.cmdFail x f d.count.toNat
    | .wait s => s.keep s0 (8192 + x.key)

/-- The CMD frame goes out; the exchange timer starts (14 R341). -/
def State.sendCmd (s : State) (x : Exch) (d : PdsDesc) : State :=
  let s := s.sendFrame x.vp (vcOf (s.urgent x) 0) 1
    [1, s.exid x, d.nseq.toNat, jget (s.img x) 3 31 30, d.cmdix.toNat,
      if x.ipl then s.fld F.BOO_IPL0_DEVADR else fieldOf (s.sch x.sch).def_ 207 192, cmdPayload d]
  let x := { x with outNext := d.nseq + 1, sent := true, timer := true, got := 0, buf := [] }
  (s.setEx x).sendData x d

/-- The port-buffer reservation of a READ with DEC (16 R367). -/
def reserve (d : PdsDesc) : Nat :=
  let c := d.count.toNat
  let l := if d.dcmp then c + 26 * ((c + 65535) / 65536) + 6 else c
  l + 16 * ((l + 65535) / 65536)

/-- The checks before a command's CMD frame (16 R363, R372; 15 R349): the final status that ends the operation. -/
def State.cmdRefused (s : State) (x : Exch) (d : PdsDesc) : Option Nat :=
  let mode := jget (s.img x) 3 13 11
  if 3 ≤ mode && (d.cmp || d.dcmp || d.count.toNat % 16 != 0) then some 0x10
  else if d.reads && d.dec && 4194304 < reserve d then some 0x10
  else if (d.cmp || d.dcmp) && (s.portEngine x.vp).isNone then some 0x14
  else if (d.enc || d.dec) && (s.portWall x.vp).isNone then some 0x14
  else none

/-- A sequencer starts a descriptor. -/
def State.startCmd (s : State) (x : Exch) (d : PdsDesc) (v : Nat) : State :=
  let x := { x with cur := some d, vp := v, sent := false, got := 0, buf := [], rdAck := none }
  let s := s.setEx x
  let s := if d.pci then s.interPending x else s
  match s.cmdRefused x d with
  | some f => s.finalStatus x.key f
  | none =>
    if d.reads && d.dec then
      { s with chn := { s.chn with pbuf := s.chn.pbuf.upd PortBuf.reset v (fun b => { b with queue := b.queue ++ [(d.exid, reserve d)] }) } }
    else s.sendCmd x d

/-- The first waiting descriptor of an exchange, with its port. -/
def State.queued (s : State) (exid : Nat) : Option (Nat × PdsDesc) :=
  (s.chn.pdsq.flatMap (fun p => p.2.map (fun d => (p.1, d)))).find? (fun p => p.2.exid.toNat == exid)

/-- Start the next command of an exchange: one is in flight at a time (14 R333), and its CMD frame waits until the step before it is acknowledged (06 R154, 12 Table VLX-5). An exchange that is handed off, or whose entry is read back from the mirror, starts none (12 R299, R307). -/
def State.startQueued (s : State) (k : Nat) : State :=
  match s.chn.exch.find k with
  | none => s
  | some x =>
    if x.cur.isSome || s.chn.pdsStop.contains x.vp || s.chn.mirr.jhnd.has k || s.chn.mirr.jrd.has k || (s.jent x.mirror x.idx).outst && !x.ipl then s else
    match s.queued (s.exid x) with
    | some (v, d) => if x.ipl || decide (d.cmdix.toNat ≤ jget (s.img x) 1 31 16) then s.startCmd x d v else s
    | none => s

def State.startAll (s : State) : State := (s.chn.exch.map (·.1)).foldl (fun s k => s.startQueued k) s

/-- Hand a descriptor to the sequencer of a port (R325). -/
def State.submitCmd (s : State) (x : Exch) (d : PdsDesc) (v : Nat) : State :=
  ({ s with chn := { s.chn with pdsq := s.chn.pdsq.upd [] v (fun q => q ++ [d]) } }).startQueued x.key

/-- PORT_BUFFER_GRANT (16 R367): the oldest request that fits is granted, and its CMD frame goes out. -/
def execPortBufferGrant (vp : Nat) (s : State) : Out := settled s <|
  if 16 ≤ vp then .fault .noSuchUnit else .next <|
  let b := s.chn.pbuf.get PortBuf.reset vp
  match b.queue with
  | [] => s
  | (exid, n) :: r =>
    if 4194304 < b.used + n then s else
    let s := { s with chn := { s.chn with pbuf := s.chn.pbuf.put vp { used := b.used + n, queue := r, granted := b.granted ++ [(exid, n)] } } }
    match s.exOf exid with
    | some x => (match x.cur with | some d => s.sendCmd x d | none => s)
    | none => s

/-- Store inbound bytes of a READ that needs no transformation, as far as they go; with the final status of a failure. -/
def State.flushRead (s : State) (x : Exch) (d : PdsDesc) : State × Option Nat :=
  if d.dec || d.dcmp || x.buf.isEmpty then (s, none)
  else if d.skip then (s.setEx { x with got := x.got + x.buf.length, buf := [] }, none)
  else
    let s0 := s
    match s.cmdPlaces x d with
    | .ok s (some ps) =>
      match s.writeAt (s.pdsAgent x) ps x.got (x.buf.take (d.count.toNat - x.got)) with
      | .ok s _ => (s.setEx { x with got := x.got + x.buf.length, buf := [] }, none)
      | .bad s f => (s, some f)
      | .wait s => (s.keep s0 (8192 + x.key), none)
    | .ok s none => (s, some 0x10)
    | .bad s f => (s, some f)
    | .wait s => (s.keep s0 (8192 + x.key), none)

/-- A command is done: CMDOK; the acknowledgement of READ data waits for its DATA step (Table VLX-5). -/
def State.cmdDone (s : State) (x : Exch) (d : PdsDesc) (resid : BitVec 25) : State :=
  let s := s.popCmd x
  let mark := fun (k : Nat) (s : State) =>
    match s.chn.handles.find k with
    | some h => { s with chn := { s.chn with handles := s.chn.handles.put k { h with state := 1 } } }
    | none => s
  let s := mark d.ch.toNat (mark d.zh.toNat s)
  let x := { x with cur := none, buf := [], resid := resid, rdAck := if d.reads then some d.cmdix else none }
  (s.setEx (x.raise 1)).startQueued x.key

/-- The failures of a tag or a stream are counted at the wall and the engine (16 R368; 15 R355). -/
def State.cmdBad (s : State) (x : Exch) (d : PdsDesc) (fstat : Nat) (stored : Nat := 0) : State :=
  let mark := fun (k : Nat) (s : State) =>
    match s.chn.handles.find k with
    | some h => { s with chn := { s.chn with handles := s.chn.handles.put k { h with state := 2 } } }
    | none => s
  let pid := some (s.pdsAgent x).pid
  let s :=
    if fstat = 0x13 then
      match s.portWall x.vp with
      | some w => ((mark d.ch.toNat s).count F.CIP_CNT_AUTHF (some F.CIP_CNT_AOVF) w).flt 11 5 w pid
      | none => s
    else if fstat = 0x15 then
      match s.portWall x.vp with
      | some w => (s.count F.CIP_CNT_REFUSED (some F.CIP_CNT_ROVF) w).flt 11 4 w pid
      | none => s
    else if fstat = 0x14 then
      match s.portEngine x.vp with
      | some z => ((mark d.zh.toNat s).count F.ZIP_CNT_BADSTR (some F.ZIP_CNT_BOVF) z).flt 10 1 z pid
      | none => s
    else s
  s.cmdFail x fstat (d.count.toNat - stored)

/-- The transformed data of a READ reaches storage; an invalid stream, or one that exceeds COUNT, then ends the command (15 R355). -/
def State.storeRead (s : State) (x : Exch) (d : PdsDesc) (clear : List Byte) : State :=
  let w := s.wireIn x d clear
  let fin := fun (s : State) =>
    if !w.2.1 then s.cmdBad x d 0x14 w.1.length
    else if !w.2.2 then s.cmdFail x 0x14 0
    else s.cmdDone x d (if d.dcmp && !d.skip then BitVec.ofNat 25 (d.count.toNat - w.1.length) else x.resid)
  if d.skip then fin s else
  let s0 := s
  match s.cmdPlaces x d with
  | .ok s (some ps) =>
    match s.writeAt (s.pdsAgent x) ps 0 w.1 with
    | .ok s _ => fin s
    | .bad s f => s.cmdFail x f d.count.toNat
    | .wait s => s.keep s0 (8192 + x.key)
  | .ok s none => s.cmdFail x 0x10 d.count.toNat
  | .bad s f => s.cmdFail x f d.count.toNat
  | .wait s => s.keep s0 (8192 + x.key)

/-- The inbound bytes are complete: decrypted by the port's wall where DEC asks for it; no plaintext passes before every tag has checked good (16 R368). -/
def State.readIn (s : State) (x : Exch) (d : PdsDesc) : State :=
  if !d.dec then s.storeRead x d x.buf else
  match s.portWall x.vp with
  | none => s
  | some w =>
    let m := s.cmdMode x d
    let pieces := cmdSegs m.1 true x.buf
    let g := s.segsOf w (s.exid x)
    if pieces.isEmpty then s.storeRead x d []
    else if g.isEmpty then s.queueSegs x d w true pieces
    else
      match segKeys g with
      | some keys =>
        let parts := (pieces.zip keys).zipIdx.map (fun p => segDec m.1 p.1.2 (s.ivSeed x) d.cmdix.toNat p.2 p.1.1)
        if parts.any (fun p => p.isNone) then s.cmdBad x d 0x13 else s.storeRead x d (parts.map (fun p => p.getD [])).flatten
      | none => s

/-- End a command that the sequencer reports done: a READ's data reaches storage first (12 R311). -/
def State.endRead (s : State) (x : Exch) (d : PdsDesc) (resid : BitVec 25) : State :=
  if !d.reads then s.cmdDone x d resid
  else if d.dec || d.dcmp then
    let x := { x with resid := resid }
    (s.setEx x).readIn x d
  else
    let p := s.flushRead x d
    match p.2, p.1.chn.exch.find x.key with
    | some f, _ => p.1.cmdFail x f (d.count.toNat - x.got)
    | none, some y => if y.buf.isEmpty then p.1.cmdDone y d resid else p.1
    | none, none => p.1

end Sys2Proof.Machine
end

