-- ==== Sys2Proof/Machine/System.lean ====
section
/-! DEFINITION. System instructions: PSW, banks, special and feature registers (02, 03 Table INS-15), barriers, maintenance (08, 05 R131), time (02 R53, 10 R262), signals (03 R87, R89), hints (03 R92), undefined opcodes (03 R66, R67). -/

namespace Sys2Proof.Machine

/-! PSW and banks -/

/-- B7 at window 0 with one resident window. -/
def Arch.resetB7 (a : Arch) : Arch := a.setWin 7 0 1

/-- LPSW (02 R32, R33, R47). An LPSW that leaves monitor state is the monitor's return, after which an interruption that a failed prefix kept can be taken again (R51). -/
def execLpsw (lc : Nat) (t a : BitVec 5) (sys : BitVec 10) (s : State) : Out :=
  let addr := (s.arch lc).getG a
  runCore lc { words := wordsE 0x30 0x01 t a sys, low := 1, sp := t != 0 || sys != 0 || addr.toNat % 16 != 0 } s fun s =>
    (s.loadNat (s.xc lc) addr 16).run fun s v =>
      let r := s.arch lc
      let d0 : W64 := BitVec.ofNat 64 (v / 2 ^ 64)
      let d1 : W64 := BitVec.ofNat 64 v
      let n := Psw.ofDws d0 d1
      let sup := r.psw.state == 1
      if sup && n.state == 2 then .exc s 2
      else if pswBad d0 d1 then .exc s 6
      else if n.bank = 7 && r.psw.bank ≠ 7 then .exc s 6
      else if n.bank = 7 && (r.nres 7 ≤ 1 || r.cwp 7 = 0) then .exc s 6
      else
        let n := if sup then { n with pid := r.psw.pid } else n
        let r1 := if r.psw.bank ≠ 7 then r else if n.bank = 7 then r.setWin 7 (r.cwp 7 - 1) (r.nres 7 - 1) else r.resetB7
        let s := s.updCore lc (fun c => { c with arch := { r1 with psw := n }, kept := if r.psw.state == 2 && n.state != 2 then none else c.kept })
        .loaded (s.trace lc 3 0 n.ia)

/-- SETB (02 R34, R35): bank n becomes current; from B7 it resets the trap bank (R47). -/
def execSetb (lc : Nat) (t a : BitVec 5) (sys : BitVec 10) (s : State) : Out :=
  let n : BitVec 3 := sys.extractLsb' 0 3
  let r := s.arch lc
  runCore lc { words := wordsE 0x30 0x02 t a sys,
               pv := r.psw.state == 0 && n != 7 && !(r.getSr 0x0B).getLsbD n.toNat,
               sp := t != 0 || a != 0 || sys.extractLsb' 3 7 != 0 || n == 7 } s fun s =>
    .done (s.updArch lc (fun r =>
      let r := if r.psw.bank = 7 then r.resetB7 else r
      { r with psw := { r.psw with bank := n } }))

/-! Special registers (02 R31, 05 R123, 07 R183, 08 R199, 12 R301) -/

/-- The lowest state that may read or write a special register; none for an unassigned number. -/
def Arch.srLow (r : Arch) (n : Nat) (write : Bool) : Option Nat :=
  if n = 0x01 || n = 0x08 || n = 0x09 || n = 0x0A || n = 0x10 || n = 0x30 || n = 0x31 || n = 0x38 || n = 0x3C then some 1
  else if 0x18 ≤ n && n ≤ 0x1F then some 1
  else if n = 0x02 || n = 0x32 || n = 0x33 || n = 0x34 then some 2
  else if n = 0x0B then some (if write then 2 else 1)
  else if n = 0x0C || n = 0x3A || n = 0x3B then some 0
  else if 0x20 ≤ n && n ≤ 0x27 then some (if !write && (r.getSr 0x10).getLsbD 3 then 0 else 1)
  else none

/-- A special register as it reads. -/
def State.srRead (s : State) (lc n : Nat) : W64 :=
  let c := s.core lc
  let b := c.arch.psw.bank.toNat
  if n = 0x08 then c.arch.wsp.get 0 b
  else if n = 0x09 then c.wstRead b
  else if n = 0x34 then s.p2base
  else c.arch.getSr n

/-- Bits of a value outside a mask. -/
def outside (v mask : W64) : Bool := v &&& ~~~mask != 0

/-- Is a value for COR_WSTATE of a bank refused (02 R38): reserved bits and encodings, or a change of SPDEPTH, NRES or CWP while a transfer for the bank is in progress. -/
def Core.wstBad (c : Core) (bank : Nat) (v : W64) : Bool :=
  let nres := fieldOf v 6 4
  let cwp := fieldOf v 2 0
  let depth := if bank = 7 then 0 else fieldOf v 63 32
  outside v 0xFFFFFFFF00000777 || nres == 0 || (bank == 7 && (decide (4 < nres) || decide (3 < cwp))) ||
    ((c.xfer == some (bank, true) || c.xfer == some (bank, false)) &&
      (nres != c.arch.nres bank || cwp != c.arch.cwp bank || depth != c.arch.spdepth bank))

/-- Write COR_WSTATE of a bank: SPDEPTH (not of B7), NRES, CWP; a 1 in SFLT clears it and frees the engine (02 R46). -/
def Core.wstWrite (c : Core) (bank : Nat) (v : W64) : Core :=
  let w := c.arch.wstOf bank
  let w := putField (putField w 6 4 (fieldOf v 6 4)) 2 0 (fieldOf v 2 0)
  let w := if bank = 7 then w else putField w 63 32 (fieldOf v 63 32)
  if fieldOf v 10 10 = 1 then { c with arch := c.arch.setWst bank (putField w 10 10 0), spillWhy := c.spillWhy.del bank }
  else { c with arch := c.arch.setWst bank w }

/-- Does an MTSR of this value raise a specification exception (R31). -/
def Core.srBad (c : Core) (n : Nat) (v : W64) : Bool :=
  if n = 0x01 || n = 0x02 then outside v 0x00FFFFFFFFFFE000
  else if n = 0x08 then outside v 0xFFFFFFFFFFFFFFC0
  else if n = 0x09 then c.wstBad c.arch.psw.bank.toNat v
  else if n = 0x0A then outside v 0x3F7 || fieldOf v 9 8 == 3
  else if n = 0x0B then outside v 0x7F
  else if n = 0x0C then outside v 0xF8F8FF07 || decide (4 < fieldOf v 2 0) || !([0, 0x80, 0x40, 0x20, 0x10, 0x08].contains (fieldOf v 15 8))
  else if n = 0x10 then outside v 0x1FF0F
  else if 0x18 ≤ n && n ≤ 0x1F then outside v 0x0FFFFFFF || decide (0x11 < fieldOf v 15 0)
  else if n = 0x30 || n = 0x31 then outside v 0xFFFFFFFFFFFFF0FF
  else if n = 0x32 || n = 0x34 then outside v 0x00FFFFFFFFFFF000
  else if n = 0x33 || n = 0x3C then outside v 0xFF
  else if n = 0x38 then outside v 1
  else n == 0x3A || n == 0x3B

/-- Write a special register. The value written to a counter stands: what the interval has still to count is not added to it (02 R58). -/
def State.srWrite (s : State) (lc n : Nat) (v : W64) : State :=
  let c := s.core lc
  let b := c.arch.psw.bank.toNat
  if n = 0x08 then s.updArch lc (fun r => { r with wsp := r.wsp.put b v })
  else if n = 0x09 then s.setCore lc (c.wstWrite b v)
  else if n = 0x34 then { s with p2base := v }
  else if n = 0x10 then
    let old := c.arch.getSr 0x10
    s.updArch lc (fun r => r.setSr 0x10 (putField (putField old 3 0 (fieldOf v 3 0)) 15 8 (fieldOf (old &&& ~~~v) 15 8)))
  else if 0x20 ≤ n && n ≤ 0x27 then s.setCore lc { c with arch := c.arch.setSr n v, pmcDue := c.pmcDue.del (n - 0x20) }
  else s.updArch lc (fun r => r.setSr n v)

/-- MFSR (02 R31): t ← special register num. -/
def execMfsr (lc : Nat) (t a : BitVec 5) (sys : BitVec 10) (s : State) : Out :=
  let n := fieldOf sys 5 0
  let low := (s.arch lc).srLow n false
  runCore lc { words := wordsE 0x30 0x03 t a sys, op := low.isNone, low := low.getD 0, sp := a != 0 || fieldOf sys 9 6 != 0 } s fun s =>
    .done (s.updArch lc (fun r => r.setG t (s.srRead lc n)))

/-- MTSR (02 R31): special register num ← a. STO_ICTL.IASC covers COR_PREFIX, STO_PASCE and STO_SASCE (05 R128). -/
def execMtsr (lc : Nat) (t a : BitVec 5) (sys : BitVec 10) (s : State) : Out :=
  let n := fieldOf sys 5 0
  let low := (s.arch lc).srLow n true
  let v := (s.arch lc).getG a
  runCore lc { words := wordsE 0x30 0x04 t a sys, op := low.isNone, low := low.getD 0,
               sp := t != 0 || fieldOf sys 9 6 != 0 || (s.core lc).srBad n v,
               ictl := if n = 0x01 || n = 0x30 || n = 0x31 then some 6 else none } s fun s =>
    .done (s.srWrite lc n v)

/-- The feature registers (02 R54). -/
def State.feat (s : State) (lc n : Nat) : W64 :=
  BitVec.ofNat 64 (match n with
    | 0 => 0x7200 * 2 ^ 48 + 0xB1 * 2 ^ 40 + s.nLc * 2 ^ 32 + 56 * 2 ^ 24 + s.fld F.TAN_SPARE_SPARES * 2 ^ 16 + lc * 2 ^ 8 + 8
    | 1 => 128 * 2 ^ 48 + 128 * 2 ^ 32 + 4096 * 2 ^ 16 + 32 * 2 ^ 8 + 8
    | 2 => 8 * 2 ^ 40 + 8 * 2 ^ 32 + 16 * 2 ^ 24 + 16 * 2 ^ 16 + 8 * 2 ^ 12 + 8 * 2 ^ 8 + 4 * 2 ^ 4 + 8
    | 3 => 0x01010107
    | 4 => 1024 * 2 ^ 48 + 5 * 2 ^ 40 + 254 * 2 ^ 32 + s.cxid
    | 5 => s.fld F.MCS_PLVL_CISPL * 2 ^ 48 + s.fld F.MCS_PLVL_PDSPL * 2 ^ 32 + s.fld F.MCS_PLVL_CISMR * 2 ^ 16 +
        (List.range 16).foldl (fun m p => max m (fieldOf (s.reg (0xC008 + p / 8 * 8)) (p % 8 * 8 + 7) (p % 8 * 8))) 0
    | 6 => 64 * 2 ^ 8 + 28 * 2 ^ 3 + 7
    | _ => 0)

/-- READF (02 R54): t ← FEATn. -/
def execReadf (lc : Nat) (t a : BitVec 5) (sys : BitVec 10) (s : State) : Out :=
  runCore lc { words := wordsE 0x30 0x05 t a sys, low := 1, sp := a != 0 || fieldOf sys 9 3 != 0, ictl := some 3 } s fun s =>
    .done (s.updArch lc (fun r => r.setG t (s.feat lc (fieldOf sys 2 0))))

/-- The fields of BANKWIN. -/
def Arch.bwFile (r : Arch) : Nat := fieldOf (r.getSr 0x0A) 9 8
def Arch.bwPhys (r : Arch) : Bool := fieldOf (r.getSr 0x0A) 7 7 == 1
def Arch.bwFrame (r : Arch) : Nat := fieldOf (r.getSr 0x0A) 6 4
def Arch.bwBank (r : Arch) : Nat := fieldOf (r.getSr 0x0A) 2 0

/-- Is the register that BANKWIN and x name refused (02 R36). -/
def Arch.bwBad (r : Arch) (x : BitVec 5) : Bool :=
  (r.bwFile == 2 && decide (1 < x.toNat)) ||
    (r.bwPhys && r.bwBank == 7 && (decide (4 < r.bwFrame) || (r.bwFrame == 4 && decide (24 ≤ x.toNat))))

/-- Key of W register x (16 to 31) of the target bank. -/
def Arch.bwKey (r : Arch) (x : BitVec 5) : Nat :=
  winKey r.bwBank (if r.bwPhys then r.bwFrame else r.cwp r.bwBank) (x.toNat - 16)

/-- Must MOVFB and MOVTB wait for a transfer of the target bank (02 R37). -/
def Core.bwWait (c : Core) : Bool :=
  (c.arch.bwFile == 0 || c.arch.bwFile == 2) && (c.xfer == some (c.arch.bwBank, true) || c.xfer == some (c.arch.bwBank, false))

/-- The register of the target bank that x names. -/
def Core.bwGet (c : Core) (x : BitVec 5) : W64 :=
  let r := c.arch
  if r.bwFile = 1 then r.f.get 0 (r.bwBank * 32 + x.toNat)
  else if r.bwFile = 2 then (if x = 0 then r.wsp.get 0 r.bwBank else c.wstRead r.bwBank)
  else if x.toNat < 16 then r.g.get 0 (r.bwBank * 16 + x.toNat)
  else r.w.get 0 (r.bwKey x)

def Core.bwPut (c : Core) (x : BitVec 5) (v : W64) : Core :=
  let r := c.arch
  if r.bwFile = 1 then { c with arch := { r with f := r.f.put (r.bwBank * 32 + x.toNat) v } }
  else if r.bwFile = 2 then (if x = 0 then { c with arch := { r with wsp := r.wsp.put r.bwBank v } } else c.wstWrite r.bwBank v)
  else if x.toNat < 16 then { c with arch := { r with g := r.g.put (r.bwBank * 16 + x.toNat) v } }
  else { c with arch := { r with w := r.w.put (r.bwKey x) v } }

/-- MOVFB (02 R36, R37): t ← register x (field a) of the target bank. -/
def execMovfb (lc : Nat) (t a : BitVec 5) (sys : BitVec 10) (s : State) : Out :=
  runCore lc { words := wordsE 0x30 0x06 t a sys, low := 1, sp := sys != 0 || (s.arch lc).bwBad a } s fun s =>
    let c := s.core lc
    if c.bwWait then .stay s else .done (s.updArch lc (fun r => r.setG t (c.bwGet a)))

/-- MOVTB (02 R36 to R38): register x (field t) of the target bank ← a. -/
def execMovtb (lc : Nat) (t a : BitVec 5) (sys : BitVec 10) (s : State) : Out :=
  let c := s.core lc
  let v := c.arch.getG a
  let bad := c.arch.bwFile == 2 && ((t == 0 && outside v 0xFFFFFFFFFFFFFFC0) || (t == 1 && !c.bwWait && c.wstBad c.arch.bwBank v))
  runCore lc { words := wordsE 0x30 0x07 t a sys, low := 1, sp := sys != 0 || c.arch.bwBad t || bad } s fun s =>
    let c := s.core lc
    if c.bwWait then .stay s else .done (s.setCore lc (c.bwPut t v))

/-- SCALL (02 R49): the supervisor-call interruption with a 16-bit operand; its old PSW addresses the next instruction. When the partition's prefix area fails, the intercept's old PSW addresses the SCALL, which recurs (R51). -/
def execScall (lc : Nat) (t a : BitVec 5) (sys : BitVec 10) (s : State) : Out :=
  let words := wordsE 0x30 0x08 t a sys
  let q := IntReq.svc ((t ++ a ++ sys : BitVec 20).setWidth 16)
  runCore lc { words := words, sp := t.extractLsb' 1 4 != 0 } s fun s =>
    let s := if (s.core lc).begun then s.confirmCore lc else s
    let b := s.arch lc
    let p := b.psw
    let ia := p.ia
    let mon := q.toMonitor p
    match s.enterAt lc q (ia + 4) mon with
    | .ok s => .gone ((s.updCore lc (fun c => ({ c with retired := c.retired + 1, lastIlc := 4 } : Core).countIns b)).entered lc p.pid)
    | .wait s => .stay s
    | .exhausted => .gone (s.checkStop lc 1 ia)
    | .fail s d p =>
      if mon then .gone (s.checkStop lc 2 ia)
      else .gone (s.takeInt lc (.intercept 2 words d 0 0 0 p) ia words).1

/-- EPSW (R87): t ← PSW doubleword 0. -/
def execEpsw (lc : Nat) (t a : BitVec 5) (sys : BitVec 10) (s : State) : Out :=
  runCore lc { words := wordsE 0x30 0x09 t a sys, sp := a != 0 || sys != 0 } s fun s =>
    .done (s.updArch lc (fun r => r.setG t r.psw.dw0))

/-! Barriers -/

/-- SYNC (09 R222): the cadence ends with it, and it completes when that cadence is confirmed and its stores are visible (07 R168). -/
def execSync (lc : Nat) (t a : BitVec 5) (sys : BitVec 10) (s : State) : Out :=
  runCore lc { words := wordsE 0x31 0x01 t a sys, sp := t != 0 || a != 0 || sys != 0, sync := true } s fun s => .done s

/-- ISYNC (03 R74): fetched words are those of storage from here on; the model keeps no prefetched words. -/
def execIsync (lc : Nat) (t a : BitVec 5) (sys : BitVec 10) (s : State) : Out :=
  runCore lc { words := wordsE 0x31 0x02 t a sys, sp := t != 0 || a != 0 || sys != 0 } s fun s => .done s

/-! Cache maintenance (08) -/

/-- CLEANA (R192). -/
def execCleana (lc : Nat) (t a : BitVec 5) (sys : BitVec 10) (s : State) : Out :=
  runCore lc { words := wordsE 0x32 0x01 t a sys, sp := t != 0 || sys != 0 } s fun s => s.cmoAddr lc ((s.arch lc).getG a) .clean

/-- INVALA (R192, R193): checkpoint-bound. -/
def execInvala (lc : Nat) (t a : BitVec 5) (sys : BitVec 10) (s : State) : Out :=
  runCore lc { words := wordsE 0x32 0x02 t a sys, low := 1, sp := t != 0 || sys != 0, ictl := some 5, bound := true } s fun s =>
    s.once lc .cache (fun s _ => .done s) (fun s =>
      match s.cmoAddr lc ((s.arch lc).getG a) .inval with
      | .done s => .done (s.logInput lc .cache 0 0)
      | r => r)

/-- CLINVA (R192). -/
def execClinva (lc : Nat) (t a : BitVec 5) (sys : BitVec 10) (s : State) : Out :=
  runCore lc { words := wordsE 0x32 0x03 t a sys, sp := t != 0 || sys != 0 } s fun s => s.cmoAddr lc ((s.arch lc).getG a) .clinv

/-- CLEANR (R196). -/
def execCleanr (lc : Nat) (t a : BitVec 5) (sys : BitVec 10) (s : State) : Out :=
  runCore lc { words := wordsE 0x32 0x04 t a sys, sp := sys != 0 } s fun s => .done (s.rangeIns lc t a .clean 1).1

/-- INVALR (R196): checkpoint-bound. -/
def execInvalr (lc : Nat) (t a : BitVec 5) (sys : BitVec 10) (s : State) : Out :=
  runCore lc { words := wordsE 0x32 0x05 t a sys, low := 1, sp := sys != 0, ictl := some 5, bound := true } s fun s =>
    s.once lc .cache (fun s e => .done (s.rangeAgain lc t a 2 e.cc)) (fun s =>
      let p := s.rangeIns lc t a .inval 2
      .done (p.1.logInput lc .cache 0 p.2))

/-- CLINVR (R196). -/
def execClinvr (lc : Nat) (t a : BitVec 5) (sys : BitVec 10) (s : State) : Out :=
  runCore lc { words := wordsE 0x32 0x06 t a sys, sp := sys != 0 } s fun s => .done (s.rangeIns lc t a .clinv 3).1

/-- CLEANS (R200). -/
def execCleans (lc : Nat) (t a : BitVec 5) (sys : BitVec 10) (s : State) : Out :=
  runCore lc { words := wordsE 0x32 0x07 t a sys, low := 1, sp := t != 0 || sys != 0 || setWayBad ((s.arch lc).getG a) false, ictl := some 4 } s fun s =>
    (s.setWay lc ((s.arch lc).getG a) .clean).ends s IRes.done

/-- INVALS (R200): checkpoint-bound; a dirty line is cleaned. -/
def execInvals (lc : Nat) (t a : BitVec 5) (sys : BitVec 10) (s : State) : Out :=
  runCore lc { words := wordsE 0x32 0x08 t a sys, low := 1, sp := t != 0 || sys != 0 || setWayBad ((s.arch lc).getG a) true, ictl := some 4, bound := true } s fun s =>
    s.once lc .cache (fun s _ => .done s) (fun s => (s.setWay lc ((s.arch lc).getG a) .inval).ends s (fun s => .done (s.logInput lc .cache 0 0)))

/-- CLINVS (R200): checkpoint-bound. -/
def execClinvs (lc : Nat) (t a : BitVec 5) (sys : BitVec 10) (s : State) : Out :=
  runCore lc { words := wordsE 0x32 0x09 t a sys, low := 1, sp := t != 0 || sys != 0 || setWayBad ((s.arch lc).getG a) false, ictl := some 4, bound := true } s fun s =>
    s.once lc .cache (fun s _ => .done s) (fun s => (s.setWay lc ((s.arch lc).getG a) .clinv).ends s (fun s => .done (s.logInput lc .cache 0 0)))

/-! TLB maintenance (05 R131, Table STO-7) -/

/-- TLBIV: the entries of virtual address a for the current PID. -/
def execTlbiv (lc : Nat) (t a : BitVec 5) (sys : BitVec 10) (s : State) : Out :=
  runCore lc { words := wordsE 0x33 0x01 t a sys, low := 1, sp := t != 0 || sys != 0, ictl := some 7, bound := true } s fun s =>
    s.once lc .tlb (fun s _ => .done s) (fun s => s.tlbOp lc .va (s.arch lc).psw.pid ((s.arch lc).getG a))

/-- TLBIA: all entries of the current PID. -/
def execTlbia (lc : Nat) (t a : BitVec 5) (sys : BitVec 10) (s : State) : Out :=
  runCore lc { words := wordsE 0x33 0x02 t a sys, low := 1, sp := t != 0 || a != 0 || sys != 0, ictl := some 7, bound := true } s fun s =>
    s.once lc .tlb (fun s _ => .done s) (fun s => s.tlbOp lc .pidAll (s.arch lc).psw.pid 0)

/-- TLBIP: all entries of PID t[7:0]. -/
def execTlbip (lc : Nat) (t a : BitVec 5) (sys : BitVec 10) (s : State) : Out :=
  let v := (s.arch lc).getG t
  runCore lc { words := wordsE 0x33 0x03 t a sys, low := 2, sp := a != 0 || sys != 0 || outside v 0xFF, bound := true } s fun s =>
    s.once lc .tlb (fun s _ => .done s) (fun s => s.tlbOp lc .pidAll (v.setWidth 8) 0)

/-- TLBIALL: all entries. -/
def execTlbiall (lc : Nat) (t a : BitVec 5) (sys : BitVec 10) (s : State) : Out :=
  runCore lc { words := wordsE 0x33 0x04 t a sys, low := 2, sp := t != 0 || a != 0 || sys != 0, bound := true } s fun s =>
    s.once lc .tlb (fun s _ => .done s) (fun s => s.tlbOp lc .everything 0 0)

/-! Time -/

/-- STTB (10 R262, 03 R89): t ← time base, an input of the log (07 R172, R173). -/
def execSttb (lc : Nat) (t a : BitVec 5) (sys : BitVec 10) (s : State) : Out :=
  runCore lc { words := wordsE 0x36 0x01 t a sys, sp := a != 0 || sys != 0, logs := true } s fun s =>
    s.once lc .timeBase (fun s e => .done (s.updArch lc (fun r => r.setG t (e.val.setWidth 64)))) (fun s =>
      .done ((s.logInput lc .timeBase (s.fab.tb.setWidth 256) 0).updArch lc (fun r => r.setG t s.fab.tb)))

/-- SETTC (02 R53): time-base comparator ← a. -/
def execSettc (lc : Nat) (t a : BitVec 5) (sys : BitVec 10) (s : State) : Out :=
  runCore lc { words := wordsE 0x36 0x02 t a sys, low := 1, sp := t != 0 || sys != 0, ictl := some 2 } s fun s =>
    .done (s.updArch lc (fun r => { r with tbc := r.getG a }))

/-- STTC (02 R53): t ← time-base comparator. -/
def execSttc (lc : Nat) (t a : BitVec 5) (sys : BitVec 10) (s : State) : Out :=
  runCore lc { words := wordsE 0x36 0x03 t a sys, low := 1, sp := a != 0 || sys != 0, ictl := some 2 } s fun s =>
    .done (s.updArch lc (fun r => r.setG t r.tbc))

/-! Signals -/

/-- Deliver a signal or a restart to a logical core of this complex, with its condition code (03 Table INS-15, 07 R183, R184, 22 R472). A core of another PID that is also in check stop gives CC 1: the table orders the two no further (DESIGN CHOICE, log 54). -/
def State.signal (s : State) (lc pid : Nat) (restart : Bool) : State × BitVec 2 :=
  let c := s.core lc
  if !s.lcExists lc || c.run = .lost || s.flag F.FLT_FENCE_CXF then (s, 1)
  else if restart then (s.setCore lc { c with pendRestart := true }, 0)
  else if c.arch.psw.pid.toNat ≠ pid then (s, 1)
  else if c.run = .checkStop then (s, 2)
  else (s.setCore lc (c.pendExternal 0x1201), 0)

/-- SIGC and RSTC: checkpoint-bound; to another complex by SIG, answered by SIGRSP. -/
def State.signalIns (s : State) (lc : Nat) (v : W64) (restart : Bool) : IRes :=
  let done := fun (s : State) (cc : BitVec 2) => IRes.done ((s.updArch lc (fun r => r.setCc cc)).logInput lc .signal 0 cc)
  s.once lc .signal (fun s e => .done (s.updArch lc (fun r => r.setCc e.cc))) (fun s =>
    match (s.core lc).wait with
    | .ccGot cc => done s cc
    | .signal _ => .stay s
    | _ =>
      let cx := fieldOf v 17 8
      let pid := (s.arch lc).psw.pid.toNat
      if cx = s.cxid then
        let p := s.signal (fieldOf v 7 0) pid restart
        done p.1 p.2
      else if !s.present cx then done s 1
      else .stay ((s.send .fab cx 0x48 [lc, fieldOf v 7 0, pid, b2n restart]).updCore lc (fun c => { c with wait := .signal cx })))

/-- SIGC (R87): external 0x1201 to logical core t[7:0] of complex t[17:8]. -/
def execSigc (lc : Nat) (t a : BitVec 5) (sys : BitVec 10) (s : State) : Out :=
  let v := (s.arch lc).getG t
  runCore lc { words := wordsE 0x37 0x01 t a sys, low := 1, sp := a != 0 || sys != 0 || outside v 0x3FFFF, ictl := some 1, bound := true } s fun s =>
    s.signalIns lc v false

/-- RSTC (R87): a restart interruption to logical core t[7:0] of complex t[17:8]. -/
def execRstc (lc : Nat) (t a : BitVec 5) (sys : BitVec 10) (s : State) : Out :=
  let v := (s.arch lc).getG t
  runCore lc { words := wordsE 0x37 0x02 t a sys, low := 2, sp := a != 0 || sys != 0 || outside v 0x3FFFF, bound := true } s fun s =>
    s.signalIns lc v true

/-! Hints and undefined opcodes -/

def wordsHint (num : BitVec 10) (opnd : BitVec 16) : W64 := BitVec.ofNat 64 ((0x3E * 2 ^ 26 + num.toNat * 2 ^ 16 + opnd.toNat) * 2 ^ 32)

/-- NOP, and every hint but PAUSE (R92): a no-operation. -/
def execNop (lc : Nat) (num : BitVec 10) (opnd : BitVec 16) (s : State) : Out :=
  runCore lc { words := wordsHint num opnd } s fun s => .done s

/-- PAUSE (R92): lowers the issue priority only. -/
def execPause (lc : Nat) (opnd : BitVec 16) (s : State) : Out :=
  runCore lc { words := wordsHint 1 opnd } s fun s => .done s

/-- An undefined opcode (R66, R67): an operation exception. A word that is defined is no such command, and leaves the state as it is. -/
def execUndefinedOpcode (lc : Nat) (w0 : BitVec 32) (s : State) : Out := settled s <|
  if coreDefined w0 then chk (decide (lc < 48)) s
  else runCore lc { ilc := coreIlc w0, words := w0 ++ (0 : BitVec 32), op := true } s fun s => .done s

end Sys2Proof.Machine
end

