-- ==== Sys2Proof/Machine/Channel.lean ====
section
/-! DEFINITION. The channel subsystem toward programs and the buddy: START and TEST SUBCHANNEL, subchannel commands, journal messages, takeover (12). -/

namespace Sys2Proof.Machine

/-! START SUBCHANNEL (R287 to R289) -/

/-- A reserved bit of the ORB is set, or a field is outside its range (R287). -/
def orbBad (orb pid : Nat) : Bool :=
  let d := dw orb 8
  bits (d 0) 21 14 != 0 || bits (d 1) 63 56 != 0 || bits (d 2) 58 0 != 0 || d 3 != 0 || d 6 != 0 || d 7 != 0 ||
    bits (d 0) 31 24 != pid || decide (4 < bits (d 2) 63 61) || bits (d 2) 60 60 != 0 || bits (d 1) 4 0 != 0

/-- The free entry for a new exchange: entries never used in rising order, then the one free the longest (R294). Entry 0x3FFF is held out during the IPL (19 R427). -/
def State.allocEntry (s : State) : Option (Nat × State) :=
  let c := s.chn
  if c.jnext < 16384 && !(c.jnext = 0x3FFF && c.iplHeld) then some (c.jnext, { s with chn := { c with jnext := c.jnext + 1 } })
  else
    match c.jfreed with
    | i :: r => some (i, { s with chn := { c with jfreed := r } })
    | [] => none

/-- The first step of an operation: the fields of a new entry (Table VLX-6), STEP kept. -/
def startImg (old : Img) (orb exid sch isc port : Nat) (solo : Bool) : Img :=
  let d := dw orb 8
  let i : Img := jput 0 1 63 48 (jStep old)
  let i := jput (jput (jput (jput (jput (jput i 0 63 60 1) 0 58 58 (b2n solo)) 0 55 48 (bits (d 0) 31 24)) 0 47 32 sch) 0 31 29 isc) 0 23 0 exid
  let i := jput (jput i 1 7 4 port) 2 55 0 (bits (d 1) 55 0)
  let i := jput (jput (jput (jput (jput i 3 63 32 (bits (d 0) 63 32)) 3 31 30 (bits (d 0) 23 22)) 3 29 28 (bits (d 2) 60 59)) 3 27 14 (bits (d 0) 13 0)) 3 13 11 (bits (d 2) 63 61)
  jput (jput i 4 63 0 (d 4)) 5 63 0 (d 5)

/-- JUSED and JMAX. -/
def State.jused (s : State) (n : Nat) : State :=
  let s := s.setFld F.VLX_STAT_JUSED n
  if s.fld F.VLX_STAT_JMAX < n then s.setFld F.VLX_STAT_JMAX n else s

/-- A new exchange in entry `i` (R289, R293, 13 R314): the STARTED step. -/
def State.startExch (s : State) (sch i orb port : Nat) (solo : Bool) : State :=
  let s := s.jused (s.fld F.VLX_STAT_JUSED + 1)
  let c := s.sch sch
  let x : Exch := { Exch.reset with idx := i, sch := sch, vp := port }
  let j := s.jent false i
  let old := j.img
  let s := s.setJent false i { j with quar := false }
  let p := s.assignEngine x
  let s := (p.1.setEx p.2).setSch sch { c with active := some (false, i), reason := 0x80 }
  s.writeStep p.2 (fun _ => jput (startImg old orb (s.cxid * 16384 + i) sch (fieldOf c.def_ 239 237) port solo) 1 15 8 p.2.eng)

/-- The conditions of Table VLX-3: the refusal's condition code and reason, or acceptance. -/
def State.sschCond (s : State) (sch pid : Nat) : Option (BitVec 2 × Option Byte) :=
  let c := s.sch sch
  if !c.valid || c.def_.getLsbD 254 || fieldOf c.def_ 247 240 ≠ pid then some (3, none)
  else if c.final then some (1, none)
  else if c.active.isSome then some (2, some 0x85)
  else if !s.flag F.VLX_BUDDY_BV then some (3, some 0x82)
  else if s.buddy.isNone && !s.flag F.VLX_CTL_SOLO then some (3, some 0x83)
  else if (s.upPaths c).isEmpty then some (3, some 0x81)
  else none

/-- SSCH (R288, R289): START SUBCHANNEL t[15:0] with the ORB at a. -/
def execSsch (lc : Nat) (t a : BitVec 5) (sys : BitVec 10) (s : State) : Out :=
  let v := (s.arch lc).getG t
  let addr := (s.arch lc).getG a
  runCore lc { words := wordsE 0x35 0x01 t a sys, low := 1, sp := sys != 0 || outside v 0xFFFF || addr.toNat % 64 != 0, ictl := some 0, bound := true } s fun s =>
    let done := fun (s : State) (cc : BitVec 2) => IRes.done ((s.updArch lc (fun r => r.setCc cc)).logInput lc .subch 0 cc)
    s.once lc .subch (fun s e => .done (s.updArch lc (fun r => r.setCc e.cc))) (fun s =>
      match (s.core lc).wait with
      | .ccGot cc => done s cc
      | .ssch _ => .stay s
      | _ =>
        (s.loadNat (s.xc lc) addr 64).run fun s orb =>
          let pid := (s.arch lc).psw.pid.toNat
          let sch := fieldOf v 15 0
          if orbBad orb pid then .exc s 6 else
          match s.sschCond sch pid with
          | some (cc, r) => done (match r with | some r => s.setSch sch { s.sch sch with reason := r } | none => s) cc
          | none =>
            match s.allocEntry with
            | none => done ((s.setSch sch { s.sch sch with reason := 0x84 }).flt 7 1) 2
            | some (i, s) =>
              let solo := s.buddy.isNone
              let s := s.startExch sch i orb ((s.upPaths (s.sch sch)).headD 0) solo
              if solo then done (s.flt 7 2) 0 else .stay (s.updCore lc (fun c => { c with wait := .ssch i })))

/-! TEST SUBCHANNEL (R300, R301, R309) -/

/-- Take a subchannel out of its FIFO: the interruption is withdrawn. -/
def State.unqueue (s : State) (n : Nat) : State :=
  { s with chn := { s.chn with fifos := s.chn.fifos.upd [] (s.sch n).fifo (fun q => q.filter (fun x => x.toNat != n)) } }

/-- The SCSW of a subchannel without status (CC 1): SP = 0, FSTAT the recorded reason (R309). -/
def State.idleScsw (s : State) (n : Nat) : BitVec 256 :=
  let c := s.sch n
  BitVec.ofNat 256 ((n * 2 ^ 48 + fieldOf c.def_ 247 240 * 2 ^ 40 + fieldOf c.def_ 239 237 * 2 ^ 37) * 2 ^ 192 +
    (c.reason.toNat * 2 ^ 56 + b2n c.active.isSome * 2 ^ 46) * 2 ^ 128)

/-- TSCH: the status of subchannel t[15:0] is stored at a and cleared. -/
def execTsch (lc : Nat) (t a : BitVec 5) (sys : BitVec 10) (s : State) : Out :=
  let v := (s.arch lc).getG t
  let addr := (s.arch lc).getG a
  runCore lc { words := wordsE 0x35 0x02 t a sys, low := 1, sp := sys != 0 || outside v 0xFFFF || addr.toNat % 16 != 0, ictl := some 0, bound := true } s fun s =>
    let x := s.xc lc
    let done := fun (s : State) (w : BitVec 256) (cc : BitVec 2) => IRes.done ((s.updArch lc (fun r => r.setCc cc)).logInput lc .subch w cc)
    let put := fun (s : State) (w : BitVec 256) (cc : BitVec 2) (f : State → State) => (s.storeBytes x addr (toBytes 32 w.toNat)).run fun s _ => done (f s) w cc
    s.once lc .subch (fun s e =>
      if e.cc = 3 then .done (s.updArch lc (fun r => r.setCc 3))
      else (s.storeBytes x addr (toBytes 32 e.val.toNat)).run fun s _ => .done (s.updArch lc (fun r => r.setCc e.cc))) (fun s =>
      let n := fieldOf v 15 0
      let c := s.sch n
      if !c.valid || fieldOf c.def_ 247 240 ≠ (s.arch lc).psw.pid.toNat then done s 0 3 else
      (s.checkStore x .wr 2 addr 32).run fun s _ =>
        if c.final then
          match c.active.bind (fun p => s.chn.exch.find (exKey p.1 p.2)) with
          | none => put s c.scsw 0 (fun s => (s.unqueue n).setSch n { s.sch n with final := false })
          | some e =>
            let s := if jState (s.img e) = 3 then s.writeStep e (fun i => jput i 0 63 60 4) else s
            if (s.jent e.mirror e.idx).outst then .stay (s.updCore lc (fun c => { c with wait := .tsch e.idx }))
            else put s c.scsw 0 (fun s => ((s.unqueue n).setSch n { s.sch n with final := false }).endExch e)
        else if c.inter then put s c.scsw 0 (fun s => (s.unqueue n).setSch n { s.sch n with inter := false })
        else put s (s.idleScsw n) 1 id)

/-! Subchannel commands (R284, R312) -/

/-- A reserved field of a definition is nonzero, or its PID is 255 (R284). -/
def defBad (d : BitVec 256) : Bool :=
  fieldOf d 252 248 != 0 || fieldOf d 236 224 != 0 || fieldOf d 190 188 != 0 || fieldOf d 182 180 != 0 || fieldOf d 175 128 != 0 || fieldOf d 127 0 != 0 ||
    fieldOf d 247 240 == 255

/-- The rest of a reload once the definition is at hand: checked, mirrored, accepted or refused (R284). -/
def State.reloadDef (s : State) (n : Nat) (d : BitVec 256) : State :=
  let c := s.sch n
  if defBad d then s.sccDone 1
  else if c.active.isSome || c.final then s.sccDone 2
  else if !s.flag F.VLX_BUDDY_BV then s.acceptDef n d
  else
    match s.buddy with
    | some b => ({ s with chn := { s.chn with mirr := { s.chn.mirr with jdef := some n, jdefTries := 0, jdefDef := d } } }).send .journal b 0x52 [n, d.toNat]
    | none => if s.flag F.VLX_CTL_SOLO then s.acceptDef n d else s.sccDone 4

/-- A definition read is under way: its request carries the tag 2100. -/
def State.defRead (s : State) : Bool := s.mem.reqs.any (fun p => p.1 / 2 ^ 48 == 2101)

/-- Start a command on a subchannel; while one is in progress the write is refused. -/
def State.sccStart (s : State) (src : Src) (n : Nat) (f : State → State) : State :=
  if s.flag F.VLX_SCCMD_BUSY then s.cfgErr src F.VLX_SCCMD_BUSY.base
  else f (((s.setFld F.VLX_SCCMD_SCH n).setFlag F.VLX_SCCMD_BUSY true))

/-- Read the definition of subchannel `n` with PID 0 (R283), then go on; a read that waits is taken up when the command is issued again. -/
def State.reloadRead (s : State) (n : Nat) : State :=
  match s.dmaRead { tag := 2100, pid := 0, stype := 3 } 2 (s.fld F.VLX_SCTBASE_ADDR * 2 ^ 21 + 32 * n) 32 with
  | .ok s l => s.reloadDef n (BitVec.ofNat 256 (packBytes l))
  | .refused s => s.sccDone 6
  | .poison s _ => s.sccDone 6
  | .wait t => t.keep s 2100

/-- Reload (OP 0b001). -/
def State.sccReload (s : State) (src : Src) (n : Nat) : State :=
  if s.flag F.VLX_SCCMD_BUSY && s.fld F.VLX_SCCMD_SCH == n && s.defRead then s.reloadRead n
  else s.sccStart src n (fun s => s.reloadRead n)

/-- Invalidate (OP 0b100): the reload of a definition with V = 0, none read. -/
def State.sccInvalidate (s : State) (src : Src) (n : Nat) : State := s.sccStart src n (fun s => s.reloadDef n 0)

/-- End an exchange by ABORT: the final status follows the adapter's answer or the exchange timeout; without a path it comes at once. -/
def State.abortEx (s : State) (k : Nat) (fstat : Byte) : State :=
  match s.chn.exch.find k with
  | none => s
  | some x =>
    if jState (s.img x) ≠ 1 && jState (s.img x) ≠ 2 then s
    else if s.vpUp x.vp then (s.sendAbort x).setEx { x with aborting := some fstat, timer := true }
    else s.finalStatus k fstat.toNat

/-- A terminate in progress ends with its final status. -/
def State.sccTermEnd (s : State) (n : Nat) : State :=
  if s.flag F.VLX_SCCMD_BUSY && s.fld F.VLX_SCCMD_SCH == n && s.chn.mirr.jdef.isNone && !s.defRead then s.sccDone 0 else s

/-- Terminate (OP 0b011, R312): ABORT, and the ABORT event for the firmware (13 Table VEN-1). -/
def State.sccTerminate (s : State) (src : Src) (n : Nat) : State :=
  s.sccStart src n fun s =>
    let c := s.sch n
    match c.active with
    | some p =>
      if c.final then s.sccDone 5 else
      let k := exKey p.1 p.2
      match s.chn.exch.find k with
      | none => s.sccDone 5
      | some x =>
        let s := (s.setEx (x.raise 6)).abortEx k 0x22
        match s.chn.exch.find k with
        | some y => if y.aborting.isSome then s else s.sccDone 0
        | none => s.sccDone 0
    | none => s.sccDone 5

/-- SUBCHANNEL_RELOAD (R284). -/
def execSubchannelReload (src : Src) (sch : BitVec 16) (s : State) : Out := settled s <| .next (s.sccReload src sch.toNat)

/-- SUBCHANNEL_TERMINATE (R312). -/
def execSubchannelTerminate (src : Src) (sch : BitVec 16) (s : State) : Out := settled s <| .next (s.sccTerminate src sch.toNat)

/-- SUBCHANNEL_INVALIDATE (R284). -/
def execSubchannelInvalidate (src : Src) (sch : BitVec 16) (s : State) : Out := settled s <| .next (s.sccInvalidate src sch.toNat)

/-- A write of VLX_SCCMD: GO starts OP on SCH; a reserved OP is refused (00 R14). -/
def State.sccWrite (s : State) (src : Src) (v : W64) : State :=
  let n := fieldOf v 15 0
  if s.flag F.VLX_SCCMD_BUSY then s.cfgErr src F.VLX_SCCMD_BUSY.base
  else if !v.getLsbD 63 then s.setFld F.VLX_SCCMD_SCH n
  else
    match fieldOf v 62 60 with
    | 1 => s.sccReload src n
    | 3 => s.sccTerminate src n
    | 4 => s.sccInvalidate src n
    | _ => (s.setFld F.VLX_SCCMD_SCH n).cfgErr src F.VLX_SCCMD_BUSY.base

/-! Journal messages (R284, R285, R298, R299, R307) -/

/-- Does a message come from this complex's buddy while this complex runs. -/
def State.fromBuddy (s : State) (src : Nat) : Bool :=
  s.flag F.VLX_BUDDY_BV && s.fld F.VLX_BUDDY_BCX == src && !s.flag F.FLT_FENCE_CXF

/-- JWR: a later step with a good CRC enters the mirror; a duplicate is acknowledged alone; a bad CRC is discarded. A frozen mirror takes nothing (R305). -/
def execJwr (src : Nat) (entry : BitVec 512) (s : State) : Out := settled s <|
  .next <|
    if !s.fromBuddy src || !jok entry || s.chn.frozen then s else
    let i := jExid entry % 16384
    let j := s.jent true i
    let s := if stepLater (jStep entry) (jStep j.img) then s.setJent true i { j with img := entry } else s
    s.send .journal src 0x51 [jExid entry, jStep entry]

/-- JACK: the step of the exchange is mirrored; what waits for it is released. -/
def execJack (exid : BitVec 24) (step : BitVec 16) (s : State) : Out := settled s <|
  .next <|
    let i := exid.toNat % 16384
    let j := s.jent false i
    if s.flag F.FLT_FENCE_CXF || exid.toNat / 16384 ≠ s.cxid || !j.outst || jStep j.img ≠ step.toNat then s
    else ((s.setJent false i { j with outst := false, tries := 0 }).stepAcked i).startQueued i

/-- Do a normal definition (number `n`) and its twin (number `m`) agree (R285). That both reach one adapter is not visible to the complex (log 31). -/
def twinOk (n : Nat) (d : BitVec 256) (m : Nat) (t : BitVec 256) : Bool :=
  t.getLsbD 255 && t.getLsbD 254 && fieldOf t 247 240 == fieldOf d 247 240 && fieldOf t 239 237 == fieldOf d 239 237 && fieldOf t 223 208 == n && fieldOf d 223 208 == m &&
    (if d.getLsbD 253 then t.getLsbD 191 || t.getLsbD 183 else !(t.getLsbD 191 || t.getLsbD 183))

/-- The check of a mirrored definition against this complex's subchannels (R285). -/
def State.defAccepted (s : State) (n : Nat) (d : BitVec 256) : Bool :=
  let m := fieldOf d 223 208
  let c := s.sch m
  if !d.getLsbD 255 then !s.chn.sch.any (fun p => p.2.valid && !p.2.def_.getLsbD 254 && fieldOf p.2.def_ 223 208 == n)
  else if d.getLsbD 254 then !c.valid || (!c.def_.getLsbD 254 && twinOk m c.def_ n d)
  else c.valid && twinOk n d m c.def_

/-- JDEF: the buddy's definition is checked and answered. -/
def execJdef (src sch : Nat) (d : BitVec 256) (s : State) : Out := settled s <|
  .next (if s.fromBuddy src then s.send .journal src 0x53 [sch % 65536, b2n (s.defAccepted (sch % 65536) d)] else s)

/-- JDACK: the reload ends. -/
def execJdack (sch : Nat) (accepted : Bool) (s : State) : Out := settled s <|
  .next <|
    if s.flag F.FLT_FENCE_CXF || s.chn.mirr.jdef ≠ some sch then s else
    let d := s.chn.mirr.jdefDef
    let s := { s with chn := { s.chn with mirr := { s.chn.mirr with jdef := none } } }
    if accepted then s.acceptDef sch d else s.sccDone 3

/-- The twin of a subchannel of the buddy: the valid subchannel of KIND 1 that names it (R285, R305). -/
def State.twinOf (s : State) (sch : Nat) : Option Nat :=
  match s.chn.sch.find? (fun p => p.2.valid && p.2.def_.getLsbD 254 && fieldOf p.2.def_ 223 208 == sch) with
  | some p => some p.1
  | none => none

/-- Adopt a mirror entry (Table VLX-12); say whether an exchange was adopted. -/
def State.adopt (s : State) (i : Nat) : State × Bool :=
  let j := s.jent true i
  let st := jState j.img
  let bad := !jok j.img
  let s := if bad then s.flt 7 6 else s
  if !bad && (st = 0 || 4 ≤ st) then (s, false) else
  match s.twinOf (jget j.img 0 47 32) with
  | none => (s, false)
  | some n =>
    let c := s.sch n
    let s := s.setJent true i { j with img := jseal (jput (jput j.img 0 59 59 1) 0 58 58 1), outst := false }
    let x : Exch := { Exch.reset with mirror := true, idx := i, sch := n, vp := (s.upPaths c).headD 0 }
    let p := s.assignEngine x
    let s := (p.1.setEx p.2).setSch n { c with active := some (true, i), reason := 0x80 }
    let s := s.setFld F.VLX_STAT_ADOPTED (s.fld F.VLX_STAT_ADOPTED + 1)
    let up := !(s.upPaths c).isEmpty
    if bad then
      let s := s.setJent true i { s.jent true i with img := jput (s.jent true i).img 0 63 60 1 }
      (s.finalStatus (16384 + i) 0x20, true)
    else if st = 3 then ((if up then s.sendResume p.2 true else s).finalPending p.2, true)
    else if up then ((s.sendResume p.2 false).setEx (p.2.raise 3), true)
    else (s.finalStatus (16384 + i) 0x20, true)

/-- JHND: an exchange that the buddy hands off is adopted once, and answered (R307). -/
def execJhnd (src : Nat) (entry : BitVec 512) (s : State) : Out := settled s <|
  .next <|
    if !s.fromBuddy src || !jok entry then s else
    let i := jExid entry % 16384
    let s := if s.chn.exch.has (16384 + i) then s else ((s.setJent true i { s.jent true i with img := entry }).adopt i).1
    s.send .journal src 0x55 [jExid entry, jStep entry]

/-- JHACK: the handed-off exchange ends here; its entry enters quarantine. -/
def execJhack (exid : BitVec 24) (step : BitVec 16) (s : State) : Out := settled s <|
  .next <|
    let i := exid.toNat % 16384
    let j := s.jent false i
    match s.chn.exch.find i with
    | some x =>
      if s.flag F.FLT_FENCE_CXF || exid.toNat / 16384 ≠ s.cxid || !s.chn.mirr.jhnd.has i || jStep j.img ≠ step.toNat then s
      else
        let s := { s with chn := { s.chn with mirr := { s.chn.mirr with jhnd := s.chn.mirr.jhnd.del i } } }
        (s.setJent false i { j with img := jseal (jput j.img 0 63 60 4) }).endExch x
    | none => s

/-- JRD: the mirror's copy of an entry is returned. -/
def execJrd (src idx : Nat) (s : State) : Out := settled s <|
  if 16384 ≤ idx then .fault .noSuchUnit else .next (if s.fromBuddy src then s.send .journal src 0x57 [idx, (s.jent true idx).img.toNat] else s)

/-- An uncorrectable error in the local journal entry `i` of an open exchange (R299): the mirror's copy is asked for with JRD; without a mirror the entry is lost. -/
def State.journalError (s : State) (i : Nat) : State :=
  match s.chn.exch.find i with
  | none => s
  | some x =>
    if x.ipl || 16384 ≤ i then s else
    match (if jSolo (s.img x) then none else s.buddy) with
    | some b => ({ s with chn := { s.chn with mirr := { s.chn.mirr with jrd := s.chn.mirr.jrd.put i 0 } } }).send .journal b 0x56 [i]
    | none => s.journalLost i

/-- JRDR (R299): the local entry is repaired from the mirror's copy and its exchange resumes; if the entry has become SOLO or the copy fails its check, it is lost. One that was not asked for changes nothing. -/
def execJrdr (idx : Nat) (entry : BitVec 512) (s : State) : Out := settled s <|
  if 16384 ≤ idx then .fault .noSuchUnit else
  .next <|
    match s.chn.exch.find idx with
    | none => s
    | some x =>
      if s.flag F.FLT_FENCE_CXF || !s.chn.mirr.jrd.has idx then s else
      let s := { s with chn := { s.chn with mirr := { s.chn.mirr with jrd := s.chn.mirr.jrd.del idx } } }
      let j := s.jent false idx
      if jSolo (s.img x) || !jok entry then s.journalLost idx
      else if j.outst && jStep entry == jStep j.img then ((s.setJent false idx { j with img := entry, outst := false, tries := 0 }).stepAcked idx).startQueued idx
      else (s.setJent false idx { j with img := entry, outst := false, tries := 0 }).setEx (if jState entry = 3 then x else x.raise 4)

/-- Count a timeout of a mirror message: resent twice, then the buddy is lost (R298). -/
def State.mirrorTry (s : State) (tries : Nat) (put : Nat → State) (again : State → State) : State :=
  if 2 ≤ tries then s.buddyLost.startAll else (again (put (tries + 1))).flt 7 0

/-- MIRROR_TIMEOUT (R298): VLX_MTMO has passed without the answer. -/
def execMirrorTimeout (msg : MirrorMsg) (s : State) : Out := settled s <|
  .next <|
    match s.buddy with
    | none => s
    | some b =>
      let m := s.chn.mirr
      let setM := fun (m : Mirr) => { s with chn := { s.chn with mirr := m } }
      match msg with
      | .jwr i =>
        let j := s.jent false i
        if j.outst then s.mirrorTry j.tries (fun n => s.setJent false i { j with tries := n }) (fun s => s.send .journal b 0x50 [j.img.toNat]) else s
      | .jdef n =>
        if m.jdef = some n then s.mirrorTry m.jdefTries (fun k => setM { m with jdefTries := k }) (fun s => s.send .journal b 0x52 [n, m.jdefDef.toNat]) else s
      | .jhnd i =>
        match m.jhnd.find i with
        | some k => s.mirrorTry k (fun k => setM { m with jhnd := m.jhnd.put i k }) (fun s => s.send .journal b 0x54 [(s.jent false i).img.toNat])
        | none => s
      | .jrd i =>
        match m.jrd.find i with
        | some k => s.mirrorTry k (fun k => setM { m with jrd := m.jrd.put i k }) (fun s => s.send .journal b 0x56 [i])
        | none => s

/-- TAKEOVER (R305, Table VLX-11): once the buddy's bit in FAB_PRESENT is clear, the mirror is frozen and every open entry adopted or given a final status. The command is the whole sequence: TKACT is 1 only within it (DESIGN CHOICE, log 71). -/
def execTakeover (s : State) : Out := settled s <|
  .next <|
    if !s.flag F.VLX_BUDDY_BV || s.flag F.FLT_FENCE_CXF || s.fld F.VLX_STAT_BST == 0 || s.present (s.fld F.VLX_BUDDY_BCX) || s.chn.frozen then s else
    let s := s.buddyLost.startAll
    let s := ({ s with chn := { s.chn with frozen := true } }).setFlag F.VLX_STAT_TKACT true
    let p := (s.chn.mir.map (·.1)).foldl (fun (p : State × Nat) i =>
      if p.1.chn.exch.has (16384 + i) then p else let q := p.1.adopt i; (q.1, p.2 + b2n q.2)) (s, 0)
    (p.1.setFlag F.VLX_STAT_TKACT false).flt 7 9 0 none (BitVec.ofNat 64 p.2)

/-- QUARANTINE_END (R294): a freed entry may be allocated again. -/
def execQuarantineEnd (idx : Nat) (s : State) : Out := settled s <|
  if 16384 ≤ idx then .fault .noSuchUnit else
  .next <|
    let j := s.jent false idx
    if !j.quar then s else
    let s := s.setJent false idx { j with quar := false, img := jseal (jput j.img 0 63 60 0) }
    ({ s with chn := { s.chn with jfreed := s.chn.jfreed ++ [idx] } }).jused (s.fld F.VLX_STAT_JUSED - 1)

end Sys2Proof.Machine
end

