-- ==== Sys2Proof/Machine/Ctl.lean ====
section
/-! DEFINITION. How a write to a control-space register acts on its fields (00 R10, R12 to R14; 22 R466, R467). -/

namespace Sys2Proof.Machine

/-- Is a value of a field reserved. -/
def FldDesc.reserved (f : FldDesc) (v : Nat) : Bool := !f.legal.isEmpty && !f.legal.any (fun p => decide (p.1 ≤ v) && decide (v ≤ p.2))

/-- The effect of a write on one field: the register's new value and whether the field's write was refused (R10, R13, R14). -/
def FldDesc.write (f : FldDesc) (locked : Bool) (old v : W64) : W64 × Bool :=
  let new := fieldOf v f.hi f.lo
  let cur := fieldOf old f.hi f.lo
  match f.ty with
  | .ro | .wo => (old, false)
  | .rw1c => (putField old f.hi f.lo (fieldOf (old &&& ~~~v) f.hi f.lo), false)
  | .rw | .rs => if f.reserved new then (old, true) else (putField old f.hi f.lo new, false)
  | .rwl => if new = cur then (old, false) else if locked || f.reserved new then (old, true) else (putField old f.hi f.lo new, false)

/-- A write field by field. -/
def writeFlds (flds : List FldDesc) (locked : Bool) (old v : W64) : W64 × Bool :=
  flds.foldl (fun p f => let q := f.write locked p.1 v; (q.1, p.2 || q.2)) (old, false)

/-- Fields whose written values form a reserved encoding that no single field shows: an interleave range past the target table (05 R132), a boot record that is no multiple of 4,096 bytes (19 BOO_IPL2). -/
def wholeRsv (off v : Nat) : List (Nat × Nat) :=
  if 0x8000 ≤ off && off < 0x8400 && off % 16 = 8 then (if 10 < bits v 3 0 || 4096 < bits v 15 4 + 2 ^ bits v 3 0 then [(15, 4), (3, 0)] else [])
  else if off = F.BOO_IPL2_COUNT.base then (if bits v 24 0 % 4096 = 0 then [] else [(24, 0)]) else []

/-- The value that a write puts to its fields: reserved encodings leave their fields as they are; true: there were some. -/
def wrWanted (off : Nat) (old v : W64) : W64 × Bool :=
  let l := wholeRsv off v.toNat
  (l.foldl (fun w f => putField w f.1 f.2 (fieldOf old f.1 f.2)) v, !l.isEmpty)

/-- An access to an offset that no chapter maps (22 R467). -/
def State.unmapped (s : State) (off : Nat) : State := s.flt 16 0 0 none (BitVec.ofNat 64 off)

/-- A plain register write: every field by its type; a refused field sets CFG_ERR. -/
def State.wrReg (s : State) (src : Src) (off : Nat) (v : W64) : State :=
  match regAt off with
  | none => s.unmapped off
  | some r =>
    let w := wrWanted off (s.reg off) v
    let p := writeFlds r.flds s.svc.locked (s.reg off) w.1
    let s := s.setReg off p.1
    if p.2 || w.2 then s.cfgErr src off else s

/-- A write refused as a whole. -/
def State.refuseWr (s : State) (src : Src) (off : Nat) : State := s.cfgErr src off

end Sys2Proof.Machine
end

