-- ==== Sys2Proof/Machine/Caches.lean ====
section
/-! DEFINITION. Events of the cache arrays (08): fills and their ECC, range engines, way locking, way power, way sparing; directory way sparing (09 R211). -/

namespace Sys2Proof.Machine

/-! Fills (R190, R191, R204) -/

/-- Is the number one of an array (R190). -/
def arrayOk (array : Nat) : Bool := (decide (array < 224) && array % 4 != 3) || (decide (0x100 ≤ array) && decide (array < 0x120))

/-- The performance events of a miss in a core's array (02 Table COR-7). -/
def State.missCount (s : State) (array : Nat) : State :=
  match (List.range s.nLc).find? (fun n => (s.core n).phys == array / 4) with
  | some lc => s.updCore lc (fun c => c.pmcNow (match array % 4 with | 0 => 4 | 1 => 3 | _ => 5) 1)
  | none => s

/-- What an array's ECC found on the line (R204): a copy that holds no modified data leaves its array and is read again; modified data is written home poisoned. -/
def State.eccOn (s : State) (array line : Nat) (e : EccRes) : State :=
  let l3 := decide (0x100 ≤ array)
  let sl := array - 0x100
  let way := (s.mem.wayOf array (setOf array line) line 16).getD 0
  let dirty := match s.held line with | some c => c.st.dirty | none => false
  let a : W64 := BitVec.ofNat 64 (line * 256)
  let drop := fun (s : State) => s.updMem (fun m => { m with tags := m.tags.filter (fun p => !(p.2.line == line && decide (p.1 / 32768 = array))) })
  let uncor := fun (s : State) => if l3 then s.count F.CAC_SLCECC_UNCOR (some F.CAC_SLCECC_UOVF) sl else s
  match e with
  | .clean => s
  | .corrected =>
    if l3 then (s.count F.CAC_SLCECC_CORR (some F.CAC_SLCECC_COVF) sl).flt 3 1 (17 * sl + s.physWay sl way) none a else s.flt 3 0 (array / 4) none a
  | .uncorClean | .uncorDirty =>
    if dirty && e == .uncorDirty then ((uncor s).poisonLine line).flt 3 3 0 none a
    else
      let s := (uncor s).flt 3 2 0 none a
      if l3 && !dirty then s.updMem (fun m => ({ m with lines := m.lines.del line }).dropTags line) else drop s

/-- CACHE_FILL (R190, R191, R204): a line that the complex holds enters an array: its L3 slice, the L2 of a core, or an L1 whose L2 has it. On a line that the array has already, the array is read, with what its ECC finds. -/
def execCacheFill (array : Nat) (line : Nat) (pid : Nat) (ecc : EccRes) (s : State) : Out := settled s <|
  if !arrayOk array then .fault .noSuchUnit else
  match s.held line with
  | none => .next s
  | some c =>
    if c.pid.toNat ≠ pid || s.flag F.FLT_FENCE_CXF then .next s
    else if 0x100 ≤ array then
      if sliceOf (line * 256) ≠ array - 0x100 then .next s else .next ((s.install line c).eccOn array line ecc)
    else if array % 4 ≠ 2 && (s.mem.wayOf (array / 4 * 4 + 2) (setOf (array / 4 * 4 + 2) line) line 16).isNone then .next s
    else if (s.mem.wayOf array (setOf array line) line (waysOf array)).isSome then .next (s.eccOn array line ecc)
    else .next (((s.fillPrivate array line pid).missCount array).eccOn array line ecc)

/-! Range engines (R196 to R199) -/

/-- The queue of an engine without its head. -/
def State.rangePop (s : State) (g : Nat) : State := s.updMem (fun m => { m with range := m.range.upd [] g List.tail })

/-- An operation that a failure stops (R198): END 0b10, the failing line, the access detail. -/
def State.rangeStop (s : State) (g : Nat) (o : RangeOp) (detail : Byte) : State :=
  (s.rangeStat o.lc (fun r => putField (putField (putField r 63 63 0) 61 60 2) 55 48 detail.toNat) (BitVec.ofNat 64 (o.next.toNat / 256 * 256))).rangePop g

/-- A line is done: the next one, or the end of the range. -/
def State.rangeNext (s : State) (g : Nat) (o : RangeOp) : State :=
  if o.next.toNat / 256 = o.last.toNat / 256 then (s.rangeStat o.lc (fun r => putField (putField r 63 63 0) 61 60 1) (o.last + 1)).rangePop g
  else
    let n : W64 := BitVec.ofNat 64 ((o.next.toNat / 256 + 1) * 256)
    (s.rangeStat o.lc (fun r => r) n).updMem (fun m => { m with range := m.range.upd [] g (fun q => match q with | _ :: r => { o with next := n, counted := false } :: r | [] => []) })

/-- The detail byte of a failed access of a range engine; a poisoned table entry reports a failed table read (log 25). -/
def SFail.rangeDetail (f : SFail) (acc : Nat) : Byte :=
  match f with
  | .prog _ d _ => d
  | .icpt d _ _ _ => d
  | .poison .. => detailByte acc 0 6

/-- Is the line that an engine is about to remove in a locked way (R194). -/
def State.rangeLocked (s : State) (o : RangeOp) (line : Nat) : Bool := o.kind != .clean && (s.held line).isSome && (s.lockHit line).2

/-- A locked line that a range operation has hit counts in CAC_RSTAT.LKHIT (R194). -/
def State.rangeLock (s : State) (o : RangeOp) : State :=
  s.rangeStat o.lc (fun r => if fieldOf r 47 32 = 0xFFFF then putField r 31 31 1 else putField r 47 32 (fieldOf r 47 32 + 1)) o.next

/-- Change the operation that an engine runs. -/
def State.rangeUpd (s : State) (g : Nat) (o : RangeOp) : State :=
  s.updMem (fun m => { m with range := m.range.upd [] g (fun q => match q with | _ :: r => o :: r | [] => []) })

/-- The absolute address of the engine's next line: in the page it has translated, else through the tables as they stand (R197). -/
def State.rangeTrans (s : State) (g : Nat) (o : RangeOp) (need : Need) : SRes Nat :=
  let walk :=
    let x : XCtx := { lc := o.lc, pid := o.pid.toNat, st := o.state.toNat, asm := o.asm.toNat, pasce := o.pasce, sasce := o.sasce, psce := o.psce }
    (s.walkVa x o.next need).bind fun s r =>
      .ok (s.rangeUpd g { o with page := some (r.size, o.next.toNat / 2 ^ r.size, r.abs / 2 ^ r.size * 2 ^ r.size) }) r.abs
  match o.page with
  | some (z, n, a) => if o.next.toNat / 2 ^ z = n then .ok s (a + o.next.toNat % 2 ^ z) else walk
  | none => walk

/-- RANGE_ENGINE_LINE (R196 to R198): the next line of the oldest operation, as the by-address operation of R192, translated with the captured context. -/
def execRangeEngineLine (g : Nat) (s : State) : Out := settled s <|
  if 4 ≤ g then .fault .noSuchUnit else
  match s.mem.range.get [] g with
  | [] => .next s
  | o :: _ =>
    if !o.submitted || s.flag F.FLT_FENCE_CXF then .next s else
    let need := cmoNeed o.kind
    match s.rangeTrans g o need with
    | .wait s => .next s
    | .fail s f => .next (s.rangeStop g o (f.rangeDetail need.acc))
    | .ok s abs =>
      let o := (s.mem.range.get [] g).headD o
      let hit := o.counted || s.rangeLocked o (abs / 256)
      match s.cmoCore o.lc (64 + g) o.pid.toNat 0 (abs / 256) o.kind with
      | .wait s => .next (s.rangeUpd g { o with counted := hit })
      | .done s => .next ((if hit then s.rangeLock o else s).rangeNext g o)
      | .refused s => .next (s.rangeStop g o (detailByte need.acc 0 5))
      | .noHome => .next (s.rangeStop g o (detailByte need.acc 0 7))

/-! Ways of an L3 slice -/

/-- Clean and invalidate some ways of a slice, with back-invalidation. -/
def State.dropWays (s : State) (sl : Nat) (ways : Nat → Bool) : State :=
  (s.mem.tags.filter (fun p => decide (p.1 / 32768 = 0x100 + sl) && ways (p.1 % 16))).foldl (fun s p => s.dropLine p.2.line) s

/-- Is a write to a lock entry's control register refused as a whole (R202)? -/
def State.lockBad (s : State) (n : Nat) (v : W64) : Bool :=
  let en := fieldOf v 23 23 == 1
  let sl := fieldOf v 63 32
  let way := fieldOf v 18 16
  if s.flag F.CAC_LOCKCTL_EN n then
    sl != s.fld F.CAC_LOCKCTL_SLICES n || way != s.fld F.CAC_LOCKCTL_WAY n || fieldOf v 31 24 != s.fld F.CAC_LOCKCTL_PID n
  else en && (decide (s.fld F.CAC_LOCKLIM_PAGE n < s.fld F.CAC_LOCKBASE_PAGE n) || fieldOf v 31 24 == 0xFF ||
    (List.range 4).any (fun k => k != n && s.flag F.CAC_LOCKCTL_EN k && s.fld F.CAC_LOCKCTL_WAY k == way && s.fld F.CAC_LOCKCTL_SLICES k &&& sl != 0))

/-- A write of CAC_LOCKCTL n. -/
def State.lockCtl (s : State) (src : Src) (n : Nat) (v : W64) : State :=
  let off := 0x600110 + n * 0x20
  if s.lockBad n v then s.refuseWr src off else
  let was := s.flag F.CAC_LOCKCTL_EN n
  let s := s.wrReg src off v
  if was && s.flag F.CAC_LOCKCTL_EN n then s else s.setFlag F.CAC_LOCKCTL_READY false n

/-- LOCK_ENTRY_ENABLE (R201, R202): the write of a CAC_LOCKCTL register; the ways are cleaned until LOCK_READY. -/
def execLockEntryEnable (src : Src) (n : Nat) (v : BitVec 64) (s : State) : Out := settled s <| if 4 ≤ n then .fault .noSuchUnit else .next (s.lockCtl src n v)

/-- A write of CAC_LOCKBASE or CAC_LOCKLIM (R202). -/
def State.lockRange (s : State) (src : Src) (off : Nat) (v : W64) : State :=
  if s.flag F.CAC_LOCKCTL_EN ((off - 0x600100) / 0x20) then s.refuseWr src off else s.wrReg src off v

/-- LOCK_READY (R201): the entry's way is clean and empty in every named slice. -/
def execLockReady (n : Nat) (s : State) : Out := settled s <|
  if 4 ≤ n then .fault .noSuchUnit else
  if !s.flag F.CAC_LOCKCTL_EN n || s.flag F.CAC_LOCKCTL_READY n then .next s else
  let way := s.fld F.CAC_LOCKCTL_WAY n
  let s := (List.range 32).foldl (fun s sl => if bits (s.fld F.CAC_LOCKCTL_SLICES n) sl sl = 1 then s.dropWays sl (fun w => w == way) else s) s
  .next (s.setFlag F.CAC_LOCKCTL_READY true n)

/-- A write of CAC_WAYPWR (R203): a group whose bit changes starts a transition; one in transition stays, and the write is reported. -/
def State.wayPwr (s : State) (src : Src) (v : W64) : State :=
  let old := s.reg 0x600000
  let tran := s.reg 0x600008
  let chg := old ^^^ v
  let s := (s.setReg 0x600000 ((v &&& ~~~tran) ||| (old &&& tran))).setReg 0x600008 (tran ||| chg)
  if chg &&& tran != 0 then s.cfgErr src 0x600000 else s

/-- CAC_WAYPWR_WRITE (R203). -/
def execCacWaypwrWrite (src : Src) (v : BitVec 64) (s : State) : Out := settled s <| .next (s.wayPwr src v)

/-- WAY_GROUP_TRANSITION_END (R203): a group that powers down has its lines cleaned and invalidated. -/
def execWayGroupTransitionEnd (sl g : Nat) (s : State) : Out := settled s <|
  if 32 ≤ sl || 2 ≤ g then .fault .noSuchUnit else
  let k := 2 * sl + g
  let tran := s.reg 0x600008
  if !tran.getLsbD k then .next s else
  let s := if (s.reg 0x600000).getLsbD k then s.dropWays sl (fun w => decide (8 + 4 * g ≤ w) && decide (w < 12 + 4 * g)) else s
  .next (s.setReg 0x600008 (putField tran k k 0))

/-- A way's sparing is no longer due. -/
def State.sparedUnit (s : State) (source unit : Nat) : State := { s with svc := { s.svc with sparePend := s.svc.sparePend.erase (source, unit) } }

/-- L3_WAY_SPARING (R205, Table CAC-3): the spare takes the way's place, empty; with the spare in use, the way is retired, and a lock it carried is lost. -/
def execL3WaySparing (sl way : Nat) (s : State) : Out := settled s <|
  if 32 ≤ sl || 16 ≤ way then .fault .noSuchUnit else
  if s.wayRetired sl way then .next s else
  let unit := 17 * sl + s.physWay sl way
  let s := (s.sparedUnit 0x31 unit).dropWays sl (fun w => w == way)
  if !s.flag F.CAC_SLC_SPUSED sl then
    .next ((((s.setFlag F.CAC_SLC_SPUSED true sl).setFld F.CAC_SLC_SPWAY way sl).consume 2).flt 3 4 unit)
  else
    let lost := (s.locks sl).filter (fun p => p.2 == way)
    let s := s.setFld F.CAC_SLC_RETIRED (putBits (s.fld F.CAC_SLC_RETIRED sl) way way 1) sl
    let s := lost.foldl (fun s p => (s.setFlag F.CAC_LOCKCTL_LOST true p.1).flt 3 6) s
    .next (s.flt 3 5 unit)

/-- Evict every idle entry of a directory way (09 R211, Table CAC-3 step 3). -/
def State.evictWay (s : State) (way : Nat) : State :=
  (s.mem.dir.filter (fun p => p.2.way == way && !p.2.busy)).foldl (fun s p => (s.evictDir p.1 p.2 false none).1) s

/-- DIRECTORY_WAY_SPARING (09 R211): as for an L3 way, with the status in COH_DIRSTAT. The way takes no new entries while its entries leave by BINV; the command that finds it empty brings the spare in, or retires the way when the spare is in use (log 6). -/
def execDirectoryWaySparing (way : Nat) (s : State) : Out := settled s <|
  if 16 ≤ way then .fault .noSuchUnit else
  if bits (s.fld F.COH_DIRSTAT_RETIRED) way way = 1 then .next s else
  let unit := s.dirPhys way
  let s := s.evictWay way
  if s.mem.dir.any (fun p => p.2.way == way) then
    .next (if s.svc.sparePend.contains (0x40, unit) then s else { s with svc := { s.svc with sparePend := s.svc.sparePend ++ [(0x40, unit)] } })
  else
  let s := s.sparedUnit 0x40 unit
  if !s.flag F.COH_DIRSTAT_SPUSED then .next ((((s.setFlag F.COH_DIRSTAT_SPUSED true).setFld F.COH_DIRSTAT_SPWAY way).consume 3).flt 4 2 unit)
  else .next ((s.setFld F.COH_DIRSTAT_RETIRED (putBits (s.fld F.COH_DIRSTAT_RETIRED) way way 1)).flt 4 3 unit)

end Sys2Proof.Machine
end

