-- ==== Sys2Proof/Machine/Coherence.lean ====
section
/-! DEFINITION. The coherence messages that a complex receives, as home, owner and requester (09), and the timers of requests, snoops and invitations. -/

namespace Sys2Proof.Machine

/-- Does a message from another complex reach its unit: the complex is not fenced, the sender exists as a number (09 R234; 20 R443). -/
def State.hears (s : State) (src : Nat) : Bool := !s.flag F.FLT_FENCE_CXF && src != s.cxid

/-- A message that names no complex ID of 10 bits is no command. -/
def fromCx (src : Nat) (o : Out) : Out := if 1024 ≤ src then .fault .noSuchUnit else o

/-! Requests at the home (R214, R215) -/

/-- A request that another complex sends to the home of its line. A request for a line that is not homed here leaves the state as it is (log 29). -/
def State.serve (s : State) (r : Req) : Out :=
  fromCx r.hdr.src (.next (if s.hears r.hdr.src && s.homeOf (r.hdr.line * 256) == some s.cxid then s.homeReq r else s))

def CohReq.req (q : CohReq) (k : ReqKind) : Req := { Req.mk0 k q.src q.tag q.line q.pid q.stype with hdr := q }

/-- RDS (R215): read for a shared copy. -/
def execRds (q : CohReq) (s : State) : Out := settled s <| s.serve (CohReq.req q .rds)

/-- RDO (R215): read for ownership. -/
def execRdo (q : CohReq) (s : State) : Out := settled s <| s.serve (CohReq.req q .rdo)

/-- UPG (R215): ownership of a line already held. -/
def execUpg (q : CohReq) (s : State) : Out := settled s <| s.serve (CohReq.req q .upg)

/-- RDSNAP (R217): snapshot read. -/
def execRdsnap (q : SnapReq) (s : State) : Out := settled s <| s.serve { CohReq.req q.hdr .rdsnap with far := q.walk }

/-- WRPL (R218): the bytes FIRST to LAST of the line, FIRST not above LAST (10 R246). -/
def execWrpl (q : CohReq) (place : BitVec 18) (first last : Nat) (data : BitVec 2048) (s : State) : Out := settled s <|
  if 256 ≤ last || last < first then .next s
  else s.serve { CohReq.req q .wrpl with place := place, first := first, last := last, data := data }

/-- ATOM (R219, R220): the operation is the minor of Table INS-10, its operand aligned. -/
def execAtom (q : CohReq) (off op : Nat) (far : Bool) (op1 op2 : BitVec 128) (s : State) : Out := settled s <|
  if 256 ≤ off || off % (if op = 4 then 16 else 8) ≠ 0 || op = 0 || 11 < op then .next s
  else s.serve { CohReq.req q .atom with first := off, op := op, far := far, op1 := op1, op2 := op2 }

/-- CMO (R215; 08 R192, R193): maintenance of one line. -/
def execCmo (q : CohReq) (kind : CmoKind) (s : State) : Out := settled s <| s.serve (CohReq.req q (.cmo kind))

/-! Writebacks at the home (R227, R230 to R232) -/

/-- Does a forward of this request leave ownership at the home (R232): FWDS, FWDSNAP, CLN. -/
def Req.leavesHome (r : Req) : Bool :=
  match r.kind with
  | .rds | .rdsnap | .cmo .clean => true
  | _ => false

/-- Is a complex the recorded owner of a line. -/
def State.owns (s : State) (line cx : Nat) : Bool := match s.mem.dir.find line with | some e => e.st != .s && e.owner == cx | none => false

/-- Write a WB's data to memory. -/
def State.wbData (s : State) (w : WbMsg) : State := s.wbStore w.src w.line w.pid w.stype w.data w.poison

/-- WB data that meets an open transaction (R230 to R232). One that an INVAL recalls is discarded where 08 R193 says so, unless the line lay in a locked way (08 R194). -/
def State.wbOpen (s : State) (t : Txn) (w : WbMsg) : State :=
  let owner := s.owns w.line w.src
  if t.acks.contains w.src && owner then
    let drop := !w.keep && (match t.req with | some r => r.discards w.pid | none => false)
    ((if drop then s else s.wbData w).dropOwner w.line).onTxn w.line (fun t => { t with acks := t.acks.filter (fun c => c != w.src) })
  else if t.fwd = some w.src then
    let left := match t.req with | some r => r.leavesHome | none => false
    (if left then s.wbData w else s).onTxn w.line (fun t => { t with wbSeen := true })
  else if owner then
    ((s.wbData w).dropOwner w.line).onTxn w.line (fun t => { t with owner := if t.owner = some w.src then none else t.owner })
  else s.flt 4 4

/-- Take a WB in a writeback buffer (R227, R232): its data is written, discarded as stale, or counted as the reply to a BINV; WBACK in every case. -/
def State.wbTake (s : State) (w : WbMsg) : State :=
  let s := s.updMem (fun m => { m with wbUsed := m.wbUsed + 1 })
  let s :=
    match s.mem.late.find? (fun p => p.1 == w.line && p.2.1 == w.src) with
    | some p =>
      let s := s.updMem (fun m => { m with late := m.late.erase p })
      if p.2.2 then s.wbData w else s
    | none =>
      match s.mem.txns.find w.line with
      | some t => s.wbOpen t w
      | none => if s.owns w.line w.src then (s.wbData w).dropOwner w.line else s.flt 4 4
  s.coh w.src 0x38 w.line w.lock

/-- The writeback buffers drain (R227): one in use is freed, and the WB that has waited longest takes it. -/
def State.wbDrain (s : State) : State :=
  let s := s.updMem (fun m => { m with wbUsed := m.wbUsed - 1 })
  match s.mem.wbQ with
  | w :: r => if 256 ≤ s.mem.wbUsed then s else (s.updMem (fun m => { m with wbQ := r })).wbTake w
  | [] => s

/-- WB (R227, R230 to R232): taken at once, or in its turn while all 256 buffers are in use. -/
def execWb (src : Nat) (h : WbHdr) (a : Writer) (data : BitVec 2048) (poison : Bool) (s : State) : Out := settled s <|
  fromCx src <| .next <|
    if !s.hears src || s.homeOf (h.line * 256) != some s.cxid then s else
    let w : WbMsg := { src := src, line := h.line, pid := a.pid, stype := a.stype, keep := h.keep, lock := h.lock, data := data, poison := poison }
    if 256 ≤ s.mem.wbUsed || !s.mem.wbQ.isEmpty then s.updMem (fun m => { m with wbQ := m.wbQ ++ [w] }) else s.wbTake w

/-! Responses at the requester (R206, Table COH-2) -/

/-- Recalled data at the home: for a core of this complex it installs; a snapshot is delivered; a recall for WRPL or ATOM is written to memory, where the operation finds it (R218, R220). -/
def State.recalled (s : State) (r : Req) (line : Nat) (d : DataRsp) (st : Moesi) : State :=
  let rights := s.rightsOf line r.hdr.pid
  match r.kind with
  | .rds | .rdo | .upg =>
    if d.poison then s.updMem (fun m => { m with poison := m.poison.put line 2 })
    else s.install line { st := if r.kind == .rds then .s else st, pid := BitVec.ofNat 8 r.hdr.pid, rights := rights, data := d.data }
  | .rdsnap => s.deliver r (.got d)
  | .wrpl | .atom => if st == .m then s.updMem (fun m => m.putLine line d.data (if d.poison then 2 else 0)) else s
  | .cmo _ => s

/-- Data that the home itself awaits. -/
def State.homeData? (s : State) (line : Nat) (d : DataRsp) (st : Moesi) : Option State :=
  match s.mem.txns.find line with
  | some t =>
    match t.req with
    | some r => if t.dataWait then some ((s.recalled r line d st).onTxn line (fun t => { t with dataWait := false })) else none
    | none => none
  | none => none

/-- Does the data response end a request in this state. -/
def Transient.takes (t : Transient) (st : Moesi) : Bool :=
  match t, st with
  | .isD, .s | .isD, .e | .imD, .e | .imD, .m | .smG, .e | .smG, .m => true
  | _, _ => false

/-- A data response to the request of a core: the line installs, its store makes it M and UNBLK closes the transaction (Table COH-10 step 4); poison without rights is a refusal (05 R138), other poison is kept for the consumer (20 R441). -/
def State.dataRsp (s : State) (line : Nat) (d : DataRsp) (st : Moesi) : State :=
  match s.homeData? line d st with
  | some s => s
  | none =>
    let home := (s.homeOf (line * 256)).getD s.cxid
    let take := match s.mem.reqs.find line with | some q => q.st.takes st | none => false
    match s.mem.reqs.find line, take with
    | some q, true =>
      let lock := q.req.hdr.lock
      if d.poison then
        let s := s.updMem (fun m => { m with reqs := m.reqs.put line { q with st := .failed (if d.rights = 0 then 0 else 1) } })
        if d.rights = 0 then s else s.coh home 0x3C line lock
      else
        (((s.install line { st := st, pid := BitVec.ofNat 8 q.req.hdr.pid, rights := d.rights, data := d.data }).updMem (fun m => { m with reqs := m.reqs.del line })).drainLine q.req.hdr.tag line).coh home 0x3C line lock
    | _, _ => s

/-- A line that a WRPL places here (R218): installed in M with the writer's PID and the rights granted. A core that cannot take it, or poison, leaves the line to memory: it goes back as a writeback and counts in PLMISS (log 58). -/
def State.placed (s : State) (line pid stype : Nat) (place : BitVec 18) (d : DataRsp) : State :=
  if fieldOf place 17 16 = 1 && !s.coreTakes (fieldOf place 5 0) then
    (s.writeback line { st := .m, pid := BitVec.ofNat 8 pid, rights := d.rights, data := d.data, stype := BitVec.ofNat 4 stype } d.poison).count
      F.COH_DIRSTAT_PLMISS (some F.COH_DIRSTAT_POVF)
  else if d.poison then s
  else s.placeLine line pid stype place d.rights d.data

/-- End the outstanding request of a line. -/
def State.endReq (s : State) (line : Nat) (f : Nat → ReqEnt → State) : State :=
  match s.outst line with
  | some p => f p.1 p.2
  | none => s

/-- A snapshot arrives (R217); as a poisoned answer without rights it refuses a maintenance operation. -/
def State.snapRsp (s : State) (line : Nat) (d : DataRsp) : State :=
  match s.homeData? line d .s with
  | some s => s
  | none => s.endReq line fun k q =>
    let st : Option Transient :=
      if q.st == .snap then some (if d.poison && d.rights == 0 then .failed 0 else .got d)
      else match q.req.kind with
        | .cmo _ => if d.poison && d.rights == 0 then some (.failed 0) else none
        | _ => none
    match st with
    | some st => s.updMem (fun m => { m with reqs := m.reqs.put k { q with st := st } })
    | none => s

/-- DATA_S. -/
def execDataS (src line : Nat) (d : DataRsp) (s : State) : Out := settled s <| fromCx src (.next (if s.hears src then s.dataRsp line d .s else s))

/-- DATA_E. -/
def execDataE (src line : Nat) (d : DataRsp) (s : State) : Out := settled s <| fromCx src (.next (if s.hears src then s.dataRsp line d .e else s))

/-- DATA_M: the line of a request, or one that a WRPL places here (R218): then it carries the placement hint with the writer's PID and source type. -/
def execDataM (src line : Nat) (h : PlaceHdr) (d : DataRsp) (s : State) : Out := settled s <|
  fromCx src (.next (if !s.hears src then s else if fieldOf h.place 17 16 = 0 then s.dataRsp line d .m else s.placed line h.pid h.stype h.place d))

/-- DATA_SN (R217). -/
def execDataSn (src line : Nat) (d : DataRsp) (s : State) : Out := settled s <| fromCx src (.next (if s.hears src then s.snapRsp line d else s))

/-- GNT (R206, Table COH-2): ownership without data; the copy is in E, and the store that asked for it makes it M. -/
def execGnt (src line : Nat) (pid : Nat) (rights : BitVec 3) (s : State) : Out := settled s <|
  fromCx src <| .next <|
    if !s.hears src then s else
    match s.mem.reqs.find line, s.held line with
    | some q, some c =>
      if q.st == .smG && q.req.hdr.pid == pid then
        ((s.updMem (fun m => { m with lines := m.lines.put line { c with st := .e, rights := rights }, reqs := m.reqs.del line })).drainLine q.req.hdr.tag line).coh src 0x3C line q.req.hdr.lock
      else s
    | _, _ => s

/-! Forwards and invalidations at an owner or sharer (R215, R216, R232, Table COH-2) -/

/-- What a complex can serve a forward from: its copy in M, O or E, or its writeback buffer. -/
inductive OwnCopy where
  | line (c : CLine)
  | buffer (w : WbEnt)
  | none

def State.ownCopy (s : State) (line : Nat) : OwnCopy :=
  match s.held line with
  | some c => if c.st == .s then .none else .line c
  | none => match s.mem.wbuf.find line with | some w => .buffer w | none => .none

/-- An owner's data response, with the rights that the forward carries (R212; log 26). A requester in this complex gets it directly. -/
def State.fwdData (s : State) (dst code line : Nat) (lock : Bool) (rights : BitVec 3) (d : Line) (poison : Bool) : State :=
  let r : DataRsp := { data := d, poison := poison, rights := rights }
  if dst = s.cxid then (if code = 0x33 then s.snapRsp line r else s.dataRsp line r (if code = 0x30 then .s else if code = 0x31 then .e else .m))
  else s.coh dst code line lock (rspArgs r ++ (if code = 0x32 then [0, 0, 0] else []))

/-- FWDACK with WBP and DIRTY, and for CLN the data with the PID and source type of the copy. -/
def State.fwdAck (s : State) (home line : Nat) (lock wbp dirty : Bool) (pid stype : Nat) (d : Line) : State :=
  s.coh home 0x36 line lock [pid, stype, b2n wbp, b2n dirty, d.toNat]

/-- A snoop that reaches this complex from the home of its line. -/
def State.snooped (s : State) (home line : Nat) (f : State → State) : Out :=
  fromCx home (.next (if s.hears home && s.homeOf (line * 256) == some home then f s else s))

/-- Serve a forward from the writeback buffer, which is kept until WBACK (R232). -/
def State.fwdBuffer (s : State) (home ftgt code line : Nat) (lock : Bool) (rights : BitVec 3) (w : WbEnt) : State :=
  (s.fwdData ftgt code line lock rights w.data w.poison).fwdAck home line lock true true w.pid.toNat w.stype.toNat 0

/-- A pending UPG whose copy an invalidation takes becomes a request for data (Table COH-2). -/
def State.upgLost (s : State) (line : Nat) : State :=
  match s.mem.reqs.find line with
  | some q => if q.st == .smG then s.updMem (fun m => { m with reqs := m.reqs.put line { q with st := .imD } }) else s
  | none => s

/-- FWDS: a shared copy to the requester; a dirty owner goes to O, a clean one to S. -/
def execFwds (home : Nat) (h : FwdHdr) (ftgt rtag : Nat) (s : State) : Out := settled s <|
  fromCx ftgt <| s.snooped home h.line fun s =>
    let _ := rtag
    match s.ownCopy h.line with
    | .none => s.coh home 0x37 h.line h.lock
    | .buffer w => s.fwdBuffer home ftgt 0x30 h.line h.lock h.rights w
    | .line c =>
      let s := s.updMem (fun m => { m with lines := m.lines.put h.line { c with st := if c.st.dirty then Moesi.o else Moesi.s } })
      ((s.ownStale h.line).fwdData ftgt 0x30 h.line h.lock h.rights c.data false).fwdAck home h.line h.lock false c.st.dirty c.pid.toNat c.stype.toNat 0

/-- FWDO: the line with ownership to the requester or the home; the copy is dropped. -/
def execFwdo (home : Nat) (h : FwdHdr) (ftgt rtag : Nat) (s : State) : Out := settled s <|
  fromCx ftgt <| s.snooped home h.line fun s =>
    let _ := rtag
    match s.ownCopy h.line with
    | .none => s.coh home 0x37 h.line h.lock
    | .buffer w => s.fwdBuffer home ftgt 0x32 h.line h.lock h.rights w
    | .line c =>
      (((s.dropLine h.line true).upgLost h.line).fwdData ftgt (if c.st.dirty then 0x32 else 0x31) h.line h.lock h.rights c.data false).fwdAck home h.line h.lock false c.st.dirty c.pid.toNat c.stype.toNat 0

/-- FWDSNAP: a copy to the requester; the state is kept. -/
def execFwdsnap (home : Nat) (h : FwdHdr) (ftgt rtag : Nat) (s : State) : Out := settled s <|
  fromCx ftgt <| s.snooped home h.line fun s =>
    let _ := rtag
    match s.ownCopy h.line with
    | .none => s.coh home 0x37 h.line h.lock
    | .buffer w => s.fwdBuffer home ftgt 0x33 h.line h.lock h.rights w
    | .line c => (s.fwdData ftgt 0x33 h.line h.lock h.rights c.data false).fwdAck home h.line h.lock false c.st.dirty c.pid.toNat c.stype.toNat 0

/-- INV: an S copy is dropped; INVACK in every case. -/
def execInv (home : Nat) (q : SnpHdr) (s : State) : Out := settled s <|
  s.snooped home q.line fun s =>
    let s := match s.held q.line with
      | some c => if c.st == Moesi.s then ((s.lockHit q.line).1.dropLine q.line).upgLost q.line else s
      | none => s
    s.coh home 0x35 q.line q.lock

/-- BINV: the copy is dropped. Dirty data goes home as a WB, which is the reply (R231) and says whether the line lay in a locked way; else INVACK. -/
def execBinv (home : Nat) (q : SnpHdr) (s : State) : Out := settled s <|
  s.snooped home q.line fun s =>
    match s.held q.line with
    | some c =>
      let h := s.lockHit q.line
      let s := (h.1.dropLine q.line false h.2 q.lock).upgLost q.line
      if c.st.dirty then s else s.coh home 0x35 q.line q.lock
    | none => if s.mem.wbuf.has q.line then s else s.coh home 0x35 q.line q.lock

/-- CLN: M becomes E and O becomes S; the dirty data goes home with FWDACK. -/
def execCln (home : Nat) (q : SnpHdr) (s : State) : Out := settled s <|
  s.snooped home q.line fun s =>
    match s.ownCopy q.line with
    | .none => s.coh home 0x37 q.line q.lock
    | .buffer w => s.fwdAck home q.line q.lock true true w.pid.toNat w.stype.toNat 0
    | .line c =>
      let s := s.updMem (fun m => { m with lines := m.lines.put q.line { c with st := (match c.st with | Moesi.m => Moesi.e | Moesi.o => Moesi.s | x => x : Moesi) } })
      (s.ownStale q.line).fwdAck home q.line q.lock false c.st.dirty c.pid.toNat c.stype.toNat (if c.st.dirty then c.data else (0 : Line))

/-! Replies at the home (R214, R232) -/

/-- INVACK: one acknowledgement is in. -/
def execInvack (src line : Nat) (s : State) : Out := settled s <|
  fromCx src (.next (if s.hears src then s.onTxn line (fun t => { t with acks := t.acks.filter (fun c => c != src) }) else s))

/-- The forward of an open transaction is served (Table COH-5, R232). A CLEAN that met a writeback waits for it (08 R195); for another request a WB still under way is expected. -/
def State.fwdDone (s : State) (r : Req) (src line pid stype : Nat) (wbp dirty wbSeen : Bool) (data : Line) : State :=
  if r.kind == .cmo .clean && wbp && !wbSeen then s.onTxn line (fun t => { t with fwd := none, acks := src :: t.acks })
  else
    let s := s.forwarded r src wbp dirty
    let s := if r.kind == .cmo .clean && dirty && !wbp then s.wbStore src line pid stype data false else s
    let s := if wbp && !wbSeen then s.updMem (fun m => { m with late := m.late ++ [(line, src, r.leavesHome)] }) else s
    s.onTxn line (fun t => { t with fwd := none, answer := some (.ack wbp dirty) })

/-- FWDACK: the reply to the forward of an open transaction. -/
def execFwdack (src : Nat) (h : AckHdr) (wbp dirty : Bool) (data : BitVec 2048) (s : State) : Out := settled s <|
  fromCx src <| .next <|
    if !s.hears src then s else
    match s.mem.txns.find h.line with
    | none => s
    | some t =>
      match t.req with
      | none => s
      | some r => if t.fwd ≠ some src then s else s.fwdDone r src h.line h.pid h.stype wbp dirty t.wbSeen data

/-- The forward found no copy: the request goes on as with the owner removed (Table COH-5). -/
def State.noCopy (s : State) (line : Nat) : State :=
  s.onTxn line (fun t => { t with fwd := none, dataWait := false, sent := false, unblk := false, answer := some .nocopy })

/-- NOCOPY (R216): the owner held no copy. -/
def execNocopy (src line : Nat) (s : State) : Out := settled s <|
  fromCx src <| .next <|
    if !s.hears src then s else
    match s.mem.txns.find line with
    | none => s
    | some t => if t.fwd ≠ some src then s else (s.dropOwner line).noCopy line

/-- UNBLK (R214): the requester has installed its data. -/
def execUnblk (src line : Nat) (s : State) : Out := settled s <|
  fromCx src <| .next <|
    if !s.hears src then s else
    match s.mem.txns.find line with
    | none => s
    | some t =>
      match t.req with
      | some r => if r.hdr.src = src then s.onTxn line (fun t => { t with unblk := false }) else s
      | none => s

/-- WBACK (R232): the writeback buffer is free. -/
def execWback (line : Nat) (s : State) : Out := settled s <| .next (if s.flag F.FLT_FENCE_CXF then s else s.updMem (fun m => { m with wbuf := m.wbuf.del line }))

/-- ATOMRSP (R212): the core that waits gets the old value and CC, a refusal, or poison. -/
def execAtomrsp (lc : Nat) (line : Nat) (old : BitVec 128) (cc : BitVec 2) (d : DataRsp) (s : State) : Out := settled s <|
  if 48 ≤ lc then .fault .noSuchUnit else
  if s.flag F.FLT_FENCE_CXF || (s.core lc).wait ≠ .atom line then .next s else
  let s := s.updMem (fun m => { m with reqs := m.reqs.del (line + 2 ^ 48 * (lc + 1)) })
  .next (s.updCore lc (fun c => { c with wait := if d.poison then .atomFail line (if d.rights = 0 then 0 else 1) else .atomGot line old cc }))

/-- CMP (R212): a WRPL or CMO is complete. -/
def execCmpMessage (line : Nat) (s : State) : Out := settled s <|
  .next <| if s.flag F.FLT_FENCE_CXF then s else s.endReq line fun k q =>
    match q.req.kind with
    | .wrpl | .cmo _ => s.updMem (fun m => { m with reqs := m.reqs.put k { q with st := .cmp } })
    | _ => s

/-! NACK, backoff and reservations (R224 to R226) -/

/-- The array number of the requester's LFSR, in the model's own numbering (log 6). -/
def reqArray : Nat := 0x201

/-- The wait after the n-th NACK, in nanoseconds, with its jitter of 0 to 31 ns from the LFSR (R224). -/
def nackWait (n : Nat) (l : BitVec 16) : Nat := 32 * 2 ^ min (n - 1) 5 + l.toNat * 32 / 65536

/-- A moment `ns` nanoseconds on, in time-base units, rounded down. -/
def State.after (s : State) (ns : Nat) : W64 := s.fab.tb + BitVec.ofNat 64 (ns * usec / 1000)

/-- NACK (R224, R226): the request backs off; after RESFULL it is not resent until an INVITE. -/
def execNack (src line : Nat) (reason : NackReason) (s : State) : Out := settled s <|
  fromCx src <| .next <| if !s.hears src then s else s.endReq line fun k q =>
    if reason = .resfull then s.updMem (fun m => { m with reqs := m.reqs.put k { q with backoff := true, stopped := true } })
    else
      let l := lfsrStep (s.mem.lfsrOf reqArray)
      s.updMem (fun m => { m with lfsr := m.lfsr.put reqArray l,
                                  reqs := m.reqs.put k { q with backoff := true, stopped := false, due := s.after (nackWait q.sends l) } })

/-- Send a request again; the ninth sending and every later one carry STARVE (R224). -/
def State.resend (s : State) (k : Nat) (q : ReqEnt) : State :=
  match s.homeOf (q.req.hdr.line * 256) with
  | some h => s.sendReq h { q.req with hdr := { q.req.hdr with starve := decide (8 ≤ q.sends) } } k q.st
  | none => s

/-- REQUEST_RESEND (R224): a backoff expires, at its moment. -/
def execRequestResend (line : Nat) (s : State) : Out := settled s <|
  .next <| if s.flag F.FLT_FENCE_CXF then s else s.endReq line fun k q => if q.backoff && !q.stopped then (s.reach q.due.toNat).resend k q else s

/-- INVITE (R226): the oldest STARVE request for this home is sent. -/
def execInvite (home : Nat) (s : State) : Out := settled s <|
  fromCx home <| .next <|
    if !s.hears home then s else
    let l := s.mem.reqs.filter (fun p => p.2.st.open && p.2.stopped && p.2.req.hdr.starve && s.homeOf (p.2.req.hdr.line * 256) == some home)
    let best := l.foldl (fun b p => match b with
      | none => some p
      | some x => if p.2.born.toNat < x.2.born.toNat then some p else b) (none : Option (Nat × ReqEnt))
    match best with
    | some p => s.resend p.1 p.2
    | none => s

/-- A request ends as though poisoned data had returned: the severe fault, and the requester finds its failure (R233; 10 R242). -/
def State.reqLost (s : State) (k : Nat) (q : ReqEnt) : State :=
  let line := q.req.hdr.line
  let s := s.flt 4 6 0 (some q.req.hdr.pid) (BitVec.ofNat 64 (line * 256))
  match q.req.kind with
  | .atom =>
    (s.updMem (fun m => { m with reqs := m.reqs.del k })).updCore q.req.hdr.tag (fun c => if c.wait = .atom line then { c with wait := .atomFail line 3 } else c)
  | _ => s.updMem (fun m => { m with reqs := m.reqs.put k { q with st := .failed 3 } })

/-- REQUEST_TIMEOUT (R233): no reply within COH_TMO.REQ. -/
def execRequestTimeout (line : Nat) (s : State) : Out := settled s <|
  .next <| if s.flag F.FLT_FENCE_CXF then s else s.endReq line fun k q => if q.backoff then s else s.reqLost k q

/-- A complex that answers no SNP message holds no copy (R234). -/
def State.silent (s : State) (line cx : Nat) : State :=
  match s.mem.txns.find line with
  | none => s
  | some t =>
    if t.fwd = some cx then ((s.ownerLost line cx).flt 4 7 0 none (BitVec.ofNat 64 cx)).noCopy line
    else if t.acks.contains cx then
      ((s.ownerLost line cx).flt 4 7 0 none (BitVec.ofNat 64 cx)).onTxn line (fun t => { t with acks := t.acks.filter (fun c => c != cx) })
    else s

/-- SNOOP_TIMEOUT (R234). -/
def execSnoopTimeout (line cx : Nat) (s : State) : Out := settled s <| fromCx cx (.next (if s.flag F.FLT_FENCE_CXF then s else s.silent line cx))

/-- INVITE_TIMEOUT (R226): the entry that has been kept longest is released. -/
def execInviteTimeout (s : State) : Out := settled s <|
  .next (if s.mem.kept.isEmpty then s else (s.updMem (fun m => { m with kept := m.kept.tail })).freeResv)

/-- MAXCLR (R225): COH_RESV.MAX takes the present count. -/
def execMaxclr (_src : Src) (s : State) : Out := settled s <| .next (s.setFld F.COH_RESV_MAX (s.fld F.COH_RESV_CUR))

end Sys2Proof.Machine
end

