-- ==== Sys2Proof/Machine/Packet.lean ====
section
/-! DEFINITION. Felard packets (10 R244 to R247, R253): header fields, the packets of this complex's own messages, virtual lanes. -/

namespace Sys2Proof.Machine

/-! Header fields (Table FAB-3) -/

def hdrType (h : BitVec 256) : Nat := fieldOf h 255 248
def hdrTc (h : BitVec 256) : Nat := fieldOf h 247 246
def hdrVl (h : BitVec 256) : Nat := fieldOf h 245 243
def hdrDst (h : BitVec 256) : Nat := fieldOf h 239 230
def hdrSrc (h : BitVec 256) : Nat := fieldOf h 229 220
def hdrPid (h : BitVec 256) : Nat := fieldOf h 219 212
def hdrStype (h : BitVec 256) : Nat := fieldOf h 211 208
def hdrTag (h : BitVec 256) : Nat := fieldOf h 207 192
def hdrLine (h : BitVec 256) : Nat := fieldOf h 191 144

/-- The types of Table FAB-5 with Tables COH-4 and VLX-7. -/
def typeOk (t : Nat) : Bool :=
  (decide (1 ≤ t) && decide (t ≤ 7)) || t == 0x10 || (decide (0x20 ≤ t) && decide (t ≤ 0x25)) || (decide (0x30 ≤ t) && decide (t ≤ 0x3D)) ||
    (decide (0x40 ≤ t) && decide (t ≤ 0x44)) || (decide (0x48 ≤ t) && decide (t ≤ 0x4C)) || (decide (0x50 ≤ t) && decide (t ≤ 0x57))

/-- Is the message a coherence message. -/
def isCoh (t : Nat) : Bool := decide (t ≤ 0x3D)

/-- The class of a message type outside TC0 (Table FAB-5, R213). -/
def typeClass (t : Nat) : Nat :=
  if isCoh t then cohClass t else if t < 0x48 then 0 else if t = 0x48 || t = 0x4A then 1 else if t < 0x4C then 2 else 3

/-- The channel of a message type: 0 REQ, 1 SNP, 2 RSP, 3 DAT (09 Table COH-4; 10 Table FAB-7). -/
def typeChan (t : Nat) : Nat :=
  if t < 0x10 || t = 0x48 || t = 0x4A then 0 else if 0x20 ≤ t && t < 0x30 then 1 else if t = 0x10 || (0x30 ≤ t && t < 0x34) then 3 else 2

/-- The virtual lane of a packet in the order of Table FAB-7 (R253): its class and channel, and the hops made. -/
def laneOf (h : BitVec 256) : Nat :=
  let ch := typeChan (hdrType h)
  let vl := min (hdrVl h) 4
  match hdrTc h with
  | 0 => 5 * ch + vl
  | 1 => 20 + 5 * min ch 1 + vl
  | 2 => 30 + 5 * (if ch = 3 then 1 else 0) + vl
  | _ => 40 + vl

/-- The traffic class of a lane, and its VL. -/
def laneTc (l : Nat) : Nat := if l < 20 then 0 else if l < 30 then 1 else if l < 40 then 2 else 3
def laneVl (l : Nat) : Nat := l % 5

/-- The CRC of a packet: its header with the CRC field as zero, then its data flits (R245). -/
def pktCrc (h : BitVec 256) (d : Option Line) : Nat :=
  (crcIscsi (toBytes 32 (putField h 31 0 0).toNat ++ (match d with | some x => toBytes 256 x.toNat | none => []))).toNat

/-- Bytes of a packet. -/
def pktSize (d : Option Line) : Nat := if d.isSome then 288 else 32

/-- A header that has made no hop; `spec` gives the SPEC fields in their places, the link writes LSEQ, LACK and CRC. -/
def mkHdr (type tc dst src pid stype tag line : Nat) (starve df : Bool) (spec : Nat) : BitVec 256 :=
  BitVec.ofNat 256 (type % 256 * 2 ^ 248 + tc % 4 * 2 ^ 246 + b2n df * 2 ^ 242 + b2n starve * 2 ^ 240 + dst % 1024 * 2 ^ 230 + src % 1024 * 2 ^ 220 +
    pid % 256 * 2 ^ 212 + stype % 16 * 2 ^ 208 + tag % 65536 * 2 ^ 192 + line % 2 ^ 48 * 2 ^ 144 + spec % 2 ^ 128)

/-! The packets of messages (Tables FAB-3 and FAB-4, R246). Where the tables give a message's field no place it stands in a field of that kind that the message leaves unused (log 30): the operand's offset of an ATOM in FIRST, the mark of a walk read in FAR, the rights of a forward in RIGHTS, PLACE in a DATA_M that a WRPL places, the locked-way mark of a WB in DIRTY. -/

/-- Two operands in data flit 0: bytes 0 to 15 and 16 to 31, right-aligned (R246). -/
def opData (a b : Nat) : Line := BitVec.ofNat 2048 (a % 2 ^ 128 * 2 ^ (8 * 240) + b % 2 ^ 128 * 2 ^ (8 * 224))

/-- The two operands of data flit 0. -/
def opOne (d : Line) : W128 := BitVec.ofNat 128 (d.toNat / 2 ^ (8 * 240))
def opTwo (d : Line) : W128 := BitVec.ofNat 128 (d.toNat / 2 ^ (8 * 224))

/-- A coherence message as a packet: code and fields as `State.coh` lists them. -/
def cohPkt (me dst code : Nat) (args : List Nat) : BitVec 256 × Option Line :=
  let a := fun i => args.getD i 0
  let line := a 0
  let hd := fun (pid stype tag : Nat) (starve df : Bool) (spec : Nat) => mkHdr code (a 1) dst me pid stype tag line starve df spec
  let dat := fun (x : Nat) => (BitVec.ofNat 2048 x : Line)
  if code < 0x10 then
    -- a request: tag, PID, source type, STARVE in places 3 to 6
    let h := fun (df : Bool) (spec : Nat) => hd (a 4) (a 5) (a 3) (a 6 != 0) df spec
    match code with
    | 4 => (h false (a 7 * 2 ^ 111), none)
    | 5 => (h true (a 7 * 2 ^ 91 + a 8 * 2 ^ 83 + a 9 * 2 ^ 75), some (dat (a 10)))
    | 6 => (h true (a 8 * 2 ^ 112 + a 9 * 2 ^ 111 + a 7 * 2 ^ 83), some (opData (a 10) (a 11)))
    | 7 => (h false (a 7 * 2 ^ 120), none)
    | _ => (h false 0, none)
  else if code = 0x10 then (hd (a 2) (a 3) 0 false true (a 5 * 2 ^ 127 + a 4 * 2 ^ 109), some (dat (a 6)))
  else if code < 0x23 then (hd 0 0 0 false false (a 4 * 2 ^ 124 + a 2 * 2 ^ 63 + a 3 % 65536 * 2 ^ 47), none)
  else if code < 0x30 then (hd 0 0 0 false false 0, none)
  else if code < 0x34 then (hd (a 5) (a 6) 0 false true (a 2 * 2 ^ 127 + a 3 * 2 ^ 124 + a 7 * 2 ^ 91), some (dat (a 4)))
  else if code = 0x34 then (hd (a 2) 0 0 false false (a 3 * 2 ^ 124), none)
  else if code = 0x36 then
    let df := decide (a 6 ≠ 0)
    (hd (a 2) (a 3) 0 false df (a 4 * 2 ^ 110 + a 5 * 2 ^ 109), if df then some (dat (a 6)) else none)
  else if code = 0x39 then (hd 0 0 (a 2) false true (a 5 * 2 ^ 127 + a 6 * 2 ^ 124 + a 4 * 2 ^ 73), some (opData (a 3) 0))
  else if code = 0x3B then (hd 0 0 0 false false (a 2 * 2 ^ 120), none)
  else (hd 0 0 0 false false 0, none)

/-- A message of the fabric itself or of the journal as a packet (Table FAB-5): FNOTE carries its counts in SPEC (20 R449), a journal entry lies in data flits 0 and 1 (12 R297), a subchannel definition in data flit 0; the SPEC layout of the others is open (log 30). -/
def fabPkt (me dst code : Nat) (args : List Nat) : BitVec 256 × Option Line :=
  let entry := fun (n w : Nat) => (some (BitVec.ofNat 2048 (n * 2 ^ (2048 - w))) : Option Line)
  let data : Option Line := match code, args with
    | 0x50, [e] | 0x54, [e] => entry e 512
    | 0x57, [_, e] => entry e 512
    | 0x52, [_, d] => entry d 256
    | _, _ => none
  let spec := if code = 0x41 then args.headD 0 * 2 ^ 32 else (Config.fabSpec code args).toNat * 2 ^ 32
  (mkHdr code (typeClass code) dst me 0 0 0 0 false data.isSome spec, data)

/-- The command that a packet's message is at its destination. A message whose SPEC layout is open is a command of its own row (log 30). -/
def State.arrive (h : BitVec 256) (data : Option Line) (s : State) : Out :=
  let src := hdrSrc h
  let line := hdrLine h
  let pid := hdrPid h
  let stype := hdrStype h
  let lock := hdrTc h == 0 || fieldOf h 241 241 == 1
  let f := fun hi lo => fieldOf h hi lo
  let d := data.getD 0
  let q : CohReq := { src := src, tag := hdrTag h, line := line, pid := pid, stype := stype, starve := f 240 240 == 1, lock := lock }
  let rights : BitVec 3 := BitVec.ofNat 3 (f 126 124)
  let rsp : DataRsp := { data := d, poison := f 127 127 == 1, rights := rights }
  match hdrType h with
  | 0x01 => execRds q s
  | 0x02 => execRdo q s
  | 0x03 => execUpg q s
  | 0x04 => execRdsnap ⟨q, f 111 111 == 1⟩ s
  | 0x05 => execWrpl q (BitVec.ofNat 18 (f 108 91)) (f 90 83) (f 82 75) d s
  | 0x06 => execAtom q (f 90 83) (f 119 112) (f 111 111 == 1) (opOne d) (opTwo d) s
  | 0x07 => match f 123 120 with
    | 1 => execCmo q .clean s
    | 2 => execCmo q .inval s
    | 3 => execCmo q .clinv s
    | _ => .next s
  | 0x10 => execWb src ⟨line, f 109 109 == 1, lock⟩ ⟨pid, stype⟩ d rsp.poison s
  | 0x20 => execFwds src ⟨line, rights, lock⟩ (f 72 63) (f 62 47) s
  | 0x21 => execFwdo src ⟨line, rights, lock⟩ (f 72 63) (f 62 47) s
  | 0x22 => execFwdsnap src ⟨line, rights, lock⟩ (f 72 63) (f 62 47) s
  | 0x23 => execInv src ⟨line, lock⟩ s
  | 0x24 => execBinv src ⟨line, lock⟩ s
  | 0x25 => execCln src ⟨line, lock⟩ s
  | 0x30 => execDataS src line rsp s
  | 0x31 => execDataE src line rsp s
  | 0x32 => execDataM src line ⟨pid, stype, BitVec.ofNat 18 (f 108 91)⟩ rsp s
  | 0x33 => execDataSn src line rsp s
  | 0x34 => execGnt src line pid rights s
  | 0x35 => execInvack src line s
  | 0x36 => execFwdack src ⟨line, pid, stype⟩ (f 110 110 == 1) (f 109 109 == 1) d s
  | 0x37 => execNocopy src line s
  | 0x38 => execWback line s
  | 0x39 => if 48 ≤ hdrTag h then .next s else execAtomrsp (hdrTag h) line (opOne d) (BitVec.ofNat 2 (f 74 73)) rsp s
  | 0x3A => execCmpMessage line s
  | 0x3B => match f 123 120 with
    | 1 => execNack src line .busy s
    | 2 => execNack src line .setfull s
    | 3 => execNack src line .reserved s
    | 4 => execNack src line .resfull s
    | _ => .next s
  | 0x3C => execUnblk src line s
  | 0x3D => execInvite src s
  | _ => .next s

end Sys2Proof.Machine
end

