-- ==== Sys2Proof/Machine/Plat.lean ====
section
/-! DEFINITION. What several parts of the platform share: reset and power (18 R394, 23), MSI-X (22 R465, R470), monitors, ageing caps and gear targets (18 R401, R402; 21 R453, R455). -/

namespace Sys2Proof.Machine

/-- Held in reset, or without power: no part of the complex runs (18 R394; 23 R480, R486, R493). -/
def State.dead (s : State) : Bool := !s.svc.powered || s.svc.porst || s.svc.trip || s.svc.resetHold

/-- Change the state of the service blocks. -/
def State.updSvc (s : State) (f : Svc → Svc) : State := { s with svc := f s.svc }

/-- Send MSI-X vector `v`: a masked vector stays pending, a link that is down sends nothing (PCI Express). -/
def State.msix (s : State) (v : Nat) : State :=
  if !s.svc.pcieUp then s
  else if s.flag F.SVC_MSIXD_MASK v then s.updSvc (fun k => { k with msixPend := if k.msixPend.contains v then k.msixPend else k.msixPend ++ [v] })
  else s.send .msix v 0

/-- Reset the port's own PCI Express state: the MSI-X table and its pending bits. -/
def State.portReset (s : State) : State :=
  ({ s with ctl := s.ctl.filter (fun p => !(decide (0x1001000 ≤ p.1) && decide (p.1 < 0x1001200))) }).updSvc (fun k => { k with msixPend := [] })

/-- The link goes down: the port is reset, and the loss of a link that was up is logged (01 R28, R465; 19 R414: at any point). -/
def State.pcieLost (s : State) : State :=
  let up := s.svc.pcieUp
  let s := s.portReset.updSvc (fun k => { k with pcieUp := false })
  if up then s.flt 16 2 else s

/-! Monitors by kind (0 thermal, 1 droop, 2 ageing) and index (21 R451) -/

def State.mon (s : State) (kind i : Nat) : Mon := s.svc.mons.get Mon.reset (kind * 1000 + i)
def State.setMon (s : State) (kind i : Nat) (m : Mon) : State := s.updSvc (fun k => { k with mons := k.mons.put (kind * 1000 + i) m })

/-- The core monitor that gives a physical core its ageing readings: its own, else the next working one of its cluster (21 R453). -/
def State.ageMon (s : State) (p : Nat) : Nat :=
  (((List.range 7).map (fun k => p / 7 * 7 + (p % 7 + k) % 7)).find? (fun q => !(s.mon 2 q).retired)).getD p

/-- PEAK of a physical core, in 0.01% (21 R455). -/
def State.agePeak (s : State) (p : Nat) : Int := (s.mon 2 (s.ageMon p)).peak

/-! Gears (18 R401) -/

/-- The target gear: the least of REQ, SWCAP, AGECAP, PWRCAP and THMCAP. -/
def State.gearTarget (s : State) (c : Nat) : Nat :=
  min (s.fld F.CLK_GEAR_REQ c) (min (s.fld F.CLK_GEAR_SWCAP c) (min (s.fld F.CLK_GEAR_AGECAP c) (min (s.fld F.CLK_GEAR_PWRCAP c) (s.fld F.CLK_GEAR_THMCAP c))))

/-- A thermal or power emergency is in force (R405). -/
def State.emergency (s : State) : Bool := s.flag F.CLK_PWR_TEMERG || s.flag F.CLK_PWR_PEMERG

/-- Start a gear change when the target differs from CUR; a change in progress completes, but a lower target overtakes an upward change that runs on the bridge clock. -/
def State.gearDue (s : State) (c : Nat) : State :=
  if s.svc.avsHeld.contains c || s.emergency then s else
  let t := s.gearTarget c
  let cur := s.fld F.CLK_GEAR_CUR c
  let put := fun (s : State) => s.updSvc (fun k => { k with gearTo := k.gearTo.put c t })
  if s.flag F.CLK_GEAR_CHG c then
    let to_ := s.svc.gearTo.get cur c
    if cur < to_ && t < to_ && s.svc.domSel.get 0 c == 1 then put s else s
  else if t = cur then s else put (s.setFlag F.CLK_GEAR_CHG true c)

/-- AGECAP of a slowdown (R402); none from 9% on. -/
def capOf (peak : Int) : Option Nat :=
  if peak < 600 then some 15 else if peak < 700 then some 13 else if peak < 800 then some 11 else if peak < 900 then some 9 else none

/-- Recompute AGECAP of a cluster from the physical cores that carry a logical core. -/
def State.ageCap (s : State) (c : Nat) : State :=
  let pcs := ((List.range 7).map (fun k => 7 * c + k)).filter (fun p => (s.fld F.TAN_PCSTAT_ROLE p == 0 || s.fld F.TAN_PCSTAT_ROLE p == 4) && s.fld F.TAN_PCSTAT_LC p != 0xFF)
  match capOf (pcs.foldl (fun m p => max m (s.agePeak p)) 0) with
  | none => s
  | some cap =>
    let old := s.fld F.CLK_GEAR_AGECAP c
    let s := (s.setFld F.CLK_GEAR_AGECAP cap c).gearDue c
    if cap < old then s.flt 15 4 c else s

end Sys2Proof.Machine
end

