-- ==== Sys2Proof/Machine/Fabric.lean ====
section
/-! DEFINITION. The Felard fabric (10): wiring and routes, packets in transit with link-level retry, link state, removal of complexes, discovery, the time base, and the messages of the fabric itself. -/

namespace Sys2Proof.Machine

/-! Positions and wiring (R235 to R237) -/

def cxWall (c : Nat) : Nat := bits c 9 6
def cxCourse (c : Nat) : Nat := bits c 5 3
def cxPos (c : Nat) : Nat := bits c 2 0
def mkCx (w c p : Nat) : Nat := w * 64 + c * 8 + p

/-- Does a complex exist (R236). -/
def State.cxExists (s : State) (c : Nat) : Bool :=
  decide (c < 1024) && bits (s.fld F.FAB_SYS_WALLS) (cxWall c) (cxWall c) == 1 && bits (s.fld F.FAB_SYS_COURSES) (cxCourse c) (cxCourse c) == 1 &&
    bits (s.fld F.FAB_SYS_POSNS) (cxPos c) (cxPos c) == 1

/-- The global-link entry of port FL14 or FL15 of a complex of this wall (R238). -/
def gltIdx (cx port : Nat) : Nat := cxCourse cx * 16 + cxPos cx * 2 + (port - 14)

/-- The complex and port that Table FAB-1 joins to a port of a complex of this wall. -/
def State.wire (s : State) (cx port : Nat) : Option (Nat × Nat) :=
  if port < 7 then some (mkCx (cxWall cx) (cxCourse cx) ((cxPos cx + port + 1) % 8), 6 - port)
  else if port < 14 then some (mkCx (cxWall cx) ((cxCourse cx + port - 6) % 8) (cxPos cx), 20 - port)
  else if port < 16 then
    if s.flag F.FAB_GLT_V (gltIdx cx port) then some (s.fld F.FAB_GLT_RCX (gltIdx cx port), 14 + s.fld F.FAB_GLT_RPORT (gltIdx cx port)) else none
  else none

/-- Is a port of a complex of this wall used (R237). -/
def State.portUsed (s : State) (cx port : Nat) : Bool := match s.wire cx port with | some q => s.cxExists q.1 | none => false

/-- Is a complex in the system as far as this one knows: present, once discovery has completed (R260). -/
def State.inSystem (s : State) (cx : Nat) : Bool := cx == s.cxid || !s.fab.discovered || s.present cx

/-- Is a link up as this complex sees it: its own ports by their state, others unless an LSN has reported them down (R241), with neither end removed (R260). -/
def State.linkUp (s : State) (cx port : Nat) : Bool :=
  let at1 := fun (c p : Nat) => s.inSystem c && (if c = s.cxid then s.portUp p else !s.fab.down.contains (c, p))
  s.portUsed cx port && at1 cx port &&
    (match s.wire cx port with | some q => if cxWall q.1 = cxWall s.cxid then at1 q.1 q.2 else s.inSystem q.1 | none => false)

/-! Routes (R239, R240) -/

def coursePort (p q : Nat) : Nat := (q + 7 - p) % 8
def wallPort (c d : Nat) : Nat := 7 + (d + 7 - c) % 8

/-- The first port of a segment within this wall from complex `a` to complex `b`, if a path of at most two hops is up (R239). -/
def State.segment (s : State) (a b : Nat) : Option Nat :=
  let w := cxWall a
  let c1 := cxCourse a
  let p1 := cxPos a
  let c2 := cxCourse b
  let p2 := cxPos b
  let crs := fun (c p q : Nat) => s.linkUp (mkCx w c p) (coursePort p q)
  let wal := fun (c d p : Nat) => s.linkUp (mkCx w c p) (wallPort c d)
  if c1 = c2 then
    if crs c1 p1 p2 then some (coursePort p1 p2)
    else match (List.range 8).find? (fun r => r != p1 && r != p2 && crs c1 p1 r && crs c1 r p2) with
      | some r => some (coursePort p1 r)
      | none => none
  else if p1 = p2 then
    if wal c1 c2 p1 then some (wallPort c1 c2)
    else match (List.range 8).find? (fun r => r != c1 && r != c2 && wal c1 r p1 && wal r c2 p1) with
      | some r => some (wallPort c1 r)
      | none => none
  else if wal c1 c2 p1 && crs c2 p1 p2 then some (wallPort c1 c2)
  else if crs c1 p1 p2 && wal c1 c2 p2 then some (coursePort p1 p2)
  else none

/-- The next port toward a destination (R239, R240). -/
def State.route (s : State) (dst : Nat) : Option Nat :=
  let me := s.cxid
  if cxWall dst = cxWall me then s.segment me dst
  else
    let l := (List.range 128).filter (fun i => s.flag F.FAB_GLT_V i && cxWall (s.fld F.FAB_GLT_RCX i) == cxWall dst)
    let holder := fun i => mkCx (cxWall me) (i / 16) (i % 16 / 2)
    let ok := fun i => s.linkUp (holder i) (14 + i % 2) && (holder i == me || (s.segment me (holder i)).isSome)
    let k := dst % l.length
    match (l.drop k ++ l.take k).find? ok with
    | none => none
    | some i => if holder i = me then some (14 + i % 2) else s.segment me (holder i)

/-! Output ports (R249, R253, R254, R256) -/

/-- A packet that waits at a port, on its lane. -/
def FPort.enqueue (x : FPort) (k : Pkt) : FPort := { x with waitq := x.waitq.upd [] (laneOf k.hdr) (fun q => q ++ [k]) }

/-- The packets that wait at a port. -/
def FPort.queued (x : FPort) : List Pkt := x.waitq.flatMap (fun p => p.2)

/-- Of the lanes of a class that have a packet and a credit, the one with the higher VL (R254), then the lower-numbered channel (DESIGN CHOICE, log 30). -/
def FPort.laneFor (x : FPort) (tc : Nat) : Option Nat :=
  ((List.range 45).filter (fun l => laneTc l == tc && !(x.waitq.get [] l).isEmpty && x.credits.get 0 l != 0)).foldl
    (fun b l => match b with
      | none => some l
      | some m => if laneVl m < laneVl l then some l else some m) none

/-- Flits of a packet (R244). -/
def Pkt.flits (k : Pkt) : Nat := if k.data.isSome then 9 else 1

/-- Weight of a class (FAB_ARB). -/
def State.arbW (s : State) (tc : Nat) : Nat := s.fld (match tc with | 1 => F.FAB_ARB_W1 | 2 => F.FAB_ARB_W2 | _ => F.FAB_ARB_W3)

/-- The lane that a port serves next (R254): TC0 first, then the class that has had the least of its share of the flits, by weight. -/
def State.arbitrate (s : State) (x : FPort) : Option Nat :=
  match x.laneFor 0 with
  | some l => some l
  | none =>
    (([1, 2, 3] : List Nat).foldl (fun (b : Option (Nat × Nat)) tc =>
      match x.laneFor tc, b with
      | none, _ => b
      | some l, none => some (tc, l)
      | some l, some (c, m) => if x.served.get 0 tc * s.arbW c < x.served.get 0 c * s.arbW tc then some (tc, l) else some (c, m)) none).map (·.2)

/-- Is the packet metered: a coherence packet in TC0 (R256). -/
def Pkt.metered (k : Pkt) : Bool := hdrTc k.hdr == 0 && isCoh (hdrType k.hdr)

/-- The moment at which the token bucket is full again after a packet, in 1/1000 time-base unit; one byte is 4096 of them (R256: 1 GB/s). -/
def State.bucketAfter (s : State) (x : FPort) (k : Pkt) : Nat := max x.bucket (s.fab.tb.toNat * 1000) + pktSize k.data * 4096

/-- Has the bucket of 864 bytes too few for the packet. -/
def State.demotes (s : State) (x : FPort) (k : Pkt) : Bool := k.metered && decide (s.fab.tb.toNat * 1000 + 864 * 4096 < s.bucketAfter x k)

/-- A demoted packet: DMT, and the class of its channel outside TC0 (R256). -/
def Pkt.demote (k : Pkt) : Pkt := { k with hdr := putField (putField k.hdr 247 246 (cohClass (hdrType k.hdr))) 241 241 1 }

/-- Send one packet: LSEQ, LACK and CRC are written, it stays in the replay buffer until it is acknowledged (R245, R249), its lane loses a credit, its class counts its flits while TC1 to TC3 wait. -/
def State.transmit (s : State) (p l : Nat) (x : FPort) (k : Pkt) : State :=
  let h := putField (putField k.hdr 143 136 x.txSeq.toNat) 135 128 (x.rxSeq - 1).toNat
  let k := { k with lseq := x.txSeq, hdr := putField h 31 0 (pktCrc h k.data) }
  let served := if laneTc l = 0 then x.served else x.served.upd 0 (laneTc l) (fun n => n + k.flits)
  let x := { x with replay := x.replay ++ [k], txSeq := x.txSeq + 1, credits := x.credits.upd 0 l (fun n => n - 1),
                    bucket := if k.metered then s.bucketAfter x k else x.bucket,
                    served := if x.waitq.all (fun q => laneTc q.1 == 0 || q.2.isEmpty) then [] else served }
  (s.setFport p x).send (.felardCtl p) 0 0x10 (k.hdr.toNat :: (match k.data with | some d => [d.toNat] | none => []))

/-- Send waiting packets while fewer than 128 are unacknowledged, the port is not paused and a lane has a credit (R249, R250, R253, R254); a packet that the meter demotes moves to the lane of its new class. -/
def State.fpump (s : State) (p : Nat) : Nat → State
  | 0 => s
  | n + 1 =>
    let x := s.fport p
    if x.paused || 128 ≤ x.replay.length || !s.portUp p then s else
    match s.arbitrate x with
    | none => s
    | some l =>
      match x.waitq.get [] l with
      | [] => s
      | k :: r =>
        let y := { x with waitq := x.waitq.set [] l r }
        State.fpump (if s.demotes x k then ((s.setFport p (y.enqueue k.demote)).count F.FAB_PTC0_DEMOTED (some F.FAB_PTC0_DOVF) p).flt 5 5 p else s.transmit p l y k) p n

/-- Send what can be sent at a port. Each waiting packet takes at most two turns: a demotion and its sending. -/
def State.fflush (s : State) (p : Nat) : State := s.fpump p (2 * (s.fport p).queued.length)

/-- Discard a packet whose destination cannot be reached (R242). -/
def State.unreach (s : State) (dst : Nat) : State :=
  let s := s.count F.FAB_DROP_UNREACH (some F.FAB_DROP_UOVF)
  if s.present dst then s.flt 5 11 else s

/-- Forward a packet, whose VL is the number of hops it has made: the sixth hop is refused (R241), an absent or unreachable destination ends it (R242). -/
def State.forward (s : State) (h : BitVec 256) (d : Option Line) : State :=
  let dst := hdrDst h
  if s.fab.discovered && !s.present dst then s.unreach dst else
  match s.route dst with
  | none => s.unreach dst
  | some p =>
    if 5 ≤ hdrVl h then (s.count F.FAB_DROP_HOPLIM (some F.FAB_DROP_HOVF)).flt 5 6
    else (s.setFport p ((s.fport p).enqueue { lseq := 0, hdr := h, data := d })).fflush p

/-- A message of this complex that cannot reach its destination (R242): a coherence request ends as on a timeout, an SNP message is resolved as an unanswered one, SIGC and RSTC give CC 1; others are left to their own chapters' timeouts. -/
def State.unsent (s : State) (m : Msg) : State :=
  let line := m.args.headD 0
  if m.chan = .coh && m.code < 0x10 then s.endReq line (fun k q => s.reqLost k q)
  else if m.chan = .coh && 0x20 ≤ m.code && m.code < 0x30 then s.silent line m.dst
  else if m.chan = .fab && m.code = 0x48 then
    s.updCore line (fun c => if c.wait = .signal m.dst then { c with wait := .ccGot 1 } else c)
  else s

/-- A message of this complex enters the fabric: as a packet of no hops, toward its destination (R239, R240). -/
def State.launch (s : State) (m : Msg) : State :=
  if s.inSystem m.dst && (s.route m.dst).isSome then
    let k := if m.chan = .coh then cohPkt s.cxid m.dst m.code m.args else fabPkt s.cxid m.dst m.code m.args
    s.forward k.1 k.2
  else s.unsent m

/-- Is a message one for the Felard fabric. -/
def Msg.fabric (m : Msg) : Bool := m.chan == .coh || m.chan == .fab || m.chan == .journal

/-- The messages that the units have put out enter the fabric, in their order; a fenced complex sends none (20 R443). -/
def State.launchAll (s : State) : State :=
  if s.flag F.FLT_FENCE_CXF then s else
  (s.out.filter Msg.fabric).foldl State.launch { s with out := s.out.filter (fun m => !m.fabric) }

/-- A CRC error at a port (R249). -/
def State.fcrc (s : State) (p : Nat) : State := (s.count F.FAB_PERR_CRCERR (some F.FAB_PERR_COVF) p).flt 5 0 p

/-- Take a cumulative acknowledgement (R249). -/
def State.flack (s : State) (p : Nat) (lack : BitVec 8) : State :=
  let x := s.fport p
  let keep := x.replay.filter (fun k => decide (128 ≤ (lack - k.lseq).toNat))
  if keep.length = x.replay.length then s else (s.setFport p { x with replay := keep, resends := 0 }).fflush p

/-- Resend from a sequence number on (R249). -/
def State.fresend (s : State) (p : Nat) (seq : BitVec 8) : State :=
  let x := s.fport p
  let l := x.replay.filter (fun k => decide ((k.lseq - seq).toNat < 128))
  if l.isEmpty then s else
    let s := l.foldl (fun s k => s.send (.felardCtl p) 0 0x10 (k.hdr.toNat :: (match k.data with | some d => [d.toNat] | none => []))) s
    (s.setFport p { x with resends := x.resends + 1 }).count F.FAB_PERR_REPLAY (some F.FAB_PERR_ROVF) p

/-- A packet has come in order: its buffer is freed and it is acknowledged (R248, R249). -/
def State.frecv (s : State) (p : Nat) (h : BitVec 256) : State :=
  let x := s.fport p
  (s.setFport p { x with rxSeq := x.rxSeq + 1, freed := x.freed.upd 0 (laneOf h) (fun n => n + 1) }).ctlFlit p 1 x.rxSeq.toNat

/-! Removal and link state (R241, R242, R252, R260, R265) -/

/-- The complexes of a wall that exist, without this one. -/
def State.wallMates (s : State) : List Nat := ((List.range 64).map (fun k => cxWall s.cxid * 64 + k)).filter (fun c => s.cxExists c && c != s.cxid)

/-- Flood an LSN: a link change to the wall, a removal to every complex. Codes in the argument list: 0 link (complex, port, up), 1 removal (complex). -/
def State.flood (s : State) (dsts : List Nat) (args : List Nat) : State := dsts.foldl (fun s c => s.send .fab c 0x40 args) s

/-- The acting master after a removal (R265). -/
def State.newMaster (s : State) (gone : Nat) : State :=
  if s.fab.master ≠ some gone then s else
  let b := s.fld F.FAB_TMASTER_BACKUP
  if gone = s.fld F.FAB_TMASTER_PRIMARY && s.flag F.FAB_TMASTER_BEN && (b == s.cxid || s.present b) then
    let s := ({ s with fab := { s.fab with master := some b } }).setFlag F.FAB_TBSTAT_BKUP true
    if b = s.cxid then ((s.setFlag F.FAB_TBSTAT_MASTER true).setFld F.FAB_TBSTAT_OFFSET 0).setFlag F.FAB_TBSTAT_HOLD false else s
  else (({ s with fab := { s.fab with master := none } }).setFlag F.FAB_TBSTAT_HOLD true).flt 5 13

/-- The waits of cores for an answer of a removed complex end: SIGC and RSTC with CC 1 (R242), a TLB operation without its acknowledgement (05 R131; log 33). -/
def Core.lostCx (c : Core) (cx : Nat) : Core :=
  match c.wait with
  | .signal d => if d = cx then { c with wait := .ccGot 1 } else c
  | .tlbAcks l => { c with wait := .tlbAcks (l.filter (fun x => x != cx)) }
  | _ => c

/-- A port's link is lost, with the STATE that shows why (R252): the wall is told, and the packets in its buffers are rerouted with their hop count. -/
def State.linkLost (s : State) (p state : Nat) : State :=
  if !s.portUp p then s else
  let x := s.fport p
  let s := (s.setFport p { FPort.reset with txSeq := x.txSeq, rxSeq := x.rxSeq, badLanes := x.badLanes, bucket := x.bucket }).setFld F.FAB_PSTAT_STATE state p
  let s := s.flood s.wallMates [0, s.cxid, p, 0]
  (x.replay ++ x.queued).foldl (fun s k => s.forward k.hdr k.data) s

/-- The packets that wait at a port for a removed complex are discarded (R242); those in the replay buffer of a link that is up have been sent. -/
def State.purge (s : State) (p cx : Nat) : State :=
  let x := s.fport p
  let gone := (x.queued.filter (fun k => hdrDst k.hdr == cx)).length
  if gone = 0 then s else
  (s.setFport p { x with waitq := x.waitq.map (fun (q : Nat × List Pkt) => (q.1, q.2.filter (fun k => hdrDst k.hdr != cx))) }).count F.FAB_DROP_UNREACH (some F.FAB_DROP_UOVF) 0 0 gone

/-- Remove a complex (R260): its bit in FAB_PRESENT clears, its links are lost, packets for it are discarded. -/
def State.removeCx (s : State) (cx : Nat) : State :=
  if cx = s.cxid || !s.present cx then s else
  let a := F.FAB_PRESENT_PRES.base + cx / 64 * 8
  let s := s.setReg a (putField (s.reg a) (cx % 64) (cx % 64) 0)
  let s := s.flt 5 12 0 none (BitVec.ofNat 64 cx)
  let s := { s with cores := s.cores.map (fun (p : Nat × Core) => (p.1, p.2.lostCx cx)) }
  let s := (List.range 16).foldl (fun s p => if s.fld F.FAB_PSTAT_RCX p == cx then s.linkLost p 6 else s) s
  let s := (List.range 16).foldl (fun s p => s.purge p cx) s
  let s := s.newMaster cx
  if s.flag F.VLX_BUDDY_BV && s.fld F.VLX_BUDDY_BCX == cx then s.buddyLost.startAll else s

/-- A neighbour finds a complex removed and tells every other complex (R260). -/
def State.removeAndTell (s : State) (cx : Nat) : State :=
  if !s.present cx then s else (s.removeCx cx).flood ((List.range 1024).filter (fun c => s.present c && c != s.cxid && c != cx)) [1, cx]

/-- Are all links of a neighbour down (R260). Those of a complex of another wall are known here only where that wall has no other complex beside it and no third wall exists (R238; log 62). -/
def State.cutOff (s : State) (cx : Nat) : Bool :=
  if cxWall cx = cxWall s.cxid then (List.range 16).all (fun p => !s.portUsed cx p || !s.linkUp cx p)
  else
    (List.range 64).all (fun k => cxWall cx * 64 + k == cx || !s.cxExists (cxWall cx * 64 + k)) &&
      (List.range 16).all (fun w => w == cxWall cx || w == cxWall s.cxid || bits (s.fld F.FAB_SYS_WALLS) w w == 0) &&
      (List.range 128).all (fun i => !s.flag F.FAB_GLT_V i || s.fld F.FAB_GLT_RCX i != cx || !s.linkUp (mkCx (cxWall s.cxid) (i / 16) (i % 16 / 2)) (14 + i % 2))

/-- R304: with every used port down the complex is isolated: its exchanges stop without status, every Velex port is fenced. -/
def State.isolate (s : State) : State :=
  let used := (List.range 16).filter (fun p => s.portUsed s.cxid p)
  if used.isEmpty || used.any (fun p => s.portUp p) then s else
  let s := { s with chn := { s.chn with exch := [], pdsq := [], ctx := s.chn.ctx.map (fun (p : Nat × VeCtx) => (p.1, if p.2.st == VeSt.parked then p.2 else { p.2 with st := .free })) } }
  let s := (List.range 68).foldl (fun s e => (s.setFld F.VEN_ENG_BUSY 0 e).setFld F.VEN_ENG_EXCH 0 e) (s.setFld F.VLX_STAT_ADOPTED 0)
  s.fencePorts 2

/-- A Felard port goes down (R249, R251, R252): its packets are rerouted, a neighbour with no link left is removed, a complex with none is isolated. -/
def State.linkDown (s : State) (p : Nat) : State :=
  if !s.portUp p then s else
  let nbr := s.fld F.FAB_PSTAT_RCX p
  let s := (s.flt 5 4).linkLost p 0
  (if s.cutOff nbr then s.removeAndTell nbr else s).isolate

/-- Mark a complex present, before discovery completes (R260). -/
def State.seen (s : State) (cx : Nat) : State :=
  let a := F.FAB_PRESENT_PRES.base + cx / 64 * 8
  s.setReg a (putField (s.reg a) (cx % 64) (cx % 64) 1)

/-- LSN (R241, R260): link state of this wall, or a removal. Until discovery completes, a link that comes up marks its complex present, of whichever wall (log 62). -/
def execLsn (ev : LsnEvent) (s : State) : Out := settled s <|
  match ev with
  | .link cx port up =>
    if 1024 ≤ cx || 16 ≤ port then .fault .noSuchUnit else .next <|
    if s.flag F.FLT_FENCE_CXF || cx = s.cxid then s else
    let down := s.fab.down.filter (fun q => q != (cx, port))
    let s := if cxWall cx ≠ cxWall s.cxid then s else { s with fab := { s.fab with down := if up then down else down ++ [(cx, port)] } }
    if up && !s.fab.discovered && s.cxExists cx then s.seen cx
    else
      let nbr := (List.range 16).any (fun p => s.portUsed s.cxid p && (s.wire s.cxid p).any (fun q => q.1 == cx))
      if !up && s.fab.discovered && nbr && s.cutOff cx then s.removeAndTell cx else s
  | .removed cx => if 1024 ≤ cx then .fault .noSuchUnit else .next (if s.flag F.FLT_FENCE_CXF then s else s.removeCx cx)

/-- FNOTE (20 R449): counts at group 0, row 2, in the sender's instance. -/
def execFnote (src : Nat) (spec : BitVec 96) (s : State) : Out := settled s <| fromCx src (.next (if s.hears src then s.flt 0 2 src none (spec.extractLsb' 32 64) else s))

/-! Link control (R248 to R251) -/

/-- Does a control flit of this type arrive whole (Table FAB-6); a bad CRC is counted and the flit discarded. -/
def State.ctlIn (s : State) (port ctype : Nat) (flit : BitVec 256) (f : State → State) : Out :=
  if 16 ≤ port then .fault .noSuchUnit else .next <|
  if s.flag F.FLT_FENCE_CXF || !s.portUp port then s
  else if fieldOf flit 31 0 ≠ (crcIscsi ((toBytes 32 flit.toNat).take 28)).toNat then s.fcrc port
  else if fieldOf flit 255 248 ≠ ctype then s else f s

/-- Take the cumulative credit returns of a control flit (Table FAB-6): each lane gains what its 4-bit value has risen by (log 30). -/
def FPort.credit (x : FPort) (flit : BitVec 256) : FPort :=
  (List.range 45).foldl (fun x l =>
    let n := fieldOf flit (239 - 4 * l) (236 - 4 * l)
    let more := (n + 16 - x.granted.get 0 l) % 16
    if more = 0 then x else { x with granted := x.granted.set 0 l n, credits := x.credits.upd 0 l (fun k => k + more) }) x

/-- FELARD_ACK: replay entries are freed, credits returned per virtual lane. -/
def execFelardAck (port : Nat) (flit : BitVec 256) (s : State) : Out := settled s <|
  s.ctlIn port 1 flit fun s =>
    ((s.setFport port ((s.fport port).credit flit)).flack port (BitVec.ofNat 8 (fieldOf flit 247 240))).fflush port

/-- FELARD_NAK: resend from SEQ on; what lies before it has been received. -/
def execFelardNak (port : Nat) (flit : BitVec 256) (s : State) : Out := settled s <|
  s.ctlIn port 2 flit fun s =>
    let seq : BitVec 8 := BitVec.ofNat 8 (fieldOf flit 247 240)
    (s.flack port (seq - 1)).fresend port seq

/-- FELARD_FENCE (R260): the neighbour has fenced itself and is removed. -/
def execFelardFence (port : Nat) (flit : BitVec 256) (s : State) : Out := settled s <|
  s.ctlIn port 3 flit fun s =>
    let n := s.fld F.FAB_PSTAT_RCX port
    (s.removeAndTell n).linkLost port 6

/-- FELARD_PAUSE (R250): no new packets until the lane is spared. -/
def execFelardPause (port : Nat) (flit : BitVec 256) (s : State) : Out := settled s <|
  s.ctlIn port 4 flit fun s => s.setFport port { s.fport port with paused := true }

/-- LINK_RETRAIN (R249): after 8 resends without acknowledgement; the buffer is kept; the third failure in succession takes the link down. -/
def execLinkRetrain (port : Nat) (ok : Bool) (s : State) : Out := settled s <|
  if 16 ≤ port then .fault .noSuchUnit else .next <|
  let x := s.fport port
  if !s.portUp port || (x.resends < 8 && x.retrainFails = 0) then s else
  let s := (s.count F.FAB_PERR_RETRAIN (some F.FAB_PERR_TOVF) port).flt 5 1 port
  if ok then
    let s := s.setFport port { x with resends := 0, retrainFails := 0 }
    match x.replay with
    | k :: _ => s.fresend port k.lseq
    | [] => s
  else if 2 ≤ x.retrainFails then s.linkDown port
  else s.setFport port { x with retrainFails := x.retrainFails + 1 }

/-- FELARD_LANE_SPARING (R250, R251): lanes 0 to 3, and 4 for the spare lane. -/
def execFelardLaneSparing (port lane : Nat) (s : State) : Out := settled s <|
  if 16 ≤ port || 5 ≤ lane then .fault .noSuchUnit else .next <|
  let x := s.fport port
  if !s.portUp port || x.badLanes.contains lane then s else
  let bad := x.badLanes ++ [lane]
  let resume := fun (s : State) =>
    match (s.fport port).replay with
    | k :: _ => (s.fresend port k.lseq).fflush port
    | [] => s.fflush port
  let s := s.setFport port { x with badLanes := bad, paused := false }
  if lane = 4 && bad.length = 1 then s
  else if bad.length = 1 then
    resume (((((s.ctlFlit port 4 0).setFlag F.FAB_PSTAT_SPUSED true port).setFld F.FAB_PSTAT_SPLANE lane port).consume 5).flt 5 2 (port * 8 + lane))
  else if bad.length ≤ 3 then
    resume (if s.fld F.FAB_PSTAT_STATE port = 3 then s else (s.setFld F.FAB_PSTAT_STATE 3 port).flt 5 3)
  else s.linkDown port

/-! Discovery (R259, R260; 19 R426) -/

/-- The complexes that an LSN of this complex's links goes to: its wall; until discovery completes, every complex (R241, R260; log 62). -/
def State.lsnTo (s : State) : List Nat := if s.fab.discovered then s.wallMates else (List.range 1024).filter (fun c => s.cxExists c && c != s.cxid)

/-- A link refused at DISC (R259): its STATE shows why, and the wall is told that it is not up. -/
def State.refuseLink (s : State) (p state : Nat) : State := (if s.portUp p then s.linkLost p state else s.setFld F.FAB_PSTAT_STATE state p).flood s.wallMates [0, s.cxid, p, 0]

/-- DISC: a port that trains, or the load link of a forwarded position, meets its neighbour; wiring and digest are checked, the digest of a load link not before the Felard step (R259; 19 R425). A link that comes up grants its lanes' credits. -/
def execDisc (port nbr nport : Nat) (digest : BitVec 32) (glt : BitVec 64) (s : State) : Out := settled s <|
  if 16 ≤ port || 1024 ≤ nbr || 16 ≤ nport then .fault .noSuchUnit else .next <|
  let load := (s.fport port).loadOnly
  if s.fld F.FAB_PSTAT_STATE port ≠ 1 && !(load && s.portUp port) then s else
  let s := (s.setFld F.FAB_PSTAT_RCX nbr port).setFld F.FAB_PSTAT_RPORT nport port
  let back := port < 14 || (fieldOf glt 63 63 == 1 && fieldOf glt 9 0 == s.cxid && 14 + fieldOf glt 10 10 == port)
  let early := load && decide (s.fld F.BOO_STAT_STEP < 11)
  if s.wire s.cxid port ≠ some (nbr, nport) || !back then (s.refuseLink port 4).flt 5 9
  else if digest.toNat ≠ s.fld F.FAB_DIGEST_DIGEST && !early then (s.refuseLink port 5).flt 5 10
  else
    let s := (s.setFport port { s.fport port with loadOnly := early }).setFld F.FAB_PSTAT_STATE 2 port
    let s := s.ctlFlit port 1 ((s.fport port).rxSeq - 1).toNat
    (if s.fab.discovered then s else s.seen nbr).flood s.lsnTo [0, s.cxid, port, 1]

/-- The majority check (R259): more than half of the trained neighbours hold another digest. -/
def State.minority (s : State) : Bool :=
  let st := (List.range 16).map (fun p => s.fld F.FAB_PSTAT_STATE p)
  let bad := (st.filter (fun x => x == 5)).length
  decide ((st.filter (fun x => x == 2 || x == 3 || x == 5)).length < 2 * bad)

/-- DISCOVERY_COMPLETE: the vector holds; the majority check; buddies compare names (19 R426). `buddyNames`: the complex that the buddy names, if it answers. -/
def execDiscoveryComplete (buddyNames : Option Nat) (s : State) : Out := settled s <|
  .next <|
    if s.fab.discovered || s.flag F.FLT_FENCE_CXF then s else
    let s := (s.seen s.cxid)
    let s := { s with fab := { s.fab with discovered := true } }
    let s := if s.fld F.BOO_STAT_STEP = 11 then s.setFld F.BOO_STAT_STEP 12 else s
    if s.minority then ((s.fence 0x5A 0).setFld F.BOO_STAT_STEP 11).setFld F.BOO_STAT_CAUSE 0x70 else
    if !s.flag F.VLX_BUDDY_BV then s
    else if !s.present (s.fld F.VLX_BUDDY_BCX) then s.setFld F.VLX_STAT_BST 2
    else if buddyNames = some s.cxid then s.setFld F.VLX_STAT_BST 1
    else (s.setFlag F.VLX_BUDDY_BV false).flt 14 3

/-! Time base (R262 to R265) -/

/-- The acting master. -/
def State.isMaster (s : State) : Bool := s.fab.master == some s.cxid

/-- TSREQ: answered with TSRSP. -/
def execTsreq (src : Nat) (t1 : BitVec 64) (s : State) : Out := settled s <|
  fromCx src (.next (if s.hears src then s.send .fab src 0x43 [t1.toNat, s.fab.tb.toNat, s.fab.tb.toNat] else s))

/-- The offset: the mean of the two one-way differences, rounded down; positive when the parent is ahead (log 34). -/
def tsOffset (t1 t2 t3 t4 : BitVec 64) : Int := ((t2 - t1).toInt + (t3 - t4).toInt) / 2

/-- Steer the time base toward zero offset, within 500 ppm (R263); by how much is open (log 34). -/
def State.steer (s : State) (o : Int) : State :=
  let p := s.free
  let m : Int := (p.2.toNat % 501 : Nat)
  { p.1 with fab := { p.1.fab with rate := if o = 0 then 0 else if o < 0 then -m else m } }

/-- TSRSP from the parent: OFFSET and SYNC; at the first exchange the time base steps to the parent's, never back; later ones steer its rate (R262, R263; log 34). -/
def execTsrsp (src : Nat) (t1 t2 t3 t4 : BitVec 64) (s : State) : Out := settled s <|
  fromCx src <| .next <|
    if !s.hears src || s.isMaster || s.fld F.FAB_TBSTAT_PARENT ≠ src then s else
    let o := tsOffset t1 t2 t3 t4
    let s := if s.fab.firstExch then s.steer o else s.reach (s.fab.tb.toNat + o.toNat)
    let sync := decide (o.natAbs ≤ 102)
    let s := { s with fab := { s.fab with firstExch := true, missed := 0, synced := s.fab.synced || sync } }
    ((s.setFld F.FAB_TBSTAT_OFFSET (BitVec.ofInt 32 o).toNat).setFlag F.FAB_TBSTAT_SYNC sync).setFlag F.FAB_TBSTAT_HOLD false

/-- TIME_SYNC_INTERVAL (R263): TSREQ to the first hop of the route to the master. The master itself is synchronised (log 34). -/
def execTimeSyncInterval (s : State) : Out := settled s <|
  .next <|
    if s.flag F.FLT_FENCE_CXF then s else
    match s.fab.master with
    | none => s
    | some m =>
      if m = s.cxid then
        ({ s with fab := { s.fab with synced := true } }.setFlag F.FAB_TBSTAT_MASTER true).setFlag F.FAB_TBSTAT_SYNC true
      else
        let s := { s with fab := { s.fab with missed := s.fab.missed + 1 } }
        match s.route m with
        | none => s
        | some p =>
          let n := s.fld F.FAB_PSTAT_RCX p
          ((s.setFld F.FAB_TBSTAT_PARENT n).setFld F.FAB_TBSTAT_PORT p).send .fab n 0x42 [s.fab.tb.toNat]

/-- TIME_HOLDOVER (R265): no TSRSP for 4 intervals; the time base runs on at its last rate. -/
def execTimeHoldover (s : State) : Out := settled s <|
  .next <| if s.isMaster || s.fab.missed < 4 || s.flag F.FAB_TBSTAT_HOLD then s else (s.setFlag F.FAB_TBSTAT_HOLD true).flt 5 7

/-- A write of FAB_TBSET: only on the acting master before its first SYNC (R263). -/
def State.tbSet (s : State) (src : Src) (v : W64) : State :=
  if s.isMaster && !s.fab.synced then { s with fab := { s.fab with tb := v } } else s.cfgErr src F.FAB_TBSET_VALUE.base

/-- FAB_TBSET. -/
def execFabTbset (src : Src) (v : BitVec 64) (s : State) : Out := settled s <| .next (s.tbSet src v)

/-! Signals and TLB maintenance (R247; 05 R131; 03 R87) -/

/-- SIG: delivered to the logical core, answered with its condition code. -/
def execSig (src rlc lc : Nat) (pid : Nat) (restart : Bool) (s : State) : Out := settled s <|
  fromCx src <| .next <|
    if !s.hears src then s else
    let p := s.signal lc pid restart
    p.1.send .fab src 0x49 [rlc, p.2.toNat]

/-- SIGRSP: the waiting SIGC or RSTC gets its condition code. -/
def execSigrsp (lc : Nat) (cc : BitVec 2) (s : State) : Out := settled s <|
  if 48 ≤ lc then .fault .noSuchUnit else .next <|
  match (s.core lc).wait with
  | .signal _ => if s.flag F.FLT_FENCE_CXF then s else s.updCore lc (fun c => { c with wait := .ccGot cc })
  | _ => s

/-- TLBI: the matching entries of every core go; acknowledged once no access that used one is left (05 R131). -/
def execTlbi (src rlc : Nat) (kind : TlbKind) (pid : Nat) (va : BitVec 64) (s : State) : Out := settled s <|
  fromCx src (.next (if s.hears src then (let t := s.tlbLocal src rlc kind (BitVec.ofNat 8 pid) va
    if t.tlbBusy src rlc then t else t.send .fab src 0x4B [rlc]) else s))

/-- TLBIACK: one acknowledgement of a TLB operation is in. -/
def execTlbiack (src lc : Nat) (s : State) : Out := settled s <|
  if 48 ≤ lc then .fault .noSuchUnit else fromCx src <| .next <|
  match (s.core lc).wait with
  | .tlbAcks l => if s.hears src then s.updCore lc (fun c => { c with wait := .tlbAcks (l.filter (fun x => x != src)) }) else s
  | _ => s

/-! Arrival and the tick -/

/-- The message of a packet that has reached its destination takes effect; FNOTE and the journal's entries are read here too (Table FAB-5; 12 R297). -/
def State.arriveAll (h : BitVec 256) (data : Option Line) (s : State) : Out :=
  let entry : BitVec 512 := BitVec.ofNat 512 ((data.getD 0).toNat / 2 ^ 1536)
  match hdrType h with
  | 0x41 => execFnote (hdrSrc h) (h.extractLsb' 32 96) s
  | 0x50 => execJwr (hdrSrc h) entry s
  | 0x54 => execJhnd (hdrSrc h) entry s
  | _ => s.arrive h data

/-- PACKET_TRANSIT (R245, R249, R239 to R242): a packet arrives whole and is checked; it is forwarded with one hop more, or, at its destination, its message takes effect. A type that no table lists is discarded (R212), with the receiving port in DETAIL. -/
def execPacketTransit (port : Nat) (hdr : BitVec 256) (data : Option (BitVec 2048)) (s : State) : Out := settled s <|
  if 16 ≤ port then .fault .noSuchUnit else
  if s.flag F.FLT_FENCE_CXF || !s.portUp port || (fieldOf hdr 242 242 == 1) != data.isSome then .next s else
  let x := s.fport port
  if fieldOf hdr 31 0 ≠ pktCrc hdr data then .next ((s.fcrc port).ctlFlit port 2 x.rxSeq.toNat)
  else
    let seq : BitVec 8 := BitVec.ofNat 8 (fieldOf hdr 143 136)
    let s := s.flack port (BitVec.ofNat 8 (fieldOf hdr 135 128))
    let x := s.fport port
    if seq ≠ x.rxSeq then .next (if (seq - x.rxSeq).toNat < 128 then s.ctlFlit port 2 x.rxSeq.toNat else s.ctlFlit port 1 (x.rxSeq - 1).toNat)
    else
      let s := s.frecv port hdr
      if !typeOk (hdrType hdr) then .next (s.flt 4 8 0 none (BitVec.ofNat 64 port))
      else if hdrDst hdr = s.cxid then s.arriveAll hdr data
      else .next (s.forward (putField hdr 245 243 (hdrVl hdr + 1)) data)

/-- The time base counts, at its steered rate (R262, R263). -/
def State.tbTick (s : State) : State :=
  let n := ((s.fab.frac : Int) + 1000000 + s.fab.rate).toNat
  { s with fab := { s.fab with tb := s.fab.tb + BitVec.ofNat 64 (n / 1000000), frac := n % 1000000 } }

/-- What goes on while no command waits (log 14): the time base counts, a writeback buffer drains (09 R227), the messages put out enter the fabric. A fenced complex writes no memory and sends no packet (11 R281, 20 Table FLT-6); one in reset does nothing. -/
def State.tick (s : State) : State :=
  if s.dead then s else if s.flag F.FLT_FENCE_CXF then s.tbTick else (s.tbTick.wbDrain).launchAll.errPin

end Sys2Proof.Machine
end

