-- ==== Sys2Proof/Machine/Sha.lean ====
section
/-! DEFINITION. SHA-384 (FIPS 180-4), which 17 R385 and 19 R423 name. -/

namespace Sys2Proof.Machine

/-- The first 80 primes, whose cube roots give the round constants, and whose square roots the initial value. -/
def sieve : Nat → List Nat → Nat → List Nat
  | 0, l, _ => l
  | n + 1, l, k => sieve n (if l.any (fun p => k % p == 0) then l else l ++ [k]) (k + 1)

def primes80 : List Nat := sieve 409 [] 2

/-- The largest r with r^e ≤ x, by bisection from the top bit. -/
def nroot (e x : Nat) : Nat → Nat → Nat
  | 0, r => r
  | b + 1, r => nroot e x b (if (r + 2 ^ b) ^ e ≤ x then r + 2 ^ b else r)

/-- The first 64 bits of the fraction of a root. -/
def rootFrac (e p : Nat) : W64 := BitVec.ofNat 64 (nroot e (p * 2 ^ (64 * e)) 70 0)

def shaK : List W64 := primes80.map (rootFrac 3)

/-- The initial value of SHA-384: square roots of the ninth to sixteenth primes. -/
def shaInit : List W64 := ((primes80.drop 8).take 8).map (rootFrac 2)

/-- The message schedule, the latest word first. -/
def shaSched : Nat → List W64 → List W64
  | 0, l => l
  | n + 1, l =>
    let w15 := l.getD 14 0
    let w2 := l.getD 1 0
    let s0 := w15.rotateRight 1 ^^^ w15.rotateRight 8 ^^^ (w15 >>> 7)
    let s1 := w2.rotateRight 19 ^^^ w2.rotateRight 61 ^^^ (w2 >>> 6)
    shaSched n ((l.getD 15 0 + s0 + l.getD 6 0 + s1) :: l)

/-- One round on the eight working words. -/
def shaRound (v : List W64) (k w : W64) : List W64 :=
  let g := fun i => v.getD i 0
  let s1 := (g 4).rotateRight 14 ^^^ (g 4).rotateRight 18 ^^^ (g 4).rotateRight 41
  let ch := (g 4 &&& g 5) ^^^ (~~~(g 4) &&& g 6)
  let t1 := g 7 + s1 + ch + k + w
  let s0 := (g 0).rotateRight 28 ^^^ (g 0).rotateRight 34 ^^^ (g 0).rotateRight 39
  let maj := (g 0 &&& g 1) ^^^ (g 0 &&& g 2) ^^^ (g 1 &&& g 2)
  [t1 + s0 + maj, g 0, g 1, g 2, g 3 + t1, g 4, g 5, g 6]

/-- One 128-byte block. -/
def shaBlock (h : List W64) (b : List Byte) : List W64 :=
  let w0 := (List.range 16).map (fun i => BitVec.ofNat 64 (ofBytes ((b.drop (8 * i)).take 8)))
  let ws := (shaSched 64 w0.reverse).reverse
  List.zipWith (· + ·) h ((List.zip shaK ws).foldl (fun v p => shaRound v p.1 p.2) h)

def shaBlocks : Nat → List W64 → List Byte → List W64
  | 0, h, _ => h
  | n + 1, h, l => shaBlocks n (shaBlock h (l.take 128)) (l.drop 128)

/-- SHA-384 of a byte string. -/
def sha384 (m : List Byte) : BitVec 384 :=
  let pad := (111 + 128 - m.length % 128) % 128
  let l := m ++ [0x80] ++ List.replicate pad 0 ++ bytesOf 16 (8 * m.length)
  BitVec.ofNat 384 (((shaBlocks (l.length / 128) shaInit l).take 6).foldl (fun a w => a * 2 ^ 64 + w.toNat) 0)

end Sys2Proof.Machine
end

