-- ==== Sys2Proof/Machine/Walls.lean ====
section
/-! DEFINITION. The compression engines (15) and cipher walls (16) outside the requests that use them: records, stripes, key caches, lost contexts, failures and spares. -/

namespace Sys2Proof.Machine

/-! Compression engines -/

/-- The exchange whose WRITE an engine compresses: by its stream handle, or, above 65535, by its key (its command then uses the ORB's ZLIB selection). -/
def State.zExchange (s : State) (z handle : Nat) : Option (Exch × PdsDesc) :=
  (s.chn.exch.findSome? (fun p =>
    match p.2.cur with
    | some d => if d.writes && d.cmp && p.2.sent && s.portEngine p.2.vp == some z && (if handle < 65535 then d.zh.toNat == handle else d.zh == 0xFFFF && p.1 == handle - 65536) then some (p.2, d) else none
    | none => none))

/-- ZE_RECORD_COMPLETE (15 R351, R352): a port engine closes the next record of a WRITE with CMP and emits it, compressed or RAW. The records of a core's request are made in its units (R358). -/
def execZeRecordComplete (z handle : Nat) (rc : ZRecord) (s : State) : Out := settled s <|
  if 22 ≤ z then .fault .noSuchUnit else .next <|
  match s.zExchange z handle with
  | none => s
  | some (x, d) =>
    let s0 := s
    match s.cmdPlaces x d with
    | .ok s (some ps) =>
      match s.readAt (s.pdsAgent x) ps with
      | .ok s l =>
        let orig := (l.drop x.got).take 65536
        let last := decide (l.length ≤ x.got + 65536)
        if rc.orig ≠ orig || rc.last ≠ last || (x.got = l.length && x.got ≠ 0) then s else
        let w := writeRecord (chunks 65536 (x.got / 65536) (l.take x.got)) (s.cmdZlib x d) last orig
        let s := if w.2 then s.count F.ZIP_CNT_RAWREC (some F.ZIP_CNT_ROVF) z else s
        let y := { x with got := x.got + orig.length, buf := x.buf ++ w.1 }
        let s := s.setEx y
        if last then s.sendOut y d else s
      | .bad s f => s.cmdFail x f d.count.toNat
      | .wait s => s.keep s0 (8192 + x.key)
    | .ok s none => s.cmdFail x 0x10 d.count.toNat
    | .bad s f => s.cmdFail x f d.count.toNat
    | .wait s => s.keep s0 (8192 + x.key)

/-- A core waits for a unit of the block. -/
def State.unitBusy (s : State) (key : Nat) : Bool := s.cores.any (fun p => match p.2.wait with | .unit _ k => k == key | _ => false)

/-- STREAM_CONTEXT_TIMEOUT (R357): 1 ms without a unit. -/
def execStreamContextTimeout (addr pid : Nat) (s : State) : Out := settled s <|
  .next (if s.unitBusy (addr * 256 + pid) then s else s.zFree (addr * 256 + pid))

/-- Restart the commands of a port that use compression or the cipher (12 R307). -/
def State.restartCmds (s : State) (v : Nat) (uses : PdsDesc → Bool) : State :=
  (s.exOn v).foldl (fun s k =>
    match s.chn.exch.find k with
    | some x => (match x.cur with | some d => if uses d && !x.ipl then s.restartOn x v else s | none => s)
    | none => s) s

/-- Open stream contexts of an engine are lost; the handles of its port are bound to the engine that serves the port now. -/
def State.zLost (s : State) (z : Nat) (now : Option Nat) : State :=
  let keys := (s.chn.zctx.filter (fun p => p.2.eng == z)).map (·.1)
  let s := keys.foldl (fun s k => s.zFree k) s
  let n := (s.chn.handles.filter (fun p => p.2.kind == 0 && p.2.slot == z)).length
  let s := { s with chn := { s.chn with handles := s.chn.handles.map (fun (p : Nat × Handle) => (p.1, if p.2.kind == 0 && p.2.slot == z then { p.2 with slot := now.getD 22 } else p.2)) } }
  let s := s.setFld F.ZIP_ENG_STREAMS 0 z
  match now with
  | some y => s.setFld F.ZIP_ENG_STREAMS n y
  | none => s

/-- An engine takes the role of another. -/
def State.zRole (s : State) (to_ from_ : Nat) : State :=
  let pool := s.flag F.ZIP_ENG_POOL from_
  ((s.setFld F.ZIP_ENG_ROLE 0 to_).setFlag F.ZIP_ENG_POOL pool to_).setFld F.ZIP_ENG_PORT (if pool then 0 else s.fld F.ZIP_ENG_PORT from_) to_

/-- ZIP_POOL.ENGS. -/
def State.zPool (s : State) : State := s.setFld F.ZIP_POOL_ENGS s.poolEngines.length

/-- A compression engine fails (R349): the lowest-numbered spare, then for a port the highest-numbered pool engine, then none. -/
def State.zeFail (s : State) (z : Nat) : State :=
  let role := s.fld F.ZIP_ENG_ROLE z
  if role == 2 then s else
  let s := s.setFld F.ZIP_ENG_ROLE 2 z
  let s := { s with svc := { s.svc with sparePend := s.svc.sparePend.filter (fun p => !(p.2 == z && p.1 == 0xA0)) } }
  if role == 1 then s.consume 9 else
  let pool := s.flag F.ZIP_ENG_POOL z
  let v := s.fld F.ZIP_ENG_PORT z
  match (List.range 22).find? (fun y => s.fld F.ZIP_ENG_ROLE y == 1) with
  | some y =>
    let s := (((s.zRole y z).zLost z (if pool then none else some y)).consume 9).flt 10 2 z
    if pool then s else s.restartCmds v (fun d => d.cmp || d.dcmp)
  | none =>
    if pool then (s.zLost z none).zPool
    else
      match s.poolEngines.getLast? with
      | some y =>
        let s := (((s.zLost y none).zRole y z).zPool).zLost z (some y)
        ((s.flt 10 3 z).restartCmds v (fun d => d.cmp || d.dcmp))
      | none => ((s.zLost z none).flt 10 4 v).restartCmds v (fun d => d.cmp || d.dcmp)

def execZeEngineFailure (z : Nat) (s : State) : Out := settled s <| if 22 ≤ z then .fault .noSuchUnit else .next (s.zeFail z)

/-! Bricks (16 R359, R371) -/

/-- Does a brick work: 0 to 255 from the start, a spare once it is put in. -/
def Wall.brickOn (x : Wall) (b : Nat) : Bool := !x.retired.contains b && (decide (b < 256) || x.active.contains b)

/-- Spares left. -/
def Wall.spares (x : Wall) : List Nat := (List.range 272).filter (fun b => decide (256 ≤ b) && !x.retired.contains b && !x.active.contains b)

/-- ACTIVE, SPARES and KVALID. -/
def State.wallRegs (s : State) (w : Nat) : State :=
  let x := s.wall w
  let on := ((List.range 272).filter x.brickOn).length
  ((s.setFld F.CIP_WALL_ACTIVE on w).setFld F.CIP_WALL_SPARES x.spares.length w).setFld F.CIP_WALL_KVALID x.cache.length w

/-- The mark of a segment. -/
def Seg.mark (g : Seg) : Nat := segMark g.port g.exid.toNat g.handle

/-- Change the segment with a mark. -/
def State.updSeg (s : State) (w mark : Nat) (f : Seg → Seg) : State :=
  let x := s.wall w
  s.setWall w { x with segs := x.segs.map (fun g => if g.mark == mark then f g else g) }

/-- A brick is retired: its stripe is done again elsewhere, the lowest-numbered spare takes its place. -/
def State.brickRetire (s : State) (w b : Nat) : State :=
  let x := s.wall w
  if x.retired.contains b then s else
  let s := { s with svc := { s.svc with sparePend := s.svc.sparePend.filter (fun p => !(p.1 == 0xB0 && p.2 == 272 * w + b)) } }
  let s := match x.busy.find b with
    | some m => s.updSeg w m (fun g => { g with redo := g.redo + 1 })
    | none => s
  let on := x.brickOn b
  let x := { s.wall w with retired := insertNat b x.retired, active := x.active.filter (fun n => n != b), busy := x.busy.del b }
  if !on then ((s.setWall w x).wallRegs w).consume 8 else
  match x.spares with
  | y :: _ => ((((s.setWall w { x with active := insertNat y x.active }).wallRegs w).consume 8).flt 11 2 (272 * w + b))
  | [] =>
    let s := ((s.setWall w x).wallRegs w).flt 11 3 w
    if s.fld F.CIP_WALL_ACTIVE w == 186 then s.flt 11 6 w else s

/-- Retire the bricks that the fault collector asks to spare (20 R437). -/
def State.wallRetire (s : State) (w : Nat) : State :=
  (s.svc.sparePend.filter (fun p => p.1 == 0xB0 && p.2 / 272 == w)).foldl (fun s p => s.brickRetire w (p.2 % 272)) s

/-! Stripes (R360, R361, R365) -/

/-- Does a segment have a stripe to assign. -/
def Seg.waits (g : Seg) : Bool := !g.refused && (decide (g.assigned < g.stripes) || decide (0 < g.redo))

/-- The segment that gets the next stripe: port segments in order; every eighth assignment goes to the oldest core request while one waits. -/
def Wall.pick (x : Wall) : Option Seg :=
  let p := x.segs.find? (fun g => g.port && g.waits)
  let c := x.segs.find? (fun g => !g.port && g.waits)
  match p, c with
  | some p, some c => some (if x.turn = 7 then c else p)
  | some p, none => some p
  | none, c => c

/-- The wall runs: neither failed nor gated. -/
def State.wallRuns (s : State) (w : Nat) : Bool := s.wallUp w && s.svc.blk.get .run w == .run

/-- STRIPE_ASSIGN: the lowest-numbered free brick takes the next stripe; the first stripe of a segment waits for its slot in the key cache, and checks it. -/
def execStripeAssign (w : Nat) (s : State) : Out := settled s <|
  if 16 ≤ w then .fault .noSuchUnit else .next <|
  let s := s.wallRetire w
  if !s.wallRuns w then s else
  let x := s.wall w
  match x.pick, (List.range 272).find? (fun b => x.brickOn b && !x.busy.has b) with
  | some g, some b =>
    if !g.checked && !x.cache.contains g.slot then s else
    let both := x.segs.any (fun g => g.port && g.waits) && x.segs.any (fun g => !g.port && g.waits)
    let s := s.setWall w { x with turn := if both then (x.turn + 1) % 8 else x.turn }
    let key := if g.checked then some g.key else s.slotKey g.slot g.pid.toNat g.mode g.dec
    match key with
    | none =>
      let s := s.updSeg w g.mark (fun g => { g with checked := true, refused := true })
      if !g.port then s else
        match s.exOf g.exid with
        | some x => (match x.cur with | some d => s.cmdBad x d 0x15 | none => s)
        | none => s
    | some k =>
      let s := s.updSeg w g.mark (fun g => { g with checked := true, key := k, assigned := if g.redo = 0 then g.assigned + 1 else g.assigned, redo := g.redo - 1 })
      let x := s.wall w
      s.setWall w { x with busy := x.busy.put b g.mark }
  | _, _ => s

/-- STRIPE_COMPLETE: the brick clears its state; a check error abandons the stripe, which is assigned again (R371). The last stripe ends the segment, and with the last segment the command's data goes on. -/
def execStripeComplete (w brick : Nat) (checkErr : Bool) (s : State) : Out := settled s <|
  if 16 ≤ w || 272 ≤ brick then .fault .noSuchUnit else .next <|
  let x := s.wall w
  match x.busy.find brick with
  | none => s
  | some m =>
    let s := s.setWall w { x with busy := x.busy.del brick, stripes := if checkErr then x.stripes else x.stripes.upd 0 brick (fun n => n + 1) }
    if checkErr then ((s.updSeg w m (fun g => { g with redo := g.redo + 1 })).flt 11 0 (272 * w + brick)).wallRetire w
    else
      let s := s.updSeg w m (fun g => { g with done := g.done + 1 })
      match (s.wall w).segs.find? (fun g => g.mark == m) with
      | none => s
      | some g =>
        if !g.port || g.done < g.stripes then s else
        match s.exOf g.exid with
        | none => s
        | some x =>
          match x.cur with
          | none => s
          | some d => if d.writes then s.sendOut x d else s.readIn x d

/-- KNOWN_ANSWER_TEST (R371): an idle brick, after every 65,536 stripes; one that fails is retired. -/
def execKnownAnswerTest (w brick : Nat) (ok : Bool) (s : State) : Out := settled s <|
  if 16 ≤ w || 272 ≤ brick then .fault .noSuchUnit else .next <|
  let x := s.wall w
  if !x.brickOn brick || x.busy.has brick || x.stripes.get 0 brick < 65536 then s else
  let s := s.setWall w { x with stripes := x.stripes.del brick }
  if ok then s else (s.flt 11 1).brickRetire w brick

/-! Key caches (R366) -/

/-- The array number of a wall's key-cache LFSR, in the model's own numbering (log 6). -/
def wallArray (w : Nat) : Nat := 0x300 + w

/-- KEY_CACHE_FILL: a slot that a waiting segment needs is fetched; the victim of a full cache, by the rule of 08 R190, is not in use by a running segment. -/
def execKeyCacheFill (w slot : Nat) (s : State) : Out := settled s <|
  if 16 ≤ w || 16384 ≤ slot then .fault .noSuchUnit else .next <|
  let x := s.wall w
  if !s.wallRuns w || x.cache.contains slot || !x.segs.any (fun g => g.slot == slot && !g.checked) then s else
  let used := fun (k : Nat) => x.segs.any (fun g => g.slot == k && g.checked && !g.refused && decide (g.done < g.stripes))
  let put := fun (s : State) (x : Wall) => ((s.setWall w x).wallRegs w).count F.CIP_CNT_KMISS (some F.CIP_CNT_KOVF) w
  if x.cache.length < 16 then put s { x with cache := x.cache ++ [slot] }
  else
    let free := x.cache.filter (fun k => !used k)
    if free.isEmpty then s else
      let l := lfsrStep (s.mem.lfsrOf (wallArray w))
      let victim := free.getD (l.toNat * free.length / 65536) 0
      put (s.updMem (fun m => { m with lfsr := m.lfsr.put (wallArray w) l })) { x with cache := x.cache.map (fun k => if k = victim then slot else k) }

/-- Invalidate a slot in every wall's cache (R366). -/
def State.slotInval (s : State) (slot : Nat) : State :=
  (List.range 16).foldl (fun s w =>
    let x := s.wall w
    if x.cache.contains slot then (s.setWall w { x with cache := x.cache.filter (fun k => k != slot) }).wallRegs w else s) s

/-- Zero a wall's secret state: its key cache and its bricks (17 R387); stripes that were running are done again. -/
def State.wallScrub (s : State) (w : Nat) : State :=
  let x := s.wall w
  let s := x.busy.foldl (fun s p => s.updSeg w p.2 (fun g => { g with redo := g.redo + 1 })) s
  (s.setWall w { s.wall w with cache := [], busy := [] }).wallRegs w

/-- CIPH_CONTEXT_TIMEOUT (R370): 1 ms without a unit. -/
def execCiphContextTimeout (addr pid : Nat) (s : State) : Out := settled s <|
  .next (if s.unitBusy (addr * 256 + pid) then s else s.cFree (addr * 256 + pid))

/-! Wall failure (R372) -/

/-- The wall that takes over for wall `n`: CW((n + k) mod 16) for the smallest k above `k0` that has not failed and serves no second port. -/
def State.nextWall (s : State) (n k0 : Nat) : Option Nat :=
  (List.range 16).find? (fun k => decide (k0 < k) && s.fld F.CIP_WALL_STATE ((n + k) % 16) == 0)

/-- A port moves to a wall. -/
def State.movePort (s : State) (w port : Nat) : State := (s.setFld F.CIP_WALL_STATE 1 w).setFld F.CIP_WALL_ALSO port w

/-- WALL_FAILURE: DETAIL of the fault has a bit for each port that is left without a wall. -/
def execWallFailure (w : Nat) (s : State) : Out := settled s <|
  if 16 ≤ w then .fault .noSuchUnit else .next <|
  if !s.wallUp w then s else
  let second := if s.fld F.CIP_WALL_STATE w == 1 then some (s.fld F.CIP_WALL_ALSO w) else none
  let own := (List.range 16).filter (fun v => s.portWall v == some w && some v != second)
  let ctxs := (s.chn.cctx.filter (fun p => p.2.wall == w)).map (·.1)
  let s := ctxs.foldl (fun s k => s.cFree k) s
  let s := (s.wallScrub w).setFld F.CIP_WALL_STATE 2 w
  let k1 := s.nextWall w 0
  let s := match own, k1 with
    | v :: _, some k => s.movePort ((w + k) % 16) v
    | _, _ => s
  let s := match second with
    | some v => (match s.nextWall w (if own.isEmpty then 0 else k1.getD 15) with | some k => s.movePort ((w + k) % 16) v | none => s)
    | none => s
  let ports := own ++ second.toList
  let lost := (ports.filter (fun v => (s.portWall v).isNone)).foldl (fun n v => n + 2 ^ v) 0
  let s := s.flt 11 7 w none (BitVec.ofNat 64 lost)
  ports.foldl (fun s v => s.restartCmds v (fun d => d.enc || d.dec)) s

end Sys2Proof.Machine
end

