-- ==== Sys2Proof/Machine/Keystone.lean ====
section
/-! DEFINITION. Keystone (17): mailboxes, services, the hold mask, failure and restart. -/

namespace Sys2Proof.Machine

/-! Mailboxes (R374 to R376) -/

/-- Does a mailbox belong to the side of a writer: 0 to 55 to the cores, 56 to 63 to the host. -/
def mbSide (src : Src) (mb : Nat) : Bool := (src == .host) == decide (56 ≤ mb)

/-- KEY_REQ k of a mailbox. -/
def State.mbReq (s : State) (mb k : Nat) : Nat := s.fld F.KEY_REQ_D mb k

/-- Fields of a request: service and tag. -/
def State.mbSvc (s : State) (mb : Nat) : Nat := bits (s.mbReq mb 0) 63 56
def State.mbPid (s : State) (mb : Nat) : Nat := if 56 ≤ mb then 0 else s.fld F.KEY_MBCTL_PID mb

/-- Zero the request, or the reply, of a mailbox. -/
def State.mbZeroReq (s : State) (mb : Nat) : State := (List.range 16).foldl (fun s k => s.setFld F.KEY_REQ_D 0 mb k) s
def State.mbZeroRsp (s : State) (mb : Nat) : State := (List.range 16).foldl (fun s k => s.setFld F.KEY_RSP_D 0 mb k) s

/-- The freeze of the uncore counters (R377): KEY_STAT.FRZ and COR_PMCTL.KFRZ of every core. -/
def State.freeze (s : State) (on : Bool) : State :=
  let put := fun (a : Arch) => a.setSr 0x10 (putField (a.getSr 0x10) 16 16 (b2n on))
  let s := s.setFlag F.KEY_STAT_FRZ on
  (List.range s.nLc).foldl (fun s n => s.updCore n (fun c => { c with arch := put c.arch, ckpt := put c.ckpt })) s

/-- The mailbox in service. -/
def State.mbActive (s : State) : Option Nat := (List.range 64).find? (fun m => s.fld F.KEY_MBSTAT_STATE m == 2)

/-- A mailbox ends with a status (R376): the reply stands, the request is zeroed; a host mailbox sends MSI-X vector 17. -/
def State.mbEnd (s : State) (mb status : Nat) (rsp : List W64 := []) : State :=
  let tag := bits (s.mbReq mb 0) 15 0
  let s := (s.mbZeroReq mb).mbZeroRsp mb
  let s := rsp.zipIdx.foldl (fun s p => s.setFld F.KEY_RSP_D p.1.toNat mb (p.2 + 1)) s
  let s := ((s.setFld F.KEY_RSP_D (status * 2 ^ 56 + tag) mb 0).setFld F.KEY_MBSTAT_STATE 3 mb).setFld F.KEY_MBSTAT_STATUS status mb
  if 56 ≤ mb then s.msix 17 else s

/-! Hold mask (R386 to R389) -/

def State.held? (s : State) (b : Nat) : Bool := bits (s.fld F.KEY_HOLD_HOLD) b b == 1
def State.setHold (s : State) (b : Nat) (on : Bool) : State := s.setFld F.KEY_HOLD_HOLD (putBits (s.fld F.KEY_HOLD_HOLD) b b (b2n on))

/-- An explicit request on a block is open: proceeding or deferred. -/
def State.reqOn (s : State) (b : Nat) : Bool := (s.fld F.CLK_REQ_STATE == 1 || s.fld F.CLK_REQ_STATE == 2) && s.svc.reqTgt == b
def State.deferred (s : State) (b : Nat) : Bool := s.fld F.CLK_REQ_STATE == 2 && s.svc.reqTgt == b

/-- Keystone holds a block; refused while a request on it is open (R389). -/
def State.hold (s : State) (b : Nat) : State := if s.reqOn b then s else s.setHold b true

/-- The secret state of the mailbox array: every request and reply is zeroed, mailboxes that are not IDLE end with STATUS 0x09. -/
def State.mbScrub (s : State) : State :=
  let s := (List.range 64).foldl (fun s m => if s.fld F.KEY_MBSTAT_STATE m == 0 then (s.mbZeroReq m).mbZeroRsp m else s.mbEnd m 9) s
  if s.flag F.KEY_STAT_FRZ then s.freeze false else s

/-- Zero the secret state of a wall or of the mailbox array (R387); other blocks have none. -/
def State.scrub (s : State) (b : Nat) : State := if b < 16 then s.wallScrub b else if b = 16 then s.mbScrub else s

/-- A deferred request on a block goes on: secret state zeroed, then proceeding (Table KEY-5). -/
def State.proceed (s : State) (b : Nat) : State := if s.deferred b then (s.scrub b).setFld F.CLK_REQ_STATE 1 else s

/-- Keystone clears a hold bit. -/
def State.unhold (s : State) (b : Nat) : State := (s.setHold b false).proceed b

/-- The end of a service: its holds are cleared, the freeze ends unless another request waits. -/
def State.svcEnd (s : State) (mb status : Nat) (rsp : List W64 := []) : State :=
  let s := s.mbEnd mb status rsp
  let s := s.updSvc (fun k => { k with kForced := false })
  let s := (List.range 17).foldl (fun s b => if s.held? b then s.unhold b else s) s
  if (List.range 64).any (fun m => s.fld F.KEY_MBSTAT_STATE m == 1) then s else s.freeze false

/-! Register writes -/

/-- A write of KEY_MBCTL: PID and GO, in IDLE only (R375). The PID of a host mailbox is fixed at 0. -/
def State.mbCtl (s : State) (src : Src) (mb : Nat) (v : W64) : State :=
  let off := F.KEY_MBCTL_PID.off mb
  if !mbSide src mb || s.fld F.KEY_MBSTAT_STATE mb ≠ 0 then s.cfgErr src off else
  let s := if 56 ≤ mb then s else s.wrReg src off v
  if fieldOf v 63 63 = 0 then s
  else if s.fld F.KEY_STAT_STATE = 2 then s.mbEnd mb 0x0B
  else s.setFld F.KEY_MBSTAT_STATE 1 mb

/-- A write of KEY_MBSTAT: ACK in REPLY zeroes the reply; in any other state it is ignored (R376). -/
def State.mbAck (s : State) (src : Src) (mb : Nat) (v : W64) : State :=
  if !mbSide src mb then s.cfgErr src (F.KEY_MBSTAT_STATE.off mb)
  else if fieldOf v 61 61 = 0 || s.fld F.KEY_MBSTAT_STATE mb ≠ 3 then s
  else ((s.mbZeroRsp mb).setFld F.KEY_MBSTAT_STATE 0 mb).setFld F.KEY_MBSTAT_STATUS 0 mb

/-- A write of KEY_REQ k. -/
def State.mbReqWrite (s : State) (src : Src) (mb k : Nat) (v : W64) : State :=
  if !mbSide src mb || s.fld F.KEY_MBSTAT_STATE mb ≠ 0 then s.cfgErr src (F.KEY_REQ_D.off mb k) else s.setFld F.KEY_REQ_D v.toNat mb k

/-- MAILBOX_GO: GO with the mailbox's PID as it stands. -/
def execMailboxGo (src : Src) (mb : Nat) (s : State) : Out := settled s <|
  if 64 ≤ mb then .fault .noSuchUnit else .next (if s.dead then s else s.mbCtl src mb (BitVec.ofNat 64 (2 ^ 63 + s.mbPid mb * 256)))

/-- MAILBOX_ACK. -/
def execMailboxAck (src : Src) (mb : Nat) (s : State) : Out := settled s <|
  if 64 ≤ mb then .fault .noSuchUnit else .next (if s.dead then s else s.mbAck src mb (BitVec.ofNat 64 (2 ^ 61)))

/-! Services (R378 to R385) -/

/-- The listed services (Table KEY-1). -/
def svcListed : List Nat := [0x01, 0x02, 0x03, 0x04, 0x05, 0x06, 0x10, 0x20, 0x21, 0x22]

/-- MAILBOX_SERVICE_START (R375, R377): the next PENDING mailbox after the one served last becomes ACTIVE. Keystone then holds the mailbox array, and, for a service on a slot, the walls whose key cache has the slot; which blocks it holds is the model's choice (log 39). An unlisted service ends at once. -/
def execMailboxServiceStart (s : State) : Out := settled s <|
  .next <|
    if s.dead || s.fld F.KEY_STAT_STATE ≠ 1 || s.mbActive.isSome || s.svc.blk.get .run 16 != .run then s else
    match ((List.range 64).map (fun i => (s.svc.krr + 1 + i) % 64)).find? (fun m => s.fld F.KEY_MBSTAT_STATE m == 1) with
    | none => s
    | some m =>
      let s := ((s.setFld F.KEY_MBSTAT_STATE 2 m).setFld F.KEY_STAT_CURMB m).freeze true
      let s := s.updSvc (fun k => { k with krr := m, kForced := false, ktime := s.fab.tb })
      let v := s.mbSvc m
      let s := s.hold 16
      let s := if 2 ≤ v && v ≤ 5 then (List.range 16).foldl (fun s w => if (s.wall w).cache.contains (bits (s.mbReq m 1) 13 0) then s.hold w else s) s else s
      if svcListed.contains v then s else s.svcEnd m 1

/-- Doublewords REQk to REQ15 are zero. -/
def State.mbClear (s : State) (mb k : Nat) : Bool := (List.range 16).all (fun i => decide (i < k) || s.mbReq mb i == 0)

/-- Run a service on a mailbox that is ACTIVE with it: a reserved request gets STATUS 0x01; after a forced release the service ends with 0x09 and changes nothing (R388). -/
def service (mb code : Nat) (s : State) (ok : Bool) (body : State → State) : Out :=
  if 64 ≤ mb then .fault .noSuchUnit else .next <|
  if s.dead || s.fld F.KEY_STAT_STATE ≠ 1 || s.fld F.KEY_MBSTAT_STATE mb ≠ 2 || s.mbSvc mb ≠ code then s
  else if !ok || bits (s.mbReq mb 0) 55 16 ≠ 0 then s.svcEnd mb 1
  else if s.svc.kForced then s.svcEnd mb 9
  else body s

/-- The slot and the mailbox's right to it (R379). -/
def State.mbSlot (s : State) (mb : Nat) : Nat := bits (s.mbReq mb 1) 13 0
def State.keySlot (s : State) (n : Nat) : KSlot := s.chn.keys.get KSlot.reset n
def State.setSlot (s : State) (n : Nat) (k : KSlot) : State := { s with chn := { s.chn with keys := s.chn.keys.put n k } }
def State.mbMay (s : State) (mb : Nat) : Bool := s.mbPid mb == 0 || (s.keySlot (s.mbSlot mb)).pid.toNat == s.mbPid mb

/-- The key length that MODES needs, when all its modes agree (R380). -/
def klenOf (modes : Nat) : Option Nat := if modes = 1 then some 16 else if modes = 2 || modes = 4 || modes = 6 then some 32 else if modes = 8 then some 64 else none

/-- Is an ATTR valid for a slot (R380), and its key length. -/
def attrKlen (slot : KSlot) (a : Nat) : Option Nat :=
  if bits a 15 8 = slot.pid.toNat && bits a 1 0 ≠ 0 then klenOf (bits a 7 4) else none

/-- Fill the attributes of a slot. -/
def KSlot.withAttr (k : KSlot) (a : Nat) : KSlot := { k with modes := BitVec.ofNat 4 (bits a 7 4), enc := bits a 1 1 == 1, dec := bits a 0 0 == 1 }

/-- A reserved bit of an ATTR. -/
def attrRsv (a : Nat) : Bool := bits a 63 16 != 0 || bits a 3 2 != 0

/-- Store a key, left-aligned, with its attributes; the slot leaves every wall's cache (R381). -/
def State.fillSlot (s : State) (n : Nat) (a : Nat) (key : BitVec 512) : State :=
  (s.setSlot n { (s.keySlot n).withAttr a with v := true, key := key }).slotInval n

/-- ASSIGN (R379): PID 0 only, an empty slot only. -/
def execAssign (mb : Nat) (s : State) : Out := settled s <|
  let r := s.mbReq mb 1
  service mb 1 s (s.mbClear mb 2 && bits r 63 24 == 0 && bits r 15 14 == 0 && bits r 23 16 != 255) fun s =>
    let k := s.keySlot (s.mbSlot mb)
    if s.mbPid mb ≠ 0 then s.svcEnd mb 2
    else if k.v then s.svcEnd mb 3
    else (s.setSlot (s.mbSlot mb) { k with pid := BitVec.ofNat 8 (bits r 23 16) }).svcEnd mb 0

/-- The next output of the DRBG (R384). -/
def State.draw (s : State) : State × BitVec 256 := (s.updSvc (fun k => { k with drbg := k.drbg + 1 }), Config.drbg s.svc.drbg)

/-- GENERATE (R381, R382): KLEN bytes from the DRBG; the reply carries the blob under DWK. -/
def execGenerate (mb : Nat) (s : State) : Out := settled s <|
  let a := s.mbReq mb 2
  service mb 2 s (s.mbClear mb 3 && bits (s.mbReq mb 1) 63 14 == 0 && !attrRsv a) fun s =>
    let n := s.mbSlot mb
    if !s.mbMay mb then s.svcEnd mb 2 else
    match attrKlen (s.keySlot n) a with
    | none => s.svcEnd mb 4
    | some kl =>
      if !s.flag F.KEY_STAT_ENT then s.svcEnd mb 8 else
      let p := s.draw
      let q := if kl = 64 then p.1.draw else (p.1, 0)
      let key : BitVec 512 := BitVec.ofNat 512 ((p.2.toNat * 2 ^ 256 + q.2.toNat) / 2 ^ (512 - 8 * kl) * 2 ^ (512 - 8 * kl))
      let words := (List.range (kl / 8)).map (fun i => key.extractLsb' (448 - 64 * i) 64)
      (q.1.fillSlot n a key).svcEnd mb 0 (kwWrap Config.dwk.toNat (BitVec.ofNat 64 a :: words))

/-- IMPORT (R381, R382): the wrapped key fills 4, 6 or 10 doublewords (2 + KLEN ÷ 8), and the rest of the request is zero; the shortest length that fits and unwraps is taken (log 40). -/
def execImportKey (mb : Nat) (s : State) : Out := settled s <|
  let r := s.mbReq mb 1
  service mb 3 s (s.mbClear mb 12 && bits r 63 17 == 0 && bits r 15 14 == 0) fun s =>
    let n := s.mbSlot mb
    let kek := if bits r 16 16 = 0 then some Config.dwk else s.svc.tkey.find (s.mbPid mb)
    let blob := fun (k : Nat) => (List.range k).map (fun i => BitVec.ofNat 64 (s.mbReq mb (2 + i)))
    if !s.mbMay mb then s.svcEnd mb 2 else
    match kek with
    | none => s.svcEnd mb 6
    | some kek =>
      match ([4, 6, 10].filter (fun k => s.mbClear mb (2 + k))).findSome? (fun k => kwUnwrap kek.toNat (blob k)) with
      | none => (s.flt 12 1).svcEnd mb 5
      | some w =>
        let a := (w.headD 0).toNat
        let kl := 8 * (w.length - 1)
        if attrRsv a || attrKlen (s.keySlot n) a ≠ some kl then s.svcEnd mb 4
        else (s.fillSlot n a (BitVec.ofNat 512 ((w.drop 1).foldl (fun x y => x * 2 ^ 64 + y.toNat) 0 * 2 ^ (512 - 8 * kl)))).svcEnd mb 0

/-- The key length of a slot that holds a key. -/
def KSlot.klen (k : KSlot) : Option Nat := klenOf k.modes.toNat

/-- SETATTR (R380): MODES, ENC and DEC of a slot that holds a key, within its key length. -/
def execSetattr (mb : Nat) (s : State) : Out := settled s <|
  let a := s.mbReq mb 2
  service mb 4 s (s.mbClear mb 3 && bits (s.mbReq mb 1) 63 14 == 0 && !attrRsv a) fun s =>
    let n := s.mbSlot mb
    let k := s.keySlot n
    if !s.mbMay mb then s.svcEnd mb 2
    else if !k.v then s.svcEnd mb 3
    else if (attrKlen k a).isNone || attrKlen k a ≠ k.klen then s.svcEnd mb 4
    else ((s.setSlot n (k.withAttr a)).slotInval n).svcEnd mb 0

/-- DESTROY (R381): the key is zeroed; the slot keeps its PID. -/
def execDestroy (mb : Nat) (s : State) : Out := settled s <|
  service mb 5 s (s.mbClear mb 2 && bits (s.mbReq mb 1) 63 14 == 0) fun s =>
    let n := s.mbSlot mb
    if !s.mbMay mb then s.svcEnd mb 2
    else ((s.setSlot n { KSlot.reset with pid := (s.keySlot n).pid }).slotInval n).svcEnd mb 0

/-! P-384 (FIPS 186-4), which R383 names -/

def p384P : Nat := 2 ^ 384 - 2 ^ 128 - 2 ^ 96 + 2 ^ 32 - 1
def p384B : Nat := 0xb3312fa7e23ee7e4988e056be3f82d19181d9c6efe8141120314088f5013875ac656398d8a2ed19d2a85c8edd3ec2aef

/-- Does a point lie on the curve y^2 = x^3 - 3 x + b. -/
def onP384 (x y : Nat) : Bool := decide (x < p384P) && decide (y < p384P) && (y * y + 3 * x) % p384P == (x * x * x + p384B) % p384P

/-- TKEY (R383): the transport key of the mailbox's PID, by the one-step KDF of NIST SP 800-56C with SHA-384, its counter first. -/
def execTkey (mb : Nat) (s : State) : Out := settled s <|
  service mb 6 s (s.mbClear mb 13) fun s =>
    let num := fun (i : Nat) => (List.range 6).foldl (fun x k => x * 2 ^ 64 + s.mbReq mb (i + k)) 0
    let x := num 1
    let y := num 7
    let pid := s.mbPid mb
    if !onP384 x y then s.svcEnd mb 0x0C
    else if !s.flag F.KEY_STAT_ENT then s.svcEnd mb 8
    else
      let z := Config.ecdh (BitVec.ofNat 768 (x * 2 ^ 384 + y))
      let key := (sha384 (bytesOf 4 1 ++ bytesOf 48 z.toNat ++ bytesOf 2 s.cxid ++ bytesOf 1 pid)).extractLsb' 128 256
      (s.updSvc (fun k => { k with tkey := k.tkey.put pid key })).svcEnd mb 0

/-- Draw n doublewords. -/
def State.drawWords (s : State) : Nat → State × List W64
  | 0 => (s, [])
  | n + 1 =>
    let p := s.draw
    let q := State.drawWords p.1 n
    (q.1, p.2.extractLsb' 192 64 :: q.2)

/-- RANDOM (R384). -/
def execRandom (mb : Nat) (s : State) : Out := settled s <|
  let r := s.mbReq mb 1
  service mb 0x10 s (s.mbClear mb 2 && bits r 63 4 == 0 && bits r 3 0 != 0) fun s =>
    if !s.flag F.KEY_STAT_ENT then s.svcEnd mb 8 else
      let p := s.drawWords (bits r 3 0)
      p.1.svcEnd mb 0 p.2

/-! Attestation (R385) -/

/-- Bytes 0 to 415 of the report (Table KEY-3). -/
def State.report (s : State) (pid : Nat) (nonce : List Byte) : List Byte :=
  let m := fun (i : Nat) => bytesOf 48 (match s.svc.fw with | some f => (f.measure.getD i 0).toNat | none => 0)
  bytesOf 4 0x00010000 ++ bytesOf 8 Config.serial.toNat ++ bytesOf 2 s.cxid ++ bytesOf 1 pid ++ [0xB1] ++ bytesOf 8 s.svc.ktime.toNat ++ nonce ++
    m 0 ++ m 1 ++ m 2 ++ m 3 ++ m 4 ++ bytesOf 48 s.svc.flashMr.toNat ++ m 5 ++ List.replicate 8 0

/-- Write a buffer at REQ1 with the mailbox's PID and source type Keystone; a write that waits is taken up when the command is issued again. -/
def State.mbWrite (s : State) (mb : Nat) (bs : List Byte) (rsp : List W64) : State :=
  match s.dmaWrite { tag := 4096, pid := s.mbPid mb, stype := 6 } 0 (linesFor bs.length) (s.mbReq mb 1) bs with
  | .ok s _ => s.svcEnd mb 0 rsp
  | .refused s => (s.forget 4096).svcEnd mb 7
  | .poison s _ => (s.forget 4096).svcEnd mb 7
  | .wait t => t.keep s 4096

/-- A buffer address: absolute, aligned to 256 bytes. -/
def State.mbBufOk (s : State) (mb : Nat) : Bool := s.mbReq mb 1 % 256 == 0 && decide (s.mbReq mb 1 < 2 ^ 56)

/-- ATTEST: the report with the nonce, signed by DAK over its first 416 bytes. -/
def execAttest (mb : Nat) (s : State) : Out := settled s <|
  service mb 0x20 s (s.mbClear mb 8 && s.mbBufOk mb) fun s =>
    let r := s.report (s.mbPid mb) ((List.range 6).flatMap (fun i => bytesOf 8 (s.mbReq mb (2 + i))))
    s.mbWrite mb (r ++ bytesOf 96 (Config.ecdsa r).toNat) []

/-- MEASURE: bytes 0 to 415 with the nonce zero (log 41). -/
def execMeasure (mb : Nat) (s : State) : Out := settled s <|
  service mb 0x21 s (s.mbClear mb 2 && s.mbBufOk mb) fun s => s.mbWrite mb (s.report (s.mbPid mb) (List.replicate 48 0)) []

/-- CERT: the device certificate, of at most 2 KiB, and its length. -/
def execCert (mb : Nat) (s : State) : Out := settled s <|
  service mb 0x22 s (s.mbClear mb 2 && s.mbBufOk mb) fun s =>
    let c := Config.cert.take 2048
    s.mbWrite mb c [BitVec.ofNat 64 c.length]

/-! Holds, forced releases, failures -/

/-- HOLD_RELEASE (R386): Keystone clears a hold bit, and a deferred request goes on. -/
def execHoldRelease (blk : Nat) (s : State) : Out := settled s <|
  if 17 ≤ blk then .fault .noSuchUnit else .next (if s.dead || !s.held? blk then s else s.unhold blk)

/-- The forced release of a deferred request's block (R387, R388). -/
def State.forceRelease (s : State) (b : Nat) : State :=
  if !s.deferred b then s else
  let s := (s.count F.KEY_HOLD_FORCED (some F.KEY_HOLD_FOVF)).flt 12 0
  let s := s.updSvc (fun k => { k with kForced := s.mbActive.isSome })
  s.unhold b

/-- FORCED_RELEASE: 10 ms without a release. -/
def execForcedRelease (blk : Nat) (s : State) : Out := settled s <|
  if 17 ≤ blk then .fault .noSuchUnit else .next (if s.dead then s else s.forceRelease blk)

/-- Keystone restarts from its boot ROM (R390). -/
def State.kRestart (s : State) : State := (s.count F.KEY_STAT_RESTART (some F.KEY_STAT_ROVF)).setFld F.KEY_STAT_STATE 0

/-- KEYSTONE_TIMEOUT (R390): a request was ACTIVE for 100 ms. Held walls are zeroed; of the mailbox array only the timed-out mailbox is, for the others wait for the restart. -/
def execKeystoneTimeout (s : State) : Out := settled s <|
  .next <|
    match s.mbActive with
    | none => s
    | some m =>
      if s.dead then s else
      let s := (s.forget 4096).mbEnd m 0x0A
      let s := (List.range 16).foldl (fun s b => if s.held? b then (if s.deferred b then s.unhold b else (s.scrub b).setHold b false) else s) s
      let s := (s.unhold 16).updSvc (fun k => { k with kForced := false })
      ((s.freeze false).flt 12 3).kRestart

/-- KEYSTONE_RESTART_COMPLETE (R390): Keystone runs again, seeded anew after a warm reset unless the entropy source stands failed, and serves what is PENDING, or is out of service and every request ends with 0x0B. -/
def execKeystoneRestartComplete (pass : Bool) (s : State) : Out := settled s <|
  .next <|
    if s.dead || s.fld F.KEY_STAT_STATE ≠ 0 || s.fld F.BOO_STAT_STEP < 9 then s
    else if pass then
      let s := s.setFld F.KEY_STAT_STATE 1
      if s.flag F.KEY_STAT_ENT || s.svc.entBad then s else (s.updSvc (fun k => { k with drbg := k.drbg + 1 })).setFlag F.KEY_STAT_ENT true
    else
      let s := (s.setFld F.KEY_STAT_STATE 2).flt 12 4
      (List.range 64).foldl (fun s m => if s.fld F.KEY_MBSTAT_STATE m == 1 then s.mbEnd m 0x0B else s) s

/-- ENTROPY_FAILURE (R384). -/
def execEntropyFailure (s : State) : Out := settled s <| .next (if s.dead || !s.flag F.KEY_STAT_ENT then s else ((s.setFlag F.KEY_STAT_ENT false).updSvc (fun k => { k with entBad := true })).flt 12 2)

/-- ENTROPY_RETEST (R384): a passing retest restores ENT after a reseed, which the next draw shows (log 7). -/
def execEntropyRetest (pass : Bool) (s : State) : Out := settled s <|
  .next (if s.dead || s.flag F.KEY_STAT_ENT || s.fld F.KEY_STAT_STATE ≠ 1 || !pass then s else (s.updSvc (fun k => { k with drbg := k.drbg + 1, entBad := false })).setFlag F.KEY_STAT_ENT true)

end Sys2Proof.Machine
end

