-- ==== Sys2Proof/Machine/MemCtl.lean ====
section
/-! DEFINITION. The memory controllers (11): patrol scrub, device sparing, rank power-down, and writes to the region registers (05 R137). -/

namespace Sys2Proof.Machine

/-- Is a controller's channel populated (R267). -/
def State.populated (s : State) (m : Nat) : Bool := !s.flag F.MEM_POP_CH8 || m % 2 == 0

/-- The local offset of line `q` of channel `m`: the inverse of Table MEM-2. -/
def State.chanOff (s : State) (m q : Nat) : Nat :=
  if s.flag F.MEM_POP_CH8 then q * 2 ^ 11 + (m / 2 % 8 ^^^ bits q 7 5 ^^^ bits q 15 13) * 256
  else q * 2 ^ 12 + (m % 16 ^^^ bits q 7 4 ^^^ bits q 15 12) * 256

/-- The absolute line at a local offset: the inverse of R268, if a range maps it. -/
def State.absLine (s : State) (o : Nat) : Option Nat :=
  (List.range 64).findSome? (fun n =>
    if !s.flag F.STO_ILV_BASE_EN n || !s.flag F.MEM_LOC_EN n then none else
    let ways := s.fld F.STO_ILV_CTL_WAYS n
    let shift := if s.flag F.STO_ILV_CTL_GRAN n then 30 else 12
    let base := s.fld F.STO_ILV_BASE_BASE n * 2 ^ 30
    let loc := s.fld F.MEM_LOC_LOCBASE n * 4096
    match (List.range (2 ^ ways)).find? (fun k => s.tgtEntry (s.fld F.STO_ILV_CTL_TGT n + k) == some s.cxid) with
    | none => none
    | some k =>
      let share := s.ilvShare n k
      if o < loc || share.2 ≤ (o - loc) / 2 ^ shift then none else
      let d := o - loc
      some ((base + (d / 2 ^ shift * 2 ^ ways + share.1) * 2 ^ shift + d % 2 ^ shift) / 256))

/-- Lines of a channel: the installed capacity spread over the populated channels. -/
def State.chanLines (s : State) : Nat := s.fld F.MEM_POP_GIB * 2 ^ 22 / (if s.flag F.MEM_POP_CH8 then 8 else 16)

/-- Lines of each rank of a channel. -/
def State.rankLines (s : State) : Nat := s.chanLines / max 1 s.ranks.length

/-- Where an event lies: DIMM, rank and device of a channel in the numbers of 20 Table FLT-3. -/
def devUnit (m d r v : Nat) : Nat := 80 * m + 20 * (2 * d + r) + v
def devOk (d r v : Nat) : Bool := decide (d < 2) && decide (r < 2) && decide (v < 20)

/-- An uncorrectable read of a line: counted, captured once, the line poisoned (R273). -/
def State.ecc (s : State) (m d r v coff : Nat) (line : Option Nat) : State :=
  let s := s.count F.MEM_ECC_UNCOR (some F.MEM_ECC_UOVF) m
  let s := if s.flag F.MEM_ECCADR_VAL m then s else s.setReg (F.MEM_ECCADR_VAL.off m) (BitVec.ofNat 64 (2 ^ 63 + d * 2 ^ 62 + r * 2 ^ 61 + v * 2 ^ 56 + coff % 2 ^ 48))
  match line with | some l => s.updMem (fun k => { k with poison := k.poison.put l 1 }) | none => s

/-- The same, with the severe fault of R204. -/
def State.uncorrectable (s : State) (m d r v coff : Nat) (line : Option Nat) : State := (s.ecc m d r v coff line).flt 6 5

/-- PATROL_SCRUB (R277, R278): the line at the pointer is read; scrub does not run in self-refresh or behind a fence, and waits for an open transaction. -/
def execPatrolScrub (mc : Nat) (res : ScrubRes) (s : State) : Out := settled s <|
  let ok := match res with
    | .good => true
    | .corrected d r v => devOk d r v
    | .uncorrectable d r v => devOk d r v
  if 16 ≤ mc || !ok then .fault .noSuchUnit else .next <|
  let p := s.fld F.MEM_CHSTAT_SCRPTR mc
  let line := s.absLine (s.chanOff mc p)
  let x := s.mc mc
  if !s.populated mc || s.fld F.MEM_CHSTAT_PWR mc = 3 || (!x.selfRef.isEmpty && x.selfRef.contains (s.rankOf p)) || (match line with | some l => s.mem.txns.has l | none => false) then s else
  let s := s.rankAccess mc p
  let s := match res with
    | .good => s
    | .corrected d r v => (s.count F.MEM_ECC_CORR (some F.MEM_ECC_COVF) mc).flt 6 0 (devUnit mc d r v)
    | .uncorrectable d r v => s.uncorrectable mc d r v p line
  s.setFld F.MEM_CHSTAT_SCRPTR (if s.chanLines ≤ p + 1 then 0 else p + 1) mc

/-- DEVICE_SPARING_COPY (R274, R275): a device at its threshold is replaced by the rank's spare, one copy of a controller at a time. A further device of a rank whose spare is in use, or being copied to, cannot be spared; the device that is spared already needs nothing. The pointer goes to the end of the rank, where the copy ends. -/
def execDeviceSparingCopy (mc dimm rank dev : Nat) (phase : CopyPhase) (s : State) : Out := settled s <|
  if 16 ≤ mc || !devOk dimm rank dev then .fault .noSuchUnit else .next <|
  let r := 2 * dimm + rank
  let unit := devUnit mc dimm rank dev
  let x := s.mc mc
  let busy := s.flag F.MEM_CHSTAT_SPBUSY mc
  if !s.populated mc || s.fld F.MEM_CHSTAT_PWR mc = 3 then s else
  match phase with
  | .start =>
    if !s.svc.sparePend.contains (0x60, unit) then s else
    let t := { s with svc := { s.svc with sparePend := s.svc.sparePend.erase (0x60, unit) } }
    let used := bits (s.fld F.MEM_CHSTAT_SPUSED mc) r r = 1
    let copying := busy && x.copyRank == some r
    if used || copying then
      if (if copying then s.fld F.MEM_CHSTAT_SPDEV mc else x.spares.get 32 r) = dev then t else t.flt 6 6
    else if busy then s
    else ((t.setFlag F.MEM_CHSTAT_SPBUSY true mc).setFld F.MEM_CHSTAT_SPDEV dev mc).setMc mc { x with copyRank := some r, copyPtr := 0 }
  | .lines n bad =>
    if x.copyRank ≠ some r || !busy then s else
    let s := s.setMc mc { x with copyPtr := min (x.copyPtr + n) s.rankLines }
    if bad then
      -- which line of the channel a rank's line is, the controller's mapping decides (R270): it is free (log 35)
      let p := s.free
      let q := p.2.toNat % max 1 p.1.chanLines
      p.1.uncorrectable mc dimm rank dev q (p.1.absLine (p.1.chanOff mc q))
    else s
  | .finish =>
    if x.copyRank ≠ some r || !busy || x.copyPtr < s.rankLines then s else
    let s := s.setMc mc { x with copyRank := none, spares := x.spares.put r (s.fld F.MEM_CHSTAT_SPDEV mc) }
    ((((s.setFlag F.MEM_CHSTAT_SPBUSY false mc).setFld F.MEM_CHSTAT_SPUSED (putBits (s.fld F.MEM_CHSTAT_SPUSED mc) r r 1) mc).consume 7)).flt 6 3 unit

/-- RANK_POWER_DOWN (R279): a rank that was idle for PDIDLE ns. -/
def execRankPowerDown (mc rank : Nat) (s : State) : Out := settled s <|
  if 16 ≤ mc || 4 ≤ rank then .fault .noSuchUnit else .next <|
  let x := s.mc mc
  if !s.populated mc || s.fld F.MEM_SCRUB_PDIDLE = 0 || s.fld F.MEM_CHSTAT_PWR mc = 3 || !s.ranks.contains rank || x.selfRef.contains rank then s else
  (s.setMc mc { x with powerDown := if x.powerDown.contains rank then x.powerDown else x.powerDown ++ [rank] }).pwr mc

/-- Every rank of a controller enters self-refresh, at a request of the derailleur, or leaves it (R279; 18 Table CLK-5). -/
def State.mcSelfRef (s : State) (m : Nat) (on : Bool) : State :=
  if !s.populated m then s else (s.setMc m { s.mc m with powerDown := [], selfRef := if on then s.ranks else [] }).pwr m

/-- A demand read found in error, which an event of the sources "corrected read" (UNIT names the device) and "uncorrectable read" (DETAIL holds the address, here) reports: counted, and an uncorrectable line captured and poisoned (R272, R273; log 63). -/
def State.demandRead (s : State) (ev : FaultEv) : State :=
  if ev.src = 0x60 then s.count F.MEM_ECC_CORR (some F.MEM_ECC_COVF) (ev.unit / 80)
  else if ev.src = 0x65 && s.homeOf (bits ev.detail.toNat 55 0) == some s.cxid then
    let a := bits ev.detail.toNat 55 0
    let r := s.rankOf (s.chanLine a)
    let p := s.free
    p.1.ecc (s.mcOf a) (r / 2) (r % 2) (p.2.toNat % 20) (s.chanLine a) (some (a / 256))
  else s

/-! Region registers (05 R137; 11 R282) -/

/-- The offset of doubleword `dw` of region `n` of controller `m`. -/
def rgnOff (m n dw : Nat) : Nat := 0x900800 + m * 0x10000 + n * 0x20 + dw * 8

/-- Is a write to a region register refused as a whole (R137). -/
def State.rgnRefused (s : State) (m n dw : Nat) (v : W64) : Bool :=
  s.flag F.MEM_RGN_CTL_KO m n || (dw == 2 && v.getLsbD 6) || (decide (dw < 2) && s.flag F.MEM_RGN_CTL_EN m n) ||
    (dw == 2 && v.getLsbD 7 && decide (s.fld F.MEM_RGN_LIM_LIMIT m n < s.fld F.MEM_RGN_BASE_BASE m n))

/-- A write to a region register of one controller; an unpopulated controller ignores it (R267). -/
def State.rgnWrite (s : State) (src : Src) (m n dw : Nat) (v : W64) : State :=
  if !s.populated m then s
  else if s.rgnRefused m n dw v then s.cfgErr src (rgnOff m n dw)
  else s.wrReg src (rgnOff m n dw) v

/-- A write to the broadcast window: in every populated controller, or in none (R282). -/
def State.rgnBroadcast (s : State) (src : Src) (n dw : Nat) (v : W64) : State :=
  let ms := (List.range 16).filter (fun m => s.populated m)
  if ms.any (fun m => s.rgnRefused m n dw v) then s.cfgErr src (0x908800 + n * 0x20 + dw * 8)
  else ms.foldl (fun s m => s.wrReg src (rgnOff m n dw) v) s

/-- REGION_REGISTER_WRITE (05 R137). -/
def execRegionRegisterWrite (src : Src) (m n dw : Nat) (v : BitVec 64) (s : State) : Out := settled s <|
  if 16 ≤ m || 64 ≤ n || 3 ≤ dw then .fault .noSuchUnit else .next (s.rgnWrite src m n dw v)

/-- REGION_BROADCAST_WRITE (R282). -/
def execRegionBroadcastWrite (src : Src) (n dw : Nat) (v : BitVec 64) (s : State) : Out := settled s <|
  if 64 ≤ n || 3 ≤ dw then .fault .noSuchUnit else .next (s.rgnBroadcast src n dw v)

end Sys2Proof.Machine
end

