-- ==== Sys2Proof/Machine/Start.lean ====
section
/-! DEFINITION. The start-up stop (19 R413) and the IPL (R427, R428). -/

namespace Sys2Proof.Machine

/-- A start-up stop (R413): step and cause latched, ERR_N pulsed, FENCE on every link, trained memory in self-refresh, GPIO to high impedance, no core runs. -/
def State.startStop (s : State) (step cause : Nat) : State :=
  if s.fld F.BOO_STAT_PHASE == 1 then s else
  let s := ((s.setFld F.BOO_STAT_PHASE 1).setFld F.BOO_STAT_STEP step).setFld F.BOO_STAT_CAUSE cause
  let s := (s.flt 14 4 0 none (BitVec.ofNat 64 (step * 256 + cause))).errPulse
  let s := (List.range 16).foldl (fun s p => if s.portUp p then s.ctlFlit p 3 0 else s) s
  let s := s.fencePorts 1
  let s := if 10 < step then (List.range 16).foldl (fun s m => s.setFld F.MEM_CHSTAT_PWR 3 m) s else s
  let s := (List.range s.nLc).foldl (fun s n => let c := s.core n; if c.run = .lost then s else s.setCore n { c with run := .stopped }) s
  { s with svc := { s.svc with hiZ := true } }

/-- The exchange of the IPL (R427): entry 0x3FFF, PID 0, XSEQ from 0, not journaled. -/
def iplEx (vp : Nat) : Exch := { Exch.reset with idx := 0x3FFF, vp := vp, ipl := true }

/-- Its command: READ of BOO_IPL2.COUNT bytes to BOO_IPL1.ADDR. -/
def State.iplDesc (s : State) : PdsDesc :=
  { exid := BitVec.ofNat 24 (s.cxid * 16384 + 0x3FFF), cmd := 2, flags := 0, count := BitVec.ofNat 25 (s.fld F.BOO_IPL2_COUNT),
    daddr := BitVec.ofNat 56 (s.fld F.BOO_IPL1_ADDR * 8192), zh := 0xFFFF, ch := 0xFFFF, nseq := 0, cmdix := 0, devcmd := 0 }

/-- Send the CMD frame of the IPL. -/
def State.iplStart (s : State) : State :=
  let v := s.fld F.BOO_IPL0_PORT
  let x := iplEx v
  let s := ({ s with chn := { s.chn with iplHeld := true } }).dropCmd x
  (s.setEx x).submitCmd x s.iplDesc v

/-- The end of start-up: BOO_STAT.PHASE. -/
def State.handedOver (s : State) : State := s.setFld F.BOO_STAT_PHASE 2

/-- The IPL has failed: it is retried once, then start-up stops. -/
def State.iplFail (s : State) : State :=
  let s := { s with chn := { s.chn with exch := s.chn.exch.del 0x3FFF } }
  if s.chn.iplTries = 0 then (({ s with chn := { s.chn with iplTries := 1 } }).flt 14 2).iplStart else s.startStop 13 0x80

/-- The boot record is in and STATUS has come: it is written to storage, and LC0 gets its restart, unless LPSW would refuse the PSW at ADDR + 0x010. -/
def State.iplTry (s : State) (x : Exch) : State :=
  if !x.owed then s else
  let d := s.iplDesc
  let dw0 : W64 := BitVec.ofNat 64 (packBytes ((x.buf.drop 16).take 8))
  let dw1 : W64 := BitVec.ofNat 64 (packBytes ((x.buf.drop 24).take 8))
  if x.dstat ≠ 0 || x.scode == 1 || x.resid ≠ 0 || x.buf.length ≠ d.count.toNat || pswBad dw0 dw1 then s.iplFail
  else
    let s0 := s
    match s.writeAt (s.pdsAgent x) [(d.daddr.toNat, d.count.toNat)] 0 x.buf with
    | .ok s _ =>
      let s := ((s.sendAck x 3 0).sendAck x 4 0).popCmd x
      let s := { s with chn := { s.chn with exch := s.chn.exch.del 0x3FFF, iplHeld := false } }
      (s.updCore 0 (fun c => { c with pendRestart := true })).handedOver
    | .bad s _ => s.iplFail
    | .wait s => s.keep s0 (8192 + x.key)

end Sys2Proof.Machine
end

