-- ==== Sys2Proof/Machine/Ports.lean ====
section
/-! DEFINITION. The Velex ports (14): frames received by the complex and by the adapter, credits, retraining, timeouts, lane sparing, paired controllers; and the ends that the sequencers report (13 R325). -/

namespace Sys2Proof.Machine

/-! The port data sequencer reports (13 R325) -/

/-- An uncorrectable control-store error stops a port's sequencer, until cold reset (log 65): its exchanges lose their path (06 R156), the IPL is tried again. -/
def State.stopPds (s : State) (vp : Nat) : State :=
  let s := { s with chn := { s.chn with pdsStop := insertNat vp s.chn.pdsStop } }
  (s.exOn vp).foldl (fun s k => match s.chn.exch.find k with
    | some x => if x.ipl then s.iplTry x else s.pathLost k
    | none => s) s

/-- PDS_COMMAND_END: CMDOK or PDSERR; an uncorrectable sequencer is a path failure (06 R156). -/
def execPdsCommandEnd (vp : Nat) (res : PdsRes) (s : State) : Out := settled s <|
  if 16 ≤ vp then .fault .noSuchUnit else .next <|
  let on := fun (exid : BitVec 24) (f : Exch → PdsDesc → State) =>
    match s.exOf exid with
    | some x =>
      match x.cur with
      | some d => if x.ipl then s.iplTry x else if x.vp = vp && x.sent then f x d else s
      | none => s
    | none => s
  match res with
  | .done exid resid => on exid fun x d =>
      if d.writes && x.outNext = d.nseq + 1 && decide (0 < d.count.toNat) then s.sendData x d else s.endRead x d resid
  | .addressCheck exid resid => on exid fun x _ => s.cmdFail x 0x11 resid.toNat
  | .authFail exid => on exid fun x d => s.cmdBad x d 0x13
  | .dataCheck exid resid => on exid fun x d => if d.dec && d.reads then s.cmdFail x 0x14 resid.toNat else s.cmdBad x d 0x14
  | .keyRefused exid => on exid fun x d => s.cmdBad x d 0x15
  | .programCheck exid => on exid fun x d => s.cmdFail x 0x10 d.count.toNat
  | .uncorrectable => (s.flt 1 6 vp).stopPds vp

/-! The adapter of a port (12 R306; 14 R333 to R336), as far as the spec states its obligations. Exchanges are keyed by EXID; frames that fail a link check change nothing. -/

def State.adEx (s : State) (exid : BitVec 24) : Option AdEx := s.chn.adEx.find exid.toNat
def State.setAd (s : State) (exid : BitVec 24) (a : AdEx) : State := { s with chn := { s.chn with adEx := s.chn.adEx.put exid.toNat a } }

/-- Does an adapter take a frame: it uses the path (R343) and the frame is good (R332). -/
def State.adTakes (s : State) (vp : Nat) (h : LinkHdr) (code : Nat) (fr : VParts) : Bool :=
  h.crcOk code fr && !h.aborted && h.rsvOk code && !s.chn.adFenced.contains vp

/-- A numbered outbound frame at the adapter (R334): accepted, a duplicate, or the end of the exchange, which the adapter then reports unknown. -/
def State.adNumbered (s : State) (vp : Nat) (exid : BitVec 24) (xseq : BitVec 16) (a : AdEx) (f : AdEx → AdEx) : State :=
  if a.ended || a.vp ≠ vp then s
  else if xseq = a.exp then s.setAd exid (f { a with exp := a.exp + 1 })
  else if decide ((a.exp - xseq).toNat ≤ 32767) then s
  else s.setAd exid { a with ended := true }

/-- VELEX_CMD: a command of an exchange; the first one begins it at XSEQ 0. Its arrival shows that the commands before it are executed. -/
def execVelexCmd (vp : Nat) (h : LinkHdr) (exid : BitVec 24) (xseq cmdix devadr : BitVec 16) (payload : BitVec 256) (s : State) : Out := settled s <|
  if 16 ≤ vp then .fault .noSuchUnit else .next <|
  if !s.adTakes vp h 1 { exid := exid.toNat, xseq := xseq.toNat, spec := 2 ^ 36 + cmdix.toNat * 2 ^ 16 + devadr.toNat, pay := toBytes 32 payload.toNat } || fieldOf payload 243 240 ≠ 0 || fieldOf payload 239 224 ≠ 0 || fieldOf payload 191 128 ≠ 0 || devadr.toNat ≥ 65536 then s else
  let a := match s.adEx exid with
    | some a => a
    | none => { AdEx.reset with vp := vp }
  s.adNumbered vp exid xseq a (fun a => { a with executed := cmdix, partialCmd := true })

/-- VELEX_RESUME (R335, 12 R306): the expected XSEQ is set, unexecuted frames are discarded; an exchange that is not held stays unknown. -/
def execVelexResume (vp : Nat) (h : LinkHdr) (exid : BitVec 24) (xseq cmdix : BitVec 16) (sr : Bool) (s : State) : Out := settled s <|
  if 16 ≤ vp then .fault .noSuchUnit else .next <|
  if !s.adTakes vp h 1 { exid := exid.toNat, xseq := xseq.toNat, spec := 2 * 2 ^ 36 + b2n sr * 2 ^ 35 + cmdix.toNat * 2 ^ 16, pay := [] } then s else
  match s.adEx exid with
  | none => s
  | some a =>
    if a.ended then s
    else s.setAd exid { a with exp := xseq, partialCmd := a.partialCmd && decide (cmdix.toNat < a.executed.toNat), statusSent := a.statusSent || sr, vp := vp }

/-- VELEX_ABORT (R336): the exchange ends; later frames of it are discarded. -/
def execVelexAbort (vp : Nat) (h : LinkHdr) (exid : BitVec 24) (s : State) : Out := settled s <|
  if 16 ≤ vp then .fault .noSuchUnit else .next <|
  if !s.adTakes vp h 1 { exid := exid.toNat, xseq := fieldOf h.rest 135 120, spec := 3 * 2 ^ 36, pay := [] } then s else
  match s.adEx exid with
  | none => s
  | some a => if a.vp = vp then s.setAd exid { a with ended := true, partialCmd := false } else s

/-- VELEX_FENCE (R343): the adapter stops using the path and keeps its exchanges. -/
def execVelexFence (vp : Nat) (h : LinkHdr) (reason : BitVec 8) (s : State) : Out := settled s <|
  if 16 ≤ vp then .fault .noSuchUnit else .next <|
  if !s.adTakes vp h 7 (velexParts 7 [reason.toNat]) || (reason ≠ 1 && reason ≠ 2) then s
  else { s with chn := { s.chn with adFenced := insertNat vp (s.chn.adFenced.filter (fun n => n != vp)) } }

/-! Frames of an exchange that the complex receives -/

/-- A numbered inbound frame (R334): the exchange timer restarts; in order, accepted; earlier, counted in DUPS; later, final status 0x21. -/
def State.inNumbered (s : State) (v : Nat) (exid : BitVec 24) (xseq : BitVec 16) (f : State → Exch → State) : State :=
  match s.exOf exid with
  | none => s
  | some x =>
    if x.vp ≠ v then s
    else if xseq = x.inExp then
      let x := { x with inExp := x.inExp + 1 }
      f (s.setEx x) x
    else if decide ((x.inExp - xseq).toNat ≤ 32767) then s.count F.VPT_XCH_DUPS (some F.VPT_XCH_DOVF) v
    else if x.ipl then s.iplFail else s.finalStatus x.key 0x21

/-- Inbound data of the command at the sequencer (12 R292; 16 R367). -/
def State.inData (s : State) (x : Exch) (cmdix : BitVec 16) (bytes : List Byte) : State :=
  match x.cur with
  | none => s
  | some d =>
    if !d.reads || !x.sent || d.cmdix ≠ cmdix then s else
    let y := { x with buf := x.buf ++ bytes }
    let s := s.setEx y
    if x.ipl then s
    else if d.dec && decide (reserve d < y.buf.length) then s.cmdFail y 0x14 d.count.toNat
    else
      let p := s.flushRead y d
      match p.2 with
      | some f => p.1.cmdFail y f (d.count.toNat - y.got)
      | none => p.1

/-- VELEX_DATA: inbound to the complex, outbound to the adapter. -/
def execVelexData (vp : Nat) (h : LinkHdr) (exid : BitVec 24) (inbound : Bool) (xseq cmdix : BitVec 16) (last : Bool) (bytes : List (BitVec 8)) (s : State) : Out := settled s <|
  let fr := velexParts 2 [exid.toNat, xseq.toNat, cmdix.toNat, b2n last, bytes.length, packBytes bytes]
  let lenOk := decide (1 ≤ bytes.length) && decide (bytes.length ≤ 4096)
  if inbound then
    s.vrecv vp h 2 fr lenOk true (some 1) fun s => s.inNumbered vp exid xseq (fun s x => s.inData x cmdix bytes)
  else
    if 16 ≤ vp then .fault .noSuchUnit else .next <|
    if !s.adTakes vp h 2 fr || !lenOk then s else
    match s.adEx exid with
    | none => s
    | some a => s.adNumbered vp exid xseq a (fun a => { a with partialCmd := true, executed := if last then cmdix + 1 else a.executed })

/-- VELEX_STATUS: DSTAT and RESID are copied into the journal entry (R340), the STATUS event is raised for the firmware, which writes the STATUS-PENDING step; "exchange unknown" gives final status 0x21 (12 R306). A status that is already recorded is acknowledged. A reserved SCODE is a reserved field. -/
def execVelexStatus (vp : Nat) (h : LinkHdr) (exid : BitVec 24) (xseq cmdix : BitVec 16) (dstat : BitVec 8) (scode : BitVec 3) (resid : BitVec 25) (s : State) : Out := settled s <|
  s.vrecv vp h 3 { exid := exid.toNat, xseq := xseq.toNat, spec := dstat.toNat * 2 ^ 32 + scode.toNat * 2 ^ 29 + resid.toNat, pay := h.stsPay cmdix } true (decide (scode.toNat ≤ 2)) (some 2) fun s =>
    s.inNumbered vp exid xseq fun s x =>
      let x := { x with owed := true, dstat := dstat, scode := scode, resid := resid }
      let s := s.setEx x
      if x.ipl then s.iplTry x
      else if 3 ≤ jState (s.img x) then (if (s.jent x.mirror x.idx).outst then s else (s.sendAck x 4 cmdix.toNat).setEx { x with owed := false })
      else
        let j := s.jent x.mirror x.idx
        let s := s.setJent x.mirror x.idx { j with img := jseal (jput (jput j.img 6 55 48 dstat.toNat) 6 24 0 resid.toNat) }
        if scode = 1 then s.finalStatus x.key 0x21 else s.setEx (x.raise 2)

/-- VELEX_ACK (Table VPT-3): WHAT 1, 2, 5 and 6 come to the complex, 3 and 4 to the adapter. -/
def execVelexAck (vp : Nat) (h : LinkHdr) (exid : BitVec 24) (xseq cmdix : BitVec 16) (what : BitVec 4) (s : State) : Out := settled s <|
  let fr := velexParts 4 [exid.toNat, xseq.toNat, cmdix.toNat, what.toNat]
  if what = 3 || what = 4 then
    if 16 ≤ vp then .fault .noSuchUnit else .next <|
    if !s.adTakes vp h 4 fr then s else
    match s.adEx exid with
    | none => s
    | some a => if what = 4 then { s with chn := { s.chn with adEx := s.chn.adEx.del exid.toNat } } else s.setAd exid { a with executed := cmdix + 1, partialCmd := false }
  else
    s.vrecv vp h 4 fr true (what != 0 && decide (what.toNat ≤ 6)) (some 2) fun s =>
      match s.exOf exid with
      | none => s
      | some x =>
        if x.vp ≠ vp then s
        else if what = 5 then
          let x := { x with inExp := xseq }
          if jState (s.img x) = 3 && !(s.jent x.mirror x.idx).outst then (s.sendAck x 4 (jget (s.img x) 1 31 16)).setEx { x with owed := false } else s.setEx x
        else if what = 6 then
          match x.aborting with
          | some f => (s.finalStatus x.key f.toNat).sccTermEnd x.sch
          | none => s
        else s

/-! Link frames -/

/-- A retrain begins (R337): the buffer is kept. -/
def State.vretrain (s : State) (v : Nat) : State :=
  if !s.vpUp v then s else ((s.setFld F.VPT_STAT_STATE 1 v).count F.VPT_ERR_RETRAIN (some F.VPT_ERR_TOVF) v).flt 9 1 v

/-- VELEX_NAK: resend from RSEQ; the eighth resend retrains the link. -/
def execVelexNak (vp : Nat) (h : LinkHdr) (rseq : BitVec 8) (s : State) : Out := settled s <|
  s.vrecv vp h 5 (velexParts 5 [rseq.toNat]) true true none fun s =>
    let s := s.vresend vp rseq
    if 8 ≤ (s.vport vp).resends then s.vretrain vp else s

/-- VELEX_CREDIT (R339): what the adapter has returned since its last count is in hand. -/
def execVelexCredit (vp : Nat) (h : LinkHdr) (cmd data sts urg : BitVec 8) (s : State) : Out := settled s <|
  s.vrecv vp h 6 (velexParts 6 [cmd.toNat, data.toNat, sts.toNat, urg.toNat]) true true none fun s =>
    let p := s.vport vp
    let q := [cmd, data, sts, urg].zipIdx.foldl (fun (p : VPort) c =>
      { p with cred := p.cred.upd 0 c.2 (fun n => n + (c.1 - BitVec.ofNat 8 (p.returned.get 0 c.2)).toNat), returned := p.returned.put c.2 c.1.toNat }) p
    (s.setVport vp q).vpump vp (q.waitq.length + 1)

/-- VELEX_ECHO (R338): a keepalive, which carries LACK as every frame does. The time since the last frame belongs to PORT_SILENCE_RETRAIN. -/
def execVelexEcho (vp : Nat) (h : LinkHdr) (stamp : BitVec 32) (s : State) : Out := settled s <| s.vrecv vp h 8 (velexParts 8 [stamp.toNat]) true true none id

/-- ECHO_INTERVAL (R338, R339, R343): ECHO with the time in microseconds, and CREDIT; FENCE in their place at a fenced port. -/
def execEchoInterval (vp : Nat) (s : State) : Out := settled s <|
  if 16 ≤ vp then .fault .noSuchUnit else .next <|
  if s.fld F.VPT_STAT_STATE vp == 4 then s.sendLink vp 7 [max 1 (s.vport vp).fencing.toNat]
  else if s.vpUp vp then (s.sendLink vp 8 [fieldOf s.fab.tb 43 12]).sendCredit vp
  else s

/-- PORT_SILENCE_RETRAIN (R337). -/
def execPortSilenceRetrain (vp : Nat) (s : State) : Out := settled s <| if 16 ≤ vp then .fault .noSuchUnit else .next (s.vretrain vp)

/-- Lanes in use: 0 and 1, one of them replaced by the spare (lane 2). -/
def State.vlanes (s : State) (v : Nat) : Nat :=
  let bad := (s.vport v).badLanes
  ((List.range 2).filter (fun l => !bad.contains l)).length + (if s.flag F.VPT_STAT_SPUSED v && !bad.contains 2 then 1 else 0)

/-- The state of a port that is up with its lanes (R342). -/
def State.vstate (s : State) (v : Nat) : Nat := if 2 ≤ s.vlanes v then 2 else 3

/-- VELEX_RETRAIN (R337): done, the buffer is resent; three failures in succession take the port down. -/
def execVelexRetrain (vp : Nat) (ok : Bool) (s : State) : Out := settled s <|
  if 16 ≤ vp then .fault .noSuchUnit else .next <|
  if !s.retraining vp then s else
  let p := s.vport vp
  if ok then
    let s := (s.setVport vp { p with resends := 0, retrainFails := 0 }).setFld F.VPT_STAT_STATE (s.vstate vp) vp
    let s := p.replay.foldl (fun s f => s.sendSeq vp f) s
    s.vpump vp (p.waitq.length + 1)
  else if 2 ≤ p.retrainFails then s.portDown vp
  else s.setVport vp { p with retrainFails := p.retrainFails + 1 }

/-- The claim of a controller as the output stage reads it (R344). -/
def claim (c : Nat) : Nat := if 4 ≤ c then 0 else c

/-- A controller drives the lanes. -/
def State.driven (s : State) (v : Nat) : Bool := claim (s.fld F.VPT_STAT_CLAIMA v) != claim (s.fld F.VPT_STAT_CLAIMB v)

/-- PORT_TRAINING_ATTEMPT (R338, R339): both ends send CREDIT with their initial grants; a grant that is too small leaves the port in training. A fenced port does not train until reset (R343). -/
def execPortTrainingAttempt (vp : Nat) (ok : Bool) (cmd data sts urg : BitVec 8) (s : State) : Out := settled s <|
  if 16 ≤ vp then .fault .noSuchUnit else .next <|
  let st := s.fld F.VPT_STAT_STATE vp
  if !(st == 0 || st == 1) || (s.vport vp).fencing != 0 || s.retraining vp || !s.flag F.VPT_CTL_EN vp || !s.driven vp || s.vlanes vp == 0 || s.flag F.FLT_FENCE_CXF || !ok then s else
  let s := s.sendLink vp 6 [32, 64, 64, 16]
  if cmd = 0 || data.toNat < 8 || sts = 0 || urg = 0 then (s.setFld F.VPT_STAT_STATE 1 vp).flt 9 6
  else
    let p := s.vport vp
    let cred : Tab Nat := [(0, cmd.toNat), (1, data.toNat), (2, sts.toNat), (3, urg.toNat)]
    let s := s.setVport vp { p with txSeq := 0, rxSeq := 0, cred := cred, returned := [], resends := 0, retrainFails := 0, alt := false }
    let s := (((s.setFld F.VPT_CRED_CMD cmd.toNat vp).setFld F.VPT_CRED_DAT data.toNat vp).setFld F.VPT_CRED_STS sts.toNat vp).setFld F.VPT_CRED_URG urg.toNat vp
    s.setFld F.VPT_STAT_STATE (s.vstate vp) vp

/-- EXCHANGE_TIMEOUT (R341): the TIMEOUT event; an ABORT under way ends, and the IPL fails. -/
def execExchangeTimeout (exid : BitVec 24) (s : State) : Out := settled s <|
  .next <|
    match s.exOf exid with
    | none => s
    | some x =>
      if !x.timer then s else
      let s := s.count F.VPT_XCH_TMOCNT (some F.VPT_XCH_MOVF) x.vp
      let x := { x with timer := false }
      if x.ipl then (s.setEx x).iplFail
      else
        let s := s.setEx (x.raise 5)
        match x.aborting with
        | some f => (s.finalStatus x.key f.toNat).sccTermEnd x.sch
        | none => s

/-! Lanes and controllers -/

/-- VELEX_LANE_SPARING (R342). -/
def execVelexLaneSparing (vp lane : Nat) (s : State) : Out := settled s <|
  if 16 ≤ vp || 3 ≤ lane then .fault .noSuchUnit else .next <|
  let p := s.vport vp
  if p.badLanes.contains lane then s else
  let used := decide (lane < 2) || s.flag F.VPT_STAT_SPUSED vp
  let spare := decide (lane < 2) && !s.flag F.VPT_STAT_SPUSED vp && !p.badLanes.contains 2
  let s := s.setVport vp { p with badLanes := p.badLanes ++ [lane] }
  if !used then s
  else if spare then (((s.setFlag F.VPT_STAT_SPUSED true vp).setFld F.VPT_STAT_SPLANE lane vp).consume 6).flt 9 2 (8 * vp + lane)
  else if s.vlanes vp = 0 then s.portDown vp
  else if s.vpUp vp then (s.setFld F.VPT_STAT_STATE 3 vp).flt 9 3
  else s

/-- The claim fields of the active controller and of the other. -/
def State.actFld (s : State) (v : Nat) : Fld × Fld :=
  if s.fld F.VPT_STAT_ACT v == 0 then (F.VPT_STAT_CLAIMA, F.VPT_STAT_CLAIMB) else (F.VPT_STAT_CLAIMB, F.VPT_STAT_CLAIMA)

/-- The output stage selects by the claims (R344): equal claims select none, and raise the tie. -/
def State.vselect (s : State) (v : Nat) : State :=
  let a := claim (s.fld F.VPT_STAT_CLAIMA v)
  let b := claim (s.fld F.VPT_STAT_CLAIMB v)
  let p := s.vport v
  if a = b then (if p.tie then s else (s.setVport v { p with tie := true }).flt 9 11 v)
  else (s.setVport v { p with tie := false }).setFld F.VPT_STAT_ACT (if a < b then 1 else 0) v

/-- The active controller is forced to claim 0; the standby takes over with claim 3, unless it is absent or its copy cannot be trusted (R345). -/
def State.controllerLost (s : State) (v : Nat) (trusted : Bool) : State :=
  let f := s.actFld v
  let s := s.setFld f.1 0 v
  if !s.flag F.VPT_STAT_PAIRED v then s.portDown v
  else
    let s := (s.setFlag F.VPT_STAT_PAIRED false v).consume 11
    if trusted then ((s.setFld f.2 3 v).vselect v).flt 9 7 v else (s.setFld f.2 0 v).portDown v

/-- CONTROLLER_SWITCHOVER (R344, R345): a failed active controller; one that finds itself not selected; claims as a fault leaves them. -/
def execControllerSwitchover (vp : Nat) (cause : SwitchCause) (s : State) : Out := settled s <|
  if 16 ≤ vp then .fault .noSuchUnit else .next <|
  match cause with
  | .stateError parity => s.controllerLost vp (!parity)
  | .heartbeat parity => s.controllerLost vp (!parity)
  | .notSelected =>
    let a := s.fld F.VPT_STAT_CLAIMA vp
    let b := s.fld F.VPT_STAT_CLAIMB vp
    if a = 2 && decide (2 ≤ claim b) then (((s.setFld F.VPT_STAT_CLAIMA 0 vp).setFlag F.VPT_STAT_PAIRED false vp).vselect vp).flt 9 9 vp
    else if b = 2 && decide (2 ≤ claim a) then (((s.setFld F.VPT_STAT_CLAIMB 0 vp).setFlag F.VPT_STAT_PAIRED false vp).vselect vp).flt 9 9 vp
    else s
  | .claimWritten a b =>
    let s := (s.setFld F.VPT_STAT_CLAIMA a.toNat vp).setFld F.VPT_STAT_CLAIMB b.toNat vp
    let s := if 4 ≤ a.toNat || 4 ≤ b.toNat then s.flt 9 10 vp else s
    s.vselect vp

/-- CLAIM_TIE_TIMEOUT (R344): a tie of 1 us takes the port down. -/
def execClaimTieTimeout (vp : Nat) (s : State) : Out := settled s <|
  if 16 ≤ vp then .fault .noSuchUnit else .next (if (s.vport vp).tie then s.portDown vp else s)

/-- STANDBY_CONTROLLER_FAILURE (R345). -/
def execStandbyControllerFailure (vp : Nat) (s : State) : Out := settled s <|
  if 16 ≤ vp then .fault .noSuchUnit else .next <|
  if !s.flag F.VPT_STAT_PAIRED vp then s
  else (((s.setFld (s.actFld vp).2 0 vp).setFlag F.VPT_STAT_PAIRED false vp).consume 11).flt 9 8 vp

/-- PORT_PLL_LOSS (R330): one port, or with VREFCLK every port. -/
def execPortPllLoss (vp : Option Nat) (s : State) : Out := settled s <|
  match vp with
  | some v => if 16 ≤ v then .fault .noSuchUnit else .next (s.portDown v)
  | none => .next ((List.range 16).foldl (fun s v => s.portDown v) (s.flt 9 12))

end Sys2Proof.Machine
end

