-- ==== Sys2Proof/Machine/Clock.lean ====
section
/-! DEFINITION. Clocks, gears and the derailleur (18), and the state that a cold reset keeps (19 R410). -/

namespace Sys2Proof.Machine

/-! Cold reset -/

/-- What a cold reset keeps (19 R410; 11 R276): CLK_AONCAUSE, the spare state of the ranks (a copy in progress is complete at once), the odometer; also what is no state of the complex: the levels of its pins, its power, the queue's rest and what it has sent. -/
def State.coldState (s : State) : State :=
  let z := State.reset
  let spares := (List.range 16).map (fun m =>
    let x := s.mc m
    let used := match x.copyRank with | some r => putBits (s.fld F.MEM_CHSTAT_SPUSED m) r r 1 | none => s.fld F.MEM_CHSTAT_SPUSED m
    (m, used, s.fld F.MEM_CHSTAT_SPDEV m, match x.copyRank with | some r => x.spares.put r (s.fld F.MEM_CHSTAT_SPDEV m) | none => x.spares))
  let aon := s.reg F.CLK_AONCAUSE_VAL.base
  let z := { z with pending := s.pending, part := s.part, out := s.out, freeCtr := s.freeCtr, busData := s.busData,
                    svc := { z.svc with odo := s.svc.odo, powered := s.svc.powered, porst := s.svc.porst, trip := s.svc.trip, aonGood := s.svc.aonGood, gpioLevel := s.svc.gpioLevel } }
  let z := if aon = 0 then z else z.setReg F.CLK_AONCAUSE_VAL.base aon
  spares.foldl (fun z p =>
    if p.2.1 = 0 then z else
      let copied := (s.mc p.1).copyRank.isSome
      let z := ((z.setFld F.MEM_CHSTAT_SPUSED p.2.1 p.1).setFld F.MEM_CHSTAT_SPDEV p.2.2.1 p.1).setMc p.1
        { McSt.reset with spares := p.2.2.2, copyPtr := if copied then s.rankLines else (s.mc p.1).copyPtr }
      if copied then z.consume 7 else z) z

/-- The complex holds itself in reset (R394); CLK_AONCAUSE has the cause: 1 FOSC failed, 2 FOSC not qualified, 3 SOSC failed. -/
def State.holdReset (s : State) (cause : Nat) : State :=
  let s := (s.coldState).updSvc (fun k => { k with resetHold := true })
  (s.setFlag F.CLK_AONCAUSE_VAL true).setFld F.CLK_AONCAUSE_CAUSE cause

/-- RESET_HOLD_PULSE (R394): ERR_N is pulsed while the hold lasts. -/
def execResetHoldPulse (s : State) : Out := settled s <| .next (if s.svc.resetHold && s.svc.powered && !s.svc.trip then s.errPulse else s)

/-! Sources (R391 to R395) -/

/-- The bit of a source in CLK_SRC.QUAL and FAIL. -/
def srcBit : ClkSrc → Nat
  | .fosc => 5 | .sosc => 4 | .xa => 3 | .xb => 2 | .vref => 1 | .pcie => 0

def State.qual (s : State) (c : ClkSrc) : Bool := bits (s.fld F.CLK_SRC_QUAL) (srcBit c) (srcBit c) == 1
def State.failed (s : State) (c : ClkSrc) : Bool := bits (s.fld F.CLK_SRC_FAIL) (srcBit c) (srcBit c) == 1
def State.clkOk (s : State) (c : ClkSrc) : Bool := s.qual c && !s.failed c

/-- The source that a monitor measures against (Table CLK-1): XA gives way to FOSC while it is not qualified or has failed. -/
def State.monRef (s : State) : ClkSrc → ClkSrc
  | .fosc => .sosc
  | .sosc | .xa => .fosc
  | _ => if s.clkOk .xa then .xa else .fosc

/-- The acceptance band of a monitor, in percent either way (R392). A change of its reference does not change it. -/
def monBand : ClkSrc → Nat
  | .fosc | .sosc => 16
  | _ => 6

/-- The source that R393 names: XA, XB, FOSC, the first that is qualified and has not failed. -/
def State.refWanted (s : State) : Option Nat :=
  if s.clkOk .xa then some 0 else if s.clkOk .xb then some 1 else if s.clkOk .fosc then some 2 else none

/-- The PLLs follow the reference: holdover until they relock, and the noted fault at each change. -/
def State.setRef (s : State) : State :=
  match s.refWanted with
  | some r => if r = s.fld F.CLK_SRC_REF then s else ((s.setFld F.CLK_SRC_REF r).updSvc (fun k => { k with holdOver := true })).flt 13 1
  | none => s

/-- DISC goes out on a port that trains, and on the load link (10 R259): this complex and port, its digest, and the global-link entry of FL14 and FL15. -/
def State.sendDisc (s : State) (p : Nat) : State :=
  s.send (.felardCtl p) 0 0x44 [s.cxid, p, s.fld F.FAB_DIGEST_DIGEST, if p < 14 then 0 else (s.reg (F.FAB_GLT_V.off (gltIdx s.cxid p))).toNat]

/-- The Felard step (R395; 10 R237, R259): once XB is qualified the used ports begin to train and send DISC; an unused one shows so. -/
def State.trainPorts (s : State) : State :=
  if !s.clkOk .xb then s else
  (List.range 16).foldl (fun s p =>
    if !s.portUsed s.cxid p then s.setFld F.FAB_PSTAT_STATE 7 p
    else if s.fld F.FAB_PSTAT_STATE p == 0 then (s.setFld F.FAB_PSTAT_STATE 1 p).sendDisc p
    else if s.fld F.FAB_PSTAT_STATE p == 1 || (s.fport p).loadOnly then s.sendDisc p else s) s

/-- CLOCK_QUALIFIED (R392): 256 windows in a row within the band. A failed source stays failed until cold reset. -/
def execClockQualified (c : ClkSrc) (s : State) : Out := settled s <|
  .next <|
    if s.dead || s.qual c || s.failed c then s else
    let s := (s.setFld F.CLK_SRC_QUAL (putBits (s.fld F.CLK_SRC_QUAL) (srcBit c) (srcBit c) 1)).setRef
    if c = .xb && 11 ≤ s.fld F.BOO_STAT_STEP && s.fld F.BOO_STAT_PHASE ≠ 1 then s.trainPorts else s

/-- CLOCK_SOURCE_FAILED (R392 to R395). -/
def execClockSourceFailed (c : ClkSrc) (s : State) : Out := settled s <|
  .next <|
    if s.dead || !s.clkOk c then s else
    let s := (s.setFld F.CLK_SRC_FAIL (putBits (s.fld F.CLK_SRC_FAIL) (srcBit c) (srcBit c) 1)).flt 13 0 0 none (BitVec.ofNat 64 (srcBit c))
    match c with
    | .fosc => if s.fld F.CLK_SRC_REF = 2 || !(s.clkOk .xa || s.clkOk .xb) then s.holdReset 1 else s
    | .sosc => s.holdReset 3
    | .xa => s.setRef
    | .xb =>
      let s := (List.range 16).foldl (fun s p => if s.portUp p then s.linkDown p else if s.fld F.FAB_PSTAT_STATE p == 1 then s.setFld F.FAB_PSTAT_STATE 0 p else s) s
      s.setRef
    | .vref => (List.range 16).foldl (fun s v => s.portDown v) (s.flt 9 12)
    | .pcie => if s.svc.pcieUp then s.pcieLost else s

/-- PLL_RELOCK (R393): holdover ends. -/
def execPllRelock (s : State) : Out := settled s <| .next (s.updSvc (fun k => { k with holdOver := false }))

/-! Switches and gears (R396 to R402) -/

/-- The frequency of a gear in MHz, and of the bridge clock (R396, R400). -/
def gearMhz (g : Nat) : Nat := 1250 + 250 * g

/-- The nominal frequency of a clock domain in Hz (Table CLK-2): a cluster's gear, or the bridge clock, and each controller's data rate divided by 8. Nothing else in the model depends on it (R397). -/
def State.domHz (s : State) (dom : Nat) : Nat :=
  if dom < 8 then (if s.svc.domSel.get 0 dom = 1 then gearMhz 0 else gearMhz (s.fld F.CLK_GEAR_CUR dom)) * 1000000
  else if dom = 8 then 2400000000
  else if dom ≤ 24 then s.fld F.MEM_POP_MTS * 125000
  else if dom ≤ 40 then 1750000000
  else if dom ≤ 56 then 800000000
  else [1600000000, 2000000000, 1000000000, 800000000, 500000000, 1000000000, 32768].getD (dom - 57) 0

/-- The voltage of a gear in mV (R400): the part's fused value within 650 to 1,050, raised by the derailleur tables by 30 at most, never above 1,050. -/
def gearMv (g : Nat) : Nat := min 1050 (650 + (Config.gearFuse g).val + (Config.gearRaise g).val)

/-- The voltage that a cluster's rail has or moves to (Table CLK-4, R405): that of the higher of its gear and of the gear it changes to, in an emergency that of gear 0. -/
def State.clMv (s : State) (c : Nat) : Nat :=
  let cur := s.fld F.CLK_GEAR_CUR c
  if s.emergency then gearMv 0
  else if s.flag F.CLK_GEAR_CHG c then gearMv (max cur (s.svc.gearTo.get cur c)) else gearMv cur

/-- The clock of a cluster's domain changes: to the bridge clock for a gear change or an emergency, and back to its PLL when neither asks for the bridge. Other domains have one clock. -/
def State.clkSwitch (s : State) (dom : Nat) : State :=
  if 8 ≤ dom then s else
  let want := s.flag F.CLK_GEAR_CHG dom || s.emergency || s.svc.avsHeld.contains dom
  s.updSvc (fun k => { k with domSel := k.domSel.put dom (b2n want) })

/-- CLOCK_SWITCH. -/
def execClockSwitch (dom : Nat) (s : State) : Out := settled s <|
  if 64 ≤ dom then .fault .noSuchUnit else .next (if s.dead then s else s.clkSwitch dom)

/-- FREEWHEEL_SWITCH (R399): the switch completes without edges from the old clock. -/
def execFreewheelSwitch (dom : Nat) (s : State) : Out := settled s <|
  if 64 ≤ dom then .fault .noSuchUnit else .next <|
  if s.dead then s else
  (((s.clkSwitch dom).count F.CLK_SWLOG_COUNT (some F.CLK_SWLOG_OVF)).setFld F.CLK_SWLOG_LAST dom).flt 13 2

/-- GEAR_CHANGE (R401, Table CLK-4): the change in progress ends at its target; another target starts the next change. -/
def execGearChange (cl : Nat) (s : State) : Out := settled s <|
  if 8 ≤ cl then .fault .noSuchUnit else .next <|
  if s.dead || !s.flag F.CLK_GEAR_CHG cl || s.emergency || s.svc.avsHeld.contains cl then s else
  let t := s.svc.gearTo.get (s.gearTarget cl) cl
  let s := (s.setFld F.CLK_GEAR_CUR t cl).setFlag F.CLK_GEAR_CHG false cl
  (s.updSvc (fun k => { k with domSel := k.domSel.put cl 0, gearTo := k.gearTo.del cl })).gearDue cl

/-! Power and heat (R403 to R405) -/

/-- A cluster is at gear 0 on the bridge clock. -/
def State.bridge (s : State) (c : Nat) : State :=
  ((s.setFld F.CLK_GEAR_CUR 0 c).setFlag F.CLK_GEAR_CHG false c).updSvc (fun k => { k with domSel := k.domSel.put c 1, gearTo := k.gearTo.del c })

/-- Enter an emergency (R405): every cluster falls to the bridge clock, deferred requests are released by force. Its caps start the later rise from gear 0: PWRCAP after a power emergency, THMCAP after a thermal one (log 42). -/
def State.emergencyOn (s : State) (thermal : Bool) : State :=
  let f := if thermal then F.CLK_PWR_TEMERG else F.CLK_PWR_PEMERG
  if s.flag f then s else
  let s := s.setFlag f true
  let s := (List.range 8).foldl (fun s c => (s.bridge c).setFld (if thermal then F.CLK_GEAR_THMCAP else F.CLK_GEAR_PWRCAP) 0 c) s
  let s := if s.fld F.CLK_REQ_STATE = 2 then s.forceRelease s.svc.reqTgt else s
  s.flt 13 (if thermal then 5 else 6)

/-- An emergency ends: the clusters rise as their caps let them. -/
def State.emergencyOff (s : State) (thermal : Bool) : State :=
  let s := s.setFlag (if thermal then F.CLK_PWR_TEMERG else F.CLK_PWR_PEMERG) false
  if s.emergency then s else (List.range 8).foldl (fun s c => s.gearDue c) s

/-- The cluster with the highest, or lowest, current gear among some: the lowest-numbered of the highest, the highest-numbered of the lowest. -/
def State.topGear (s : State) (cs : List Nat) : Option Nat :=
  cs.foldl (fun (b : Option Nat) c => match b with | none => some c | some d => if s.fld F.CLK_GEAR_CUR d < s.fld F.CLK_GEAR_CUR c then some c else some d) none
def State.lowGear (s : State) (cs : List Nat) : Option Nat :=
  cs.foldl (fun (b : Option Nat) c => match b with | none => some c | some d => if s.fld F.CLK_GEAR_CUR c ≤ s.fld F.CLK_GEAR_CUR d then some c else some d) none

/-- Set a cap and follow it. -/
def State.setCap (s : State) (f : Fld) (c v : Nat) : State := (s.setFld f v c).gearDue c

/-- POWER_ESTIMATE_TICK (R403, R405): every 10 us. Ten ticks in a row above 1.05 PLIM are an emergency; 100 below PLIM - 5% raise one cluster by one gear. The fault comes when the first cap falls (log 43). -/
def execPowerEstimateTick (watts : Nat) (s : State) : Out := settled s <|
  .next <|
    if s.dead then s else
    let lim := s.fld F.CLK_PWR_PLIM
    let s := s.setFld F.CLK_PWR_EST (min watts 1023)
    let high := if lim * 105 < watts * 100 then s.svc.powHigh + 1 else 0
    let low := if watts * 100 < lim * 95 then s.svc.powLow + 1 else 0
    let s := s.updSvc (fun k => { k with powHigh := high, powLow := low, powUnder := if watts < lim then k.powUnder + 1 else 0 })
    if high = 10 then s.emergencyOn false
    else if lim < watts then
      let capped := (List.range 8).any (fun c => s.fld F.CLK_GEAR_PWRCAP c != 15)
      match s.topGear ((List.range 8).filter (fun c => s.fld F.CLK_GEAR_PWRCAP c != 0)) with
      | some c => let s := s.setCap F.CLK_GEAR_PWRCAP c (s.fld F.CLK_GEAR_PWRCAP c - 1); if capped then s else s.flt 13 3
      | none => s
    else if 100 ≤ low && !s.emergency then
      match s.lowGear ((List.range 8).filter (fun c => s.fld F.CLK_GEAR_PWRCAP c != 15)) with
      | some c => (s.setCap F.CLK_GEAR_PWRCAP c (s.fld F.CLK_GEAR_PWRCAP c + 1)).updSvc (fun k => { k with powLow := 0 })
      | none => s
    else s

/-- POWER_EMERGENCY_END (R405): the estimate stayed below PLIM for 1 ms. -/
def execPowerEmergencyEnd (s : State) : Out := settled s <|
  .next (if s.dead || !s.flag F.CLK_PWR_PEMERG || s.fld F.CLK_PWR_PLIM ≤ s.fld F.CLK_PWR_EST then s else s.emergencyOff false)

/-! Explicit requests (R408, R409) -/

/-- Is a target code one of Table CLK-5. -/
def tgtOk (t : Nat) : Bool := t ≤ 16 || (decide (0x20 ≤ t) && decide (t ≤ 0x35)) || (decide (0x40 ≤ t) && decide (t ≤ 0x4F))

/-- Is an OP listed for a target (1 gate, 2 power down, 3 wake). -/
def opListed (op t : Nat) : Bool := match op with | 1 => t < 0x40 | 2 => t ≠ 16 | 3 => true | _ => false

/-- The state of a block; a controller in self-refresh counts as powered down. -/
def State.blkState (s : State) (t : Nat) : BlkSt := if 0x40 ≤ t then (if s.ranks.all (fun r => (s.mc (t - 0x40)).selfRef.contains r) then .off else .run) else s.svc.blk.get .run t

/-- A wall or engine that serves a port with VPT_CTL.EN = 1. -/
def State.serves? (s : State) (t : Nat) : Bool :=
  (List.range 16).any (fun v => s.flag F.VPT_CTL_EN v && (if t < 16 then s.portWall v == some t else if 0x20 ≤ t && t ≤ 0x35 then s.portEngine v == some (t - 0x20) else false))

/-- Open core contexts. -/
def State.openCtx (s : State) (t : Nat) : Bool :=
  if t < 16 then s.fld F.CIP_WALL_CCTX t != 0 else if 0x20 ≤ t && t ≤ 0x35 then s.fld F.ZIP_ENG_STREAMS (t - 0x20) != 0 else false

/-- The target is failed. -/
def State.blkFailed (s : State) (t : Nat) : Bool :=
  if t < 16 then s.fld F.CIP_WALL_STATE t == 2 else if 0x20 ≤ t && t ≤ 0x35 then s.fld F.ZIP_ENG_ROLE (t - 0x20) == 2 else false

/-- Is a block already in the state that an OP asks for. -/
def inState (op : Nat) (b : BlkSt) : Bool := match op, b with | 1, .gated => true | 2, .off => true | 3, .run => true | _, _ => false

/-- Is a target in the state that an OP asks for; a controller of which only some ranks are in self-refresh is in neither. -/
def State.inState (s : State) (op t : Nat) : Bool :=
  if 0x40 ≤ t && op = 3 then (s.mc (t - 0x40)).selfRef.isEmpty else Machine.inState op (s.blkState t)

/-- The REASON of a refusal (R409), 0 when there is none. A block that does not run serves no port. -/
def State.reqReason (s : State) (op t : Nat) : Nat :=
  if !opListed op t then 1
  else if op ≠ 3 && s.blkState t == .run && (s.serves? t || s.openCtx t) then 2
  else if s.blkFailed t || s.inState op t then 3 else 0

/-- A write of CLK_REQ with GO = 1: OP 4 withdraws. -/
def State.reqGo (s : State) (src : Src) (op t : Nat) : State :=
  let off := F.CLK_REQ_STATE.base
  let st := s.fld F.CLK_REQ_STATE
  if op = 4 then (if st = 2 then (s.setFld F.CLK_REQ_STATE 0).setFld F.CLK_REQ_OP 4 else s.cfgErr src off)
  else if st = 1 || st = 2 || !tgtOk t || 4 < op then s.cfgErr src off
  else
    let s := (s.setFld F.CLK_REQ_OP op).setFld F.CLK_REQ_TGT t
    match s.reqReason op t with
    | 0 =>
      let s := s.updSvc (fun k => { k with reqOp := op, reqTgt := t })
      if op ≠ 3 && t ≤ 16 && s.held? t then
        let s := (s.setFld F.CLK_REQ_STATE 2).setFld F.CLK_REQ_REASON 0
        if s.emergency then s.forceRelease t else s
      else (if op = 3 then s else s.scrub t).setFld F.CLK_REQ_STATE 1 |>.setFld F.CLK_REQ_REASON 0
    | r => (s.setFld F.CLK_REQ_STATE 4).setFld F.CLK_REQ_REASON r

/-- A write of CLK_REQ: without GO, OP and TGT only. -/
def State.clkReq (s : State) (src : Src) (v : W64) : State :=
  if fieldOf v 63 63 = 0 then s.wrReg src F.CLK_REQ_STATE.base v else s.reqGo src (fieldOf v 62 60) (fieldOf v 55 48)

def execGateClock (src : Src) (tgt : BitVec 8) (s : State) : Out := settled s <| .next (if s.dead then s else s.reqGo src 1 tgt.toNat)
def execPowerDown (src : Src) (tgt : BitVec 8) (s : State) : Out := settled s <| .next (if s.dead then s else s.reqGo src 2 tgt.toNat)
def execWake (src : Src) (tgt : BitVec 8) (s : State) : Out := settled s <| .next (if s.dead then s else s.reqGo src 3 tgt.toNat)
/-- WITHDRAW (R389): the deferral ends, no scrub, the hold stays; CLK_REQ.STATE returns to idle (log 44). -/
def execWithdraw (src : Src) (s : State) : Out := settled s <| .next (if s.dead then s else s.reqGo src 4 0)

/-- EXPLICIT_REQUEST_DONE (R408): the block is gated, powered down (a controller: in self-refresh) or awake. -/
def execExplicitRequestDone (s : State) : Out := settled s <|
  .next <|
    if s.dead || s.fld F.CLK_REQ_STATE ≠ 1 then s else
    let t := s.svc.reqTgt
    let op := s.svc.reqOp
    let s := s.setFld F.CLK_REQ_STATE 3
    if 0x40 ≤ t then
      let m := t - 0x40
      if s.fld F.MEM_CHSTAT_PWR m = 3 then s else s.mcSelfRef m (op == 2)
    else
      let b : BlkSt := if op = 1 then BlkSt.gated else if op = 2 then BlkSt.off else BlkSt.run
      s.updSvc (fun k => { k with blk := if op = 3 then k.blk.del t else k.blk.put t b })

/-! Service blocks (R407) -/

/-- A write of CLK_SBLK: a block that enters deep sleep loses its state. -/
def State.sblk (s : State) (src : Src) (v : W64) : State :=
  let old := s.reg F.CLK_SBLK_TRACE.base
  let s := s.wrReg src F.CLK_SBLK_TRACE.base v
  let deep := fun (hi lo : Nat) => fieldOf (s.reg F.CLK_SBLK_TRACE.base) hi lo == 2 && fieldOf old hi lo != 2
  let t := deep 1 0
  let g := deep 5 4
  let j := deep 7 6
  let s := if t then (List.range 8).foldl (fun s c => s.setReg (F.SVC_TRCTL_EN.off c) 0) (s.updSvc (fun k => { k with trace := [], traceLost := [] })) else s
  let s := if g then (List.range 24).foldl (fun s n => s.setReg (F.PKG_GPIO_PID.off n) 0) (s.updSvc (fun k => { k with gpioPend := [] })) else s
  if j then s.updSvc (fun k => { k with tapReg := 0, tapBoundary := 0, tapSample := 0 }) else s

/-- CLK_SBLK_WRITE. -/
def execClkSblkWrite (src : Src) (v : BitVec 64) (s : State) : Out := settled s <| .next (if s.dead then s else s.sblk src v)

end Sys2Proof.Machine
end

