-- ==== Sys2Proof/Machine/Events.lean ====
section
/-! DEFINITION. Events of a logical core: pending interruptions and restarts (02 R47 to R53; 20 R438, R440, R494), the spill and fill engine (02 R41 to R46), performance counters (02 R55), comparison, retry, self-check and sparing (07 R163 to R186). -/

namespace Sys2Proof.Machine

/-! Pending interruptions (02 Table COR-5, Table COR-6) -/

/-- The lowest-numbered operating core with a property (20 R438, 12 R301). -/
def State.firstCore (s : State) (p : Core → Bool) : Option Nat := (List.range s.nLc).find? (fun n => s.operating n && p (s.core n))

/-- The held machine check that is taken first: increasing class, then increasing named core or PID (20 R494). -/
def firstMc (l : List HeldMc) : Option HeldMc :=
  l.foldl (fun b m => match b with
    | none => some m
    | some x => if m.cls < x.cls || (m.cls = x.cls && m.key < x.key) then some m else b) none

/-- A transfer that met poisoned data and still owes its machine check (02 R45). -/
def Core.poisonOwed (c : Core) : Option IntSrc :=
  (c.pendSpill.find? (fun p => match p.2 with | .machine _ _ => true | _ => false)).map (fun p => .poison p.1)

/-- A transfer that owes its spill fault or intercept; one whose prefix the monitor is mending is not pending (02 R45, R51). -/
def Core.spillOwed (c : Core) : Option IntSrc :=
  (c.pendSpill.find? (fun p => (match p.2 with | .machine _ _ => false | _ => true) && c.kept != some (.spill p.1))).map (fun p => .spill p.1)

/-- The machine check that a core takes at a boundary: one held for the complex, on the lowest-numbered operating core with MCM = 1, or its own class 0x03 whatever MCM holds (R440, R441). -/
def State.machinePending (s : State) (lc : Nat) : Option IntSrc :=
  let c := s.core lc
  let held := if s.lowestCore = some lc && c.arch.psw.mcm then firstMc s.svc.mcs else none
  match held with
  | some m => if m.cls < 3 || c.poisonOwed.isNone then some (.machine m) else c.poisonOwed
  | none => c.poisonOwed

/-- Is an external code pending on the core (R53, 20 R438, 23 R489). -/
def State.externalPending (s : State) (lc code : Nat) : Bool :=
  let c := s.core lc
  let pid := c.arch.psw.pid
  let first := s.firstCore (fun d => d.arch.psw.pid == pid && d.arch.psw.exm) == some lc
  if code = 0x1001 then decide (c.arch.tbc.toNat ≤ s.fab.tb.toNat)
  else if code = 0x1601 then s.svc.pendFlt.has pid.toNat && first
  else if code = 0x1701 then s.svc.gpioPend.get 0 pid.toNat != 0 && first
  else c.pendExt.contains (BitVec.ofNat 16 code)

/-- The subclass whose FIFO of the core's PID this core serves: the lowest-numbered one (12 R301; log 22). -/
def State.ioPending (s : State) (lc : Nat) : Option IntSrc :=
  let pid := (s.core lc).arch.psw.pid
  (List.range 8).findSome? (fun isc =>
    match s.chn.fifos.get [] (pid.toNat * 8 + isc) with
    | [] => none
    | sch :: _ =>
      if s.firstCore (fun d => d.arch.psw.pid == pid && d.arch.psw.iom && (d.arch.getSr 0x3C).getLsbD isc) = some lc then some (.io isc sch) else none)

/-- The interruption of highest priority that the core can take now (R49); one that a failed partition area keeps is not among them until the monitor has returned (R51). Of two of priority 2 a failed transfer comes first (DESIGN CHOICE, log 51). -/
def State.pickInt (s : State) (lc : Nat) : Option IntSrc :=
  let c := s.core lc
  let prog := if c.pendProg.isSome && c.kept != some .program then some IntSrc.program else none
  let ext := if c.arch.psw.exm then
    ([0x1001, 0x1201, 0x1301, 0x1401, 0x1501, 0x1601, 0x1701].find? (fun k => s.externalPending lc k && c.kept != some (.external k))).map IntSrc.external else none
  let io := match s.ioPending lc with
    | some x => if c.kept = some x then none else some x
    | none => none
  let rst := if c.pendRestart then some IntSrc.restart else none
  s.machinePending lc <|> c.spillOwed <|> prog <|> ext <|> io <|> rst

/-- The interruption with its identification. -/
def State.intReq (s : State) (lc : Nat) (x : IntSrc) : IntReq :=
  let c := s.core lc
  let pid := c.arch.psw.pid.toNat
  match x with
  | .machine m => .machine m.id none
  | .poison b => c.spillReq b
  | .spill b => c.spillReq b
  | .program => (c.owedReq .program).1
  | .external code =>
    let aux : W64 :=
      if code = 0x1601 then
        match s.svc.pendFlt.find pid with
        | some e => BitVec.ofNat 64 (e.1 * 2 ^ 55 + e.2 * 2 ^ 39)
        | none => 0
      else if code = 0x1701 then (s.svc.gpioPend.get 0 pid).setWidth 64 else 0
    .external (BitVec.ofNat 16 code) aux
  | .io isc sch => .io (BitVec.ofNat 3 isc) (s.chn.sch.get Subch.reset sch.toNat).scsw
  | .restart => .restart

/-- The interruption is no longer pending. The comparator's condition stays (R53). -/
def State.clearInt (s : State) (lc : Nat) (x : IntSrc) (pid : Nat) : State :=
  match x with
  | .machine m => { s with svc := { s.svc with mcs := s.svc.mcs.erase m } }
  | .poison _ | .spill _ | .program => s.updCore lc (fun c => c.unowed x)
  | .external code =>
    if code = 0x1601 then { s with svc := { s.svc with pendFlt := s.svc.pendFlt.del pid } }
    else if code = 0x1701 then { s with svc := { s.svc with gpioPend := s.svc.gpioPend.del pid } }
    else s.updCore lc (fun c => { c with pendExt := c.pendExt.erase (BitVec.ofNat 16 code) })
  | .io isc _ => { s with chn := { s.chn with fifos := s.chn.fifos.upd [] (pid * 8 + isc) List.tail } }
  | .restart => s.updCore lc (fun c => { c with pendRestart := false })

/-- May an interruption that is not logged be taken at this boundary: an instruction that has issued an operation it cannot repeat ends first (07 R171), and a SYNC completes first; during a retry it waits (07 R172, R173), also while logged inputs are still to be replayed. -/
def Core.mayTake (c : Core) : Bool :=
  (match c.wait with | .none | .window _ => true | _ => false) && c.retry == 0 && c.replay.isEmpty

/-- After an interruption has been taken: a halt that waited for the boundary of an unchecked core stops it (22 R471). -/
def Core.haltAfter (c : Core) : Core :=
  if c.haltPend && c.broken && decide (c.run = .running) then { c with haltPend := false, run := .halted } else c

/-- Take a pending interruption at the boundary: the running interval is confirmed, the entry made and logged (R51). What fails in the partition area stays pending until the monitor returns, but for the fault of a waiting CALLW or RETW, which recurs. -/
def State.takePending (s : State) (lc : Nat) (x : IntSrc) : State :=
  let q := s.intReq lc x
  let pid := (s.core lc).arch.psw.pid.toNat
  match x with
  | .poison _ | .spill _ | .program => (s.takeOwed lc x).updCore lc Core.haltAfter
  | _ =>
    let r := s.takeAsync lc x q 0
    match r.2 with
    | .waits => r.1
    | .toMonitor => r.1.updCore lc (fun c => ({ c with kept := some x } : Core).haltAfter)
    | .stopped => if x == .restart then r.1.clearInt lc x pid else r.1
    | .entered => (r.1.clearInt lc x pid).updCore lc Core.haltAfter

/-- Take what is pending on a core that stands at a boundary, if it can be taken now; in a retry, what the log holds for this boundary. -/
def State.boundary (s : State) (lc : Nat) : State :=
  let s := s.endSync lc
  if !s.canRun lc then s else
  match (s.core lc).logged with
  | some (_, x, q, w) => s.takeLogged lc x q w
  | none =>
    match s.pickInt lc with
    | none => s
    | some x => if (s.core lc).mayTake then s.takePending lc x else s

/-- INTERRUPTION_ENTRY (R49, R51): the pending interruption of highest priority is taken; none enabled, or a core that is not operating: nothing. -/
def execInterruptionEntry (lc : Nat) (s : State) : Out := settled s <| if lc < 48 then .next (s.boundary lc) else .fault .noSuchUnit

/-- Take a restart on a core that stands still. A restart that fails in the monitor area leaves check stop (R48). -/
def State.restartStopped (s : State) (lc : Nat) : State :=
  let c := s.core lc
  let r := (s.setCore lc { c with run := .running, wait := .none }).takeAsync lc .restart .restart 0
  if r.2 = .waits then r.1.updCore lc (fun d => { d with run := c.run, wait := c.wait }) else
    (r.1.clearInt lc .restart 0).updCore lc (fun d => if d.haltPend && d.run = .running then { d with haltPend := false, broken := true, brokenSince := s.fab.tb, run := .halted } else d)

/-- RESTART_INTERRUPTION (R47, R48; 07 R185; 19 R428): a stopped or check-stopped core restarts at once, unless a held sparing request moves it first; a running core takes the restart when nothing of higher priority is enabled. -/
def execRestartInterruption (lc : Nat) (s : State) : Out := settled s <|
  if 48 ≤ lc then .fault .noSuchUnit else
  let c := s.core lc
  if !s.lcExists lc || !c.pendRestart || s.flag F.FLT_FENCE_CXF || s.svc.resetHold then .next s else
  match c.run with
  | .stopped => .next (s.restartStopped lc)
  | .checkStop => .next (if c.spareReq then s else s.restartStopped lc)
  | .running => .next (if s.pickInt lc = some .restart then s.boundary lc else s)
  | _ => .next s

/-! Spill and fill (02 R41 to R46) -/

/-- Does the engine of the core work: it completes a transfer it has begun, also while the core is halted. -/
def State.engineRuns (s : State) (lc : Nat) (x : Nat × Bool) : Bool :=
  let c := s.core lc
  s.lcExists lc && (c.run == .running || c.run == .halted) && !s.flag F.FLT_FENCE_CXF && !s.svc.resetHold && c.xfer == some x

/-- The context of a spill or fill access: the translation in force, with the rights of supervisor state (R42). -/
def Core.spillCtx (c : Core) (lc : Nat) : XCtx := { c.xctx lc with st := max 1 c.arch.psw.state.toNat }

/-- A failed transfer (R45): SFLT set, the window state as it was, one interruption at the next boundary. ILC is that of the waiting instruction, else of the last one (log 15). -/
def State.spillFault (s : State) (lc bank : Nat) (f : SFail) : State :=
  let c := s.core lc
  let words : W64 := match c.wait with | .window w => w ++ (0 : BitVec 32) | _ => 0
  let ilc := match c.wait with | .window _ => 4 | _ => c.lastIlc
  let q : IntReq := match f with
    | .prog _ d va => .program 0x11 ilc d (BitVec.ofNat 3 bank) va
    | .icpt d lvl va pra => .intercept 3 words d lvl (BitVec.ofNat 8 (8 + bank)) va pra
    | .poison .. => f.toInt lc ilc words
  let c := { c with arch := c.arch.setWst bank (putField (c.arch.wstOf bank) 10 10 1), xfer := none, spillWhy := c.spillWhy.put bank q }
  let c := { c with pendSpill := c.pendSpill.filter (fun (p : Nat × IntReq) => p.1 != bank) ++ [(bank, q)] }
  ((s.setCore lc c.engine).countPoison f).boundary lc

/-- The transfer is over: the engine looks at both conditions again. -/
def State.xferDone (s : State) (lc : Nat) (f : Arch → Arch) (ev : Nat) : State :=
  s.updCore lc (fun c => (({ c with arch := f c.arch, xfer := none } : Core).pmcRun ev 1).engine)

/-- SPILL_FRAME (R41, R42, R44): the oldest resident frame of the bank in transfer goes to the slot at WSP. -/
def execSpillFrame (lc : Nat) (s : State) : Out := settled s <|
  if 48 ≤ lc then .fault .noSuchUnit else
  let c := s.core lc
  match c.xfer with
  | some (bank, true) =>
    if !s.engineRuns lc (bank, true) then .next s else
    let a := c.arch
    let wsp := a.wsp.get 0 bank
    if a.spdepth bank = 2 ^ 32 - 1 then .next (s.spillFault lc bank (.prog 0x11 (detailByte 2 0 9) wsp)) else
    let frame := (a.cwp bank + 1 + 8 - a.nres bank) % 8
    let bytes := (List.range 8).flatMap (fun i => toBytes 8 (a.w.get 0 (bank * 64 + frame * 8 + i)).toNat)
    match s.storeBytes (c.spillCtx lc) wsp bytes with
    | .wait s => .next s
    | .fail s f => .next (s.spillFault lc bank f)
    | .ok s _ => .next (s.xferDone lc (fun a =>
        let a := { a with wsp := a.wsp.put bank (wsp + 64) }
        a.setWst bank (putField (putField (a.wstOf bank) 63 32 (a.spdepth bank + 1)) 6 4 (a.nres bank - 1))) 0x0C)
  | _ => .next s

/-- FILL_FRAME (R41 to R43): the slot at WSP - 64 returns to the frame below the resident windows. -/
def execFillFrame (lc : Nat) (s : State) : Out := settled s <|
  if 48 ≤ lc then .fault .noSuchUnit else
  let c := s.core lc
  match c.xfer with
  | some (bank, false) =>
    if !s.engineRuns lc (bank, false) then .next s else
    let a := c.arch
    let slot := a.wsp.get 0 bank - 64
    let frame := (a.cwp bank + 8 - a.nres bank) % 8
    match s.loadBytes (c.spillCtx lc) 2 slot 64 with
    | .wait s => .next s
    | .fail s f => .next (s.spillFault lc bank f)
    | .ok s bs => .next (s.xferDone lc (fun a =>
        let w := (List.range 8).foldl (fun w i => w.put (bank * 64 + frame * 8 + i) (BitVec.ofNat 64 (packBytes ((bs.drop (8 * i)).take 8)))) a.w
        let a := { a with wsp := a.wsp.put bank slot, w := w }
        a.setWst bank (putField (putField (a.wstOf bank) 63 32 (a.spdepth bank - 1)) 6 4 (a.nres bank + 1))) 0x0D)
  | _ => .next s

/-! Time and counters -/

/-- TIME_BASE_COMPARATOR (R53): the time base reaches the core's comparator; 0x1001 is pending from then on, for the condition is read at each boundary. -/
def execTimeBaseComparator (lc : Nat) (s : State) : Out := settled s <|
  if 48 ≤ lc then .fault .noSuchUnit else .next (s.reach (s.arch lc).tbc.toNat)

/-- Counter `n` wraps: it is 0, OVFn is set; OIE = 1 raises 0x1301 (R55). -/
def Arch.pmcWrap (a : Arch) (n : Nat) : Arch :=
  (a.setSr (0x20 + n) 0).setSr 0x10 (putField (a.getSr 0x10) (8 + n) (8 + n) 1)

/-- PMC_OVERFLOW (R55, R56): a counter that counts reaches its wrap; the events that the model does not see (cycles, misses) may have brought it there (log 23). -/
def execPmcOverflow (lc n : Nat) (s : State) : Out := settled s <|
  if 48 ≤ lc || 8 ≤ n then .fault .noSuchUnit else
  let c := s.core lc
  let ev := fieldOf (c.arch.getSr (0x18 + n)) 15 0
  if c.run = .running && c.arch.pmcOn n ev && !(uncoreEvent ev && fieldOf (c.arch.getSr 0x10) 16 16 == 1) then
    let d := { c with arch := c.arch.pmcWrap n, ckpt := c.ckpt.pmcWrap n }
    .next (s.setCore lc (if fieldOf (c.arch.getSr 0x10) 2 2 = 1 then d.pendExternal 0x1301 else d))
  else .next s

/-! Comparison and retry (07 R166 to R175) -/

/-- Retry exhausted (Table TAN-4 step 4c): the fault, and sparing of the core, held at its checkpoint; its input log stays, so that the operations it has issued are not issued again where the core resumes (R171). The fault's class is the one of Table TAN-8 (log 4). -/
def State.retryExhausted (s : State) (lc : Nat) : State :=
  let s := s.flt 2 4 (s.pcOf lc)
  let s := s.requestSparing lc true
  s.updCore lc (fun c => { c with retry := 0, retryStart := none })

/-- A logical core is lost (R184): its state stays in the checkpoint array; severe fault, class 0x02 machine check. Its physical core is marked failed (log 24). What its log holds is not replayed: its interruptions are pending again. REASON 1: no spare; 2: checkpoint array uncorrectable. -/
def State.loseCore (s : State) (lc reason : Nat) : State :=
  let s := (s.discardCore lc).dropReplay lc
  let s := s.releaseRange lc (fun _ => true)
  let c := s.core lc
  let s := (s.setCore lc { c with run := .lost, spareReq := false, spareFailing := false, lostCkpt := reason == 2, wait := .none, xfer := none, retry := 0, retryLeft := 0, retryStart := none }).accessGone lc
  let s := s.setFld F.TAN_PCSTAT_ROLE 3 c.phys
  let s := s.holdMc 2 lc (BitVec.ofNat 64 (2 * 2 ^ 56 + lc * 2 ^ 48 + reason * 2 ^ 40 + c.phys * 2 ^ 34))
  (s.flt 2 (if reason = 1 then 6 else 7) c.phys).ageCap (c.phys / 7)

/-- A mismatch or a tandem-path fault (R174): at most 3 attempts, begun within 2 us of the first; an attempt that has begun runs to its comparison. The failed interval is discarded, its unsubmitted range operation released (08 R196), its input log kept for the attempt (R173). `ckptBad`: the checkpoint array gives an uncorrectable error as it is restored, and the core is lost (R184). -/
def State.mismatch (s : State) (lc : Nat) (ckptBad : Bool) : State :=
  let c := s.core lc
  let first := match c.retryStart with | some t => t | none => s.fab.tb
  if c.retry ≠ 0 && (decide (3 ≤ c.retry) || decide (2 * usec ≤ s.fab.tb.toNat - first.toNat)) then s.retryExhausted lc
  else if ckptBad then s.loseCore lc 2 else
  let s := (s.discardCore lc).updCore lc (fun d => (({ d with retry := c.retry + 1, retryStart := some first } : Core).pmcNow 0x0E 1).engine)
  (s.accessGone lc).count F.TAN_PCSTAT_RETRY (some F.TAN_PCSTAT_ROVF) c.phys

/-- CHECKPOINT_COMPARISON (R166 to R168, R174): the interval that has ended is confirmed, or a retry starts. A cadence that the next instruction or an interruption ends early has its comparison before that: without a difference it is confirmed there (log 10), with one the retry starts now. A core with broken lock-step compares nothing (R178). -/
def execCheckpointComparison (lc : Nat) (r : CmpEnd) (s : State) : Out := settled s <|
  if 48 ≤ lc then .fault .noSuchUnit else
  let c := s.core lc
  if !s.canRun lc || c.broken then .next s
  else if r.mismatch then .next (if c.bounded || c.begun then s.mismatch lc r.ckptBad else s)
  else .next (if c.bounded then (s.confirmCore lc).endSync lc else s)

/-- RETRY_TIME_LIMIT (R174, Table TAN-4): 2 us have passed since the first mismatch: the attempt under way runs to its comparison, and no further one begins. -/
def execRetryTimeLimit (lc : Nat) (s : State) : Out := settled s <|
  if 48 ≤ lc then .fault .noSuchUnit else
  let c := s.core lc
  match c.retryStart with
  | some t => .next (if s.canRun lc && c.retry ≠ 0 then s.reach (t.toNat + 2 * usec) else s)
  | none => .next s

/-- DELAY_REGISTER_PARITY (R164): counted, noted; a retry starts, but not for a core that runs unchecked (R178). -/
def execDelayRegisterParity (p : DelayHit) (s : State) : Out := settled s <|
  let lc := p.lc
  if 48 ≤ lc then .fault .noSuchUnit else
  if !s.canRun lc then .next s else
  let c := s.core lc
  let s := (s.count F.TAN_PCSTAT_PAR (some F.TAN_PCSTAT_POVF) c.phys).flt 2 1 c.phys
  .next (if c.broken then s else s.mismatch lc p.ckptBad)

/-- STORE_BUFFER_DRAIN (R170; 09 R221): the oldest confirmed entry writes its line. -/
def execStoreBufferDrain (lc : Nat) (s : State) : Out := settled s <|
  if 48 ≤ lc then .fault .noSuchUnit else
  if !s.lcExists lc || s.flag F.FLT_FENCE_CXF then .next s else .next ((s.drainOne lc).1.endSync lc)

/-- The logical core that a physical core carries. -/
def State.lcOf (s : State) (pc : Nat) : Option Nat := (List.range s.nLc).find? (fun n => (s.core n).phys == pc && !((s.core n).run == .lost))

/-- SELF_CHECK_SLOT (R177): a slot comes at every 2^20th checkpoint confirmed on the physical core; slot n injects into lane n mod 64. A missed injection is severe and requests sparing at once. -/
def execSelfCheckSlot (pc : Nat) (detected : Bool) (s : State) : Out := settled s <|
  if 56 ≤ pc then .fault .noSuchUnit else
  match s.lcOf pc with
  | none => .next s
  | some lc =>
    if s.svc.ckptCount.get 0 pc / 2 ^ 20 ≤ s.svc.selfSlot.get 0 pc then .next s else
    let s := { s with svc := { s.svc with selfSlot := s.svc.selfSlot.upd 0 pc (fun n => n + 1) } }
    if detected then .next (s.setFld F.TAN_PCSTAT_SCOK ((s.fld F.TAN_PCSTAT_SCOK pc + 1) % 65536) pc)
    else .next ((s.flt 2 5 pc).requestSparing lc true)

/-! Sparing (07 R180 to R185, Table TAN-5) -/

/-- Does a logical core wait for its move: held, or stopped awaiting a restart; in check stop only once its restart has arrived (R180, R185). -/
def State.moveDue (s : State) (lc : Nat) : Bool :=
  let c := s.core lc
  s.lcExists lc && c.spareReq && (c.run == .held || c.run == .stopped || (c.run == .checkStop && c.pendRestart))

/-- The spares in the order in which they are chosen: the same cluster first, then the lowest-numbered cluster (R181). -/
def State.spareList (s : State) (pc : Nat) : List Nat :=
  let sp := (List.range 56).filter (fun p => s.fld F.TAN_PCSTAT_ROLE p == 1)
  sp.filter (fun p => p / 7 == pc / 7) ++ sp.filter (fun p => p / 7 != pc / 7)

/-- Mark a physical core failed. -/
def State.failPc (s : State) (pc : Nat) : State := (s.setFld F.TAN_PCSTAT_ROLE 3 pc).setFld F.TAN_PCSTAT_LC 0xFF pc

/-- One spare is consumed. -/
def State.useSpare (s : State) : State := (s.setFld F.TAN_SPARE_SPARES (s.fld F.TAN_SPARE_SPARES - 1)).consume 1

/-- Choose a spare; those that fail the injection test are marked failed (Table TAN-5 step 4). -/
def State.chooseSpare (s : State) (bad : List Nat) : List Nat → State × Option Nat
  | [] => (s, none)
  | p :: r => if bad.contains p then State.chooseSpare (s.failPc p).useSpare bad r else (s, some p)

/-- Clean and invalidate the L1 and L2 arrays of a physical core to L3 (Table TAN-5 step 3). -/
def Mem.dropCore (m : Mem) (pc : Nat) : Mem :=
  { m with tags := m.tags.filter (fun p => !(decide (p.1 / 32768 / 4 = pc) && decide (p.1 / 32768 < 0x100))) }

/-- Steps 5 to 7 of Table TAN-5: the state comes from the checkpoint array; the map, the spare counts and the trace (22 R475) follow; the core resumes, halts or stays stopped as before (R180, R472), with the repair notice if it is enabled (R183). -/
def State.moveTo (s : State) (lc pc : Nat) : State :=
  let c := s.core lc
  let old := c.phys
  let rc := BitVec.ofNat 128 (4 * 2 ^ 124 + lc * 2 ^ 118 + c.arch.psw.pid.toNat * 2 ^ 110 + bits s.fab.tb.toNat 25 12 * 2 ^ 96 + pc * 2 ^ 64)
  let cl := old / 7
  let s := if cl ≠ pc / 7 && s.traceOn cl c.arch.psw.pid.toNat then s.tracePut cl rc else s
  let s := ((s.failPc old).setFld F.TAN_PCSTAT_ROLE 0 pc).setFld F.TAN_PCSTAT_LC lc pc
  let s := s.useSpare.setFld F.TAN_SPARE_MOVES (min (s.fld F.TAN_SPARE_MOVES + 1) 0xFF)
  let s := s.updMem (fun m => m.dropCore old)
  let run : RunSt := if c.run = RunSt.held then (if c.haltPend then .halted else .running) else c.run
  let d := { c with phys := pc, run := run, tlb := [], spareReq := false, spareFailing := false, xfer := none, retry := 0, retryStart := none,
                    broken := c.broken || (c.run == RunSt.held && c.haltPend), brokenSince := if c.run = RunSt.held && c.haltPend then s.fab.tb else c.brokenSince,
                    haltPend := if c.run = RunSt.held then false else c.haltPend, haltWhy := if c.run = RunSt.held && c.haltPend then 1 else c.haltWhy }
  let d := if (d.arch.getSr 0x38).getLsbD 0 then d.pendExternal 0x1401 else d
  (((s.setCore lc d.engine).flt 2 3).ageCap (old / 7)).ageCap (pc / 7)

/-- Lines of a physical core whose modified data has an uncorrectable error as it is cleaned: written home poisoned, and logged (Table TAN-5 step 3, 08 R204). -/
def State.cleanBad (s : State) (pc : Nat) (bad : List Nat) : State :=
  bad.foldl (fun s l =>
    if s.mem.tags.any (fun p => p.2.line == l && decide (p.1 / 32768 / 4 = pc) && decide (p.1 / 32768 < 0x100)) && (s.held l).any (fun c => c.st.dirty)
    then (s.poisonLine l).flt 3 3 0 none (BitVec.ofNat 64 (l * 256)) else s) s

/-- The move that the sparing unit makes now: the one accepted, else that of the lowest-numbered waiting core (R181). -/
def State.moveNow (s : State) : Option Nat :=
  match s.svc.moving with
  | some k => if s.moveDue k then some k else (List.range s.nLc).find? (fun n => s.moveDue n)
  | none => (List.range s.nLc).find? (fun n => s.moveDue n)

/-- The sparing unit takes a move up, or has ended it. A read of TAN_SPARE.BUSY counts an accepted move too (`State.spareRead`). -/
def State.setMoving (s : State) (m : Option Nat) : State :=
  ({ s with svc := { s.svc with moving := m } } : State).setFlag F.TAN_SPARE_BUSY m.isSome

/-- SPARING_MOVE (R180 to R185, Table TAN-5): the lowest-numbered waiting core is moved. Unconfirmed work is discarded and confirmed stores drain; while one waits for its line, the move waits with BUSY = 1. -/
def execSparingMove (lc : Nat) (bad : MoveBad) (ckptBad : Bool) (s : State) : Out := settled s <|
  if 48 ≤ lc then .fault .noSuchUnit else
  if s.flag F.FLT_FENCE_CXF || s.moveNow ≠ some lc then .next s else
  let s := (((s.setMoving (some lc)).discardCore lc).accessGone lc).drainAll lc
  if !(s.core lc).stbuf.isEmpty then .next s else
  let s := (s.cleanBad (s.pcOf lc) bad.lines).setMoving none
  if ckptBad then .next (s.loseCore lc 2) else
  let r := s.chooseSpare bad.spares (s.spareList (s.pcOf lc))
  match r.2 with
  | none => .next (r.1.loseCore lc 1)
  | some pc => .next (r.1.moveTo lc pc)

/-- A write of TAN_SPREQ (R180): GO requests a move; refused for a core that does not exist, is lost or is in check stop. -/
def State.spreq (s : State) (src : Src) (v : W64) : State :=
  let lc := fieldOf v 5 0
  if fieldOf v 63 63 = 0 then s
  else if !s.lcExists lc || (s.core lc).run = .lost || (s.core lc).run = .checkStop then s.cfgErr src 0x500008
  else s.requestSparing lc false

/-- TAN_SPREQ. -/
def execTanSpreq (src : Src) (v : BitVec 64) (s : State) : Out := settled s <| .next (s.spreq src v)

/-! Items of a core's state (07 Table TAN-7) -/

/-- Is a special-register number one of a core's own (02 Table COR-2 and the registers of 05, 07, 08, 12), outside the bank-scoped 0x08 and 0x09. -/
def srAssigned (n : Nat) : Bool :=
  [0x01, 0x02, 0x0A, 0x0B, 0x0C, 0x10, 0x30, 0x31, 0x32, 0x33, 0x34, 0x38, 0x3A, 0x3B, 0x3C].contains n ||
    (decide (0x18 ≤ n) && decide (n ≤ 0x27))

/-- What an INDEX names (Table TAN-7). -/
inductive Item where
  | g (k : Nat) | w (k : Nat) | f (k : Nat) | wsp (b : Nat) | wst (b : Nat) | sr (n : Nat) | dw0 | dw1
deriving DecidableEq, Repr

def itemOf (index : Nat) : Option Item :=
  let bank := bits index 11 9
  let n := bits index 5 0
  match bits index 8 6 with
  | 0 => if n < 16 then some (.g (bank * 16 + n)) else none
  | 1 => if bank = 7 && 40 ≤ n then none else some (.w (bank * 64 + n))
  | 2 => if n < 32 then some (.f (bank * 32 + n)) else none
  | 3 => if n = 0 then some (.wsp bank) else if n = 1 then some (.wst bank) else none
  | 4 => if bank = 0 && srAssigned n then some (.sr n) else none
  | 5 => if bank ≠ 0 then none else if n = 0 then some .dw0 else if n = 1 then some .dw1 else none
  | _ => none

/-- The item's value in an architected state. -/
def State.itemGet (s : State) (a : Arch) : Item → W64
  | .g k => a.g.get 0 k
  | .w k => a.w.get 0 k
  | .f k => a.f.get 0 k
  | .wsp b => a.wsp.get 0 b
  | .wst b => a.wstOf b
  | .sr n => if n = 0x34 then s.p2base else a.getSr n
  | .dw0 => a.psw.dw0
  | .dw1 => a.psw.ia

/-- TAN_CKDATA (R184): the item of a core in check stop or lost; zero with CFG_ERR otherwise. -/
def State.ckData (s : State) (src : Src) : State × W64 :=
  let lc := s.fld F.TAN_CKSEL_LC
  let c := s.core lc
  match itemOf (s.fld F.TAN_CKSEL_INDEX) with
  | some x => if s.lcExists lc && (c.run = .checkStop || (c.run = .lost && !c.lostCkpt)) then (s, s.itemGet c.ckpt x) else (s.cfgErr src 0x500018, 0)
  | none => (s.cfgErr src 0x500018, 0)

/-- TAN_CKDATA_READ: the value goes out on the bus. `ckptBad`: the checkpoint array of the core gives an uncorrectable error, and the core is lost with REASON 2 (R184). -/
def execTanCkdataRead (q : CkRead) (s : State) : Out := settled s <|
  let lc := s.fld F.TAN_CKSEL_LC
  let s := if q.ckptBad && s.lcExists lc && ((s.core lc).run == .checkStop || ((s.core lc).run == .lost && !(s.core lc).lostCkpt)) then s.loseCore lc 2 else s
  let r := s.ckData q.src
  .next { r.1 with busData := r.2 }

/-- A write of TAN_MODE k: the entries of PID 0 and PID 255 read zero and ignore writes. -/
def State.tanMode (s : State) (src : Src) (k : Nat) (v : W64) : State :=
  let v := if k = 0 then putField v 63 56 0 else if k = 31 then putField v 7 0 0 else v
  s.wrReg src (0x500100 + k * 8) v

/-- TAN_MODE_WRITE (R169): a core takes the mode at its first checkpoint that runs the PID (confirmCore). -/
def execTanModeWrite (src : Src) (k : Nat) (v : BitVec 64) (s : State) : Out := settled s <|
  if 32 ≤ k then .fault .noSuchUnit else .next (s.tanMode src k v)

end Sys2Proof.Machine
end

