-- ==== Sys2Proof/Machine/VeEngine.lean ====
section
/-! DEFINITION. The Velex engines (13): contexts and events, the instruction frame with its traps, accesses through the banks, arithmetic, branches, the coprocessor block, submission to the sequencers, engine failure. -/

namespace Sys2Proof.Machine

/-! Contexts, keyed by engine * 16 + context -/

def State.veCtx (s : State) (k : Nat) : VeCtx := s.chn.ctx.get VeCtx.reset k
def State.setVe (s : State) (k : Nat) (c : VeCtx) : State := { s with chn := { s.chn with ctx := s.chn.ctx.put k c } }
def State.updVe (s : State) (k : Nat) (f : VeCtx → VeCtx) : State := s.setVe k (f (s.veCtx k))

/-- A register E0 to E15, as a number below 2^32. -/
def VeCtx.get (c : VeCtx) (n : Nat) : Nat := (c.e.get 0 n).toNat
def VeCtx.put (c : VeCtx) (n v : Nat) : VeCtx := { c with e := c.e.put n (BitVec.ofNat 32 v) }

/-- The agent that makes a context's accesses (R317). -/
def veAgent (k : Nat) (c : VeCtx) : Agent := { tag := 256 + k, pid := c.pid.toNat, stype := 2 }

/-- A key of `reqs` that belongs to a context. -/
def veKey (k key : Nat) : Bool := key / 2 ^ 48 == 257 + k

/-- Posted stores of a context that still wait for their CMP (R319). -/
def State.veOpen (s : State) (k : Nat) : Bool := s.mem.reqs.any (fun p => veKey k p.1 && p.2.req.kind == .wrpl && p.2.st.open)

/-- Collect the stores that are done, with the final status of one that has failed. -/
def State.veSettle (s : State) (k : Nat) : State × Option Nat :=
  let mine := s.mem.reqs.filter (fun p => veKey k p.1 && p.2.req.kind == .wrpl && !p.2.st.open)
  let bad := mine.findSome? (fun p => match p.2.st with | .failed 0 => some 0x11 | .failed _ => some 0x14 | .got d => if d.poison then some 0x14 else none | _ => none)
  (s.updMem (fun m => { m with reqs := m.reqs.filter (fun p => !(veKey k p.1 && p.2.req.kind == .wrpl && !p.2.st.open)) }), bad)

/-! How an instruction ends -/

/-- Done, done with a branch, trapped, waiting, or failed in an access (R317). -/
inductive VeRes where
  | ok (s : State)
  | jump (s : State) (pc : BitVec 15)
  | trap (cause : Byte)
  | stay (s : State)
  | bad (s : State) (fstat : Nat)

/-- The same for an access that yields a value. -/
inductive VeAcc (α : Type) where
  | ok (s : State) (a : α)
  | trap (cause : Byte)
  | stay (s : State)
  | bad (s : State) (fstat : Nat)

def VeAcc.bind {α β : Type} (x : VeAcc α) (f : State → α → VeAcc β) : VeAcc β :=
  match x with
  | .ok s a => f s a
  | .trap c => .trap c
  | .stay s => .stay s
  | .bad s f => .bad s f

def VeAcc.run {α : Type} (x : VeAcc α) (f : State → α → VeRes) : VeRes :=
  match x with
  | .ok s a => f s a
  | .trap c => .trap c
  | .stay s => .stay s
  | .bad s f => .bad s f

def PraRes.ve {α : Type} (x : PraRes α) : VeAcc α :=
  match x with
  | .ok s a => .ok s a
  | .bad s f => .bad s f
  | .wait s => .stay s

/-- The key of the exchange that a context runs. -/
def State.veEx (s : State) (c : VeCtx) : Option Exch := s.exOf c.exid

/-- Contexts that leave the running state. -/
def State.veIdle (s : State) (e : Nat) : State := s.setFld F.VEN_ENG_BUSY (s.fld F.VEN_ENG_BUSY e - 1) e

/-- A trap (R326): the context is parked, a fifth parked one discards the oldest; ABORT, then final status 0x12. -/
def State.veTrap (s : State) (e ctx : Nat) (cause : Byte) : State :=
  let k := e * 16 + ctx
  let c := s.veCtx k
  let order := s.chn.parkOrder.get [] e
  let full := decide (4 ≤ order.length)
  let s := if full then (s.setVe (e * 16 + order.headD 0) VeCtx.reset).flt 8 1 else s
  let order := (if full then order.drop 1 else order) ++ [ctx]
  let s := { s with chn := { s.chn with parkOrder := s.chn.parkOrder.put e order } }
  let s := (s.setVe k { c with st := .parked, cause := cause }).veIdle e
  let s := (s.setFld F.VEN_ENG_PARKED order.length e).count F.VEN_ENG_TRAPS (some F.VEN_ENG_TOVF) e
  let s := match s.exOf c.exid with
    | some x => (s.setEx { x with running := false }).abortEx x.key 0x12
    | none => s
  s.flt 8 0 e none (cause.setWidth 64)

/-- An access failed: the event ends, the exchange gets final status 0x11 (R317, 12 R292), or 0x14 for poisoned data (20 R442). -/
def State.veBad (s : State) (e ctx fstat : Nat) : State :=
  let c := s.veCtx (e * 16 + ctx)
  match s.exOf c.exid with
  | some x => (s.setEx { x with running := false }).finalStatus x.key fstat
  | none => (s.setVe (e * 16 + ctx) { c with st := .free }).veIdle e

/-- Run one instruction of a context. `ill`: the word is illegal (R320, Table VEN-9). A context that does not run leaves the state as it is; a trap waits until earlier stores are complete. -/
def runVeIn (okSt : VeSt → Bool) (e ctx : Nat) (ill : Bool) (s : State) (body : State → VeCtx → VeRes) : Out :=
  if 68 ≤ e || 16 ≤ ctx then .fault .noSuchUnit else settled s <| .next <|
  let k := e * 16 + ctx
  if !okSt (s.veCtx k).st || s.flag F.FLT_FENCE_CXF then s else
  let p := s.veSettle k
  match p.2 with
  | some f => p.1.veBad e ctx f
  | none =>
  let s := p.1
  let trap := fun (cause : Byte) => if s.veOpen k then s else s.veTrap e ctx cause
  if ill then trap 1 else
  match body s (s.veCtx k) with
  | .ok s => s.updVe k (fun c => { c with pc := c.pc + 1, st := if c.st = .waitJack then .running else c.st })
  | .jump s pc => s.updVe k (fun c => { c with pc := pc })
  | .trap c => trap c
  | .stay t => t.keep s (256 + k)
  | .bad s f => s.veBad e ctx f

def runVe (e ctx : Nat) (ill : Bool) (s : State) (body : State → VeCtx → VeRes) : Out :=
  runVeIn (fun st => st == .running) e ctx ill s body

/-! Events (R315, R316) -/

/-- VE_EVENT_DISPATCH: an exchange with pending events takes the lowest-numbered free context of its engine. Which free context is taken is the model's choice (log 38). -/
def execVeEventDispatch (mirror : Bool) (idx : Nat) (s : State) : Out := settled s <|
  .next <|
    match s.chn.exch.find (exKey mirror idx) with
    | none => s
    | some x =>
      if x.ev == 0 || x.running || x.ipl || !s.veActive x.eng || s.chn.veMoving.contains x.eng || s.flag F.FLT_FENCE_CXF then s else
      match (List.range 16).find? (fun n => (s.veCtx (x.eng * 16 + n)).st == .free && !s.veOpen (x.eng * 16 + n)) with
      | none => s
      | some n =>
        let k := x.eng * 16 + n
        let p := s.free
        let s := p.1.updMem (fun m => { m with reqs := m.reqs.filter (fun q => !veKey k q.1) })
        let kind := ((List.range 8).find? (fun i => x.ev.getLsbD i)).getD 0
        let c : VeCtx := { VeCtx.reset with st := .running, mh := p.2.extractLsb' 32 32, ml := p.2.extractLsb' 0 32, pc := BitVec.ofNat 15 kind,
                                            pid := BitVec.ofNat 8 (jget (s.img x) 0 55 48), exid := BitVec.ofNat 24 (s.exid x), evt := x.ev }
        let c := (c.put 0 x.ev.toNat).put 1 (s.exid x)
        let s := (s.setVe k c).setFld F.VEN_ENG_BUSY (s.fld F.VEN_ENG_BUSY x.eng + 1) x.eng
        s.setEx { x with ev := 0, running := true }

/-! Accesses (R317 to R319, Table VEN-3) -/

/-- A word of local space that is read-only. -/
def State.veLocalWord (s : State) (e ctx : Nat) (c : VeCtx) (sa : Nat) : Option Nat :=
  match sa with
  | 0x10000 => some c.evt.toNat
  | 0x10004 => some c.exid.toNat
  | 0x10008 => some (e * 256 + ctx)
  | 0x1000C => some c.pid.toNat
  | 0x10010 => some (fieldOf s.fab.tb 43 12)
  | 0x10014 =>
    match s.exOf c.exid with
    | some x =>
      let d := (s.sch x.sch).def_
      let v0 := fieldOf d 191 191
      let p0 := fieldOf d 187 184
      let v1 := fieldOf d 183 183
      let p1 := fieldOf d 179 176
      some (b2n (v1 = 1 && s.vpUp p1) * 2 ^ 17 + b2n (v0 = 1 && s.vpUp p0) * 2 ^ 16 + v0 * 2 ^ 15 + p0 * 2 ^ 8 + v1 * 2 ^ 7 + p1)
    | none => some 0
  | _ => none

def State.sramRead (s : State) (e sa n : Nat) : List Byte := (List.range n).map (fun i => s.chn.sram.get 0 (e * 65536 + sa + i))
def State.sramWrite (s : State) (e sa : Nat) (bs : List Byte) : State :=
  { s with chn := { s.chn with sram := bs.zipIdx.foldl (fun t p => t.set 0 (e * 65536 + sa + p.2) p.1) s.chn.sram } }

/-- The full address of an access through BK1 to BK3. -/
def VeCtx.full (c : VeCtx) (bk sa : Nat) : Nat := (c.bk.get 0 bk).toNat * 2 ^ 20 + sa

/-- The pieces of an access, one for each line; addresses wrap within the window. -/
def vePieces : Nat → Nat → Nat → List (Nat × Nat)
  | 0, _, _ => []
  | f + 1, sa, n => if n = 0 then [] else let k := min n (256 - sa % 256); (sa, k) :: vePieces f ((sa + k) % 2 ^ 20) (n - k)

/-- Read `n` bytes at a short address; `w` is the access size. -/
def State.veRead (s : State) (e ctx : Nat) (c : VeCtx) (bk sa n w : Nat) : VeAcc (List Byte) :=
  let k := e * 16 + ctx
  if sa % w ≠ 0 then .trap 2
  else if bk = 0 then
    if sa + n ≤ 65536 then .ok s (s.sramRead e sa n)
    else if w ≠ 4 then .trap 3
    else
      (List.range (n / 4)).foldl (fun (r : VeAcc (List Byte)) i =>
        r.bind fun s l =>
          let a := (sa + 4 * i) % 2 ^ 20
          if a < 65536 then .ok s (l ++ s.sramRead e a 4)
          else match s.veLocalWord e ctx c a with | some v => .ok s (l ++ toBytes 4 v) | none => .trap 3) (.ok s [])
  else
    (vePieces 3 sa n).foldl (fun (r : VeAcc (List Byte)) p =>
      r.bind fun s l =>
        let a := c.full bk p.1
        if 2 ^ 56 ≤ a then .bad s 0x11 else
        (s.praPlaces (veAgent k c) .rd 2 a p.2).toP (fun s q =>
          if q.any (fun y => match s.mem.reqs.find (y.1 / 256 + 2 ^ 48 * (257 + k)) with | some r => r.req.kind == .wrpl | none => false) then .wait s
          else s.placesRead (veAgent k c) q) |>.ve.bind fun s m => .ok s (l ++ m)) (.ok s [])

/-- The absolute places of the pieces of a store, each with its bytes. -/
def State.vePlaces (s : State) (a : Agent) (c : VeCtx) (bk : Nat) : List (Nat × Nat) → List Byte → VeAcc (List (Nat × List Byte))
  | [], _ => .ok s []
  | (sa, n) :: r, bs =>
    if 2 ^ 56 ≤ c.full bk sa then .bad s 0x11 else
    match s.praAbs a (c.full bk sa) .wr with
    | .ok s (some x) => (State.vePlaces s a c bk r (bs.drop n)).bind fun s l => .ok s ((x, bs.take n) :: l)
    | .ok s none => .bad s 0x11
    | .refused s => .bad s 0x11
    | .poison s _ => .bad s 0x14
    | .wait s => .stay s

/-- Post the stores (R319): what cannot be answered at once is left open. -/
def State.vePost (s : State) (a : Agent) : List (Nat × List Byte) → VeAcc Unit
  | [] => .ok s ()
  | (x, bs) :: r =>
    match s.dmaPut a 0 x bs with
    | .ok s _ => State.vePost s a r
    | .wait s => State.vePost s a r
    | .refused s => .bad s 0x11
    | .poison s _ => .bad s 0x14

/-- A store to the line must wait: an earlier request of the context for it is open, or its home works on it. -/
def State.veBusy (s : State) (k line : Nat) : Bool :=
  s.mem.reqs.has (line + 2 ^ 48 * (257 + k)) || s.homeOf (line * 256) == some s.cxid && s.mem.txns.has line

/-- Is the exchange's descriptor legal at submission (R325)? -/
def State.descOk (s : State) (c : VeCtx) (w : Nat → Nat) : Bool :=
  let cmd := bits (w 0) 31 24
  let okH := fun (h kind : Nat) => h == 0xFFFF || (match s.chn.handles.find h with | some x => x.exid == c.exid && x.kind == kind | none => false)
  bits (w 0) 13 4 == 0 && bits (w 1) 31 25 == 0 && bits (w 2) 31 24 == 0 && [1, 2, 3, 4, 0x0F].contains cmd &&
    [10, 11, 12, 13, 14, 15].all (fun i => w i == 0) && okH (bits (w 4) 31 16) 0 && okH (bits (w 4) 15 0) 1 &&
    (match s.exOf c.exid with | some x => (s.sch x.sch).paths.contains (bits (w 0) 3 0) | none => false)

/-- The descriptor of Table VEN-8. -/
def mkDesc (c : VeCtx) (w : Nat → Nat) : PdsDesc :=
  { exid := c.exid, cmd := BitVec.ofNat 8 (bits (w 0) 31 24), flags := BitVec.ofNat 10 (bits (w 0) 23 14), count := BitVec.ofNat 25 (bits (w 1) 24 0),
    daddr := BitVec.ofNat 56 (bits (w 2) 23 0 * 2 ^ 32 + w 3), zh := BitVec.ofNat 16 (bits (w 4) 31 16), ch := BitVec.ofNat 16 (bits (w 4) 15 0),
    nseq := BitVec.ofNat 16 (bits (w 5) 31 16), cmdix := BitVec.ofNat 16 (bits (w 5) 15 0),
    devcmd := BitVec.ofNat 128 (w 6 * 2 ^ 96 + w 7 * 2 ^ 64 + w 8 * 2 ^ 32 + w 9) }

/-- Words already written to VEN_PDSQ. -/
def VeCtx.word (c : VeCtx) (i : Nat) : Nat := (c.desc.get 0 i).toNat

/-- Submit the descriptor: illegal, stalled by a full queue of 64, or taken. -/
def State.vePdsq (s : State) (k : Nat) (c : VeCtx) : VeAcc Unit :=
  if !s.descOk c c.word then .trap 1 else
  let d := mkDesc c c.word
  let v := bits (c.word 0) 3 0
  if 64 ≤ (s.chn.pdsq.get [] v).length then .ok (s.setVe k { c with st := .waitPds }) ()
  else
    match s.exOf c.exid with
    | some x => .ok ((s.setVe k { c with desc := [] }).submitCmd x d v) ()
    | none => .trap 1

/-- Write words or smaller items at a short address. -/
def State.veWrite (s : State) (e ctx : Nat) (c : VeCtx) (bk sa w : Nat) (bs : List Byte) : VeAcc Unit :=
  let k := e * 16 + ctx
  if sa % w ≠ 0 then .trap 2
  else if bk = 0 then
    if sa + bs.length ≤ 65536 then .ok (s.sramWrite e sa bs) ()
    else if w ≠ 4 then .trap 3
    else
      let ws := chunks 4 bs.length bs
      let at_ := fun (i : Nat) => (sa + 4 * i) % 2 ^ 20
      let pdsq := fun (a : Nat) => decide (0x10040 ≤ a) && decide (a < 0x10080)
      if !(List.range ws.length).all (fun i => decide (at_ i < 65536) || pdsq (at_ i)) then .trap 3
      else if (List.range ws.length).any (fun i => at_ i == 0x1007C) && s.veOpen k then .stay s
      else
        let s1 := ws.zipIdx.foldl (fun (s : State) p =>
          if at_ p.2 < 65536 then s.sramWrite e (at_ p.2) p.1
          else s.updVe k (fun c => { c with desc := c.desc.put ((at_ p.2 - 0x10040) / 4) (BitVec.ofNat 32 (packBytes p.1)) })) s
        if (List.range ws.length).any (fun i => at_ i == 0x1007C) then s1.vePdsq k (s1.veCtx k) else .ok s1 ()
  else
    (s.vePlaces (veAgent k c) c bk (vePieces 3 sa bs.length) bs).bind fun s ps =>
      if ps.any (fun p => s.veBusy k (p.1 / 256)) then .stay s else s.vePost (veAgent k c) ps

/-! Flags and arithmetic (R321) -/

def nz (r : Nat) (old : BitVec 4) : BitVec 4 := BitVec.ofNat 4 (r / 2 ^ 31 * 8 + b2n (r == 0) * 4 + old.toNat % 4)

/-- N, Z, C, V of a sum or difference: the wrapped result, its carry, and the exact signed result. -/
def nzcv (r : Nat) (c : Bool) (x : Int) : BitVec 4 :=
  BitVec.ofNat 4 (r / 2 ^ 31 * 8 + b2n (r == 0) * 4 + b2n c * 2 + b2n (decide (x < -2 ^ 31 ∨ 2 ^ 31 ≤ x)))

def s32 (x : Nat) : Int := (BitVec.ofNat 32 x).toInt

def veSum (x y : Nat) : Nat × BitVec 4 := let r := (x + y) % 2 ^ 32; (r, nzcv r (decide (2 ^ 32 ≤ x + y)) (s32 x + s32 y))
def veDiff (x y : Nat) : Nat × BitVec 4 := let r := (x + 2 ^ 32 - y) % 2 ^ 32; (r, nzcv r (decide (y ≤ x)) (s32 x - s32 y))

def veShl (x n : Nat) : Nat := if 32 ≤ n then 0 else x * 2 ^ n % 2 ^ 32
def veShr (x n : Nat) : Nat := if 32 ≤ n then 0 else x / 2 ^ n
def veSar (x n : Nat) : Nat := ((BitVec.ofNat 32 x).sshiftRight (min n 31)).toNat

/-- A context's register gets a value. -/
def State.veSet (s : State) (k : Nat) (t : BitVec 4) (v : Nat) : State := s.updVe k (fun c => c.put t.toNat v)

/-- An R-format operation with NZCV or NZ. -/
def veArith (e ctx : Nat) (t a b : BitVec 4) (rsv : BitVec 8) (s : State) (f : Nat → Nat → Nat × BitVec 4) : Out :=
  runVe e ctx (rsv != 0) s fun s c =>
    let r := f (c.get a.toNat) (c.get b.toNat)
    .ok ((s.veSet (e * 16 + ctx) t r.1).updVe (e * 16 + ctx) (fun c => { c with flags := r.2 }))

def veLogic (e ctx : Nat) (t a b : BitVec 4) (rsv : BitVec 8) (s : State) (f : Nat → Nat → Nat) : Out :=
  runVe e ctx (rsv != 0) s fun s c =>
    let r := f (c.get a.toNat) (c.get b.toNat)
    .ok ((s.veSet (e * 16 + ctx) t r).updVe (e * 16 + ctx) (fun c => { c with flags := nz r c.flags }))

/-- An I-format operation with NZ. -/
def veLogicI (e ctx : Nat) (t a : BitVec 4) (ill : Bool) (s : State) (f : Nat → Nat) : Out :=
  runVe e ctx ill s fun s c =>
    let r := f (c.get a.toNat)
    .ok ((s.veSet (e * 16 + ctx) t r).updVe (e * 16 + ctx) (fun c => { c with flags := nz r c.flags }))

def execVeAdd (e ctx : Nat) (t a b : BitVec 4) (rsv : BitVec 8) (s : State) : Out := veArith e ctx t a b rsv s veSum
def execVeSub (e ctx : Nat) (t a b : BitVec 4) (rsv : BitVec 8) (s : State) : Out := veArith e ctx t a b rsv s veDiff
def execVeAnd (e ctx : Nat) (t a b : BitVec 4) (rsv : BitVec 8) (s : State) : Out := veLogic e ctx t a b rsv s (fun x y => x &&& y)
def execVeOr (e ctx : Nat) (t a b : BitVec 4) (rsv : BitVec 8) (s : State) : Out := veLogic e ctx t a b rsv s (fun x y => x ||| y)
def execVeXor (e ctx : Nat) (t a b : BitVec 4) (rsv : BitVec 8) (s : State) : Out := veLogic e ctx t a b rsv s (fun x y => x ^^^ y)
def execVeAndn (e ctx : Nat) (t a b : BitVec 4) (rsv : BitVec 8) (s : State) : Out := veLogic e ctx t a b rsv s (fun x y => x &&& (2 ^ 32 - 1 - y))
/-- Shifts take b[5:0]; a count of 32 or more gives 0, or sign fill for SRA. -/
def execVeSll (e ctx : Nat) (t a b : BitVec 4) (rsv : BitVec 8) (s : State) : Out := veLogic e ctx t a b rsv s (fun x y => veShl x (y % 64))
def execVeSrl (e ctx : Nat) (t a b : BitVec 4) (rsv : BitVec 8) (s : State) : Out := veLogic e ctx t a b rsv s (fun x y => veShr x (y % 64))
def execVeSra (e ctx : Nat) (t a b : BitVec 4) (rsv : BitVec 8) (s : State) : Out := veLogic e ctx t a b rsv s (fun x y => veSar x (y % 64))
def execVeRol (e ctx : Nat) (t a b : BitVec 4) (rsv : BitVec 8) (s : State) : Out :=
  veLogic e ctx t a b rsv s (fun x y => ((BitVec.ofNat 32 x).rotateLeft (y % 32)).toNat)

/-- CMP: flags only; t is reserved. -/
def execVeCmp (e ctx : Nat) (t a b : BitVec 4) (rsv : BitVec 8) (s : State) : Out :=
  runVe e ctx (rsv != 0 || t != 0) s fun s c =>
    .ok (s.updVe (e * 16 + ctx) (fun d => { d with flags := (veDiff (c.get a.toNat) (c.get b.toNat)).2 }))

def execVeMov (e ctx : Nat) (t a b : BitVec 4) (rsv : BitVec 8) (s : State) : Out :=
  runVe e ctx (rsv != 0 || b != 0) s fun s c => .ok (s.veSet (e * 16 + ctx) t (c.get a.toNat))

/-- A product on its way (R322): it reaches MH and ML by VE_PRODUCT_WRITE. -/
def State.veProduct (s : State) (k : Nat) (p : Int) : State := s.updVe k (fun c => { c with prods := c.prods ++ [BitVec.ofInt 64 p] })

def execVeMul (e ctx : Nat) (t a b : BitVec 4) (rsv : BitVec 8) (s : State) : Out :=
  runVe e ctx (rsv != 0 || t != 0) s fun s c => .ok (s.veProduct (e * 16 + ctx) (s32 (c.get a.toNat) * s32 (c.get b.toNat)))

def execVeMulu (e ctx : Nat) (t a b : BitVec 4) (rsv : BitVec 8) (s : State) : Out :=
  runVe e ctx (rsv != 0 || t != 0) s fun s c => .ok (s.veProduct (e * 16 + ctx) ((c.get a.toNat * c.get b.toNat : Nat) : Int))

/-- VE_PRODUCT_WRITE (R322): the oldest product reaches MH and ML. -/
def execVeProductWrite (e ctx : Nat) (s : State) : Out := settled s <|
  if 68 ≤ e || 16 ≤ ctx then .fault .noSuchUnit else
  .next (s.updVe (e * 16 + ctx) (fun c =>
    match c.prods with
    | [] => c
    | p :: r => { c with prods := r, mh := p.extractLsb' 32 32, ml := p.extractLsb' 0 32 }))

def execMfmh (e ctx : Nat) (t a b : BitVec 4) (rsv : BitVec 8) (s : State) : Out :=
  runVe e ctx (rsv != 0 || a != 0 || b != 0) s fun s c => .ok (s.veSet (e * 16 + ctx) t c.mh.toNat)

def execMfml (e ctx : Nat) (t a b : BitVec 4) (rsv : BitVec 8) (s : State) : Out :=
  runVe e ctx (rsv != 0 || a != 0 || b != 0) s fun s c => .ok (s.veSet (e * 16 + ctx) t c.ml.toNat)

def execMffl (e ctx : Nat) (t a b : BitVec 4) (rsv : BitVec 8) (s : State) : Out :=
  runVe e ctx (rsv != 0 || a != 0 || b != 0) s fun s c => .ok (s.veSet (e * 16 + ctx) t c.flags.toNat)

def execMtfl (e ctx : Nat) (t a b : BitVec 4) (rsv : BitVec 8) (s : State) : Out :=
  runVe e ctx (rsv != 0 || t != 0 || b != 0) s fun s c =>
    .ok (s.updVe (e * 16 + ctx) (fun d => { d with flags := BitVec.ofNat 4 (c.get a.toNat) }))

/-- ADDI: imm16 sign-extended. -/
def execVeAddi (e ctx : Nat) (t a : BitVec 4) (rsv : BitVec 2) (imm : BitVec 16) (s : State) : Out :=
  runVe e ctx (rsv != 0) s fun s c =>
    let r := veSum (c.get a.toNat) (imm.signExtend 32).toNat
    .ok ((s.veSet (e * 16 + ctx) t r.1).updVe (e * 16 + ctx) (fun c => { c with flags := r.2 }))

def execVeAndi (e ctx : Nat) (t a : BitVec 4) (rsv : BitVec 2) (imm : BitVec 16) (s : State) : Out := veLogicI e ctx t a (rsv != 0) s (fun x => x &&& imm.toNat)
def execVeOri (e ctx : Nat) (t a : BitVec 4) (rsv : BitVec 2) (imm : BitVec 16) (s : State) : Out := veLogicI e ctx t a (rsv != 0) s (fun x => x ||| imm.toNat)
def execVeXori (e ctx : Nat) (t a : BitVec 4) (rsv : BitVec 2) (imm : BitVec 16) (s : State) : Out := veLogicI e ctx t a (rsv != 0) s (fun x => x ^^^ imm.toNat)

/-- CMPI: imm16 sign-extended; t is reserved. -/
def execVeCmpi (e ctx : Nat) (t a : BitVec 4) (rsv : BitVec 2) (imm : BitVec 16) (s : State) : Out :=
  runVe e ctx (rsv != 0 || t != 0) s fun s c =>
    .ok (s.updVe (e * 16 + ctx) (fun d => { d with flags := (veDiff (c.get a.toNat) (imm.signExtend 32).toNat).2 }))

def execVeLui (e ctx : Nat) (t a : BitVec 4) (rsv : BitVec 2) (imm : BitVec 16) (s : State) : Out :=
  runVe e ctx (rsv != 0 || a != 0) s fun s _ => .ok (s.veSet (e * 16 + ctx) t (imm.toNat * 65536))

/-- Shifts by imm16[4:0]; imm16[15:5] is reserved. -/
def execVeSlli (e ctx : Nat) (t a : BitVec 4) (rsv : BitVec 2) (imm : BitVec 16) (s : State) : Out :=
  veLogicI e ctx t a (rsv != 0 || decide (32 ≤ imm.toNat)) s (fun x => veShl x imm.toNat)
def execVeSrli (e ctx : Nat) (t a : BitVec 4) (rsv : BitVec 2) (imm : BitVec 16) (s : State) : Out :=
  veLogicI e ctx t a (rsv != 0 || decide (32 ≤ imm.toNat)) s (fun x => veShr x imm.toNat)
def execVeSrai (e ctx : Nat) (t a : BitVec 4) (rsv : BitVec 2) (imm : BitVec 16) (s : State) : Out :=
  veLogicI e ctx t a (rsv != 0 || decide (32 ≤ imm.toNat)) s (fun x => veSar x imm.toNat)

/-! Loads and stores (Table VEN-5) -/

/-- Sign extension to 32 bits of an `n`-byte value. -/
def veSx (n v : Nat) : Nat := ((BitVec.ofNat (8 * n) v).signExtend 32).toNat

/-- Load `n` bytes at a short address. -/
def veLoad (e ctx : Nat) (t : BitVec 4) (bk : BitVec 2) (n : Nat) (sx : Bool) (sa : VeCtx → Nat) (s : State) : Out :=
  runVe e ctx false s fun s c =>
    (s.veRead e ctx c bk.toNat (sa c) n n).run fun s l =>
      .ok (s.veSet (e * 16 + ctx) t (if sx then veSx n (packBytes l) else packBytes l))

/-- Store the low `n` bytes of t. -/
def veStore (e ctx : Nat) (t : BitVec 4) (bk : BitVec 2) (n : Nat) (sa : VeCtx → Nat) (s : State) : Out :=
  runVe e ctx false s fun s c =>
    (s.veWrite e ctx c bk.toNat (sa c) n (toBytes n (c.get t.toNat))).run fun s _ =>
      if (s.veCtx (e * 16 + ctx)).st == .waitPds then .stay s else .ok s

def execVeLw (e ctx : Nat) (t : BitVec 4) (bk : BitVec 2) (sa : BitVec 20) (s : State) : Out := veLoad e ctx t bk 4 false (fun _ => sa.toNat) s
def execVeLh (e ctx : Nat) (t : BitVec 4) (bk : BitVec 2) (sa : BitVec 20) (s : State) : Out := veLoad e ctx t bk 2 false (fun _ => sa.toNat) s
def execVeLhs (e ctx : Nat) (t : BitVec 4) (bk : BitVec 2) (sa : BitVec 20) (s : State) : Out := veLoad e ctx t bk 2 true (fun _ => sa.toNat) s
def execVeLb (e ctx : Nat) (t : BitVec 4) (bk : BitVec 2) (sa : BitVec 20) (s : State) : Out := veLoad e ctx t bk 1 false (fun _ => sa.toNat) s
def execVeLbs (e ctx : Nat) (t : BitVec 4) (bk : BitVec 2) (sa : BitVec 20) (s : State) : Out := veLoad e ctx t bk 1 true (fun _ => sa.toNat) s
def execVeSw (e ctx : Nat) (t : BitVec 4) (bk : BitVec 2) (sa : BitVec 20) (s : State) : Out := veStore e ctx t bk 4 (fun _ => sa.toNat) s
def execVeSh (e ctx : Nat) (t : BitVec 4) (bk : BitVec 2) (sa : BitVec 20) (s : State) : Out := veStore e ctx t bk 2 (fun _ => sa.toNat) s
def execVeSb (e ctx : Nat) (t : BitVec 4) (bk : BitVec 2) (sa : BitVec 20) (s : State) : Out := veStore e ctx t bk 1 (fun _ => sa.toNat) s

/-- The short address of the MX format: Ea[19:0] + disp16, modulo 2^20. -/
def mxAddr (a : BitVec 4) (disp : BitVec 16) (c : VeCtx) : Nat := ((c.get a.toNat : Int) + disp.toInt).emod (2 ^ 20) |>.toNat
/-- The short address of the MM format: Ea[19:0] + 4 * disp13. -/
def mmAddr (a : BitVec 4) (disp : BitVec 13) (c : VeCtx) : Nat := ((c.get a.toNat : Int) + 4 * disp.toInt).emod (2 ^ 20) |>.toNat

def execVeLwx (e ctx : Nat) (t a : BitVec 4) (bk : BitVec 2) (disp : BitVec 16) (s : State) : Out := veLoad e ctx t bk 4 false (mxAddr a disp) s
def execVeLbx (e ctx : Nat) (t a : BitVec 4) (bk : BitVec 2) (disp : BitVec 16) (s : State) : Out := veLoad e ctx t bk 1 false (mxAddr a disp) s
def execVeSwx (e ctx : Nat) (t a : BitVec 4) (bk : BitVec 2) (disp : BitVec 16) (s : State) : Out := veStore e ctx t bk 4 (mxAddr a disp) s
def execVeSbx (e ctx : Nat) (t a : BitVec 4) (bk : BitVec 2) (disp : BitVec 16) (s : State) : Out := veStore e ctx t bk 1 (mxAddr a disp) s

/-- LDM: n + 1 words; t + n above 15 is illegal. -/
def execLdm (e ctx : Nat) (t a : BitVec 4) (bk : BitVec 2) (n : BitVec 3) (disp : BitVec 13) (s : State) : Out :=
  runVe e ctx (decide (15 < t.toNat + n.toNat)) s fun s c =>
    (s.veRead e ctx c bk.toNat (mmAddr a disp c) (4 * (n.toNat + 1)) 4).run fun s l =>
      .ok ((List.range (n.toNat + 1)).foldl (fun s i => s.updVe (e * 16 + ctx) (fun c => c.put (t.toNat + i) (packBytes ((l.drop (4 * i)).take 4)))) s)

/-- STM. -/
def execStm (e ctx : Nat) (t a : BitVec 4) (bk : BitVec 2) (n : BitVec 3) (disp : BitVec 13) (s : State) : Out :=
  runVe e ctx (decide (15 < t.toNat + n.toNat)) s fun s c =>
    let bs := (List.range (n.toNat + 1)).flatMap (fun i => toBytes 4 (c.get (t.toNat + i)))
    (s.veWrite e ctx c bk.toNat (mmAddr a disp c) 4 bs).run fun s _ =>
      if (s.veCtx (e * 16 + ctx)).st == .waitPds then .stay s else .ok s

/-- LXCH: t and a local word are exchanged; only BK0 is legal. -/
def execLxch (e ctx : Nat) (t a : BitVec 4) (bk : BitVec 2) (disp : BitVec 16) (s : State) : Out :=
  runVe e ctx (bk != 0) s fun s c =>
    let sa := mxAddr a disp c
    if sa % 4 ≠ 0 then .trap 2 else if 65536 ≤ sa then .trap 3
    else .ok ((s.sramWrite e sa (toBytes 4 (c.get t.toNat))).veSet (e * 16 + ctx) t (packBytes (s.sramRead e sa 4)))

/-! Branches, WAIT, FENCE, bank registers -/

/-- Table VEN-6. -/
def veCond (cond : BitVec 4) (f : BitVec 4) : Bool :=
  let n := f.getLsbD 3
  let z := f.getLsbD 2
  let c := f.getLsbD 1
  let v := f.getLsbD 0
  match cond.toNat with
  | 0 => true | 1 => z | 2 => !z | 3 => n | 4 => !n | 5 => c | 6 => !c | 7 => v | 8 => !v
  | 9 => c && !z | 10 => n != v | 11 => n == v | 12 => !z && n == v | _ => z || n != v

/-- B: conditions 0xE and 0xF are reserved. -/
def execVeB (e ctx : Nat) (cond : BitVec 4) (off : BitVec 22) (s : State) : Out :=
  runVe e ctx (decide (14 ≤ cond.toNat)) s fun s c => if veCond cond c.flags then .jump s (c.pc + off.setWidth 15) else .ok s

/-- BAL: E15 gets PC + 1; cond must be 0. -/
def execVeBal (e ctx : Nat) (cond : BitVec 4) (off : BitVec 22) (s : State) : Out :=
  runVe e ctx (cond != 0) s fun s c => .jump (s.veSet (e * 16 + ctx) 15 (c.pc + 1).toNat) (c.pc + off.setWidth 15)

/-- BR: PC gets Ea[14:0]. -/
def execVeBr (e ctx : Nat) (t a : BitVec 4) (rsv : BitVec 2) (imm : BitVec 16) (s : State) : Out :=
  runVe e ctx (rsv != 0 || t != 0 || imm != 0) s fun s c => .jump s (BitVec.ofNat 15 (c.get a.toNat))

def execVeFence (e ctx : Nat) (t a : BitVec 4) (rsv : BitVec 2) (imm : BitVec 16) (s : State) : Out :=
  runVe e ctx (rsv != 0 || t != 0 || a != 0 || imm != 0) s fun s _ => if s.veOpen (e * 16 + ctx) then .stay s else .ok s

def execVeNop (e ctx : Nat) (t a : BitVec 4) (rsv : BitVec 2) (imm : BitVec 16) (s : State) : Out :=
  runVe e ctx (rsv != 0 || t != 0 || a != 0 || imm != 0) s fun s _ => .ok s

/-- MTBK: BKt gets Ea[11:0] * 2^32 + Eb; t must be 1 to 3. -/
def execMtbk (e ctx : Nat) (t a b : BitVec 4) (rsv : BitVec 8) (s : State) : Out :=
  runVe e ctx (rsv != 0 || t == 0 || decide (3 < t.toNat)) s fun s c =>
    .ok (s.updVe (e * 16 + ctx) (fun d => { d with bk := d.bk.put t.toNat (BitVec.ofNat 44 (c.get a.toNat % 4096 * 2 ^ 32 + c.get b.toNat)) }))

/-- MFBK: the low 32 bits or the high 12; a must be 1 to 3. -/
def execMfbk (e ctx : Nat) (t a b : BitVec 4) (rsv : BitVec 8) (hi : Bool) (s : State) : Out :=
  runVe e ctx (rsv != 0 || b != 0 || a == 0 || decide (3 < a.toNat)) s fun s c =>
    let v := (c.bk.get 0 a.toNat).toNat
    .ok (s.veSet (e * 16 + ctx) t (if hi then v / 2 ^ 32 else v % 2 ^ 32))

/-! Engine failure (R327) -/

/-- An engine fails: a spare takes its place, its exchanges are spread and restarted. -/
def State.veFail (s : State) (e : Nat) : State :=
  let s := { s with chn := { s.chn with
      ctx := s.chn.ctx.filter (fun p => p.1 / 16 != e), parkOrder := s.chn.parkOrder.del e, veMoving := s.chn.veMoving.filter (fun n => n != e)
      sram := s.chn.sram.filter (fun p => p.1 / 65536 != e) } }
  let s := { s with svc := { s.svc with sparePend := s.svc.sparePend.filter (fun p => !(p.2 == e && (p.1 == 0x80 || p.1 == 0x82))) } }
  let s := (((s.setFld F.VEN_ENG_ROLE 2 e).setFld F.VEN_ENG_BUSY 0 e).setFld F.VEN_ENG_PARKED 0 e).setFld F.VEN_ENG_EXCH 0 e
  let s := match (List.range 68).find? (fun n => s.fld F.VEN_ENG_ROLE n == 1) with
    | some n => ((s.setFld F.VEN_ENG_ROLE 0 n).consume 10).flt 8 3 e
    | none => s.flt 8 4
  (s.chn.exch.filter (fun p => p.2.eng == e && !p.2.ipl)).foldl (fun s p =>
    let q := s.assignEngine p.2
    q.1.setEx ({ q.2 with running := false }.raise 4)) s

/-- A planned move that waits is made once no context of the engine runs. -/
def State.veMoveDue (s : State) (e : Nat) : State :=
  if s.chn.veMoving.contains e && s.fld F.VEN_ENG_BUSY e == 0 then s.veFail e else s

/-- VE_ENGINE_FAILURE: at once, or, planned, after the running contexts. -/
def execVeEngineFailure (e : Nat) (planned : Bool) (s : State) : Out := settled s <|
  if 68 ≤ e then .fault .noSuchUnit else .next <|
  if s.fld F.VEN_ENG_ROLE e == 2 then s
  else if s.fld F.VEN_ENG_ROLE e == 1 then ((s.setFld F.VEN_ENG_ROLE 2 e).consume 10).flt 8 3 e
  else if planned then ({ s with chn := { s.chn with veMoving := e :: s.chn.veMoving.filter (fun n => n != e) } }).veMoveDue e
  else s.veFail e

/-- PLANNED_ENGINE_MOVE_EXPIRY: 65,536 cycles have passed. -/
def execPlannedEngineMoveExpiry (e : Nat) (s : State) : Out := settled s <|
  if 68 ≤ e then .fault .noSuchUnit else .next (if s.chn.veMoving.contains e then s.veFail e else s)

/-- WAIT: the event ends, the context is free; products under way are lost (R315, R322). -/
def execWait (e ctx : Nat) (t a : BitVec 4) (rsv : BitVec 2) (imm : BitVec 16) (s : State) : Out := settled s <|
  if 68 ≤ e || 16 ≤ ctx then .fault .noSuchUnit else
  match runVe e ctx (rsv != 0 || t != 0 || a != 0 || imm != 0) s fun s c =>
      if s.veOpen (e * 16 + ctx) then .stay s else
      let s := match s.exOf c.exid with | some x => s.setEx { x with running := false } | none => s
      .ok ((s.setVe (e * 16 + ctx) { c with st := .free, prods := [] }).veIdle e) with
  | .next s => .next (s.veMoveDue e)
  | r => r

/-- VE_WATCHDOG: 65,536 cycles of an event without WAIT (Table VEN-9). -/
def execVeWatchdog (e ctx : Nat) (s : State) : Out := settled s <|
  if 68 ≤ e || 16 ≤ ctx then .fault .noSuchUnit else .next <|
  let k := e * 16 + ctx
  let st := (s.veCtx k).st
  if st == .free || st == .parked || s.flag F.FLT_FENCE_CXF then s else
  let p := s.veSettle k
  match p.2 with
  | some f => p.1.veBad e ctx f
  | none => if p.1.veOpen k then p.1 else (p.1.veTrap e ctx 4).veMoveDue e

/-! The coprocessor block (R323, R324) -/

/-- A new handle of the context's exchange: the next number that is not in use. -/
def State.newHandle (s : State) (h : Handle) : State × Nat :=
  let n := ((List.range (s.chn.handles.length + 1)).map (fun i => (s.chn.hnext + i) % 65535)).find? (fun k => !s.chn.handles.has k) |>.getD 0
  ({ s with chn := { s.chn with handles := s.chn.handles.put n h, hnext := s.chn.hnext + 1 } }, n)

/-- The handle that a register names, if it is the exchange's own. -/
def State.ownHandle (s : State) (c : VeCtx) (n kind : Nat) : Option Handle :=
  match s.chn.handles.find n with
  | some h => if h.exid == c.exid && h.kind == kind then some h else none
  | none => none

/-- ZOPEN: Ea[0] selects decompression and Ea[1] the zlib wrapper; the handle names a stream context of the port's engine, and the instruction waits while all 64 are in use (15 R348). -/
def execZopen (e ctx : Nat) (t a b : BitVec 4) (rsv : BitVec 8) (s : State) : Out :=
  runVe e ctx (rsv != 0 || b != 0) s fun s c =>
    match s.exOf c.exid with
    | none => .ok s
    | some x =>
      let v := c.get a.toNat
      let h := fun (slot : Nat) => ({ exid := c.exid, kind := 0, state := 0, zlib := v / 2 % 2 == 1, slot := slot, mode := v % 2 } : Handle)
      match s.portEngine x.vp with
      | none => let p := s.newHandle (h 22); .ok (p.1.veSet (e * 16 + ctx) t p.2)
      | some z =>
        if 64 ≤ s.fld F.ZIP_ENG_STREAMS z then .stay s else
        let p := (s.setFld F.ZIP_ENG_STREAMS (s.fld F.ZIP_ENG_STREAMS z + 1) z).newHandle (h z)
        .ok (p.1.veSet (e * 16 + ctx) t p.2)

/-- ZSTAT and KSTAT: the state of a handle; one that is not the exchange's is illegal. -/
def veStat (kind e ctx : Nat) (t a b : BitVec 4) (rsv : BitVec 8) (s : State) : Out :=
  runVe e ctx (rsv != 0 || b != 0) s fun s c =>
    match s.ownHandle c (c.get a.toNat) kind with
    | none => .trap 1
    | some h => .ok (s.veSet (e * 16 + ctx) t h.state)

/-- ZCLOSE and KCLOSE: release a handle. -/
def veClose (kind e ctx : Nat) (t a b : BitVec 4) (rsv : BitVec 8) (s : State) : Out :=
  runVe e ctx (rsv != 0 || t != 0 || b != 0) s fun s c =>
    match s.ownHandle c (c.get a.toNat) kind with
    | none => .trap 1
    | some h =>
      let s := { s with chn := { s.chn with handles := s.chn.handles.del (c.get a.toNat) } }
      .ok (if h.kind = 0 && decide (h.slot < 22) then s.setFld F.ZIP_ENG_STREAMS (s.fld F.ZIP_ENG_STREAMS h.slot - 1) h.slot else s)

def execZstat (e ctx : Nat) (t a b : BitVec 4) (rsv : BitVec 8) (s : State) : Out := veStat 0 e ctx t a b rsv s
def execZclose (e ctx : Nat) (t a b : BitVec 4) (rsv : BitVec 8) (s : State) : Out := veClose 0 e ctx t a b rsv s
def execKstat (e ctx : Nat) (t a b : BitVec 4) (rsv : BitVec 8) (s : State) : Out := veStat 1 e ctx t a b rsv s
def execKclose (e ctx : Nat) (t a b : BitVec 4) (rsv : BitVec 8) (s : State) : Out := veClose 1 e ctx t a b rsv s

/-- KOPEN: a handle, or all ones when the slot's attributes refuse the request (16 R365). A refusal counts at the port's wall. -/
def execKopen (e ctx : Nat) (t a b : BitVec 4) (rsv : BitVec 8) (s : State) : Out :=
  runVe e ctx (rsv != 0) s fun s c =>
    let k := e * 16 + ctx
    let slot := c.get a.toNat % 16384
    let mode := c.get b.toNat % 8
    let q := s.chn.keys.get KSlot.reset slot
    if decide (1 ≤ mode) && q.v && q.pid == c.pid && q.modes.getLsbD (mode - 1) && (q.enc || q.dec) then
      let p := s.newHandle { exid := c.exid, kind := 1, state := 0, zlib := false, slot := slot, mode := mode }
      .ok (p.1.veSet k t p.2)
    else
      let s := match s.exOf c.exid with
        | some x => (match s.portWall x.vp with | some w => s.count F.CIP_CNT_REFUSED (some F.CIP_CNT_ROVF) w | none => s)
        | none => s
      .ok ((s.flt 11 4 0 (some c.pid.toNat)).veSet k t (2 ^ 32 - 1))

/-- CRCW: CRC-32C over the 4 bytes of Ea. -/
def execCrcw (e ctx : Nat) (t a b : BitVec 4) (rsv : BitVec 8) (s : State) : Out :=
  runVe e ctx (rsv != 0 || b != 0) s fun s c =>
    .ok (s.veSet (e * 16 + ctx) t (crc32c (BitVec.ofNat 32 (c.get t.toNat)) (toBytes 4 (c.get a.toNat))).toNat)

/-- An SRAM range of a coprocessor function: illegal past 4,096 bytes, unmapped outside SRAM. -/
def veRange (c : VeCtx) (a b : BitVec 4) (even : Bool) : Option Byte :=
  let n := c.get b.toNat
  if 4096 < n || (even && n % 2 == 1) then some 1 else if 65536 < c.get a.toNat % 2 ^ 20 + n then some 3 else none

/-- CRCL: CRC-32C over Eb bytes of SRAM at Ea. -/
def execCrcl (e ctx : Nat) (t a b : BitVec 4) (rsv : BitVec 8) (s : State) : Out :=
  runVe e ctx (rsv != 0) s fun s c =>
    match veRange c a b false with
    | some cause => .trap cause
    | none =>
      .ok (s.veSet (e * 16 + ctx) t (crc32c (BitVec.ofNat 32 (c.get t.toNat)) (s.sramRead e (c.get a.toNat % 2 ^ 20) (c.get b.toNat))).toNat)

/-- SUM16: the RFC 1071 sum over Eb bytes of SRAM at Ea. -/
def execSum16 (e ctx : Nat) (t a b : BitVec 4) (rsv : BitVec 8) (s : State) : Out :=
  runVe e ctx (rsv != 0) s fun s c =>
    match veRange c a b true with
    | some cause => .trap cause
    | none =>
      .ok (s.veSet (e * 16 + ctx) t (ones16 (c.get t.toNat % 65536) (s.sramRead e (c.get a.toNat % 2 ^ 20) (c.get b.toNat))))

/-- May a JSTEP go from one state to another (12 Table VLX-5)? COMPLETE is TSCH's. -/
def jstepOk (from_ to_ : Nat) : Bool := (from_ == 1 || from_ == 2) && (to_ == 2 || to_ == 3)

/-- JSTEP: a step from the image at Ea; the context waits until the step is mirrored, or recorded SOLO. A step still under way from an engine that failed comes first: an entry has one JWR outstanding (12 R298). -/
def execJstep (e ctx : Nat) (t a b : BitVec 4) (rsv : BitVec 8) (s : State) : Out :=
  runVeIn (fun st => st == .running || st == .waitJack) e ctx (rsv != 0 || b != 0) s fun s c =>
    let k := e * 16 + ctx
    match s.exOf c.exid with
    | none => .ok s
    | some x =>
      if s.veOpen k then .stay s
      else if c.st == .waitJack then
        if (s.jent x.mirror x.idx).outst then .stay s else .ok ((s.startQueued x.key).veSet k t (b2n (jSolo (s.img x))))
      else
        let sa := c.get a.toNat % 2 ^ 20
        if 65536 < sa + 64 then .trap 3 else
        if (s.jent x.mirror x.idx).outst then .stay s else
        let i : Img := BitVec.ofNat 512 (packBytes (s.sramRead e sa 64))
        if !jstepOk (jState (s.img x)) (jState i) then .trap 1
        else
          let s := s.writeStep x (fun j =>
            let j := jput (jput (jput j 0 63 60 (jState i)) 1 47 32 (jget i 1 47 32)) 1 31 16 (jget i 1 31 16)
            let j := jput (jput j 2 55 0 (jget i 2 55 0)) 6 63 56 (jget i 6 63 56)
            jput (jput j 6 55 48 (jget i 6 55 48)) 6 24 0 (jget i 6 24 0))
          if (s.jent x.mirror x.idx).outst then .stay (s.updVe k (fun c => { c with st := .waitJack }))
          else .ok ((s.startQueued x.key).veSet k t (b2n (jSolo (s.jent x.mirror x.idx).img)))

/-- JREAD: word Eb[3:0] of the journal entry. -/
def execJread (e ctx : Nat) (t a b : BitVec 4) (rsv : BitVec 8) (s : State) : Out :=
  runVe e ctx (rsv != 0 || a != 0) s fun s c =>
    if s.veOpen (e * 16 + ctx) then .stay s else
    match s.exOf c.exid with
    | none => .ok s
    | some x => .ok (s.veSet (e * 16 + ctx) t ((s.img x).toNat / 2 ^ (32 * (15 - c.get b.toNat % 16)) % 2 ^ 32))

/-- PDSQ_SUBMIT (R325): a context that a full queue stalled submits its descriptor once there is room. -/
def execPdsqSubmit (e ctx : Nat) (s : State) : Out :=
  runVeIn (fun st => st == .waitPds) e ctx false s fun s c =>
    let k := e * 16 + ctx
    (s.vePdsq k { c with st := .running }).run fun s _ =>
      if (s.veCtx k).st == .waitPds then .stay s else .ok s

/-! The words of instruction RAM (R320, R321, R323) -/

/-- What an instruction does. -/
abbrev VeIns := State → Out

/-- A constructor of formats R and C: an engine, a context, t, a, b and the reserved bits. -/
abbrev FormR := Nat → Nat → BitVec 4 → BitVec 4 → BitVec 4 → BitVec 8 → VeIns

/-- One of format I: t, a, the reserved bits and imm16. -/
abbrev FormI := Nat → Nat → BitVec 4 → BitVec 4 → BitVec 2 → BitVec 16 → VeIns

/-- One of format M: t, bk and sa. -/
abbrev FormM := Nat → Nat → BitVec 4 → BitVec 2 → BitVec 20 → VeIns

/-- One of format MX: t, a, bk and disp16. -/
abbrev FormX := Nat → Nat → BitVec 4 → BitVec 4 → BitVec 2 → BitVec 16 → VeIns

/-- The functions 1, 2, … of a major of formats R and C (Tables VEN-5 and VEN-7). -/
def veFns (op : Nat) : List FormR :=
  match op with
  | 0x00 => [execVeAdd, execVeSub, execVeAnd, execVeOr, execVeXor, execVeAndn, execVeSll, execVeSrl, execVeSra, execVeRol, execVeCmp, execVeMov, execVeMul, execVeMulu, execMfmh, execMfml, execMffl, execMtfl]
  | 0x26 => [fun e x t a b r => execMfbk e x t a b r false, fun e x t a b r => execMfbk e x t a b r true]
  | 0x38 => [execZopen, execZstat, execZclose]
  | 0x39 => [execKopen, execKstat, execKclose]
  | 0x3A => [execCrcw, execCrcl, execSum16]
  | 0x3B => [execJstep, execJread]
  | _ => []

/-- The majors of format I. -/
def veI (op : Nat) : Option FormI :=
  match op with
  | 0x01 => some execVeAddi | 0x02 => some execVeAndi | 0x03 => some execVeOri | 0x04 => some execVeXori | 0x05 => some execVeCmpi | 0x06 => some execVeLui
  | 0x07 => some execVeSlli | 0x08 => some execVeSrli | 0x09 => some execVeSrai | 0x22 => some execVeBr | 0x23 => some execWait | 0x24 => some execVeFence | 0x27 => some execVeNop
  | _ => none

/-- The majors of format M. -/
def veM (op : Nat) : Option FormM :=
  match op with
  | 0x10 => some execVeLw | 0x11 => some execVeLh | 0x12 => some execVeLhs | 0x13 => some execVeLb | 0x14 => some execVeLbs | 0x15 => some execVeSw | 0x16 => some execVeSh | 0x17 => some execVeSb
  | _ => none

/-- The majors of format MX. -/
def veX (op : Nat) : Option FormX :=
  match op with
  | 0x18 => some execVeLwx | 0x19 => some execVeLbx | 0x1A => some execVeSwx | 0x1B => some execVeSbx | 0x1E => some execLxch
  | _ => none

/-- The engine instruction of a word with a defined major and function (Table VEN-4). MTBK has no function: its fn field is reserved. -/
def veWord (e ctx : Nat) (w : BitVec 32) : Option VeIns :=
  let op := (w.extractLsb' 26 6).toNat
  let fn := (w.extractLsb' 0 6).toNat
  let t : BitVec 4 := w.extractLsb' 22 4
  let a : BitVec 4 := w.extractLsb' 18 4
  let b : BitVec 4 := w.extractLsb' 14 4
  let bk : BitVec 2 := w.extractLsb' 16 2
  if let some k := veI op then some (k e ctx t a bk (w.extractLsb' 0 16))
  else if let some k := veM op then some (k e ctx t (w.extractLsb' 20 2) (w.extractLsb' 0 20))
  else if let some k := veX op then some (k e ctx t a bk (w.extractLsb' 0 16))
  else match op with
    | 0x1C => some (execLdm e ctx t a bk (w.extractLsb' 13 3) (w.extractLsb' 0 13))
    | 0x1D => some (execStm e ctx t a bk (w.extractLsb' 13 3) (w.extractLsb' 0 13))
    | 0x20 => some (execVeB e ctx t (w.extractLsb' 0 22))
    | 0x21 => some (execVeBal e ctx t (w.extractLsb' 0 22))
    | 0x25 => if fn = 0 then some (execMtbk e ctx t a b (w.extractLsb' 6 8)) else none
    | _ => (nth (veFns op) fn).map (fun k => k e ctx t a b (w.extractLsb' 6 8))

/-- What a word of instruction RAM does. A word without a defined major or function traps with cause 0x01 (Table VEN-9), and so does a NOP with a reserved field set, which stands for it. -/
def veDecode (e ctx : Nat) (w : BitVec 32) : VeIns := (veWord e ctx w).getD (execVeNop e ctx 1 0 0 0)

/-- The instruction that a context stands at, run: the word of instruction RAM at its PC; unwritten words are zero, which is illegal. Commands bring the instructions one by one; an engine that runs its image brings these. -/
def State.veStep (s : State) (e ctx : Nat) : Out := veDecode e ctx (s.chn.iram.get 0 (s.veCtx (e * 16 + ctx)).pc.toNat) s

/-! VEN_CTXSEL and VEN_CTXDATA -/

/-- VEN_CTXSEL_RELEASE: a write of VEN_CTXSEL; REL releases the selected parked context (R326). -/
def State.ctxselWrite (s : State) (src : Src) (v : W64) : State :=
  let off := F.VEN_CTXSEL_ENG.base
  let s' := s.wrReg src off v
  let e := s'.fld F.VEN_CTXSEL_ENG
  let ctx := s'.fld F.VEN_CTXSEL_CTX
  if !v.getLsbD 63 then s'
  else if fieldOf v 19 13 ≠ e || (s'.veCtx (e * 16 + ctx)).st != .parked then s'.cfgErr src off
  else
    let order := (s'.chn.parkOrder.get [] e).filter (fun n => n != ctx)
    let s := { s' with chn := { s'.chn with parkOrder := s'.chn.parkOrder.put e order } }
    (s.setVe (e * 16 + ctx) VeCtx.reset).setFld F.VEN_ENG_PARKED order.length e

def execVenCtxselRelease (src : Src) (v : BitVec 64) (s : State) : Out := settled s <| .next (s.ctxselWrite src v)

/-- VEN_CTXDATA: the item that VEN_CTXSEL names; zero with CFG_ERR when the context is not parked or INDEX exceeds 20. -/
def State.ctxdata (s : State) (src : Src) : State × W64 :=
  let c := s.veCtx (s.fld F.VEN_CTXSEL_ENG * 16 + s.fld F.VEN_CTXSEL_CTX)
  let i := s.fld F.VEN_CTXSEL_INDEX
  if c.st != .parked || decide (20 < i) then (s.cfgErr src F.VEN_CTXDATA_DATA.base, 0)
  else if i < 16 then (s, BitVec.ofNat 64 (c.get i))
  else if i < 19 then (s, (c.bk.get 0 (i - 15)).setWidth 64)
  else if i = 19 then (s, BitVec.ofNat 64 (c.mh.toNat * 2 ^ 32 + c.ml.toNat))
  else (s, BitVec.ofNat 64 (c.cause.toNat * 2 ^ 56 + c.pc.toNat * 2 ^ 41 + c.flags.toNat * 2 ^ 37 + c.pid.toNat * 2 ^ 29 + c.exid.toNat))

def execVenCtxdataRead (src : Src) (s : State) : Out := settled s <|
  let p := s.ctxdata src
  .next { p.1 with busData := p.2 }

end Sys2Proof.Machine
end

