-- ==== Sys2Proof/Machine/Monitors.lean ====
section
/-! DEFINITION. Monitors, ageing and the odometer (21). -/

namespace Sys2Proof.Machine

/-! Monitors (R451 to R454) -/

/-- How many monitors of a kind there are. -/
def monCount (kind : Nat) : Nat := if kind = 0 then 144 else if kind = 1 then 72 else if kind = 2 then 88 else 0

/-- The thermal group of a sensor, and the first sensor and size of a group: a ring in index order (Table LIF-1). -/
def thmGroup (i : Nat) : Nat := if i < 112 then i / 14 else if i < 128 then 8 else 9
def thmFirst (g : Nat) : Nat := if g < 8 then 14 * g else if g = 8 then 112 else 128
def thmSize (g : Nat) : Nat := if g < 8 then 14 else 16
def thmRing (g : Nat) : List Nat := (List.range (thmSize g)).map (fun k => thmFirst g + k)

/-- The rail of a droop monitor: 0 to 7 VDD_CL0 to 7, then VDD_UNC, VDD_SRAM, VDDQ_DDR, VDD_SER, VDDH_SER, VDD_IO. -/
def railOf (i : Nat) : Nat := if i < 56 then i / 7 else if i < 60 then 8 else if i < 64 then 9 else 10 + (i - 64) / 2
def railMons (r : Nat) : List Nat := (List.range 72).filter (fun i => railOf i == r)

/-- Working monitors among some. -/
def State.working (s : State) (kind : Nat) (l : List Nat) : List Nat := l.filter (fun i => !(s.mon kind i).retired)

/-- The nearest working ring neighbour of a sensor, up or down. -/
def State.ringNext (s : State) (i : Nat) (up : Bool) : Option Nat :=
  let g := thmGroup i
  let n := thmSize g
  let p := i - thmFirst g
  ((List.range (n - 1)).map (fun k => thmFirst g + (if up then (p + k + 1) % n else (p + n - (k + 1)) % n))).find? (fun j => !(s.mon 0 j).retired)

/-- The sensor that supplies a reading: itself, or for a retired one the hotter of its two nearest working neighbours (R453). -/
def State.thmSrc (s : State) (i : Nat) : Nat :=
  if !(s.mon 0 i).retired then i else
  match s.ringNext i true, s.ringNext i false with
  | some a, some b => if (s.mon 0 b).val ≤ (s.mon 0 a).val then a else b
  | _, _ => i

/-- The temperatures of a group, in 1/16 of a degree: working sensors and substitutes; none when the group is blind. -/
def State.groupTemps (s : State) (g : Nat) : List Int :=
  if (s.working 0 (thmRing g)).isEmpty then [] else (thmRing g).map (fun i => (s.mon 0 (s.thmSrc i)).val)

/-- Hottest reading of a list. -/
def hottest (l : List Int) : Option Int := l.foldl (fun (b : Option Int) v => match b with | none => some v | some w => some (max v w)) none

/-- A blind group (R454). -/
def State.blind (s : State) (g : Nat) : Bool := (s.working 0 (thmRing g)).isEmpty

/-- What a blind group does (R454): the severe fault; the cap of its cluster is held at 0, or, for TG8 and TG9, the thermal emergency. -/
def State.goneBlind (s : State) (g : Nat) : State :=
  let s := s.flt 15 11 0 none (BitVec.ofNat 64 g)
  if g < 8 then s.setCap F.CLK_GEAR_THMCAP g 0 else s.emergencyOn true

/-- Retire a monitor (R452): the odometer records it; the noted fault of its kind; a spare of the inventory is consumed. A group left without a working sensor is blind. -/
def State.monRetire (s : State) (kind i : Nat) : State :=
  if (s.mon kind i).retired then s else
  let s := (s.setMon kind i { s.mon kind i with retired := true }).consume (12 + kind)
  let bit := if kind = 0 then i else if kind = 1 then 144 + i else 216 + i
  let s := s.updSvc (fun k => { k with odo := { k.odo with cnt := k.odo.cnt.put (30000 + bit) 1 } })
  let s := s.flt 15 kind 0 none (BitVec.ofNat 64 i)
  if kind = 0 && s.blind (thmGroup i) then s.goneBlind (thmGroup i)
  else if kind = 2 && 56 ≤ i then s.setMon 2 i { s.mon 2 i with armed := true }
  else s

/-- Fewer than 3 working sensors: the group is not compared. -/
def State.compared (s : State) (g : Nat) : Bool := decide (3 ≤ (s.working 0 (thmRing g)).length)

/-- A working sensor's new reading: out of range, or out of step with two neighbours that agree (Table LIF-3). -/
def State.thmCheck (s : State) (i : Nat) : State :=
  let m := s.mon 0 i
  if m.retired then s else
  let out := m.val < -320 || 2240 < m.val
  let dev := s.compared (thmGroup i) && (match s.ringNext i true, s.ringNext i false with
    | some a, some b => decide (160 < (m.val - (s.mon 0 a).val).natAbs) && decide (160 < (m.val - (s.mon 0 b).val).natAbs) && decide (((s.mon 0 a).val - (s.mon 0 b).val).natAbs ≤ 80)
    | _, _ => false)
  let m := { m with bad := if out then m.bad + 1 else 0, dev := if dev then m.dev + 1 else 0 }
  let s := s.setMon 0 i m
  if 4 ≤ m.bad || 100 ≤ m.dev then s.monRetire 0 i else s

/-- Take a reading into a monitor, with the extreme since cold reset: the highest (thermal) or lowest (droop). -/
def Mon.read (m : Mon) (low : Bool) (v : Int) : Mon :=
  { m with val := v, peak := if !m.seen then v else if low then min m.peak v else max m.peak v, seen := true }

/-- THERMAL_READING: all sensors, every 100 us, in units of 0.0625 degrees; a thermal emergency starts at 105 and ends when every sensor is below 100 (R405). -/
def execThermalReading (vals : List Int) (s : State) : Out := settled s <|
  .next <|
    if s.dead then s else
    let s := (vals.take 144).zipIdx.foldl (fun s p => s.setMon 0 p.2 ((s.mon 0 p.2).read false p.1)) s
    let s := (List.range 144).foldl (fun s i => s.thmCheck i) s
    let all := (List.range 10).flatMap (fun g => s.groupTemps g)
    if all.any (fun t => decide (1680 ≤ t)) then s.emergencyOn true
    else if s.flag F.CLK_PWR_TEMERG && all.all (fun t => decide (t < 1600)) && !s.blind 8 && !s.blind 9 then s.emergencyOff true else s

/-- THERMAL_CAP_TICK (R404): the cap of a cluster falls while a sensor reads TTHR or more, and rises once all were below TTHR - 5 degrees; the command stands for the elapsed time (log 46). -/
def execThermalCapTick (cl : Nat) (s : State) : Out := settled s <|
  if 8 ≤ cl then .fault .noSuchUnit else .next <|
  if s.dead || s.blind cl then s else
  let t : Int := s.fld F.CLK_PWR_TTHR * 16
  let l := s.groupTemps cl
  let cap := s.fld F.CLK_GEAR_THMCAP cl
  if l.any (fun x => decide (t ≤ x)) then
    if cap = 0 then s else
      let capped := (List.range 8).any (fun c => s.fld F.CLK_GEAR_THMCAP c != 15)
      let s := s.setCap F.CLK_GEAR_THMCAP cl (cap - 1)
      if capped then s else s.flt 13 4
  else if l.all (fun x => decide (x < t - 80)) && decide (cap < 15) && !s.emergency then s.setCap F.CLK_GEAR_THMCAP cl (cap + 1) else s

/-- The set value of a rail in mV: a cluster's by its gear (18 Table CLK-3, typical), the others of 23 Table PKG-2. -/
def State.railMv (s : State) (r : Nat) : Nat :=
  if r < 8 then [650, 670, 700, 720, 740, 770, 790, 810, 840, 860, 880, 910, 930, 960, 1000, 1050].getD (s.fld F.CLK_GEAR_CUR r) 650
  else [750, 850, 1100, 750, 1200, 1800].getD (r - 8) 0

/-- A working droop monitor's reading: outside half to one and a half of the set value, or more than 3% off the mean of at least 2 others, for 1,000 readings. -/
def State.droopCheck (s : State) (i : Nat) : State :=
  let m := s.mon 1 i
  if m.retired then s else
  let set : Int := s.railMv (railOf i)
  let out := decide (2 * m.val < set) || decide (3 * set < 2 * m.val)
  let others := (s.working 1 (railMons (railOf i))).filter (fun j => j != i)
  let sum := others.foldl (fun t j => t + (s.mon 1 j).val) 0
  let n : Int := others.length
  let dev := decide (2 ≤ others.length) && decide (3 * sum.natAbs < 100 * (m.val * n - sum).natAbs)
  let m := { m with bad := if out then m.bad + 1 else 0, dev := if dev then m.dev + 1 else 0 }
  let s := s.setMon 1 i m
  if 4 ≤ m.bad || 1000 ≤ m.dev then s.monRetire 1 i else s

/-- The mean that a rail reads: of its working monitors, the lower of two that disagree (R453). -/
def State.railRead (s : State) (r : Nat) : Int :=
  match s.working 1 (railMons r) with
  | [a, b] =>
    let x := (s.mon 1 a).val
    let y := (s.mon 1 b).val
    if 3 * (max x y).natAbs < 100 * (x - y).natAbs then min x y else (x + y) / 2
  | [] => 0
  | l => l.foldl (fun t j => t + (s.mon 1 j).val) 0 / l.length

/-- Two working monitors of a rail differ by more than 3%. -/
def State.disagree (s : State) (r : Nat) : Bool :=
  match s.working 1 (railMons r) with
  | [a, b] => let x := (s.mon 1 a).val; let y := (s.mon 1 b).val; decide (3 * (max x y).natAbs < 100 * (x - y).natAbs)
  | _ => false

/-- DROOP_READING: the means of 1 us, in mV; the disagreement of a rail is raised when it begins. -/
def execDroopReading (vals : List Int) (s : State) : Out := settled s <|
  .next <|
    if s.dead then s else
    let before := (List.range 14).filter (fun r => s.disagree r)
    let s := (vals.take 72).zipIdx.foldl (fun s p => s.setMon 1 p.2 ((s.mon 1 p.2).read true p.1)) s
    let s := (List.range 72).foldl (fun s i => s.droopCheck i) s
    (List.range 14).foldl (fun s r => if s.disagree r && !before.contains r then s.flt 15 3 0 none (BitVec.ofNat 64 r) else s) s

/-- DROOP_EVENT: a working monitor reports its rail below 92%: a power emergency (18 R405). -/
def execDroopEvent (mon : Nat) (s : State) : Out := settled s <|
  if 72 ≤ mon then .fault .noSuchUnit else .next (if s.dead || (s.mon 1 mon).retired then s else s.emergencyOn false)

/-! Ageing (R455, R456) -/

/-- Put a number into a sorted list. -/
def sortInt (x : Int) : List Int → List Int
  | [] => [x]
  | y :: r => if x ≤ y then x :: y :: r else y :: sortInt x r

/-- The median of the readings at hand. -/
def median (l : List Int) : Int := (l.foldl (fun a x => sortInt x a) []).getD (l.length / 2) 0

/-- No spare core is left. -/
def State.noSpare (s : State) : Bool := (List.range 56).all (fun p => s.fld F.TAN_PCSTAT_ROLE p != 1)

/-- What follows from a physical core's PEAK (R456; 18 R402): a spare at 9% has failed; an active core at 8% without a spare is noted once, at 9% it is requested to move. -/
def State.coreAge (s : State) (p : Nat) : State :=
  let pk := s.agePeak p
  let role := s.fld F.TAN_PCSTAT_ROLE p
  if role = 1 then (if 900 ≤ pk then (s.setFld F.TAN_PCSTAT_ROLE 3 p).useSpare else s)
  else if role = 0 then
    let s := if 800 ≤ pk && s.noSpare && !s.svc.agedNoSpare.contains p then (s.updSvc (fun k => { k with agedNoSpare := k.agedNoSpare ++ [p] })).flt 15 5 p else s
    if 900 ≤ pk then (match s.lcOf p with | some lc => s.requestSparing lc false | none => s) else s
  else s

/-- A new ageing reading, in 0.01%: plausible, filtered, PEAK. -/
def State.ageRead (s : State) (i : Nat) (v : Int) : State :=
  let m := s.mon 2 i
  if m.retired then s else
  let bad := v < -300 || 2500 < v || (m.seen && decide (150 < (v - m.val).natAbs))
  let h := (v :: m.hist).take 5
  let pk := if h.length = 5 then max m.peak (median h) else m.peak
  let m' := { m with val := v, seen := true, bad := if bad then m.bad + 1 else 0, hist := h, peak := pk }
  let s := s.setMon 2 i m'
  let s := s.updSvc (fun k => { k with odo := { k.odo with cnt := k.odo.cnt.put (20000 + i) ((BitVec.ofInt 16 (min pk 32767)).toNat) } })
  if 3 ≤ m'.bad then s.monRetire 2 i
  else if 56 ≤ i then
    let s := if m.peak < 600 && 600 ≤ pk then s.flt 15 6 i else s
    if 900 ≤ pk then s.setMon 2 i { m' with armed := true } else s
  else s

/-- AGEING_READING: all monitors, every 10 minutes; then the spares and caps follow PEAK. -/
def execAgeingReading (vals : List Int) (s : State) : Out := settled s <|
  .next <|
    if s.dead then s else
    let s := (vals.take 88).zipIdx.foldl (fun s p => s.ageRead p.2 p.1) s
    let s := (List.range 56).foldl (fun s p => s.coreAge p) s
    (List.range 8).foldl (fun s c => s.ageCap c) s

/-- The ageing monitor that covers a unit (Table LIF-2); Keystone, the mesh and the directory share 87, the sequencers their wall's. -/
def marginMonitor : MarginUnit → Nat
  | .l3Way sl _ => 56 + sl / 4
  | .dirWay _ => 87
  | .felardLane p _ => 84 + p / 8
  | .velexLane v _ => 64 + v
  | .portController v => 64 + v
  | .engine e => 80 + e / 17
  | .zip z => if z < 16 then 64 + z else 86
  | .brick w _ => 64 + w
  | .other => 87

/-- Does the unit exist. -/
def marginOk : MarginUnit → Bool
  | .l3Way sl w => decide (sl < 32) && decide (w < 16)
  | .dirWay w => decide (w < 16)
  | .felardLane p l => decide (p < 16) && decide (l < 5)
  | .velexLane v l => decide (v < 16) && decide (l < 3)
  | .portController v => decide (v < 16)
  | .engine e => decide (e < 68)
  | .zip z => decide (z < 22)
  | .brick w b => decide (w < 16) && decide (b < 272)
  | .other => true

/-- The state that an operation answers, or the state before it. -/
def outOr (o : Out) (s : State) : State := match o with | .next t => t | _ => s

/-- MARGIN_DETECTOR_FIRE (R456, Table LIF-4): an armed detector's unit is spared as at 9% ageing. ZE16 to ZE19 have no monitor of their own in Table LIF-2 and count with ZE20 and ZE21 (log 47). -/
def execMarginDetectorFire (u : MarginUnit) (s : State) : Out := settled s <|
  if !marginOk u then .fault .noSuchUnit else
  if s.dead || !(s.mon 2 (marginMonitor u)).armed then .next s else
  match u with
  | .l3Way sl w => execL3WaySparing sl w s
  | .dirWay w => execDirectoryWaySparing w s
  | .felardLane p l => execFelardLaneSparing p l s
  | .velexLane v l => execVelexLaneSparing v l s
  | .portController v => execControllerSwitchover v (.stateError false) s
  | .engine e => execVeEngineFailure e true s
  | .zip z => execZeEngineFailure z s
  | .brick w b => .next (s.brickRetire w b)
  | .other => .next (s.flt 15 7)

/-! LIF_SNDATA -/

/-- LIF_SNDATA of the selected monitor; zero with CFG_ERR for an index that does not exist. -/
def State.snData (s : State) (src : Src) : State × W64 :=
  let k := s.fld F.LIF_SNSEL_KIND
  let i := s.fld F.LIF_SNSEL_INDEX
  if monCount k ≤ i then (s.cfgErr src F.LIF_SNDATA_VALUE.base, 0) else
  let m := s.mon k i
  let from_ := if k = 0 then s.thmSrc i else if k = 2 && i < 56 then s.ageMon i else i
  let v := if k = 1 then m.val else (s.mon k from_).val
  let pk := if k = 2 then (s.mon 2 from_).peak else m.peak
  let st := if m.retired then 1 else if k = 0 && !s.compared (thmGroup i) then 2 else 0
  (s, BitVec.ofNat 64 ((BitVec.ofInt 16 v).toNat * 2 ^ 48 + (BitVec.ofInt 16 pk).toNat * 2 ^ 32 + st * 2 ^ 30 + (if m.retired then from_ else 0) * 2 ^ 22))

/-- LIF_SNDATA_READ. -/
def execLifSndataRead (src : Src) (s : State) : Out := settled s <|
  .next (if s.dead then s else let r := s.snData src; { r.1 with busData := r.2 })

/-! Odometer (R457 to R461). The live image's counts stand in `odo.cnt` by byte offset divided by 4; the consumed spares under 10000 + item, PEAK under 20000 + monitor, RETIRED under 30000 + bit. -/

def State.odo (s : State) (k : Nat) : Nat := s.svc.odo.cnt.get 0 k
def State.updOdo (s : State) (f : Odo → Odo) : State := s.updSvc (fun k => { k with odo := f k.odo })
def State.odoAdd (s : State) (k : Nat) : State := s.updOdo (fun o => { o with cnt := o.cnt.upd 0 k (fun n => satAdd 32 n 1) })

/-- The bin of a temperature in 1/16 of a degree (R458). -/
def tempBin (t : Int) : Nat := if t < 80 then 0 else min 15 ((t - 80) / 128 + 1).toNat

/-- The bin of a deviation in hundredths of a percent (R458). -/
def voltBin (d : Int) : Nat := if d < -600 then 0 else min 7 ((d + 600) / 200 + 1).toNat

/-- ODOMETER_MINUTE (R458): `voltPct`: the minute means of the rails relative to their set values, in 0.01%. A thermal cycle counts when the hottest reading has fallen 40 degrees below the highest since the last count. -/
def execOdometerMinute (voltPct : List Int) (s : State) : Out := settled s <|
  .next <|
    if s.dead then s else
    let s := (List.range 10).foldl (fun s g => match hottest (s.groupTemps g) with | some t => s.odoAdd (8 + 16 * g + tempBin t) | none => s) s
    let s := (voltPct.take 14).zipIdx.foldl (fun s p => s.odoAdd (168 + 8 * p.2 + voltBin p.1)) s
    let s := (List.range 8).foldl (fun s c => s.odoAdd (280 + 16 * c + s.fld F.CLK_GEAR_CUR c)) s
    let hot := (hottest ((List.range 10).flatMap (fun g => s.groupTemps g))).getD 0
    let s := if hot + 640 ≤ s.svc.odo.hotSince then (s.odoAdd 4).updOdo (fun o => { o with hotSince := hot }) else s.updOdo (fun o => { o with hotSince := max o.hotSince hot })
    let s := s.updOdo (fun o => { o with minutes := o.minutes + 1 })
    if s.svc.odo.minutes % 60 = 0 then s.odoAdd 5 else s

/-- A record to be written: it starts at the slot after the last one, or waits for the write in progress (R459, R460). The record is the live image with its REASON, the next SEQ and the time base. -/
def State.odoWrite (s : State) (reason : Nat) : State :=
  match s.svc.odo.writing with
  | some _ => (s.updOdo (fun o => { o with pendReason := some (if o.pendReason = some 3 then 3 else reason) })).setFlag F.LIF_ODOSTAT_PEND true
  | none =>
    let s := s.updOdo (fun o =>
      let c := o.cnt.put 1 (0x00010000 + reason)
      let c := c.put 2 ((o.cnt.get 0 2 + 1) % 2 ^ 32)
      let c := (c.put 6 (s.fab.tb.toNat / 2 ^ 32)).put 7 (s.fab.tb.toNat % 2 ^ 32)
      { o with cnt := c, writing := some ((s.fld F.LIF_ODOSTAT_SLOT + 1) % 1024), tries := 0 })
    s.setFlag F.LIF_ODOSTAT_BUSY true

/-- ODOMETER_POWER_ON_WRITE: one minute after start, REASON 2. -/
def execOdometerPowerOnWrite (s : State) : Out := settled s <| .next (if s.dead then s else s.odoWrite 2)

/-- ODOMETER_HOURLY_WRITE: after 60 minutes of powered time since the last record, REASON 1. -/
def execOdometerHourlyWrite (s : State) : Out := settled s <| .next (if s.dead then s else s.odoWrite 1)

/-- LIF_ODOCMD OP 1: REASON 4; OP 2: shutdown, REASON 3 (R460). -/
def State.odoCmd (s : State) (op : Nat) : State := if op = 1 then s.odoWrite 4 else if op = 2 then s.odoWrite 3 else s

def execOdometerWriteNow (_src : Src) (s : State) : Out := settled s <| .next (if s.dead then s else s.odoCmd 1)
def execOdometerShutdown (_src : Src) (s : State) : Out := settled s <| .next (if s.dead then s else s.odoCmd 2)

/-- The flash once the slot's turn has come: a sector is erased at its first slot. -/
def odoErase (n : Nat) (t : Tab (Tab Nat)) : Tab (Tab Nat) := if n % 2 = 0 then (t.del n).del (n + 1) else t

/-- A slot whose write failed or was cut off: its CRC is bad. -/
def odoBad : Tab Nat := [(0, 1)]

/-- A write that a reset or a loss of power cuts off (R460). -/
def Odo.cut (o : Odo) : Odo :=
  match o.writing with
  | some n => { o with slots := (odoErase n o.slots).put n odoBad, writing := none, tries := 0, pendReason := none }
  | none => o

/-- ODOMETER_WRITE_DONE (R459): verified, or on to the next slot, for up to 3 slots; then WFAIL, and the image waits for the next write. A sector is erased when its first slot's turn comes. DONE follows a shutdown record. -/
def execOdometerWriteDone (ok : Bool) (s : State) : Out := settled s <|
  .next <|
    match s.svc.odo.writing with
    | none => s
    | some n =>
      if s.dead then s else
      let next := fun (s : State) =>
        let s := s.setFlag F.LIF_ODOSTAT_BUSY false
        match s.svc.odo.pendReason with
        | some r => ((s.updOdo (fun o => { o with pendReason := none })).setFlag F.LIF_ODOSTAT_PEND false).odoWrite r
        | none => s
      if ok then
        let shut := s.odo 1 % 65536 == 3
        let s := s.updOdo (fun o => { o with slots := (odoErase n o.slots).put n o.cnt, writing := none })
        let s := (s.setFld F.LIF_ODOSTAT_SLOT n).setFld F.LIF_ODOSTAT_SEQ (s.odo 2)
        next (if shut then s.setFlag F.LIF_ODOSTAT_DONE true else s)
      else if s.svc.odo.tries + 1 < 3 then s.updOdo (fun o => { o with slots := (odoErase n o.slots).put n odoBad, writing := some ((n + 1) % 1024), tries := o.tries + 1 })
      else
        let s := s.updOdo (fun o => { o with slots := (odoErase n o.slots).put n odoBad, writing := none, cnt := o.cnt.put 2 ((o.cnt.get 0 2 + 2 ^ 32 - 1) % 2 ^ 32) })
        next ((s.setFlag F.LIF_ODOSTAT_WFAIL true).flt 15 9)

/-- The live image as bytes (Table LIF-6), with the CRC as it will be written. -/
def State.odoImage (s : State) : List Byte :=
  let w := fun (k : Nat) => bytesOf 4 (s.odo k)
  let words := fun (from_ n : Nat) => (List.range n).flatMap (fun i => w (from_ + i))
  let spares := (List.range 14).flatMap (fun i => bytesOf 2 (min (s.odo (10001 + i)) 65535))
  let peaks := (List.range 88).flatMap (fun i => bytesOf 2 (s.odo (20000 + i)))
  let retired := (List.range 38).map (fun i => BitVec.ofNat 8 ((List.range 8).foldl (fun v b => v * 2 + s.odo (30000 + 8 * i + b)) 0))
  let l := bytesOf 4 0x4B4F444F ++ bytesOf 2 1 ++ bytesOf 2 (s.odo 1 % 65536) ++ words 2 423 ++ spares ++ peaks ++ retired
  let l := l ++ List.replicate (2044 - l.length) 0
  l ++ bytesOf 4 (crcIscsi l).toNat

/-- LIF_ODODATA: doubleword IDX of the live image. -/
def State.odoData (s : State) : W64 := BitVec.ofNat 64 (ofBytes ((s.odoImage.drop (8 * s.fld F.LIF_ODOSEL_IDX)).take 8))

/-- Is SEQ `a` later than `b` in serial-number arithmetic. -/
def seqLater (a b : Nat) : Bool := decide ((a + 2 ^ 32 - b) % 2 ^ 32 < 2 ^ 31) && a != b

/-- Step 3 of cold start (R461): the latest good record; PEAK and retirements return to the monitors. Without a record, counts start from zero, BLANK and the severe fault. A slot with a bad CRC raises the noted fault once; an erased slot does not. -/
def State.odoLoad (s : State) : State :=
  let s := s.updOdo Odo.cut
  let bad := fun (p : Nat × Tab Nat) => p.2.get 0 0 != 0
  let s := if s.svc.odo.slots.any bad then s.flt 15 8 else s
  let best := (s.svc.odo.slots.filter (fun p => !bad p)).foldl (fun (b : Option (Nat × Tab Nat)) p =>
    match b with
    | none => some p
    | some q => if seqLater (p.2.get 0 2) (q.2.get 0 2) then some p else b) none
  let s := match best with
    | some p => ((s.updOdo (fun o => { o with cnt := p.2 })).setFld F.LIF_ODOSTAT_SLOT p.1).setFld F.LIF_ODOSTAT_SEQ (p.2.get 0 2)
    | none => ((s.updOdo (fun o => { o with cnt := [] })).setFlag F.LIF_ODOSTAT_BLANK true).flt 15 10
  let s := s.updOdo (fun o => { o with writing := none, tries := 0, pendReason := none, minutes := 0, hotSince := 0 })
  let s := (List.range 88).foldl (fun s i =>
    let pk := (BitVec.ofNat 16 (s.odo (20000 + i))).toInt
    if pk = 0 then s else s.setMon 2 i { s.mon 2 i with peak := pk, armed := decide (56 ≤ i) && decide (900 ≤ pk) }) s
  let s := (List.range 304).foldl (fun s b =>
    if s.odo (30000 + b) = 0 then s else
      let q := if b < 144 then (0, b) else if b < 216 then (1, b - 144) else (2, b - 216)
      s.setMon q.1 q.2 { s.mon q.1 q.2 with retired := true, armed := q.1 == 2 && decide (56 ≤ q.2) }) s
  (s.odoAdd 3).odoAdd 4

end Sys2Proof.Machine
end

