-- ==== Sys2Proof/Machine/Boot.lean ====
section
/-! DEFINITION. Power-on, configuration flash, firmware load, hand-over and warm reset (19). -/

namespace Sys2Proof.Machine

/-! Steps 1 to 4 (R412, Table BOO-1) -/

/-- PORST_N_ASSERT (23 R486): a low level of 10 us or more, or one from 2 us on that is seen, is a cold reset; a latched THERMTRIP ignores it. -/
def execPorstNAssert (us : Nat) (seen : Bool) (s : State) : Out := settled s <|
  .next <|
    if s.svc.trip || us < 2 || (us < 10 && !seen) then s
    else (s.coldState).updSvc (fun k => { k with porst := true })

/-- The physical cores of the delivery map: which carry logical cores, which are spares; the rest are fused off (07 R176; log 48). -/
def deliveryCore (part : Part) (p : Nat) : Option Nat ⊕ Unit :=
  let c := p / 7
  let k := p % 7
  match part with
  | .b48 => if k = 6 then .inl none else .inl (some (6 * c + k))
  | .b32 => if k = 6 then .inl none else if k < 4 then .inl (some (4 * c + k)) else .inr ()

/-- Place the logical cores. -/
def State.coreMap (s : State) : State :=
  let s := (List.range 56).foldl (fun s p =>
    match deliveryCore s.part p with
    | .inl (some lc) => ((s.setFld F.TAN_PCSTAT_ROLE 0 p).setFld F.TAN_PCSTAT_LC lc p).setCore lc { Core.reset with phys := p }
    | .inl none => (s.setFld F.TAN_PCSTAT_ROLE 1 p).setFld F.TAN_PCSTAT_LC 0xFF p
    | .inr _ => (s.setFld F.TAN_PCSTAT_ROLE 2 p).setFld F.TAN_PCSTAT_LC 0xFF p) s
  s.setFld F.TAN_SPARE_SPARES 8

/-- A physical core fails its start-up test: a spare takes its role; `none`: no spare is left. -/
def State.bootCoreFail (s : State) (p : Nat) : Option State :=
  match s.fld F.TAN_PCSTAT_ROLE p with
  | 1 => some (s.failPc p).useSpare
  | 0 =>
    let lc := s.fld F.TAN_PCSTAT_LC p
    match s.spareList p with
    | q :: _ => some ((((s.failPc p).setFld F.TAN_PCSTAT_ROLE 0 q).setFld F.TAN_PCSTAT_LC lc q).useSpare.updCore lc (fun c => { c with phys := q }))
    | [] => none
  | _ => some s

def State.bootCores (s : State) : List Nat → Option State
  | [] => some s
  | p :: r => (s.bootCoreFail p).bind (fun s => State.bootCores s r)

/-- The roles at delivery (13 R313, 15 R347), and the bricks of the walls. -/
def State.delivery (s : State) : State :=
  let s := (List.range 4).foldl (fun s i => s.setFld F.VEN_ENG_ROLE 1 (64 + i)) s
  let s := (List.range 16).foldl (fun s z => s.setFld F.ZIP_ENG_PORT z z) s
  let s := (List.range 4).foldl (fun s i => s.setFlag F.ZIP_ENG_POOL true (16 + i)) s
  let s := (List.range 2).foldl (fun s i => s.setFld F.ZIP_ENG_ROLE 1 (20 + i)) s
  let s := s.zPool
  let s := (List.range 512).foldl (fun s n => if fixSevere n then s.setFlag F.FLT_SRC_CFG_FIXSEV true n else s) s
  let s := (List.range 16).foldl (fun s v => s.setFlag F.VPT_STAT_PAIRED true v) s
  (List.range 16).foldl (fun s w => s.wallRegs w) s

/-- Units that fail the start-up test: each goes the way of its chapter's sparing, with its faults (log 45). -/
def State.bootUnits (s : State) (env : BootEnv) : State :=
  let s := env.failedL3.foldl (fun s p => outOr (execL3WaySparing p.1 p.2 s) s) s
  let s := env.failedDir.foldl (fun s w => outOr (execDirectoryWaySparing w s) s) s
  let s := env.failedVe.foldl (fun s e => outOr (execVeEngineFailure e false s) s) s
  let s := env.failedZe.foldl (fun s z => outOr (execZeEngineFailure z s) s) s
  env.failedBricks.foldl (fun s p => if p.1 < 16 && p.2 < 272 then s.brickRetire p.1 p.2 else s) s

/-- Step 3 and 4, once the clocks are qualified. -/
def State.selfTest (s : State) (env : BootEnv) : State :=
  let s := s.setFld F.BOO_STAT_STEP 3
  if !env.fuseOk then s.startStop 3 0x11 else
  let st := env.straps.toNat
  let s := (((s.setFlag F.PKG_STRAP_STABLE env.stable).setFld F.PKG_STRAP_WALL (bits st 9 6)).setFld F.PKG_STRAP_COURSE (bits st 5 3)).setFld F.PKG_STRAP_POS (bits st 2 0)
  let s := s.setFld F.FAB_ID_STRAPCX st
  let s := ((s.setFlag F.VEN_FW_OEMFUSE env.oemFuse).setFlag F.VEN_FW_OEMONLY env.oemOnly).odoLoad
  if !env.arraysOk then s.startStop 3 0x10 else
  let s := s.delivery.coreMap
  let s := s.bootUnits env
  match s.bootCores env.failedPcs with
  | none => s.startStop 4 0x20
  | some s =>
    let s := (List.range 56).foldl (fun s p => s.coreAge p) s
    let s := (List.range 8).foldl (fun s c => (s.ageCap c).gearDue c) s
    let s := (List.range 10).foldl (fun s g => if s.blind g then s.goneBlind g else s) s
    s.setFld F.BOO_STAT_STEP 4

/-- COLD_RESET (R410 to R412): the release of PORST_N is recognised with every rail good; steps 1 to 4 run on the hardware as `env` has it. A source that is not qualified acts as in Table BOO-2: without FOSC or SOSC the complex is held in reset. -/
def execColdReset (env : BootEnv) (s : State) : Out := settled s <|
  .next <|
    if !s.svc.aonGood || s.svc.trip then s else
    let s := (({ s with part := env.part }).coldState).updSvc (fun k => { k with env := some env, powered := true, porst := false, resetHold := false })
    let s := s.setFld F.BOO_STAT_STEP 2
    let q := fun (c : ClkSrc) => env.qualified.contains c
    if !q .fosc then s.holdReset 2
    else if !q .sosc then s.holdReset 3
    else
      let s := s.setFld F.CLK_SRC_QUAL ([ClkSrc.fosc, .sosc, .xa, .xb, .vref, .pcie].foldl (fun n c => if q c then n + 2 ^ srcBit c else n) 0)
      let s := if q .xa then s.setFld F.CLK_SRC_REF 0 else s.setRef
      s.selfTest env

/-! Configuration flash (R415 to R421) -/

/-- A big-endian number of `n` bytes at an offset; bytes past the end read as erased flash. -/
def beAt (l : List Byte) (off n : Nat) : Nat := ((l.drop off).take n ++ List.replicate (n - ((l.drop off).take n).length) 0xFF).foldl (fun (a : Nat) (b : Byte) => a * 256 + b.toNat) 0

/-- The entries of a section (16 bytes each, then the CRC-32C of those bytes), or none when the CRC does not match or the section leaves the image. -/
def sectionOf (l : List Byte) (off cnt : Nat) : Option (List (Nat × Nat × Nat)) :=
  if 0x100000 < off + 16 * cnt + 4 || l.length < off + 16 * cnt + 4 then none else
  let body := (l.drop off).take (16 * cnt)
  if (crcIscsi body).toNat ≠ beAt l (off + 16 * cnt) 4 then none else
  some ((chunks 16 cnt body).map (fun e => (beAt e 0 4, beAt e 4 4, beAt e 8 8)))

/-- The registers of Table BOO-5, by section. -/
def commonRegs : List RegDesc := [R.FAB_SYS, R.FAB_TMASTER, R.STO_ILV_BASE, R.STO_ILV_CTL, R.STO_ILV_TGT, R.FAB_GLT, R.COH_LKBASE, R.COH_LKLIM]
def positionRegs : List RegDesc := [R.MEM_POP, R.CLK_SRC, R.MEM_LOC, R.VLX_BUDDY, R.FAB_FNDEST, R.VPT_CTL, R.BOO_IPL0, R.BOO_IPL1, R.BOO_IPL2]

/-- The bits of a register that an entry may set: its fields, of CLK_SRC only XBSEL. -/
def entryMask (off : Nat) (r : RegDesc) : Nat :=
  if off = F.CLK_SRC_XBSEL.base then 3 * 2 ^ 48 else r.flds.foldl (fun m f => putBits m f.hi f.lo (2 ^ (f.hi + 1 - f.lo) - 1)) 0

/-- Values that an entry may not name besides those of single fields: more than that of `wholeRsv`, XBSEL, and a population beyond Table MEM-1 (11 R266). -/
def entryRsv (off v : Nat) : Bool :=
  (off == F.CLK_SRC_XBSEL.base && bits v 49 48 == 3) ||
  (off == F.MEM_POP_GIB.base && (decide (3 < bits v 58 56) || !(bits v 62 61 == 1 || bits v 62 61 == 2) || !(bits v 60 59 == 1 || bits v 60 59 == 2) || decide (8192 < bits v 31 0))) ||
  !(wholeRsv off v).isEmpty

/-- Is an entry admissible in its section (R418). -/
def entryOk (regs : List RegDesc) (e : Nat × Nat × Nat) : Bool :=
  match regs.find? (fun r => r.covers e.1) with
  | none => false
  | some r =>
    e.2.1 == 0 && e.2.2 &&& (2 ^ 64 - 1 - entryMask e.1 r) == 0 && !entryRsv e.1 e.2.2 &&
      (e.1 == F.CLK_SRC_XBSEL.base || r.flds.all (fun f => !f.reserved (bits e.2.2 f.hi f.lo)))

/-- Load entries into their registers; of CLK_SRC only XBSEL. -/
def State.loadEntries (s : State) (es : List (Nat × Nat × Nat)) : State :=
  es.foldl (fun s e => if e.1 = F.CLK_SRC_XBSEL.base then s.setFld F.CLK_SRC_XBSEL (bits e.2.2 49 48) else s.setReg e.1 (BitVec.ofNat 64 e.2.2)) s

/-- A target-table entry: V and CXID (05 R132). -/
def State.ilvTgt (s : State) (k : Nat) : Bool × Nat :=
  let w := s.reg (0xA000 + k / 4 * 8)
  let lo := 48 - 16 * (k % 4)
  (fieldOf w (lo + 15) (lo + 15) == 1, fieldOf w (lo + 9) lo)

/-- Enabled interleave ranges. -/
def State.ilvOn (s : State) : List Nat := (List.range 64).filter (fun n => s.flag F.STO_ILV_BASE_EN n)
def State.ilvShift (s : State) (n : Nat) : Nat := if s.flag F.STO_ILV_CTL_GRAN n then 30 else 12

/-- How often a range's targets name this complex. -/
def State.ilvMine (s : State) (n : Nat) : Nat :=
  ((List.range (2 ^ s.fld F.STO_ILV_CTL_WAYS n)).filter (fun i => s.ilvTgt (s.fld F.STO_ILV_CTL_TGT n + i) == (true, s.cxid))).length

/-- The local offsets that a range takes: first byte and length (11 R268). -/
def State.locSpan (s : State) (n : Nat) : Nat × Nat :=
  let k := ((List.range (2 ^ s.fld F.STO_ILV_CTL_WAYS n)).find? (fun i => s.ilvTgt (s.fld F.STO_ILV_CTL_TGT n + i) == (true, s.cxid))).getD 0
  (s.fld F.MEM_LOC_LOCBASE n * 4096, (s.ilvShare n k).2 * 2 ^ s.ilvShift n)

/-- Pairs of list members, each once. -/
def pairs : List Nat → List (Nat × Nat)
  | [] => []
  | x :: r => r.map (fun y => (x, y)) ++ pairs r

/-- The cross-checks of R418: 05 R133, 10 R236, 11 R269, 12 R286, the required registers of Table BOO-5; XBSEL as detected. -/
def State.crossOk (s : State) (offs : List Nat) (xbsel : Nat) : Bool :=
  let ilv := s.ilvOn
  let mine := ilv.filter (fun n => s.ilvMine n != 0)
  let has := fun (f : Fld) => offs.contains f.base
  let walls := (List.range 16).filter (fun w => bits (s.fld F.FAB_SYS_WALLS) w w == 1 && w != cxWall s.cxid)
  let links := walls.map (fun w => ((List.range 128).filter (fun k => s.flag F.FAB_GLT_V k && cxWall (s.fld F.FAB_GLT_RCX k) == w)).length)
  has F.FAB_SYS_WALLS && has F.FAB_TMASTER_PRIMARY && has F.MEM_POP_GIB && has F.CLK_SRC_XBSEL && has F.BOO_IPL1_ADDR && !ilv.isEmpty &&
    s.fld F.CLK_SRC_XBSEL == xbsel &&
    (!s.flag F.BOO_IPL0_EN || (has F.BOO_IPL2_COUNT && s.flag F.VPT_CTL_EN (s.fld F.BOO_IPL0_PORT))) &&
    ilv.all (fun n => decide (s.fld F.STO_ILV_BASE_BASE n ≤ s.fld F.STO_ILV_CTL_LIMIT n)) &&
    (pairs ilv).all (fun p => decide (s.fld F.STO_ILV_CTL_LIMIT p.1 < s.fld F.STO_ILV_BASE_BASE p.2) || decide (s.fld F.STO_ILV_CTL_LIMIT p.2 < s.fld F.STO_ILV_BASE_BASE p.1)) &&
    s.cxExists s.cxid &&
    links.all (fun n => decide (1 ≤ n) && decide (n ≤ 8) && n == links.headD 0) &&
    mine.all (fun n => s.ilvMine n == 1 && s.flag F.MEM_LOC_EN n && (s.locSpan n).1 % 2 ^ s.ilvShift n == 0 &&
      decide ((s.locSpan n).1 + (s.locSpan n).2 ≤ s.fld F.MEM_POP_GIB * 2 ^ 30)) &&
    (pairs mine).all (fun p => let x := s.locSpan p.1; let y := s.locSpan p.2; decide (x.1 + x.2 ≤ y.1) || decide (y.1 + y.2 ≤ x.1)) &&
    !(s.flag F.VLX_BUDDY_BV && s.fld F.VLX_BUDDY_BCX == s.cxid)

/-- An image as read: its reason code (Table BOO-6) and, when it is valid, the state with its registers loaded, its generation and the measured bytes (R417 to R421). -/
structure ImgRes where
  reason : Nat
  st : State
  gen : Nat
  lead : Nat
  hosts : Nat
  crsid : Nat
  bytes : List Byte

/-- Check an image for position `p`. `overrun`: the read window ended; an image that is not all there was not fully read. -/
def State.checkImage (s : State) (l : List Byte) (overrun : Bool) (p xbsel : Nat) : ImgRes :=
  let h := l.take 256
  let coff := beAt h 16 4
  let ccnt := beAt h 20 4
  let poff := beAt h (24 + 8 * p) 4
  let pcnt := beAt h (28 + 8 * p) 4
  let bad := fun (r : Nat) => ({ reason := r, st := s, gen := 0, lead := 0, hosts := 0, crsid := 0, bytes := [] } : ImgRes)
  let lead := beAt h 6 1
  let zero := lead / 8 == 0 && beAt h 12 2 / 128 == 0 && beAt h 14 2 == 0 && (List.range 164).all (fun i => (h.drop (88 + i)).headD 0xFF == 0)
  if overrun && (l.length < 256 || l.length < coff + 16 * ccnt + 4 || l.length < poff + 16 * pcnt + 4) then bad 6
  else if beAt h 0 4 ≠ 0x4B434647 || beAt h 4 2 ≠ 1 || !zero then bad 1
  else if beAt h 252 4 ≠ (crcIscsi (h.take 252)).toNat then bad 2
  else if pcnt = 0 then bad 3
  else
    match sectionOf l coff ccnt, sectionOf l poff pcnt with
    | some c, some q =>
      let offs := (c ++ q).map (·.1)
      if !c.all (entryOk commonRegs) || !q.all (entryOk positionRegs) || !offs.Nodup then bad 4 else
      let crsid := beAt h 12 2
      let t := (s.setFld F.FAB_ID_CFGCX (crsid * 8 + p)).loadEntries (c ++ q)
      if bits (beAt h 7 1) (lead % 8) (lead % 8) = 0 || !t.crossOk offs xbsel then bad 5
      else { reason := 0, st := t, gen := beAt h 8 4, lead := lead % 8, hosts := beAt h 7 1, crsid := crsid,
             bytes := h ++ (l.drop coff).take (16 * ccnt + 4) ++ (l.drop poff).take (16 * pcnt + 4) }
    | _, _ => bad 3

/-- FAB_DIGEST (10 R259). -/
def State.digest (s : State) : Nat :=
  let regs := [0x800008, 0x800018] ++ (List.range 64).map (fun n => 0x8000 + 16 * n) ++ (List.range 64).map (fun n => 0x8008 + 16 * n) ++ (List.range 1024).map (fun n => 0xA000 + 8 * n)
  (crcIscsi (regs.flatMap (fun o => bytesOf 8 (s.reg o).toNat))).toNat

/-- The position of this complex in its course. -/
def State.pos (s : State) : Nat := cxPos s.cxid

/-- Step 5 is over and step 6 begins: the door opens, or the course link to the lead trains (R424, R425). -/
def State.step6 (s : State) (lead hosts : Nat) : State :=
  let s := (s.setFld F.BOO_STAT_STEP 6).updSvc (fun k => { k with winStart := s.fab.tb })
  if bits hosts s.pos s.pos = 1 then s.setFlag F.BOO_DOOR_OPEN true
  else
    let p := coursePort s.pos lead
    let s := (s.setFlag F.BOO_STAT_FWD true).setFport p { s.fport p with loadOnly := true }
    if s.clkOk .xb then (s.setFld F.FAB_PSTAT_STATE 1 p).sendDisc p else s

/-- FLASH_READ_SLOT (R416 to R421): both images are checked; the valid one with the later GEN is loaded. -/
def execFlashReadSlot (imgA imgB : FlashImage) (overrun : Bool) (s : State) : Out := settled s <|
  .next <|
    match s.svc.env with
    | none => s
    | some env =>
      if s.dead || s.fld F.BOO_STAT_PHASE ≠ 0 || s.fld F.BOO_STAT_STEP ≠ 4 then s else
      let p := bits env.straps.toNat 2 0
      let s := s.setFld F.BOO_STAT_STEP 5
      let a := s.checkImage imgA.bytes overrun p env.xbsel.toNat
      let b := s.checkImage imgB.bytes overrun p env.xbsel.toNat
      let note := fun (s : State) =>
        let s := (s.setFld F.BOO_STAT_RSNA a.reason).setFld F.BOO_STAT_RSNB b.reason
        let s := if a.reason = 0 then s else s.flt 14 0 0 none (BitVec.ofNat 64 a.reason)
        if b.reason = 0 then s else s.flt 14 0 0 none (BitVec.ofNat 64 (256 + b.reason))
      if a.reason ≠ 0 && b.reason ≠ 0 then (note s).startStop 5 0x30 else
      let useB := b.reason = 0 && (a.reason ≠ 0 || seqLater b.gen a.gen)
      let r := if useB then b else a
      let s := note r.st
      let s := ((s.setFlag F.BOO_STAT_IMG useB).setFld F.BOO_STAT_GEN r.gen).updSvc (fun k => { k with flashMr := sha384 r.bytes })
      if !env.stable || r.crsid * 8 + p ≠ env.straps.toNat then (((s.setFlag F.FAB_ID_MATCH false).flt 5 8).startStop 5 0x31)
      else
        let s := (s.setFlag F.FAB_ID_MATCH true).setFld F.FAB_DIGEST_DIGEST s.digest
        let s := { s with fab := { s.fab with master := some (s.fld F.FAB_TMASTER_PRIMARY) } }
        let s := s.setFlag F.FAB_TBSTAT_MASTER (s.fld F.FAB_TMASTER_PRIMARY == s.cxid)
        let s := (List.range 16).foldl (fun s v => if !s.flag F.VPT_CTL_EN v then s.setFld F.VPT_STAT_STATE 7 v else if s.clkOk .vref then s.setFld F.VPT_STAT_STATE 1 v else s) s
        s.step6 r.lead r.hosts

/-! Firmware set (R422 to R425) -/

/-- BUSY ends, with its MSI-X vector (22 Table SVC-2). -/
def State.doorDone (s : State) : State := (s.setFlag F.BOO_DOOR_BUSY false).msix 18

/-- A write of BOO_DOOR: CLOSE while the door is open starts the check (R424). -/
def State.doorClose (s : State) (src : Src) (v : W64) : State :=
  if fieldOf v 63 63 = 0 then s
  else if !s.flag F.BOO_DOOR_OPEN then s.cfgErr src F.BOO_DOOR_OPEN.base
  else (((s.setFlag F.BOO_DOOR_OPEN false).setFlag F.BOO_DOOR_BUSY true).setFld F.BOO_STAT_STEP 8)

/-- BOO_DOOR_CLOSE. -/
def execBooDoorClose (src : Src) (s : State) : Out := settled s <| .next (if s.dead then s else s.doorClose src (BitVec.ofNat 64 (2 ^ 63)))

/-- LOAD (R425): a forwarded position receives the set on its course link; the last packet starts its own check. -/
def execLoad (offset : Nat) (bytes : List (BitVec 8)) (last : Bool) (s : State) : Out := settled s <|
  .next <|
    if s.dead || !s.flag F.BOO_STAT_FWD || s.flag F.BOO_DOOR_BUSY || s.flag F.BOO_DOOR_DONE || s.fld F.BOO_STAT_PHASE ≠ 0 ||
        !(List.range 7).any (fun p => (s.fport p).loadOnly && s.portUp p) then s else
    let s := s.updSvc (fun k => { k with window := bytes.zipIdx.foldl (fun t p => if offset + p.2 < 2 ^ 28 then t.set 0 (offset + p.2) p.1 else t) k.window })
    if last then (s.setFlag F.BOO_DOOR_BUSY true).setFld F.BOO_STAT_STEP 8 else s.setFld F.BOO_STAT_STEP 7

/-- The result of the check (R423; 06 R155 for the patches): code of BOO_DOOR.RESULT and the component type. -/
def fwResult (oemFuse oemOnly : Bool) (f : FwSet) : Nat × Nat :=
  let first := fun (p : FwComp → Bool) => f.comps.find? p
  if !f.headerOk then (1, 0) else
  match [1, 2, 3, 4, 5].find? (fun t => (f.comps.filter (fun c => c.type == t)).length != 1) with
  | some t => (2, t)
  | none =>
    match first (fun c => !c.sigOk), first (fun c => !c.svnOk), first (fun c => (c.type == 2 && !(c.contentsOk && f.stores.cisOk)) || (c.type == 3 && !(c.contentsOk && f.stores.pdsSetOk))), first (fun c => c.type == 5 && !c.contentsOk) with
    | some c, _, _, _ => (3, c.type)
    | _, some c, _, _ => (4, c.type)
    | _, _, some c, _ => (5, c.type)
    | _, _, _, some _ => (6, 5)
    | none, none, none, none =>
      if (f.oem && !oemFuse) || (oemOnly && !f.oem) || f.comps.any (fun c => c.type == 4 && (!c.signerOk || !c.contentsOk)) || 32768 < f.veWords.length || 65536 < f.veSram.length then (7, 4)
      else (0, 0)

/-- The level that a component reports. -/
def fwLevel (f : FwSet) (t : Nat) : Nat := match f.comps.find? (fun c => c.type == t) with | some c => c.level.toNat | none => 0

/-- The initial SRAM image, in every engine (13 R328). -/
def fwSram (f : FwSet) : Tab Byte := (List.range 68).foldl (fun t e => f.veSram.zipIdx.foldl (fun t p => t.set 0 (e * 65536 + p.2) p.1) t) []

/-- Install an accepted set: all components at once (R423, R424; 06 R157; 13 R328). -/
def State.fwInstall (s : State) (f : FwSet) : State :=
  let s := ((s.setFld F.MCS_PLVL_CISPL (fwLevel f 2)).setFld F.MCS_PLVL_PDSPL (fwLevel f 3)).setFld F.MCS_PLVL_CISMR (enabledMr f.stores.cisMatch)
  let s := s.setFlag F.MCS_PLVL_LOADED true
  let s := (List.range 16).foldl (fun s v => s.setReg (0xC008 + v / 8 * 8) (putField (s.reg (0xC008 + v / 8 * 8)) (8 * (v % 8) + 7) (8 * (v % 8)) (enabledMr f.stores.pdsMatch))) s
  let s := ((s.setFlag F.VEN_FW_LOADED true).setFlag F.VEN_FW_OEM f.oem).setFld F.VEN_FW_VERSION f.version.toNat
  let s := { s with chn := { s.chn with iram := f.veWords.zipIdx.map (fun (p : W32 × Nat) => (p.2, p.1)), sram := fwSram f } }
  s.updSvc (fun k => { k with fw := some f, stores := f.stores, window := [] })

/-- Steps 9 to 11: Keystone starts, memory trains, Felard trains. -/
def State.afterLoad (s : State) (env : BootEnv) : State :=
  let s := s.setFld F.BOO_STAT_STEP 9
  if !env.keystoneOk then s.startStop 9 0x50 else
  let s := ((s.setFld F.KEY_STAT_STATE 1).setFlag F.KEY_STAT_ENT true).setFld F.BOO_STAT_STEP 10
  if env.trainCause ≠ 0 then s.startStop 10 env.trainCause else
  let s := s.setFld F.BOO_STAT_STEP 11
  s.trainPorts

/-- Have the 600 s of step 7 run out (Table BOO-1). -/
def State.windowPast (s : State) : Bool := decide (s.svc.winStart.toNat + 600 * 1000000 * usec ≤ s.fab.tb.toNat)

/-- The 600 s are over with no accepted set and no check in progress: start-up stops (Table BOO-2, step 7). -/
def State.windowOver (s : State) : State :=
  let linkUp := (List.range 7).any (fun p => (s.fport p).loadOnly && s.portUp p)
  let s := s.setFlag F.BOO_DOOR_OPEN false
  if s.flag F.BOO_STAT_FWD && !linkUp then s.startStop 7 0x41 else s.startStop 7 0x40

/-- A refused set (R423 to R425): nothing is installed, the door of a host-loaded position opens again, a forwarded one tells the lead; the 600 s have kept running. -/
def State.setRefused (s : State) (code : Nat × Nat) : State :=
  let s := (s.flt 14 1 0 none (BitVec.ofNat 64 (code.1 * 256 + code.2))).setFld F.BOO_STAT_STEP 7
  let s :=
    if s.flag F.BOO_STAT_FWD then
      (match (List.range 7).find? (fun p => (s.fport p).loadOnly) with
       | some p => s.send .fab (mkCx (cxWall s.cxid) (cxCourse s.cxid) ((s.pos + p + 1) % 8)) 0x4C [code.1, code.2]
       | none => s).doorDone
    else (s.setFlag F.BOO_DOOR_OPEN true).doorDone
  if s.windowPast then s.windowOver else s

/-- FIRMWARE_SET_CHECK (R423, R424): a refused set installs nothing; an accepted one is installed, the lead sends it on, and the later steps run. -/
def execFirmwareSetCheck (set : FwSet) (s : State) : Out := settled s <|
  .next <|
    match s.svc.env with
    | none => s
    | some env =>
      if s.dead || !s.flag F.BOO_DOOR_BUSY || s.fld F.BOO_STAT_PHASE ≠ 0 then s else
      let r := fwResult env.oemFuse env.oemOnly set
      let s := (s.setFld F.BOO_DOOR_RESULT r.1).setFld F.BOO_DOOR_COMP r.2
      if r.1 ≠ 0 then s.setRefused r
      else
        let s := ((s.setFlag F.BOO_DOOR_DONE true).fwInstall set).doorDone
        let s := if s.flag F.BOO_STAT_FWD then s else (List.range 7).foldl (fun s p => if s.portUp p then s.send .fab (mkCx (cxWall s.cxid) (cxCourse s.cxid) ((s.pos + p + 1) % 8)) 0x4C [] else s) s
        s.afterLoad env

/-- LOAD_WINDOW_TIMEOUT: 600 s from the end of step 5 (Table BOO-2). A set whose check is in progress came in time. -/
def execLoadWindowTimeout (s : State) : Out := settled s <|
  .next <|
    if s.dead || s.fld F.BOO_STAT_PHASE ≠ 0 || s.fld F.BOO_STAT_STEP < 6 || s.flag F.BOO_DOOR_DONE then s else
    let s := s.reach (s.svc.winStart.toNat + 600 * 1000000 * usec)
    if s.flag F.BOO_DOOR_BUSY then s else s.windowOver

/-- BOO_DOOR.LEFT: seconds left of the 600 s. -/
def State.doorLeft (s : State) : Nat :=
  if s.fld F.BOO_STAT_PHASE = 0 && 6 ≤ s.fld F.BOO_STAT_STEP && !s.flag F.BOO_DOOR_DONE then 600 - (s.fab.tb.toNat - s.svc.winStart.toNat) / (1000000 * usec) else 0

/-! Hand-over (R427, R428) -/

/-- Step 13: locks, region 63 of every controller, COR_MPREFIX, the IPL if enabled. -/
def State.step13 (s : State) : State :=
  let s := (s.setFld F.BOO_STAT_STEP 13).updSvc (fun k => { k with locked := true })
  let s := (List.range 16).foldl (fun s m =>
    if !s.populated m then s else
      ((s.setReg (rgnOff m 63 0) 0).setReg (rgnOff m 63 1) (BitVec.ofNat 64 (0xFFFFFFFFFFF * 4096))).setReg (rgnOff m 63 2) 0xBE) s
  let mp := BitVec.ofNat 64 (s.fld F.BOO_IPL1_ADDR * 8192)
  let s := (List.range s.nLc).foldl (fun s n => s.updCore n (fun c => { c with arch := c.arch.setSr 2 mp, ckpt := c.ckpt.setSr 2 mp })) s
  if s.flag F.BOO_IPL0_EN then ({ s with chn := { s.chn with iplTries := 0 } }).iplStart else s.handedOver

/-- HAND_OVER: after step 11 or 12. -/
def execHandOver (s : State) : Out := settled s <|
  .next <|
    if s.dead || s.flag F.FLT_FENCE_CXF || s.fld F.BOO_STAT_PHASE ≠ 0 || !s.flag F.BOO_DOOR_DONE || s.fld F.BOO_STAT_STEP < 11 || 12 < s.fld F.BOO_STAT_STEP then s
    else s.step13

/-! Warm reset (R429, Table BOO-3) -/

/-- Steps 1 and 2 for a logical core: it stops at its boundary, its confirmed stores drain, its L1 and L2 are cleaned into L3, its state is reset. A lost core stays lost; stores that wait for their lines drain later. -/
def State.warmCore (s : State) (n : Nat) : State :=
  let s := (s.confirmCore n).drainAll n
  let c := s.core n
  let s := if c.phys < 56 then s.updMem (fun m => m.dropCore c.phys) else s
  if c.run = .lost then s else s.setCore n { Core.reset with phys := c.phys, stbuf := c.stbuf, inlog := [] }

/-- The engines: contexts and SRAM are reset, the image stays. -/
def State.warmVe (s : State) : State :=
  let s := { s with chn := { s.chn with ctx := [], parkOrder := [], veMoving := [], sram := (match s.svc.fw with | some f => fwSram f | none => []) } }
  (List.range 68).foldl (fun s e => (s.setFld F.VEN_ENG_BUSY 0 e).setFld F.VEN_ENG_PARKED 0 e) s

/-- Keystone: registers and mailboxes reset, held walls zeroed; it restarts (Table BOO-3; log 49). -/
def State.warmKey (s : State) : State :=
  let s := (List.range 16).foldl (fun s b => if s.held? b then (s.scrub b).setHold b false else s) s
  let s := (List.range 64).foldl (fun s m => (((s.mbZeroReq m).mbZeroRsp m).setReg (F.KEY_MBCTL_PID.off m) 0).setReg (F.KEY_MBSTAT_STATE.off m) 0) s
  let s := (s.setReg F.KEY_STAT_STATE.base 0).setReg F.KEY_HOLD_HOLD.base 0
  let s := if s.deferred 16 then s.proceed 16 else s
  (s.updSvc (fun k => { k with krr := 63, kForced := false })).forget 4096

/-- A fenced complex leaves its fence, but stays out of the fabric: none of its ports is up any more (R429, 10 R260, 20 R444), so that it is isolated (12 R304); Velex ports of a complex without a fabric train again. The captures of FLT_FENCE and FAB_PRESENT are kept (Table BOO-3). -/
def State.warmFence (s : State) : State :=
  if !s.flag F.FLT_FENCE_CXF then s else
  let s := (s.setFlag F.FLT_FENCE_CXF false).updSvc (fun k => { k with hiZ := false })
  let s := ((List.range 16).foldl (fun s p => if s.portUp p then s.setFld F.FAB_PSTAT_STATE 0 p else s) s).isolate
  (List.range 16).foldl (fun s v => if (s.vport v).fencing = 1 then (if s.fld F.VPT_STAT_STATE v = 4 then s.setFld F.VPT_STAT_STATE 0 v else s).setVport v { VPort.reset with badLanes := (s.vport v).badLanes } else s) s

/-- The controllers leave self-refresh; the contents of memory, scrub and copy pointers stay (11 R280). -/
def State.warmMem (s : State) : State :=
  (List.range 16).foldl (fun s m => if s.fld F.MEM_CHSTAT_PWR m = 0 then s else (s.setFld F.MEM_CHSTAT_PWR 0 m).setMc m { s.mc m with powerDown := [], selfRef := [] }) s

/-- Open exchanges receive RESTART (12 R296). -/
def State.warmExch (s : State) : State :=
  { s with chn := { s.chn with exch := s.chn.exch.map (fun (p : Nat × Exch) => (p.1, { p.2 with running := false }.raise 4)) } }

/-- A warm reset of a complex that has been handed over. The injection test runs again (R429 step 3, 07 R176): a physical core that misses it is marked failed and a spare takes its role; with none left, start-up stops (Table BOO-2). -/
def State.warm (s : State) (failedPcs : List Nat) : State :=
  let s := s.setFld F.BOO_STAT_PHASE 0
  let s := (s.warmFence).warmMem
  let s := (List.range s.nLc).foldl (fun s n => s.warmCore n) s
  match s.warmVe.bootCores failedPcs with
  | none => s.startStop 4 0x20
  | some s => ((s.warmKey).warmExch).step13

/-- A write of BOO_RST (R429): WARM with the KEY; a reset in progress ignores it, and a start-up stop is left only by cold reset. -/
def State.rstWrite (s : State) (src : Src) (v : W64) (failedPcs : List Nat := []) : State :=
  if fieldOf v 63 63 = 0 then s
  else if fieldOf v 7 0 ≠ 0xA5 then s.cfgErr src F.BOO_RST_WARM.base
  else if s.fld F.BOO_STAT_PHASE ≠ 2 then s else s.warm failedPcs

/-- WARM_RESET, with the physical cores that miss an injection of its test. -/
def execWarmReset (src : Src) (q : WarmReq) (s : State) : Out := settled s <| .next (if s.dead then s else s.rstWrite src q.v q.failedPcs)

end Sys2Proof.Machine
end

