-- ==== Sys2Proof/Machine/Branch.lean ====
section
/-! DEFINITION. Branches (03 R60, R85) and the register-window calls (02 R39, R40, R46 to R48). -/

namespace Sys2Proof.Machine

/-- Take a branch: an unaligned target from a register is a specification exception on the branch (R60); a taken branch is traced (22 R475). -/
def State.take (s : State) (lc : Nat) (target : W64) : IRes :=
  if target.extractLsb' 0 2 ≠ 0 then .exc s 6 else .jump (s.trace lc 1 0 target) target

/-- Target of a relative branch: the branch's own address plus 4 times the offset (R60). -/
def Arch.rel (a : Arch) {n : Nat} (off : BitVec n) : W64 := a.psw.ia + 4 * sext off

/-- Bit CC of a mask of four (Table INS-13). -/
def Arch.ccBit (a : Arch) (mask : BitVec 5) : Bool := mask.getLsbD a.psw.cc.toNat

/-- B (R85): branch by off26. -/
def execB (lc : Nat) (off : BitVec 26) (s : State) : Out :=
  runCore lc { words := wordsD 0x29 off } s fun s => s.take lc ((s.arch lc).rel off)

/-- BAL (R85): G15 ← IA + 4; branch by off26. -/
def execBal (lc : Nat) (off : BitVec 26) (s : State) : Out :=
  runCore lc { words := wordsD 0x2A off } s fun s =>
    let a := s.arch lc
    (s.updArch lc (fun r => r.setG 15 (a.psw.ia + 4))).take lc (a.rel off)

/-- The spill-fault interruption that a CALLW or RETW meets while SFLT of its bank is 1 (02 R46). -/
def State.spillAgain (s : State) (lc : Nat) (words : W64) : IntReq :=
  let c := s.core lc
  match c.spillWhy.find c.arch.psw.bank.toNat with
  | some (.intercept r _ d lvl b va pra) => .intercept r words d lvl b va pra
  | some (.program code _ d b va) => .program code 4 d b va
  | some q => q
  | none => .program 0x11 4 0 c.arch.psw.bank 0

/-- Wait for the engine, or raise the spill fault again when it is stopped for the bank. -/
def State.awaitWindow (s : State) (lc : Nat) (words : W64) : IRes :=
  let c := s.core lc
  if fieldOf (c.arch.wstOf c.arch.psw.bank.toNat) 10 10 = 1 then .intr (s.updCore lc (fun c => { c with pendSpill := c.pendSpill.filter (fun p => p.1 != c.arch.psw.bank.toNat) })) (s.spillAgain lc words)
  else .stay (s.setCore lc { c with wait := .window (words.extractLsb' 32 32), xfer := match c.xfer with | some x => some x | none => c.arch.engineNext })

/-- Free values for the out registers of a new window (02 R39; log 5). -/
def State.freeOuts (s : State) (lc bank frame : Nat) : Nat → State
  | 0 => s
  | n + 1 =>
    let p := s.free
    State.freeOuts (p.1.updArch lc (fun a => { a with w := a.w.put (bank * 64 + (frame + 1) % 8 * 8 + n) p.2 })) lc bank frame n

/-- CALLW (02 R39, R48): W15 ← IA + 4, the window advances, branch by off26. It needs a free frame; in a fill, the frame being filled is not free (log 16). In B7 a fifth window is a check stop. -/
def execCallw (lc : Nat) (off : BitVec 26) (s : State) : Out :=
  let words := wordsD 0x2B off
  runCore lc { words := words } s fun s =>
    let c := s.core lc
    let a := c.arch
    let bank := a.psw.bank.toNat
    let nres := a.nres bank
    let cwp := a.cwp bank
    if bank = 7 then
      if 4 ≤ nres || 3 ≤ cwp then .gone (s.checkStop lc 1 a.psw.ia)
      else
        let s := s.updArch lc (fun r => (r.setG 31 (a.psw.ia + 4)).setWin 7 (cwp + 1) (nres + 1))
        (s.freeOuts lc 7 (cwp + 1) 8).take lc (a.rel off)
    else if 7 ≤ nres || (nres = 6 && c.xfer == some (bank, false)) then s.awaitWindow lc words
    else
      let s := s.updCore lc (fun c => { c with wait := .none, arch := (c.arch.setG 31 (a.psw.ia + 4)).setWin bank ((cwp + 1) % 8) (nres + 1) })
      (s.freeOuts lc bank ((cwp + 1) % 8) 8).take lc (a.rel off)

/-- BC (R85): branch by imm16 if bit CC of t[3:0] is 1. -/
def execBc (lc : Nat) (t a : BitVec 5) (imm : BitVec 16) (s : State) : Out :=
  runCore lc { words := wordsB 0x2C t a imm, sp := t.getLsbD 4 || a != 0 } s fun s =>
    if (s.arch lc).ccBit t then s.take lc ((s.arch lc).rel imm) else .done s

/-- BCT (R85): t ← t - 1; branch by imm16 if t is not 0. -/
def execBct (lc : Nat) (t a : BitVec 5) (imm : BitVec 16) (s : State) : Out :=
  runCore lc { words := wordsB 0x2D t a imm, sp := a != 0 } s fun s =>
    let r := s.arch lc
    let v := r.getG t - 1
    let s := s.updArch lc (fun r => r.setG t v)
    if v = 0 then .done s else s.take lc (r.rel imm)

/-- BR (R85): branch to a. -/
def execBr (lc : Nat) (t a b c : BitVec 5) (s : State) : Out :=
  runCore lc { words := wordsA 0x2E 0x01 t a b c, sp := t != 0 || b != 0 || c != 0 } s fun s => s.take lc ((s.arch lc).getG a)

/-- BALR (R85): branch to the value that a held before; t ← IA + 4. -/
def execBalr (lc : Nat) (t a b c : BitVec 5) (s : State) : Out :=
  runCore lc { words := wordsA 0x2E 0x02 t a b c, sp := b != 0 || c != 0 } s fun s =>
    let r := s.arch lc
    if (r.getG a).extractLsb' 0 2 ≠ 0 then .exc s 6
    else (s.updArch lc (fun r => r.setG t (r.psw.ia + 4))).take lc (r.getG a)

/-- BCR (R85): branch to a if bit CC of c[3:0] is 1. -/
def execBcr (lc : Nat) (t a b c : BitVec 5) (s : State) : Out :=
  runCore lc { words := wordsA 0x2E 0x03 t a b c, sp := t != 0 || b != 0 || c.getLsbD 4 } s fun s =>
    if (s.arch lc).ccBit c then s.take lc ((s.arch lc).getG a) else .done s

/-- RETW (02 R40): branch to W7, the window retreats. With one resident window it waits for the fill, or is a specification exception when nothing is spilled. A RETW that would leave one resident window while a spill that has begun takes that window away waits for the spill (DESIGN CHOICE, log 52: the spec does not say, and NRES 0 is reserved). -/
def execRetw (lc : Nat) (t a b c : BitVec 5) (s : State) : Out :=
  let words := wordsA 0x2E 0x04 t a b c
  runCore lc { words := words, sp := t != 0 || a != 0 || b != 0 || c != 0 } s fun s =>
    let c := s.core lc
    let r := c.arch
    let bank := r.psw.bank.toNat
    let nres := r.nres bank
    let cwp := r.cwp bank
    let target := r.getG 23
    if target.extractLsb' 0 2 ≠ 0 then .exc s 6
    else if bank = 7 then
      if nres ≤ 1 || cwp = 0 then .exc s 6
      else (s.updArch lc (fun r => r.setWin 7 (cwp - 1) (nres - 1))).take lc target
    else if nres = 2 && c.xfer == some (bank, true) then s.awaitWindow lc words
    else if nres ≤ 1 then
      if r.spdepth bank = 0 then .exc s 6 else s.awaitWindow lc words
    else (s.updCore lc (fun c => { c with wait := .none, arch := c.arch.setWin bank ((cwp + 7) % 8) (nres - 1) })).take lc target

end Sys2Proof.Machine
end

