-- ==== Sys2Proof/Machine/Faults.lean ====
section
/-! DEFINITION. Commands of the fault collector (20): events, the ERR_N pulse, the log, the counters, the configuration of sources, the notices of the service port (22 R470) and of the fabric (R449; 10 R261). The collector also works while the complex is fenced (R435). -/

namespace Sys2Proof.Machine

/-- What an event of a source does besides its report: an error of the memory (11 R272, R273), an uncorrectable error of a PDS control store (06 R156). -/
def State.faultEffect (s : State) (ev : FaultEv) : State := if ev.src = 0x16 then s.stopPds ev.unit else s.demandRead ev

/-- An event as the collector meets it. The source "journal entry lost" reports the uncorrectable error of the entry in DETAIL, which is lost, and reported so, only when the mirror cannot repair it (12 R299; DEDUCED, log 32). -/
def State.faultEvent (s : State) (ev : FaultEv) : State := if ev.src = 0x7A then s.journalError ev.detail.toNat else (s.faultEffect ev).fault ev

/-- FAULT_EVENT (R432 to R447): an event of an assigned source and an existing instance. -/
def execFaultEvent (ev : FaultEv) (s : State) : Out := settled s <|
  if !fltUsed ev.src || fltUnits ev.src ≤ ev.unit || 256 ≤ ev.pid.getD 0 then .fault .noSuchUnit
  else .next (if s.dead then s else s.faultEvent ev)

/-- ERR_N_PULSE_END (R445): 20 us after the last severe classification; HOLD, the fence and SDROP keep the pin low. -/
def execErrNPulseEnd (s : State) : Out := settled s <| .next (if s.dead then s else s.updSvc (fun k => { k with pulse := false }))

/-- LOG_SUMMARY_WRITE (R447): the pending summary is written once fewer than 3,840 entries are unread. -/
def execLogSummaryWrite (s : State) : Out := settled s <| .next (if s.dead then s else s.logSummary)

/-- A write of FLT_LOGRD (R446, R448): RD frees the slots it passes and a pending summary takes the first; beyond the unread entries it is refused. The present value of RD frees nothing. -/
def State.logRd (s : State) (src : Src) (v : W64) : State :=
  let rd := fieldOf v 11 0
  let n := (rd + 4096 - s.fld F.FLT_LOGRD_RD) % 4096
  let used := s.fld F.FLT_LOGSTAT_USED
  if used < n then s.cfgErr src F.FLT_LOGRD_RD.base
  else ((s.setFld F.FLT_LOGRD_RD rd).setFld F.FLT_LOGSTAT_USED (used - n)).logSummary

/-- FLT_LOGRD_WRITE. -/
def execFltLogrdWrite (src : Src) (v : BitVec 64) (s : State) : Out := settled s <| .next (if s.dead then s else s.logRd src v)

/-- A write of FLT_LOGSTAT (R447): SDROP stays while no severe slot is free. -/
def State.logStat (s : State) (src : Src) (v : W64) : State :=
  let s := if fieldOf v 49 49 = 1 then s.setFlag F.FLT_LOGSTAT_DROP false else s
  if fieldOf v 50 50 = 0 || !s.flag F.FLT_LOGSTAT_SDROP then s
  else if s.fld F.FLT_LOGSTAT_USED < 4096 then s.setFlag F.FLT_LOGSTAT_SDROP false
  else s.cfgErr src F.FLT_LOGSTAT_SDROP.base

/-- SDROP_CLEAR. -/
def execSdropClear (src : Src) (v : BitVec 64) (s : State) : Out := settled s <| .next (if s.dead then s else s.logStat src v)

/-- Does the instance exist (R430, R431). -/
def fltExists (source unit : Nat) : Bool := fltUsed source && decide (unit < fltUnits source)

/-- A write of FLT_CNTSEL: CLR clears COUNT, OVF, WCNT and ESCCNT of the instance it selects, and so its window. -/
def State.cntSel (s : State) (src : Src) (v : W64) : State :=
  let s := s.wrReg src F.FLT_CNTSEL_CLR.base v
  if fieldOf v 63 63 = 1 then s.updSvc (fun k => { k with inst := k.inst.del (fltKey (fieldOf v 24 16) (fieldOf v 15 0)) }) else s

/-- FLT_CNTSEL_CLEAR (R434). -/
def execFltCntselClear (src : Src) (v : BitVec 64) (s : State) : Out := settled s <| .next (if s.dead then s else s.cntSel src v)

/-- FLT_CNTDATA of the selected instance; zero with CFG_ERR for an unused source or an instance that does not exist. -/
def State.cntData (s : State) (src : Src) : State × W64 :=
  let source := s.fld F.FLT_CNTSEL_SRC
  let unit := s.fld F.FLT_CNTSEL_UNIT
  if !fltExists source unit then (s.cfgErr src F.FLT_CNTDATA_COUNT.base, 0) else
  let x := s.svc.inst.get FltInst.reset (fltKey source unit)
  (s, BitVec.ofNat 64 (x.count.toNat * 2 ^ 32 + b2n x.ovf * 2 ^ 31 + x.wcnt * 2 ^ 23 + x.escc * 2 ^ 19))

/-- FLT_CNTDATA_READ: the value goes out on the bus. -/
def execFltCntdataRead (src : Src) (s : State) : Out := settled s <|
  .next (if s.dead then s else { (s.cntData src).1 with busData := (s.cntData src).2 })

/-- A reaction mask with SPARE is reserved for a source that has no sparable instance (R437): the field keeps its value. -/
def srcCfgWanted (source : Nat) (old v : W64) : W64 × Bool :=
  [(62, 56), (55, 49), (48, 42)].foldl (fun p f =>
    if !sparable source && fieldOf v (f.2 + 4) (f.2 + 4) == 1 then (putField p.1 f.1 f.2 (fieldOf old f.1 f.2), true) else p) (v, false)

/-- A write of FLT_SRC_CFG n (R435): a change of N, TVAL or TU clears WCNT and ESCCNT of every instance of the source; an unused source ignores it (R430). -/
def State.srcCfg (s : State) (src : Src) (n : Nat) (v : W64) : State :=
  if !fltUsed n then s else
  let off := F.FLT_SRC_CFG_N.off n
  let old := s.reg off
  let w := srcCfgWanted n old v
  let p := writeFlds R.FLT_SRC_CFG.flds s.svc.locked old w.1
  let s := s.setReg off p.1
  let s := if w.2 || p.2 then s.cfgErr src off else s
  if fieldOf p.1 37 12 = fieldOf old 37 12 && fieldOf p.1 7 0 = fieldOf old 7 0 then s
  else s.updSvc (fun k => { k with inst := k.inst.map (fun q => if q.1 / 65536 = n then (q.1, { q.2 with wcnt := 0, escc := 0, open_ := false }) else q) })

/-- FLT_SRC_CFG_WRITE. -/
def execFltSrcCfgWrite (src : Src) (n : Nat) (v : BitVec 64) (s : State) : Out := settled s <|
  if 512 ≤ n then .fault .noSuchUnit else .next (if s.dead then s else s.srcCfg src n v)

/-- SERVICE_PORT_NOTICE (22 R470; R449): the group's counts since its previous notice go to SVC_NOTE g, MSI-X vector g is sent, at most once in 1 ms; the counts start again. -/
def execServicePortNotice (g : Nat) (s : State) : Out := settled s <|
  if 17 ≤ g then .fault .noSuchUnit else
  let x := s.svc.notes.get NoteCnt.reset g
  let top := 2 ^ 20 - 1
  if s.dead || !x.due || !x.ripe (1000 * usec) s.fab.tb.toNat then .next s else
  let s := (((s.setFld F.SVC_NOTE_NOTED (min x.noted top) g).setFld F.SVC_NOTE_RECUR (min x.recur top) g).setFld F.SVC_NOTE_SEVERE (min x.severe top) g).setFlag
    F.SVC_NOTE_OVF (decide (top < x.noted) || decide (top < x.recur) || decide (top < x.severe)) g
  .next ((s.updSvc (fun k => { k with notes := k.notes.put g (NoteCnt.taken s.fab.tb) })).msix g)

/-- The SPEC field of an FNOTE (R449). -/
def NoteCnt.spec (x : NoteCnt) : Nat :=
  min x.severe (2 ^ 32 - 1) * 2 ^ 96 + min (x.noted + x.recur) (2 ^ 32 - 1) * 2 ^ 64 + x.lastSrc * 2 ^ 55 + (if x.lastSrc = 0x1FF then 0 else x.lastUnit * 2 ^ 39)

/-- FNOTE_SEND (10 R261): what a destination is due goes out, at most every 100 us, and its counts start again. A fenced complex sends no packet (Table FLT-6). -/
def execFnoteSend (d : Nat) (s : State) : Out := settled s <|
  if 2 ≤ d then .fault .noSuchUnit else
  let x := s.svc.fnote.get NoteCnt.reset d
  if s.dead || s.flag F.FLT_FENCE_CXF || !x.due || !x.ripe (100 * usec) s.fab.tb.toNat || !s.flag (if d = 0 then F.FAB_FNDEST_EN0 else F.FAB_FNDEST_EN1) then .next s else
  .next ((s.updSvc (fun k => { k with fnote := k.fnote.put d (NoteCnt.taken s.fab.tb) })).send .fab
    (s.fld (if d = 0 then F.FAB_FNDEST_DEST0 else F.FAB_FNDEST_DEST1)) 0x41 [x.spec])

end Sys2Proof.Machine
end

