-- ==== Sys2Proof/Machine/Service.lean ====
section
/-! DEFINITION. The service port and debug (22): the PCI Express link, accesses that reach no register, halt, step and breakpoints, debug data, trace rings, the boundary scan. -/

namespace Sys2Proof.Machine

/-! The port (R465 to R467) -/

/-- The identity in the port's configuration space (Table SVC-1; 00 R3): device and vendor, class code and revision. The offsets are those of a PCI Express header (log 64); none: a doubleword that the spec does not give. -/
def pciIdentity (off : Nat) : Option W64 :=
  if off = 0 then some 0x72001D9A else if off = 8 then some 0x088000B1 else none

/-- PCIE_LINK_EVENT (R465; 23 R478): nothing but the port's own state changes. A read of the configuration space is answered while the link is up. -/
def execPcieLinkEvent (ev : PcieEvent) (s : State) : Out := settled s <|
  .next <|
    if s.dead then s else
    match ev with
    | .trained => s.updSvc (fun k => { k with pcieUp := true })
    | .linkDown => if s.svc.pcieUp then s.pcieLost else s
    | .flr => s.portReset
    | .hotReset | .peRst => s.pcieLost
    | .configRead off =>
      if !s.svc.pcieUp then s else
      match pciIdentity off with
      | some v => { s with busData := v }
      | none => let p := s.free; { p.1 with busData := p.2 }

/-- UNMAPPED_ACCESS (R467): a read gives zero, a write is ignored; the noted fault has the offset in DETAIL. -/
def execUnmappedAccess (_src : Src) (off : Nat) (write : Bool) (s : State) : Out := settled s <|
  .next <| if s.dead || (regAt off).isSome then s else
    let s := s.unmapped off
    if write then s else { s with busData := 0 }

/-- HOST_ACCESS_SIZE (R466): not one aligned doubleword. -/
def execHostAccessSize (off size : Nat) (write : Bool) (s : State) : Out := settled s <|
  .next <| if s.dead || (size = 8 && off % 8 = 0) then s else
    let s := s.flt 16 1
    if write then s else { s with busData := 0 }

/-! Halt, step and breakpoints (R471 to R473; 07 R178) -/

/-- Stop a core at the boundary where it stands: the running interval is confirmed, lock-step is broken. -/
def State.haltNow (s : State) (lc : Nat) (why bpn : BitVec 2) : State :=
  let s := if (s.core lc).begun then s.confirmCore lc else s
  s.updCore lc (fun c => { c with run := .halted, broken := true, brokenSince := if c.broken then c.brokenSince else s.fab.tb, haltPend := false, haltWhy := why, haltBpn := bpn })

/-- Is the core inside an instruction that has issued an operation. -/
def Core.inside (c : Core) : Bool := match c.wait with | .none | .window _ => false | _ => true

/-- HALT: at once at a boundary; a core inside an instruction, moving or stopped halts at its next boundary. -/
def State.dbgHalt (s : State) (lc : Nat) : State :=
  let c := s.core lc
  match c.run with
  | .running =>
    if c.inside then
      let s := if c.begun then s.confirmCore lc else s
      s.updCore lc (fun c => { c with haltPend := true, haltWhy := 1, broken := true, brokenSince := if c.broken then c.brokenSince else s.fab.tb })
    else s.haltNow lc 1 0
  | .stopped | .held => s.setCore lc { c with haltPend := true, haltWhy := 1 }
  | _ => s

/-- STEP: one instruction or unit, or the entry of an enabled interruption that is pending, and a halt again. -/
def State.dbgStep (s : State) (lc : Nat) : State :=
  (s.updCore lc (fun c => { c with run := .running, haltPend := true, haltWhy := 2 })).boundary lc

/-- RESUME: the unchecked interval ends; its start is the fault's DETAIL, its end the time of the event. A sparing request that waited is taken up (R178). -/
def State.dbgResume (s : State) (lc : Nat) : State :=
  let c := s.core lc
  let s := s.setCore lc { c with run := if c.spareReq then .held else .running, broken := false, haltPend := false }
  (s.setFlag F.TAN_LCMAP_UNCHK true lc).flt 2 2 c.phys none c.brokenSince

/-- A write of SVC_DBGCTL (R471, R472): CMD 1 HALT, 2 STEP, 3 RESUME, to the core that LC names. -/
def State.dbgCtl (s : State) (src : Src) (v : W64) : State :=
  let off := F.SVC_DBGCTL_CMD.base
  let lc := fieldOf v 5 0
  let cmd := fieldOf v 63 61
  let s := s.setFld F.SVC_DBGCTL_LC lc
  let run := (s.core lc).run
  if cmd = 0 then s
  else if 3 < cmd || !s.lcExists lc || run = .checkStop || run = .lost || (cmd ≠ 1 && run ≠ .halted) then s.cfgErr src off
  else if cmd = 1 then s.dbgHalt lc else if cmd = 2 then s.dbgStep lc else s.dbgResume lc

/-- The image of SVC_DBGCTL with a command. -/
def dbgWord (cmd lc : Nat) : W64 := BitVec.ofNat 64 (cmd * 2 ^ 61 + lc)

/-- DEBUG_HALT. -/
def execDebugHalt (src : Src) (lc : Nat) (s : State) : Out := settled s <| if 64 ≤ lc then .fault .noSuchUnit else .next (if s.dead then s else s.dbgCtl src (dbgWord 1 lc))
/-- DEBUG_STEP. -/
def execDebugStep (src : Src) (lc : Nat) (s : State) : Out := settled s <| if 64 ≤ lc then .fault .noSuchUnit else .next (if s.dead then s else s.dbgCtl src (dbgWord 2 lc))
/-- DEBUG_RESUME. -/
def execDebugResume (src : Src) (lc : Nat) (s : State) : Out := settled s <| if 64 ≤ lc then .fault .noSuchUnit else .next (if s.dead then s else s.dbgCtl src (dbgWord 3 lc))

/-- SVC_DBGCTL as it reads: STATE, WHY and BPN are those of the selected core. -/
def State.dbgCtlRead (s : State) : W64 :=
  let lc := s.fld F.SVC_DBGCTL_LC
  let c := s.core lc
  let st := if !s.lcExists lc then 0 else if c.run = .halted then 2 else if c.haltPend then 1 else 0
  BitVec.ofNat 64 (st * 2 ^ 59 + c.haltWhy.toNat * 2 ^ 57 + c.haltBpn.toNat * 2 ^ 55 + lc)

/-- BREAKPOINT_HIT (R473): the next instruction's address and the PID match breakpoint k, and the core halts before it. -/
def execBreakpointHit (lc k : Nat) (s : State) : Out := settled s <|
  if 48 ≤ lc || 4 ≤ k then .fault .noSuchUnit else
  let c := s.core lc
  let bp := c.arch.bp.get 0 k
  let pid := fieldOf (c.arch.bp.get 0 4) (63 - 8 * k) (56 - 8 * k)
  if !s.canRun lc || c.inside || fieldOf bp 0 0 = 0 || fieldOf bp 63 2 ≠ fieldOf c.arch.psw.ia 63 2 || pid ≠ c.arch.psw.pid.toNat then .next s
  else .next (s.haltNow lc 3 (BitVec.ofNat 2 k))

/-- SVC_BP k and SVC_BPPID (k = 4) of the selected core (R473): part of its architected state. -/
def State.bpWrite (s : State) (k : Nat) (v : W64) : State :=
  let lc := s.fld F.SVC_DBGCTL_LC
  let w := v &&& (if k = 4 then 0xFFFFFFFF00000000 else 0xFFFFFFFFFFFFFFFD)
  if s.lcExists lc then s.updCore lc (fun c => { c with arch := { c.arch with bp := c.arch.bp.put k w }, ckpt := { c.ckpt with bp := c.ckpt.bp.put k w } }) else s

def State.bpRead (s : State) (k : Nat) : W64 := (s.arch (s.fld F.SVC_DBGCTL_LC)).bp.get 0 k

/-! Debug data (R474) -/

/-- Write an item of a core's state; none where the value is refused: a PSW that LPSW would refuse, a reserved value of a special register (00 R14). -/
def State.itemPut (s : State) (lc : Nat) (x : Item) (v : W64) : Option State :=
  let c := s.core lc
  let a := c.arch
  let put := fun (a : Arch) => some (s.setCore lc ({ c with arch := a } : Core))
  match x with
  | .g k => put { a with g := a.g.put k v }
  | .w k => put { a with w := a.w.put k v }
  | .f k => put { a with f := a.f.put k v }
  | .wsp b => if outside v 0xFFFFFFFFFFFFFFC0 then none else put { a with wsp := a.wsp.put b v }
  | .wst b => if c.wstBad b v then none else some (s.setCore lc (c.wstWrite b v))
  | .sr n => if c.srBad n v then none else some (s.srWrite lc n v)
  | .dw0 => if pswBad v a.psw.ia then none else put { a with psw := Psw.ofDws v a.psw.ia }
  | .dw1 => if pswBad a.psw.dw0 v then none else put { a with psw := { a.psw with ia := v } }

/-- The core that SVC_DBGCTL selects, when it is halted, with the item that SVC_DBGIDX names. -/
def State.dbgItem (s : State) : Option (Nat × Item) :=
  let lc := s.fld F.SVC_DBGCTL_LC
  if s.lcExists lc && (s.core lc).run == .halted then (itemOf (s.fld F.SVC_DBGIDX_INDEX)).map (fun x => (lc, x)) else none

def State.dbgRead (s : State) (src : Src) : State × W64 :=
  match s.dbgItem with
  | some (lc, .wst b) => (s, (s.core lc).wstRead b)
  | some (lc, x) => (s, s.itemGet (s.arch lc) x)
  | none => (s.cfgErr src F.SVC_DBGDATA_DATA.base, 0)

/-- A write of SVC_DBGDATA: the halted core stands at a checkpoint, which takes the item too. -/
def State.dbgWrite (s : State) (src : Src) (v : W64) : State :=
  match s.dbgItem with
  | some (lc, x) =>
    match s.itemPut lc x v with
    | some s => s.updCore lc (fun c => { c with ckpt := c.arch })
    | none => s.cfgErr src F.SVC_DBGDATA_DATA.base
  | none => s.cfgErr src F.SVC_DBGDATA_DATA.base

/-- SVC_DBGDATA_ACCESS: a write, or a read whose value goes out on the bus. -/
def execSvcDbgdataAccess (src : Src) (write : Option (BitVec 64)) (s : State) : Out := settled s <|
  .next <| if s.dead then s else
    match write with
    | some v => s.dbgWrite src v
    | none => { (s.dbgRead src).1 with busData := (s.dbgRead src).2 }

/-! Trace rings (R475; 18 R407) -/

/-- An access to a service block: deep sleep refuses it, sleep ends. The flag says whether the access is served. -/
def State.sblkAccess (s : State) (f : Fld) (src : Src) (off : Nat) : State × Bool :=
  if s.fld f = 2 then (s.cfgErr src off, false) else (s.setFld f 0, true)

/-- A write of SVC_TRCTL c: setting EN empties the ring. -/
def State.trctl (s : State) (src : Src) (c : Nat) (v : W64) : State :=
  let off := F.SVC_TRCTL_EN.off c
  let q := s.sblkAccess F.CLK_SBLK_TRACE src off
  if !q.2 then q.1 else
  let s := q.1
  let was := s.flag F.SVC_TRCTL_EN c
  let s := s.wrReg src off v
  if was || !s.flag F.SVC_TRCTL_EN c then s else
  (s.setFld F.SVC_TRCTL_WR 0 c).updSvc (fun k => { k with trace := k.trace.filter (fun p => p.1 / 4096 != c), traceLost := k.traceLost.del c })

/-- TRACE_ENABLE. -/
def execTraceEnable (src : Src) (cl : Nat) (v : BitVec 64) (s : State) : Out := settled s <|
  if 8 ≤ cl then .fault .noSuchUnit else .next (if s.dead then s else s.trctl src cl v)

/-! Boundary scan (R476) -/

/-- The IDCODE of the TAP. -/
def idcodeVal : Nat := 0x17200A6B

/-- A TAP instruction: in deep sleep the TAP stays in Test-Logic-Reset, an access ends sleep. `code`: 0 BYPASS, 1 IDCODE, 2 SAMPLE/PRELOAD, 3 EXTEST, 4 CLAMP, 5 HIGHZ. -/
def State.tapIns (s : State) (code : Nat) (f : State → State) : State :=
  if s.dead || s.fld F.CLK_SBLK_JTAG = 2 then s else
  f ((s.setFld F.CLK_SBLK_JTAG 0).updSvc (fun k => { k with tapReg := code }))

/-- BYPASS. -/
def execBypass (s : State) : Out := settled s <| .next (s.tapIns 0 (fun s => s))
/-- IDCODE: shifted out on TDO. -/
def execIdcode (s : State) : Out := settled s <| .next (s.tapIns 1 (fun s => s.send .tap 0 1 [idcodeVal]))

/-- May a TAP instruction take the pins: start-up has stopped, or the complex is fenced. -/
def State.scanOk (s : State) : Bool := s.fld F.BOO_STAT_PHASE == 1 || s.flag F.FLT_FENCE_CXF

/-- An instruction that takes the pins; elsewhere it acts as BYPASS and raises "scan refused". -/
def State.tapPins (s : State) (code : Nat) (f : State → State) : State :=
  s.tapIns (if s.scanOk then code else 0) (fun s => if s.scanOk then f s else s.flt 16 4)

/-- SAMPLE/PRELOAD: the levels of the pins go out, `v` is preloaded. -/
def execSamplePreload (v : Nat) (s : State) : Out := settled s <|
  .next (s.tapIns 2 (fun s => (s.updSvc (fun k => { k with tapSample := k.gpioLevel.toNat, tapBoundary := v })).send .tap 0 2 [s.svc.gpioLevel.toNat]))
/-- EXTEST: the boundary register drives the pins. -/
def execExtest (v : Nat) (s : State) : Out := settled s <|
  .next (s.tapPins 3 (fun s => (s.updSvc (fun k => { k with tapSample := k.gpioLevel.toNat, tapBoundary := v })).send .tap 1 3 [v]))
/-- CLAMP: the preloaded values hold the pins. -/
def execClamp (s : State) : Out := settled s <| .next (s.tapPins 4 (fun s => s.send .tap 1 4 [s.svc.tapBoundary]))
/-- HIGHZ: the pins float. -/
def execHighz (s : State) : Out := settled s <| .next (s.tapPins 5 (fun s => s.send .tap 1 5 []))

end Sys2Proof.Machine
end

