-- ==== Sys2Proof/Machine/Package.lean ====
section
/-! DEFINITION. The package (23): GPIO, the thermal trip, the regulators, power. -/

namespace Sys2Proof.Machine

/-! GPIO (R489) -/

/-- Is an edge of the kind that EDGE selects: 0 rising, 1 falling, 2 both. -/
def edgeWanted (edge : Nat) (level : Bool) : Bool := edge == 2 || (edge == 0 && level) || (edge == 1 && !level)

/-- GPIO_EDGE: the filtered level of a pin changes; with IE the pin becomes pending for its PID. No edge is recognised in sleep (18 R407). -/
def execGpioEdge (pin : Nat) (level : Bool) (s : State) : Out := settled s <|
  if 24 ≤ pin then .fault .noSuchUnit else .next <|
    if s.dead || s.fld F.CLK_SBLK_GPIO ≠ 0 || s.svc.gpioLevel.getLsbD pin = level then s else
    let w := fun (v : BitVec 24) => if level then v ||| BitVec.ofNat 24 (2 ^ pin) else v &&& ~~~(BitVec.ofNat 24 (2 ^ pin))
    let s := s.updSvc (fun k => { k with gpioLevel := w k.gpioLevel })
    if s.flag F.PKG_GPIO_IE pin && edgeWanted (s.fld F.PKG_GPIO_EDGE pin) level then
      s.updSvc (fun k => { k with gpioPend := k.gpioPend.upd 0 (s.fld F.PKG_GPIO_PID pin) (fun v => v ||| BitVec.ofNat 24 (2 ^ pin)) })
    else s

/-- A write of PKG_GPIO n: an output that is not at high impedance drives its level. -/
def State.gpioWrite (s : State) (src : Src) (n : Nat) (v : W64) : State :=
  let off := F.PKG_GPIO_PID.off n
  let q := s.sblkAccess F.CLK_SBLK_GPIO src off
  if !q.2 then q.1 else
  let s := q.1.wrReg src off v
  if s.flag F.PKG_GPIO_DIR n && !s.svc.hiZ then s.send .gpio n (s.fld F.PKG_GPIO_OUT n) [s.fld F.PKG_GPIO_OD n] else s

/-! Trip, regulators, power -/

/-- THERMTRIP (R493): the trip is latched, every PLL stops, memory is lost, GPIO floats. It needs VDD_AON only. -/
def execThermtrip (s : State) : Out := settled s <|
  .next (if !s.svc.aonGood || s.svc.trip then s else (s.coldState).updSvc (fun k => { k with trip := true, hiZ := true }))

/-- AVS_WRITE_TIMEOUT (R482): the write and its 3 repetitions had no good status; the cluster stays on the bridge clock at gear 0 until cold reset. -/
def execAvsWriteTimeout (cl : Nat) (s : State) : Out := settled s <|
  if 8 ≤ cl then .fault .noSuchUnit else .next <|
  if s.dead || s.svc.avsHeld.contains cl then s else
  (((s.updSvc (fun k => { k with avsHeld := k.avsHeld ++ [cl] })).bridge cl).send .avs (cl / 4) (cl % 4)).flt 13 6

/-- What a complex without power keeps: its odometer flash, the levels at its pins, and the parts outside it. -/
def State.unpowered (s : State) : State :=
  let z := State.reset
  { z with pending := s.pending, part := s.part, out := s.out, freeCtr := s.freeCtr, busData := s.busData,
           svc := { z.svc with odo := s.svc.odo, gpioLevel := s.svc.gpioLevel, powered := false, porst := s.svc.porst, aonGood := false, hiZ := true } }

/-- VDD_AON_LOSS (00 R11; 18 R410; R493): the always-on state is lost, the trip latch with it. -/
def execVddAonLoss (s : State) : Out := settled s <| .next s.unpowered

/-- VDD_AON_GOOD (R480): the always-on domain works; the other rails and the release of PORST_N follow (COLD_RESET). -/
def execVddAonGood (s : State) : Out := settled s <| .next (s.updSvc (fun k => { k with aonGood := true }))

/-- POWER_LOSS (R481; 21 R460): the other rails fall. Volatile state is lost, the record being written with it; always-on state and the latched trip stay. -/
def execPowerLoss (s : State) : Out := settled s <| .next ((s.coldState).updSvc (fun k => { k with powered := false, hiZ := true }))

end Sys2Proof.Machine
end

