-- ==== Sys2Proof/Machine/CtlSpace.lean ====
section
/-! DEFINITION. Control space (22 R466 to R469): what a write and a read of each register do, for cores (LOADC, STOREC; 03 R88) and for the host (REGISTER_WRITE). A register without a rule of its own takes a write field by field. -/

namespace Sys2Proof.Machine

/-! Writes -/

/-- COH_TMO: a REQ that is not greater than the SNP that the write leaves is a reserved value. -/
def State.cohTmo (s : State) (src : Src) (v : W64) : State :=
  let off := F.COH_TMO_REQ.base
  let req := fieldOf v 4 0
  let s' := s.wrReg src off (putField v 4 0 (s.fld F.COH_TMO_REQ))
  if req = s.fld F.COH_TMO_REQ then s'
  else if req < 6 || 20 < req || req ≤ s'.fld F.COH_TMO_SNP then s'.cfgErr src off
  else s'.setFld F.COH_TMO_REQ req

/-- LIF_ODOCMD: GO with OP; OP 3 is reserved. -/
def State.odoCmdWrite (s : State) (src : Src) (v : W64) : State :=
  if fieldOf v 62 61 = 3 then s.cfgErr src F.LIF_ODOCMD_GO.base else if fieldOf v 63 63 = 1 then s.odoCmd (fieldOf v 62 61) else s

/-- VLX_SCTBASE: refused while any subchannel is valid (12, Registers). -/
def State.sctBase (s : State) (src : Src) (v : W64) : State :=
  if s.chn.sch.any (fun p => p.2.valid) then s.cfgErr src F.VLX_SCTBASE_ADDR.base else s.wrReg src F.VLX_SCTBASE_ADDR.base v

/-- The control doubleword of an MSI-X vector: a pending vector that is unmasked is sent (PCI Express). -/
def State.msixCtl (s : State) (src : Src) (k : Nat) (v : W64) : State :=
  let s := s.wrReg src (F.SVC_MSIXD_MASK.off k) v
  if s.svc.msixPend.contains k && !s.flag F.SVC_MSIXD_MASK k then (s.updSvc (fun x => { x with msixPend := x.msixPend.filter (fun n => n != k) })).msix k else s

/-- Window SYS. -/
def State.wrSys (s : State) (src : Src) (off : Nat) (v : W64) : State :=
  if 0xD100 ≤ off && off < 0xD1C0 then s.gpioWrite src ((off - 0xD100) / 8) v else s.wrReg src off v

/-- Window BOO. -/
def State.wrBoo (s : State) (src : Src) (off : Nat) (v : W64) : State :=
  if off = F.BOO_DOOR_OPEN.base then s.doorClose src v
  else if off = 0x100010 then s.rstWrite src v
  else s.wrReg src off v

/-- Window CLK. A gear's REQ and SWCAP take effect at once (18 R401). -/
def State.wrClk (s : State) (src : Src) (off : Nat) (v : W64) : State :=
  if off = F.CLK_REQ_STATE.base then s.clkReq src v
  else if off = F.CLK_SBLK_TRACE.base then s.sblk src v
  else
    let s := s.wrReg src off v
    if 0x200100 ≤ off && off < 0x200140 then s.gearDue ((off - 0x200100) / 8) else s

/-- Window FLT. -/
def State.wrFlt (s : State) (src : Src) (off : Nat) (v : W64) : State :=
  if off = F.FLT_LOGSTAT_USED.base then s.logStat src v
  else if off = F.FLT_LOGRD_RD.base then s.logRd src v
  else if off = F.FLT_CNTSEL_CLR.base then s.cntSel src v
  else if 0x301000 ≤ off && off < 0x302000 then s.srcCfg src ((off - 0x301000) / 8) v
  else s.wrReg src off v

/-- Window LIF. -/
def State.wrLif (s : State) (src : Src) (off : Nat) (v : W64) : State :=
  if off = F.LIF_ODOCMD_GO.base then s.odoCmdWrite src v else s.wrReg src off v

/-- Window TAN. -/
def State.wrTan (s : State) (src : Src) (off : Nat) (v : W64) : State :=
  if off = 0x500008 then s.spreq src v
  else if 0x500100 ≤ off && off < 0x500200 then s.tanMode src ((off - 0x500100) / 8) v
  else s.wrReg src off v

/-- Window CAC. -/
def State.wrCac (s : State) (src : Src) (off : Nat) (v : W64) : State :=
  if off = 0x600000 then s.wayPwr src v
  else if 0x600100 ≤ off && off < 0x600180 then
    (if (off - 0x600100) % 0x20 = 0x10 then s.lockCtl src ((off - 0x600100) / 0x20) v else s.lockRange src off v)
  else s.wrReg src off v

/-- Window COH. -/
def State.wrCoh (s : State) (src : Src) (off : Nat) (v : W64) : State :=
  if off = F.COH_TMO_REQ.base then s.cohTmo src v
  else if off = F.COH_RESV_MAX.base then (if fieldOf v 16 16 = 1 then s.setFld F.COH_RESV_MAX (s.fld F.COH_RESV_CUR) else s)
  else s.wrReg src off v

/-- Window FAB. -/
def State.wrFab (s : State) (src : Src) (off : Nat) (v : W64) : State :=
  if off = F.FAB_TBSET_VALUE.base then s.tbSet src v else s.wrReg src off v

/-- Does an offset lie among the registers of one controller; which controller. -/
def ctlMc (off : Nat) : Option Nat := if (off - 0x900000) % 0x10000 < 0x8000 && 0x900000 ≤ off && off < 0xA00000 then some ((off - 0x900000) / 0x10000) else none

/-- Window MEM. The registers of an unpopulated controller read zero and ignore writes (11 R267). -/
def State.wrMem (s : State) (src : Src) (off : Nat) (v : W64) : State :=
  let r := off % 0x10000
  match ctlMc off with
  | some m =>
    if !s.populated m then s
    else if 0x800 ≤ r && r < 0x1000 then s.rgnWrite src m ((r - 0x800) / 0x20) (r % 0x20 / 8) v
    else s.wrReg src off v
  | none => if 0x908800 ≤ off && off < 0x909000 then s.rgnBroadcast src ((off - 0x908800) / 0x20) (off % 0x20 / 8) v else s.wrReg src off v

/-- Window VLX. -/
def State.wrVlx (s : State) (src : Src) (off : Nat) (v : W64) : State :=
  if off = F.VLX_SCTBASE_ADDR.base then s.sctBase src v
  else if off = F.VLX_SCCMD_BUSY.base then s.sccWrite src v
  else s.wrReg src off v

/-- Window VEN. -/
def State.wrVen (s : State) (src : Src) (off : Nat) (v : W64) : State :=
  if off = F.VEN_CTXSEL_ENG.base then s.ctxselWrite src v else s.wrReg src off v

/-- Window KEY: the mailboxes. -/
def State.wrKey (s : State) (src : Src) (off : Nat) (v : W64) : State :=
  let mb := (off - 0xF00000) / 0x200
  let r := off % 0x200
  if 64 ≤ mb then s.wrReg src off v
  else if r = 0 then s.mbCtl src mb v
  else if r = 8 then s.mbAck src mb v
  else if 0x80 ≤ r && r < 0x100 then s.mbReqWrite src mb ((r - 0x80) / 8) v
  else if !mbSide src mb then s.cfgErr src off
  else s

/-- Window SVC. -/
def State.wrSvc (s : State) (src : Src) (off : Nat) (v : W64) : State :=
  if off = F.SVC_DBGCTL_CMD.base then s.dbgCtl src v
  else if off = F.SVC_DBGDATA_DATA.base then s.dbgWrite src v
  else if 0x1000220 ≤ off && off ≤ 0x1000240 then s.bpWrite ((off - 0x1000220) / 8) v
  else if 0x1000400 ≤ off && off < 0x1000440 then s.trctl src ((off - 0x1000400) / 8) v
  else if 0x1008000 ≤ off && off < 0x1088000 then (s.sblkAccess F.CLK_SBLK_TRACE src off).1
  else if 0x1001000 ≤ off && off < 0x1001200 && off % 16 = 8 then s.msixCtl src ((off - 0x1001000) / 16) v
  else s.wrReg src off v

/-- A write of the control-space doubleword at an offset; SVC_WSTAT lies in every window. -/
def State.ctlWrite (s : State) (src : Src) (off : Nat) (v : W64) : State :=
  if (regAt off).isNone then s.unmapped off
  else if off % 0x100000 = 0xFFFF8 then s.wrReg src off v
  else
    match off / 0x100000 with
    | 0 => s.wrSys src off v
    | 1 => s.wrBoo src off v
    | 2 => s.wrClk src off v
    | 3 => s.wrFlt src off v
    | 4 => s.wrLif src off v
    | 5 => s.wrTan src off v
    | 6 => s.wrCac src off v
    | 7 => s.wrCoh src off v
    | 8 => s.wrFab src off v
    | 9 => s.wrMem src off v
    | 10 => s.wrVlx src off v
    | 11 => s.wrVen src off v
    | 15 => s.wrKey src off v
    | 16 => s.wrSvc src off v
    | _ => s.wrReg src off v

/-- REGISTER_WRITE (R466). -/
def execRegisterWrite (src : Src) (off : Nat) (v : BitVec 64) (s : State) : Out := settled s <| .next (if s.dead then s else s.ctlWrite src off v)

/-! Reads -/

/-- TAN_SPARE (07, Registers): BUSY is 1 from the acceptance of a move (Table TAN-5 step 1), which is when a core waits for one and a spare is there. -/
def State.spareRead (s : State) : W64 :=
  let begun := s.moveNow.isSome && (List.range 56).any (fun p => s.fld F.TAN_PCSTAT_ROLE p == 1)
  putField (s.reg F.TAN_SPARE_BUSY.base) 16 16 (b2n (s.flag F.TAN_SPARE_BUSY || begun))

/-- TAN_LCMAP n (07, Registers). A core reads as moving from the acceptance of its move (Table TAN-5 step 1). -/
def State.lcmapRead (s : State) (n : Nat) : W64 :=
  let c := s.core n
  if !s.lcExists n then 0 else
  let st := if s.moveDue n then 3 else match c.run with
    | .checkStop => 4
    | .lost => 5
    | .held => 3
    | _ => if c.broken then 2 else if c.retry ≠ 0 then 1 else 0
  BitVec.ofNat 64 (2 ^ 63 + st * 2 ^ 60 + b2n c.broken * 2 ^ 59 + s.fld F.TAN_LCMAP_UNCHK n * 2 ^ 58 + c.phys)

/-- CAC_RNGSTAT g (08 R199). QUEUED counts the operation that runs too (DESIGN CHOICE, log 70). -/
def State.rngRead (s : State) (g : Nat) : W64 :=
  let q := s.mem.range.get [] g
  BitVec.ofNat 64 (b2n (match q with | o :: _ => o.submitted | [] => false) * 2 ^ 63 + q.length)

/-- VLX_JDATA k: a doubleword of the journal or mirror entry that VLX_JSEL names. -/
def State.jdataRead (s : State) (k : Nat) : W64 := ((s.jent (s.flag F.VLX_JSEL_MIR) (s.fld F.VLX_JSEL_IDX)).img).extractLsb' (448 - 64 * k) 64

/-- A doubleword of the fault log (20 Table FLT-7). -/
def State.logRead (s : State) (off : Nat) : W64 :=
  let i := (off - 0x308000) / 0x20
  (s.svc.log.get 0 i).extractLsb' (192 - 64 * (off % 0x20 / 8)) 64

/-- A doubleword of a trace ring; the more significant one comes first. -/
def State.traceRead (s : State) (off : Nat) : W64 :=
  let x := off - 0x1008000
  (s.svc.trace.get 0 (x / 0x10000 * 4096 + x % 0x10000 / 16)).extractLsb' (64 - 64 * (x % 16 / 8)) 64

/-- A read in window MEM: the broadcast window gives MC0's copy (11 R282). -/
def State.rdMem (s : State) (off : Nat) : W64 :=
  match ctlMc off with
  | some m => if s.populated m then s.reg off else 0
  | none => if 0x908800 ≤ off && off < 0x909000 then s.reg (off - 0x908800 + 0x900800) else s.reg off

/-- The value of a register whose read changes nothing; none for those below. -/
def State.ctlPlain (s : State) (off : Nat) : W64 :=
  if off = F.BOO_DOOR_OPEN.base then putField (s.reg off) 9 0 s.doorLeft
  else if 0x301000 ≤ off && off < 0x302000 then
    let n := (off - 0x301000) / 8
    if fltUsed n then putField (s.reg off) 63 63 (b2n (fixSevere n)) else 0
  else if 0x308000 ≤ off && off < 0x328000 then s.logRead off
  else if off = F.LIF_ODODATA_DATA.base then s.odoData
  else if off = F.TAN_SPARE_BUSY.base then s.spareRead
  else if 0x500200 ≤ off && off < 0x500380 then s.lcmapRead ((off - 0x500200) / 8)
  else if 0x600040 ≤ off && off < 0x600060 then s.rngRead ((off - 0x600040) / 8)
  else if off / 0x100000 = 9 then s.rdMem off
  else if 0xA00040 ≤ off && off < 0xA00080 then s.jdataRead ((off - 0xA00040) / 8)
  else if off = F.SVC_DBGCTL_CMD.base then s.dbgCtlRead
  else if 0x1000220 ≤ off && off ≤ 0x1000240 then s.bpRead ((off - 0x1000220) / 8)
  else if off = F.SVC_PBA_D.base then BitVec.ofNat 64 (s.svc.msixPend.foldl (fun v k => v ||| 2 ^ k) 0)
  else s.reg off

/-- A read that may refuse, fault or wake a block. -/
def State.ctlRead (s : State) (src : Src) (off : Nat) : State × W64 :=
  let blk := fun (f : Fld) (v : State → W64) => let q := s.sblkAccess f src off; if q.2 then (q.1, v q.1) else (q.1, (0 : W64))
  if (regAt off).isNone then (s.unmapped off, 0)
  else if 0xD100 ≤ off && off < 0xD1C0 then blk F.CLK_SBLK_GPIO (fun s => s.reg off)
  else if off = F.PKG_GPIOIN_LVL.base then blk F.CLK_SBLK_GPIO (fun s => s.svc.gpioLevel.setWidth 64)
  else if off = F.FLT_CNTDATA_COUNT.base then s.cntData src
  else if off = F.LIF_SNDATA_VALUE.base then s.snData src
  else if off = F.TAN_CKDATA_DATA.base then s.ckData src
  else if off = F.VEN_CTXDATA_DATA.base then s.ctxdata src
  else if off = F.SVC_DBGDATA_DATA.base then s.dbgRead src
  else if 0x1000400 ≤ off && off < 0x1000440 then blk F.CLK_SBLK_TRACE (fun s => s.reg off)
  else if 0x1008000 ≤ off && off < 0x1088000 then blk F.CLK_SBLK_TRACE (fun s => s.traceRead off)
  else (s, s.ctlPlain off)

/-! LOADC and STOREC (03 R88): checkpoint-bound; LOADC logs the doubleword (07 Table TAN-3) -/

/-- An offset that no control space has, or that is not aligned. -/
def ctlBad (off : W64) : Bool := decide (0x4000000 ≤ off.toNat) || off.toNat % 8 != 0

/-- LOADC. -/
def execLoadc (lc : Nat) (t a : BitVec 5) (sys : BitVec 10) (s : State) : Out :=
  let x := (s.arch lc).getG a
  runCore lc { words := wordsE 0x34 0x01 t a sys, low := 2, sp := sys != 0 || ctlBad x, bound := true, logs := true } s fun s =>
    s.once lc .loadc (fun s e => .done (s.updArch lc (fun r => r.setG t (e.val.setWidth 64)))) (fun s =>
      let r := s.ctlRead .core x.toNat
      .done ((r.1.logInput lc .loadc (r.2.setWidth 256) 0).updArch lc (fun q => q.setG t r.2)))

/-- STOREC. A write that stops the core for a reset or a fence leaves no instruction to end. -/
def execStorec (lc : Nat) (t a : BitVec 5) (sys : BitVec 10) (s : State) : Out :=
  let x := (s.arch lc).getG a
  runCore lc { words := wordsE 0x34 0x02 t a sys, low := 2, sp := sys != 0 || ctlBad x, bound := true, logs := true } s fun s =>
    s.once lc .storec (fun s _ => .done s) (fun s =>
      let s := (s.logInput lc .storec 0 0).ctlWrite .core x.toNat ((s.arch lc).getG t)
      match (s.core lc).run with
      | .running | .halted | .held => .done s
      | _ => .gone s)

end Sys2Proof.Machine
end

