-- ==== Sys2Proof/Machine/Decimal.lean ====
section
/-! DEFINITION. Packed decimal instructions (03 R91, 04 R115 to R119). Each is a checkpoint interval of its own (07 R168). -/

namespace Sys2Proof.Machine

/-- The digits of a packed operand as a number, most significant first; none for an invalid digit (Table ARI-6). -/
def packedDigits (l : List Nat) : Option Nat :=
  l.foldl (fun o d => match o with | some v => if d ≤ 9 then some (v * 10 + d) else none | none => none) (some 0)

/-- The value of a packed operand, none for an invalid nibble (R115, R116). -/
def packedVal (bs : List Byte) : Option Int :=
  let nib := bs.flatMap (fun b => [b.toNat / 16, b.toNat % 16])
  let sign := nib.getLastD 0
  match packedDigits nib.dropLast with
  | none => none
  | some v => if sign < 10 then none else if sign = 0xB || sign = 0xD then some (-(v : Int)) else some v

/-- The `n` low-order digits of a magnitude, most significant first. -/
def decDigits (n v : Nat) : List Nat := (List.range n).map (fun i => v / 10 ^ (n - 1 - i) % 10)

/-- A packed operand of `n` bytes. -/
def packedBytes (n : Nat) (neg : Bool) (v : Nat) : List Byte :=
  let nib := decDigits (2 * n - 1) v ++ [if neg then 0xD else 0xC]
  (List.range n).map (fun i => BitVec.ofNat 8 (nib.getD (2 * i) 0 * 16 + nib.getD (2 * i + 1) 0))

/-- Operands that overlap without starting at the same address (R91). -/
def decOverlap (e1 e2 : W64) (n1 n2 : Nat) : Bool :=
  e1 != e2 && (decide ((e2 - e1).toNat < n1) || decide ((e1 - e2).toNat < n2))

/-- Frame of the DECS instructions: checks of the form, both operands read (operand 1 also checked for its store), nibbles checked, then `f`. An invalid nibble (0x0007) is reported before a zero divisor (0x000B), which have one priority in Table INS-3 (DESIGN CHOICE, log 68). -/
def decIns (lc sub : Nat) (b1 b2 : BitVec 5) (l1 l2 : BitVec 4) (d1 d2 : BitVec 16) (stores bad : Bool) (s : State)
    (f : State → XCtx → W64 → Nat → Int → Int → IRes) : Out :=
  let r := s.arch lc
  let e1 := r.ea b1 d1
  let e2 := r.ea b2 d2
  let n1 := l1.toNat + 1
  let n2 := l2.toNat + 1
  runCore lc { ilc := 8, words := wordsLS 0x3A sub b1 b2 l1 l2 d1 d2, sp := bad || decOverlap e1 e2 n1 n2, alone := true } s fun s =>
    let x := s.xc lc
    ((s.loadBytes x 2 e1 n1).bind fun s p =>
      (if stores then s.checkStore x .wr 2 e1 n1 else .ok s []).bind fun s _ =>
        (s.loadBytes x 2 e2 n2).bind fun s q => .ok s (p, q)).run fun s pq =>
          match packedVal pq.1, packedVal pq.2 with
          | some v1, some v2 => f s x e1 n1 v1 v2
          | _, _ => .exc s 7

/-- Write an exact result to operand 1 (R117). -/
def decResult (lc : Nat) (s : State) (x : XCtx) (e1 : W64) (n1 : Nat) (v : Int) : IRes :=
  let fits := decide (v.natAbs < 10 ^ (2 * n1 - 1))
  (s.storeBytes x e1 (packedBytes n1 (decide (v < 0)) v.natAbs)).run fun s _ =>
    if fits then .done (s.updArch lc (fun r => r.setCc (ccSign v)))
    else
      let s := s.updArch lc (fun r => r.setCc 3)
      if (s.arch lc).psw.dom then .doneExc s 0x0A 0 else .done s

/-- ADDP (R117): op1 ← op1 + op2. -/
def execAddp (lc : Nat) (b1 b2 : BitVec 5) (l1 l2 : BitVec 4) (d1 d2 : BitVec 16) (s : State) : Out :=
  decIns lc 0x01 b1 b2 l1 l2 d1 d2 true false s (fun s x e1 n1 v1 v2 => decResult lc s x e1 n1 (v1 + v2))

/-- SUBP (R117): op1 ← op1 - op2. -/
def execSubp (lc : Nat) (b1 b2 : BitVec 5) (l1 l2 : BitVec 4) (d1 d2 : BitVec 16) (s : State) : Out :=
  decIns lc 0x02 b1 b2 l1 l2 d1 d2 true false s (fun s x e1 n1 v1 v2 => decResult lc s x e1 n1 (v1 - v2))

/-- MULP (R117): op1 ← op1 × op2; l2 must be less than l1 (R91). -/
def execMulp (lc : Nat) (b1 b2 : BitVec 5) (l1 l2 : BitVec 4) (d1 d2 : BitVec 16) (s : State) : Out :=
  decIns lc 0x03 b1 b2 l1 l2 d1 d2 true (decide (l1.toNat ≤ l2.toNat)) s (fun s x e1 n1 v1 v2 => decResult lc s x e1 n1 (v1 * v2))

/-- DIVP (R118): op1 ← quotient, truncated toward zero; a zero divisor is a decimal divide exception. -/
def execDivp (lc : Nat) (b1 b2 : BitVec 5) (l1 l2 : BitVec 4) (d1 d2 : BitVec 16) (s : State) : Out :=
  decIns lc 0x04 b1 b2 l1 l2 d1 d2 true (decide (l1.toNat ≤ l2.toNat)) s (fun s x e1 n1 v1 v2 =>
    if v2 = 0 then .exc s 0x0B else decResult lc s x e1 n1 (v1.tdiv v2))

/-- CMPP (R116): op1 : op2. -/
def execCmpp (lc : Nat) (b1 b2 : BitVec 5) (l1 l2 : BitVec 4) (d1 d2 : BitVec 16) (s : State) : Out :=
  decIns lc 0x05 b1 b2 l1 l2 d1 d2 false false s (fun s _ _ _ v1 v2 => .done (s.updArch lc (fun r => r.setCc (ccCmp v1 v2))))

/-- CVDB (R119): t ← binary value of the 16-byte packed operand at EA. -/
def execCvdb (lc : Nat) (t a : BitVec 5) (imm : BitVec 16) (s : State) : Out :=
  runCore lc { words := wordsB 0x3B t a imm, alone := true } s fun s =>
    (s.loadBytes (s.xc lc) 2 ((s.arch lc).ea a imm) 16).run fun s bs =>
      match packedVal bs with
      | none => .exc s 7
      | some v =>
        let q := arith 64 v
        let s := s.updArch lc (fun r => (r.setG t q.1).setCc q.2.1)
        if q.2.2 && (s.arch lc).psw.fom then .doneExc s 8 0 else .done s

/-- CVBD (R119): 16 bytes at EA ← packed value of t. -/
def execCvbd (lc : Nat) (t a : BitVec 5) (imm : BitVec 16) (s : State) : Out :=
  runCore lc { words := wordsB 0x3C t a imm, alone := true } s fun s =>
    let v := ((s.arch lc).getG t).toInt
    (s.storeBytes (s.xc lc) ((s.arch lc).ea a imm) (packedBytes 16 (decide (v < 0)) v.natAbs)).run fun s _ => .done s

end Sys2Proof.Machine
end

