-- ==== Sys2Proof/Machine/Float.lean ====
section
/-! DEFINITION. Floating point (03 R83, R84; 04 R103 to R114): IEEE 754-2019 binary32 and binary64 over exact numbers, with one rounding. -/

namespace Sys2Proof.Machine

/-- A format: precision, exponent of the smallest subnormal's unit, largest exponent, width of the fraction and of the exponent. -/
structure Fmt where
  p : Nat
  emin : Int
  emax : Int
  fb : Nat
  eb : Nat

def fmt64 : Fmt := { p := 53, emin := -1074, emax := 1023, fb := 52, eb := 11 }
def fmt32 : Fmt := { p := 24, emin := -149, emax := 127, fb := 23, eb := 8 }

/-- A floating-point datum: a NaN with its fraction, an infinity, or m × 2^e. -/
inductive Fp where
  | nan (neg : Bool) (frac : Nat)
  | inf (neg : Bool)
  | fin (neg : Bool) (m : Nat) (e : Int)
deriving DecidableEq, Repr

/-- Conditions in the order of FPC.ENA and FPC.FLG (04 Table ARI-3): invalid, divide-by-zero, overflow, underflow, inexact. -/
def fpNV : Nat := 16
def fpDZ : Nat := 8
def fpOF : Nat := 4
def fpUF : Nat := 2
def fpNX : Nat := 1

def Fmt.unpack (f : Fmt) (x : Nat) : Fp :=
  let frac := x % 2 ^ f.fb
  let ex := x / 2 ^ f.fb % 2 ^ f.eb
  let neg := x / 2 ^ (f.fb + f.eb) % 2 == 1
  if ex = 2 ^ f.eb - 1 then (if frac = 0 then .inf neg else .nan neg frac)
  else if ex = 0 then .fin neg frac f.emin
  else .fin neg (frac + 2 ^ f.fb) (f.emin + (ex : Int) - 1)

def Fmt.sign (f : Fmt) (neg : Bool) : Nat := if neg then 2 ^ (f.fb + f.eb) else 0
def Fmt.infBits (f : Fmt) (neg : Bool) : Nat := f.sign neg + (2 ^ f.eb - 1) * 2 ^ f.fb
def Fmt.maxBits (f : Fmt) (neg : Bool) : Nat := f.infBits neg - 1
/-- The default NaN (R108). -/
def Fmt.dnan (f : Fmt) : Nat := f.infBits false + 2 ^ (f.fb - 1)
/-- A NaN with its quiet bit set (R108). -/
def Fmt.quiet (f : Fmt) (neg : Bool) (frac : Nat) : Nat := f.infBits neg + (if frac / 2 ^ (f.fb - 1) % 2 = 1 then frac else frac + 2 ^ (f.fb - 1))
def Fmt.signalling (f : Fmt) : Fp → Bool
  | .nan _ frac => frac / 2 ^ (f.fb - 1) % 2 == 0
  | _ => false

/-- Does a discarded part round the magnitude up (04 Table ARI-3): modes RNE, RTZ, RUP, RDN, RNA. -/
def roundUp (rm : Nat) (neg odd inexact above tie : Bool) : Bool :=
  match rm with
  | 0 => above || (tie && odd)
  | 1 => false
  | 2 => inexact && !neg
  | 3 => inexact && neg
  | _ => above || tie

/-- m × 2^e (plus a little when `st`) rounded to units of 2^q: the units and whether the result is inexact. -/
def roundTo (rm : Nat) (neg : Bool) (m : Nat) (e q : Int) (st : Bool) : Nat × Bool :=
  if q ≤ e then (m * 2 ^ (e - q).toNat, st) else
    let d := (q - e).toNat
    let r := m / 2 ^ d
    let rem := m % 2 ^ d
    let half := 2 ^ (d - 1)
    let inexact := rem != 0 || st
    let above := decide (half < rem) || (rem == half && st)
    let tie := rem == half && !st
    (if roundUp rm neg (r % 2 == 1) inexact above tie then r + 1 else r, inexact)

/-- Round an exact nonzero magnitude to a format: the bits and the conditions (R106, R107). -/
def Fmt.round (f : Fmt) (rm : Nat) (neg : Bool) (m : Nat) (e : Int) (st : Bool) : Nat × Nat :=
  if m = 0 && !st then (f.sign neg, 0) else
    let eu := e + (m.log2 : Int) - ((f.p : Int) - 1)
    let q := max eu f.emin
    let u := roundTo rm neg m e eu st
    let r := roundTo rm neg m e q st
    let tiny := decide ((u.1 : Int) * 2 ^ (eu - f.emin + 4096).toNat < 2 ^ (f.p - 1 + 4096))
    let big := if f.p ≤ r.1.log2 then (r.1 / 2, q + 1) else (r.1, q)
    if f.emax < big.2 + ((f.p : Int) - 1) && decide (2 ^ (f.p - 1) ≤ big.1) then
      (if rm = 1 || (rm = 2 && neg) || (rm = 3 && !neg) then f.maxBits neg else f.infBits neg, fpOF + fpNX)
    else
      let bits := if big.1 < 2 ^ (f.p - 1) then big.1 else (big.2 - f.emin + 1).toNat * 2 ^ f.fb + (big.1 - 2 ^ (f.p - 1))
      (f.sign neg + bits, if r.2 then (if tiny then fpUF else 0) + fpNX else 0)

/-- The first NaN operand, quieted; a signalling one raises invalid (R108). -/
def Fmt.nanOf (f : Fmt) (xs : List Fp) : Option (Nat × Nat) :=
  match xs.find? (fun x => match x with | .nan _ _ => true | _ => false) with
  | some (.nan neg frac) => some (f.quiet neg frac, if xs.any f.signalling then fpNV else 0)
  | _ => none

/-- The sign of an exact zero sum (R111). -/
def zeroSign (rm : Nat) (n1 n2 : Bool) : Bool := if n1 == n2 then n1 else rm == 3

/-- The exact sum of two finite numbers: sign, magnitude, exponent. -/
def addExact (n1 : Bool) (m1 : Nat) (e1 : Int) (n2 : Bool) (m2 : Nat) (e2 : Int) : Int × Int :=
  let e := min e1 e2
  let v := fun (n : Bool) (m : Nat) (ee : Int) => (if n then -1 else 1) * ((m * 2 ^ (ee - e).toNat : Nat) : Int)
  (v n1 m1 e1 + v n2 m2 e2, e)

def Fmt.addFin (f : Fmt) (rm : Nat) (n1 : Bool) (m1 : Nat) (e1 : Int) (n2 : Bool) (m2 : Nat) (e2 : Int) : Nat × Nat :=
  let s := addExact n1 m1 e1 n2 m2 e2
  if s.1 = 0 then (f.sign (if m1 = 0 && m2 = 0 then zeroSign rm n1 n2 else rm == 3), 0)
  else f.round rm (decide (s.1 < 0)) s.1.natAbs s.2 false

def Fmt.add (f : Fmt) (rm : Nat) (x y : Fp) : Nat × Nat :=
  match f.nanOf [x, y] with
  | some r => r
  | none =>
    match x, y with
    | .inf a, .inf b => if a == b then (f.infBits a, 0) else (f.dnan, fpNV)
    | .inf a, _ => (f.infBits a, 0)
    | _, .inf b => (f.infBits b, 0)
    | .fin n1 m1 e1, .fin n2 m2 e2 => f.addFin rm n1 m1 e1 n2 m2 e2
    | _, _ => (f.dnan, fpNV)

/-- The negative of a datum. -/
def Fp.neg : Fp → Fp
  | .nan n fr => .nan n fr
  | .inf n => .inf (!n)
  | .fin n m e => .fin (!n) m e

def Fmt.mul (f : Fmt) (rm : Nat) (x y : Fp) : Nat × Nat :=
  match f.nanOf [x, y] with
  | some r => r
  | none =>
    match x, y with
    | .inf a, .inf b => (f.infBits (a != b), 0)
    | .inf a, .fin b m _ => if m = 0 then (f.dnan, fpNV) else (f.infBits (a != b), 0)
    | .fin a m _, .inf b => if m = 0 then (f.dnan, fpNV) else (f.infBits (a != b), 0)
    | .fin a m1 e1, .fin b m2 e2 => f.round rm (a != b) (m1 * m2) (e1 + e2) false
    | _, _ => (f.dnan, fpNV)

def Fmt.div (f : Fmt) (rm : Nat) (x y : Fp) : Nat × Nat :=
  match f.nanOf [x, y] with
  | some r => r
  | none =>
    match x, y with
    | .inf _, .inf _ => (f.dnan, fpNV)
    | .inf a, .fin b _ _ => (f.infBits (a != b), 0)
    | .fin a _ _, .inf b => (f.sign (a != b), 0)
    | .fin a m1 e1, .fin b m2 e2 =>
      if m2 = 0 then (if m1 = 0 then (f.dnan, fpNV) else (f.infBits (a != b), fpDZ))
      else
        let k := 2 * f.p + 4
        f.round rm (a != b) (m1 * 2 ^ k / m2) (e1 - e2 - k) (m1 * 2 ^ k % m2 != 0)
    | _, _ => (f.dnan, fpNV)

/-- Integer square root, bit by bit. -/
def isqrt (n x : Nat) : Nat := (List.range n).foldl (fun r i => let t := r + 2 ^ (n - 1 - i); if t * t ≤ x then t else r) 0

def Fmt.sqrt (f : Fmt) (rm : Nat) (x : Fp) : Nat × Nat :=
  match f.nanOf [x] with
  | some r => r
  | none =>
    match x with
    | .inf n => if n then (f.dnan, fpNV) else (f.infBits false, 0)
    | .fin n m e =>
      if m = 0 then (f.sign n, 0)
      else if n then (f.dnan, fpNV)
      else
        let k : Nat := 2 * f.p + 8
        let v := if (e - k) % 2 = 0 then (m * 2 ^ k, e - k) else (m * 2 ^ (k + 1), e - k - 1)
        let r := isqrt (2 * f.p + 8) v.1
        f.round rm false r (v.2 / 2) (r * r != v.1)
    | _ => (f.dnan, fpNV)

/-- a × b + c with one rounding (R103, R109); `sub` for a × b − c. -/
def Fmt.fma (f : Fmt) (rm : Nat) (x y z : Fp) (sub : Bool) : Nat × Nat :=
  let isNan := fun (v : Fp) => match v with | .nan _ _ => true | _ => false
  let bad := match x, y with
    | .inf _, .fin _ m _ => m == 0
    | .fin _ m _, .inf _ => m == 0
    | _, _ => false
  if !isNan x && !isNan y && bad then (f.dnan, fpNV) else
  match f.nanOf [x, y, z] with
  | some r => r
  | none =>
    let z := if sub then z.neg else z
    let pn := fun (a b : Bool) => a != b
    let withInf := fun (n : Bool) => match z with | .inf c => if c == n then (f.infBits n, 0) else (f.dnan, fpNV) | _ => (f.infBits n, 0)
    match x, y with
    | .inf a, .inf b => withInf (pn a b)
    | .inf a, .fin b _ _ => withInf (pn a b)
    | .fin a _ _, .inf b => withInf (pn a b)
    | .fin a m1 e1, .fin b m2 e2 =>
      (match z with
       | .inf c => (f.infBits c, 0)
       | .fin c m3 e3 => f.addFin rm (pn a b) (m1 * m2) (e1 + e2) c m3 e3
       | _ => (f.dnan, fpNV))
    | _, _ => (f.dnan, fpNV)

/-- The negated fused forms: the rounded sum with its sign inverted, a NaN kept (log 11). -/
def Fmt.negRes (f : Fmt) (r : Nat × Nat) : Nat × Nat :=
  match f.unpack r.1 with
  | .nan _ _ => r
  | .inf n => (f.infBits (!n), r.2)
  | .fin n _ _ => (if n then r.1 - f.sign true else r.1 + f.sign true, r.2)

/-- Order of two numbers: −1, 0, 1; none when unordered. -/
def Fp.cmp (x y : Fp) : Option Int :=
  match x, y with
  | .nan _ _, _ => none
  | _, .nan _ _ => none
  | .inf a, .inf b => some (if a == b then 0 else if a then -1 else 1)
  | .inf a, _ => some (if a then -1 else 1)
  | _, .inf b => some (if b then 1 else -1)
  | .fin a m1 e1, .fin b m2 e2 => some (addExact a m1 e1 (!b) m2 e2).1.sign

/-- FMIN and FMAX: minimumNumber and maximumNumber (R110). -/
def Fmt.minmax (f : Fmt) (mx : Bool) (xb yb : Nat) : Nat × Nat :=
  let x := f.unpack xb
  let y := f.unpack yb
  let nv := if f.signalling x || f.signalling y then fpNV else 0
  match x, y with
  | .nan a fr, .nan _ _ => (f.quiet a fr, nv)
  | .nan _ _, _ => (yb, nv)
  | _, .nan _ _ => (xb, nv)
  | _, _ =>
    let neg := fun (v : Fp) => match v with | .fin n _ _ => n | .inf n => n | .nan n _ => n
    match x.cmp y with
    | some 0 => (if neg x == mx then yb else xb, 0)
    | some o => (if decide (o < 0) != mx then xb else yb, 0)
    | none => (f.dnan, fpNV)

/-- Compare: CC by key Cf, and whether invalid is signalled (R112): FCMP only for a signalling NaN, FCMPS for any. -/
def Fmt.compare (f : Fmt) (sig : Bool) (x y : Fp) : BitVec 2 × Nat :=
  match x.cmp y with
  | none => (3, if sig || f.signalling x || f.signalling y then fpNV else 0)
  | some o => (ccCmp o 0, 0)

/-- A datum rounded to an integer: units, and whether that changed it. -/
def roundInt (rm : Nat) (n : Bool) (m : Nat) (e : Int) : Nat × Bool := roundTo rm n m e 0 false

/-- FRINT (R111): an integral value, the sign of the operand. -/
def Fmt.rint (f : Fmt) (rm : Nat) (xb : Nat) : Nat × Nat :=
  let x := f.unpack xb
  match f.nanOf [x] with
  | some r => r
  | none =>
    match x with
    | .fin n m e =>
      if 0 ≤ e then (xb, 0) else
        let r := roundInt rm n m e
        ((f.round 1 n r.1 0 false).1, if r.2 then fpNX else 0)
    | _ => (xb, 0)

/-- To an integer (R113, Table ARI-4). -/
def Fmt.toInteger (_f : Fmt) (rm : Nat) (signed : Bool) (x : Fp) : W64 × Nat :=
  let lo : Int := if signed then -(2 ^ 63) else 0
  let hi : Int := if signed then 2 ^ 63 - 1 else 2 ^ 64 - 1
  match x with
  | .nan _ _ => (BitVec.ofInt 64 lo, fpNV)
  | .inf n => (BitVec.ofInt 64 (if n then lo else hi), fpNV)
  | .fin n m e =>
    let r := roundInt rm n m e
    let v : Int := if n then -(r.1 : Int) else r.1
    if v < lo then (BitVec.ofInt 64 lo, fpNV) else if hi < v then (BitVec.ofInt 64 hi, fpNV)
    else (BitVec.ofInt 64 v, if r.2 then fpNX else 0)

/-- From an integer: rounded once (R113). -/
def Fmt.ofInteger (f : Fmt) (rm : Nat) (v : Int) : Nat × Nat := f.round rm (decide (v < 0)) v.natAbs 0 false

/-- binary32 to binary64 (R113). -/
def cvtDS (x : Fp) : Nat × Nat :=
  match x with
  | .nan n fr => (fmt64.infBits n + 2 ^ 51 + fr % 2 ^ 22 * 2 ^ 29, if fmt32.signalling x then fpNV else 0)
  | .inf n => (fmt64.infBits n, 0)
  | .fin n m e => fmt64.round 0 n m e false

/-- binary64 to binary32 (R113). -/
def cvtSD (rm : Nat) (x : Fp) : Nat × Nat :=
  match x with
  | .nan n fr => (fmt32.infBits n + 2 ^ 22 + fr / 2 ^ 29 % 2 ^ 22, if fmt64.signalling x then fpNV else 0)
  | .inf n => (fmt32.infBits n, 0)
  | .fin n m e => fmt32.round rm n m e false

/-! FPC (04 R103 to R107) -/

def Arch.fpRm (a : Arch) : Nat := fieldOf (a.getSr 0x0C) 2 0
def Arch.fpEna (a : Arch) : Nat := fieldOf (a.getSr 0x0C) 31 27

/-- The condition of highest priority in a set, as DXC (Table ARI-3). -/
def fpDxc (k : Nat) : Nat :=
  if k / 16 % 2 = 1 then 0x80 else if k / 8 % 2 = 1 then 0x40 else if k / 4 % 2 = 1 then 0x20 else if k / 2 % 2 = 1 then 0x10 else 0x08

/-- End a floating-point operation that met the conditions `k` (R107): enabled invalid or divide-by-zero suppress; other enabled ones complete; flags of disabled ones are set. -/
def State.fpEnd (s : State) (lc : Nat) (k : Nat) (put : Arch → Arch) : IRes :=
  let a := s.arch lc
  let on := k &&& a.fpEna
  if on &&& (fpNV + fpDZ) ≠ 0 then .excFp s (fpDxc on)
  else
    let fpc := a.getSr 0x0C
    let s' := s.updArch lc (fun a => (put a).setSr 0x0C (putField fpc 23 19 (fieldOf fpc 23 19 ||| (k &&& (31 - a.fpEna)))))
    if on = 0 then .done s' else .doneExc s' 0x0C (fpDxc on)

/-- The operand of a format in a register: binary32 lies in bits [31:0] (03 R83). -/
def Fmt.ofReg (f : Fmt) (w : W64) : Nat := w.toNat % 2 ^ (f.fb + f.eb + 1)

/-- An arithmetic instruction of the FP group. -/
def fpIns (f : Fmt) (minor lc : Nat) (t a b c : BitVec 5) (bad : Bool) (op : Nat → Nat → Nat → Nat → Nat × Nat) (s : State) : Out :=
  runCore lc { words := wordsA 0x27 minor t a b c, sp := bad } s fun s =>
    let r := s.arch lc
    let v := op r.fpRm (f.ofReg (r.getF a)) (f.ofReg (r.getF b)) (f.ofReg (r.getF c))
    s.fpEnd lc v.2 (fun r => r.setF t (BitVec.ofNat 64 v.1))

/-- A compare of the FP group; t and c are reserved. -/
def fpCmp (f : Fmt) (minor lc : Nat) (t a b c : BitVec 5) (sig : Bool) (s : State) : Out :=
  runCore lc { words := wordsA 0x27 minor t a b c, sp := c != 0 || t != 0 } s fun s =>
    let r := s.arch lc
    let v := f.compare sig (f.unpack (f.ofReg (r.getF a))) (f.unpack (f.ofReg (r.getF b)))
    s.fpEnd lc v.2 (fun r => r.setCc v.1)

/-- FABS, FNEG, FMOV change only bits and raise nothing (03 R83). -/
def fpBits (f : Fmt) (minor lc : Nat) (t a b c : BitVec 5) (op : Nat → Nat) (s : State) : Out :=
  runCore lc { words := wordsA 0x27 minor t a b c, sp := c != 0 || b != 0 } s fun s =>
    .done (s.updArch lc (fun r => r.setF t (BitVec.ofNat 64 (op (f.ofReg (r.getF a))))))

/-- A conversion of the FCVT group; b and c are reserved. -/
def fcvt (minor lc : Nat) (t a b c : BitVec 5) (op : Arch → Nat × (Arch → Arch)) (s : State) : Out :=
  runCore lc { words := wordsA 0x28 minor t a b c, sp := b != 0 || c != 0 } s fun s =>
    let v := op (s.arch lc)
    s.fpEnd lc v.1 v.2

/-- MOVGF and MOVFG copy bits and raise nothing (03 R84); b and c are reserved. -/
def fpMove (minor lc : Nat) (t a b c : BitVec 5) (put : Arch → Arch) (s : State) : Out :=
  runCore lc { words := wordsA 0x28 minor t a b c, sp := b != 0 || c != 0 } s fun s => .done (s.updArch lc put)

/-- Fadd (R103, R108, R111): sum. -/
def execFadd (lc : Nat) (t a b c : BitVec 5) (s : State) : Out :=
  fpIns fmt64 0x01 lc t a b c (c != 0) (fun rm x y _ => fmt64.add rm (fmt64.unpack x) (fmt64.unpack y)) s

/-- Fsub (R103, R108, R111): difference. -/
def execFsub (lc : Nat) (t a b c : BitVec 5) (s : State) : Out :=
  fpIns fmt64 0x02 lc t a b c (c != 0) (fun rm x y _ => fmt64.add rm (fmt64.unpack x) (fmt64.unpack y).neg) s

/-- Fmul (R103, R108): product. -/
def execFmul (lc : Nat) (t a b c : BitVec 5) (s : State) : Out :=
  fpIns fmt64 0x03 lc t a b c (c != 0) (fun rm x y _ => fmt64.mul rm (fmt64.unpack x) (fmt64.unpack y)) s

/-- Fdiv (R103, R108): quotient. -/
def execFdiv (lc : Nat) (t a b c : BitVec 5) (s : State) : Out :=
  fpIns fmt64 0x04 lc t a b c (c != 0) (fun rm x y _ => fmt64.div rm (fmt64.unpack x) (fmt64.unpack y)) s

/-- Fsqrt (R103, R108): square root; b reserved. -/
def execFsqrt (lc : Nat) (t a b c : BitVec 5) (s : State) : Out :=
  fpIns fmt64 0x05 lc t a b c (c != 0 || b != 0) (fun rm x _ _ => fmt64.sqrt rm (fmt64.unpack x)) s

/-- Fma (R103, R109): a × b + c, one rounding. -/
def execFma (lc : Nat) (t a b c : BitVec 5) (s : State) : Out :=
  fpIns fmt64 0x06 lc t a b c false (fun rm x y z => fmt64.fma rm (fmt64.unpack x) (fmt64.unpack y) (fmt64.unpack z) false) s

/-- Fms (R103, R109): a × b − c. -/
def execFms (lc : Nat) (t a b c : BitVec 5) (s : State) : Out :=
  fpIns fmt64 0x07 lc t a b c false (fun rm x y z => fmt64.fma rm (fmt64.unpack x) (fmt64.unpack y) (fmt64.unpack z) true) s

/-- Fnma (R103, R109): −(a × b + c). -/
def execFnma (lc : Nat) (t a b c : BitVec 5) (s : State) : Out :=
  fpIns fmt64 0x08 lc t a b c false (fun rm x y z => fmt64.negRes (fmt64.fma rm (fmt64.unpack x) (fmt64.unpack y) (fmt64.unpack z) false)) s

/-- Fnms (R103, R109): −(a × b − c). -/
def execFnms (lc : Nat) (t a b c : BitVec 5) (s : State) : Out :=
  fpIns fmt64 0x09 lc t a b c false (fun rm x y z => fmt64.negRes (fmt64.fma rm (fmt64.unpack x) (fmt64.unpack y) (fmt64.unpack z) true)) s

/-- Fmin (R110): minimum. -/
def execFmin (lc : Nat) (t a b c : BitVec 5) (s : State) : Out :=
  fpIns fmt64 0x0a lc t a b c (c != 0) (fun _ x y _ => fmt64.minmax false x y) s

/-- Fmax (R110): maximum. -/
def execFmax (lc : Nat) (t a b c : BitVec 5) (s : State) : Out :=
  fpIns fmt64 0x0b lc t a b c (c != 0) (fun _ x y _ => fmt64.minmax true x y) s

/-- Fabs (R83): sign 0; b reserved. -/
def execFabs (lc : Nat) (t a b c : BitVec 5) (s : State) : Out :=
  fpBits fmt64 0x0c lc t a b c (fun x => x % fmt64.sign true) s

/-- Fneg (R83): sign inverted; b reserved. -/
def execFneg (lc : Nat) (t a b c : BitVec 5) (s : State) : Out :=
  fpBits fmt64 0x0d lc t a b c (fun x => (x + fmt64.sign true) % (2 * fmt64.sign true)) s

/-- Fmov (R83): t ← a; b reserved. -/
def execFmov (lc : Nat) (t a b c : BitVec 5) (s : State) : Out :=
  fpBits fmt64 0x0e lc t a b c (fun x => x) s

/-- Fcmp (R112): compare, invalid only for a signalling NaN; t reserved. -/
def execFcmp (lc : Nat) (t a b c : BitVec 5) (s : State) : Out :=
  fpCmp fmt64 0x0f lc t a b c false s

/-- Fcmps (R112): compare, invalid for any NaN; t reserved. -/
def execFcmps (lc : Nat) (t a b c : BitVec 5) (s : State) : Out :=
  fpCmp fmt64 0x10 lc t a b c true s

/-- Frint (R111): rounded to an integral value; b reserved. -/
def execFrint (lc : Nat) (t a b c : BitVec 5) (s : State) : Out :=
  fpIns fmt64 0x11 lc t a b c (c != 0 || b != 0) (fun rm x _ _ => fmt64.rint rm x) s

/-- Fadds (R103, R108, R111): sum. -/
def execFadds (lc : Nat) (t a b c : BitVec 5) (s : State) : Out :=
  fpIns fmt32 0x21 lc t a b c (c != 0) (fun rm x y _ => fmt32.add rm (fmt32.unpack x) (fmt32.unpack y)) s

/-- Fsubs (R103, R108, R111): difference. -/
def execFsubs (lc : Nat) (t a b c : BitVec 5) (s : State) : Out :=
  fpIns fmt32 0x22 lc t a b c (c != 0) (fun rm x y _ => fmt32.add rm (fmt32.unpack x) (fmt32.unpack y).neg) s

/-- Fmuls (R103, R108): product. -/
def execFmuls (lc : Nat) (t a b c : BitVec 5) (s : State) : Out :=
  fpIns fmt32 0x23 lc t a b c (c != 0) (fun rm x y _ => fmt32.mul rm (fmt32.unpack x) (fmt32.unpack y)) s

/-- Fdivs (R103, R108): quotient. -/
def execFdivs (lc : Nat) (t a b c : BitVec 5) (s : State) : Out :=
  fpIns fmt32 0x24 lc t a b c (c != 0) (fun rm x y _ => fmt32.div rm (fmt32.unpack x) (fmt32.unpack y)) s

/-- Fsqrts (R103, R108): square root; b reserved. -/
def execFsqrts (lc : Nat) (t a b c : BitVec 5) (s : State) : Out :=
  fpIns fmt32 0x25 lc t a b c (c != 0 || b != 0) (fun rm x _ _ => fmt32.sqrt rm (fmt32.unpack x)) s

/-- Fmas (R103, R109): a × b + c, one rounding. -/
def execFmas (lc : Nat) (t a b c : BitVec 5) (s : State) : Out :=
  fpIns fmt32 0x26 lc t a b c false (fun rm x y z => fmt32.fma rm (fmt32.unpack x) (fmt32.unpack y) (fmt32.unpack z) false) s

/-- Fmss (R103, R109): a × b − c. -/
def execFmss (lc : Nat) (t a b c : BitVec 5) (s : State) : Out :=
  fpIns fmt32 0x27 lc t a b c false (fun rm x y z => fmt32.fma rm (fmt32.unpack x) (fmt32.unpack y) (fmt32.unpack z) true) s

/-- Fnmas (R103, R109): −(a × b + c). -/
def execFnmas (lc : Nat) (t a b c : BitVec 5) (s : State) : Out :=
  fpIns fmt32 0x28 lc t a b c false (fun rm x y z => fmt32.negRes (fmt32.fma rm (fmt32.unpack x) (fmt32.unpack y) (fmt32.unpack z) false)) s

/-- Fnmss (R103, R109): −(a × b − c). -/
def execFnmss (lc : Nat) (t a b c : BitVec 5) (s : State) : Out :=
  fpIns fmt32 0x29 lc t a b c false (fun rm x y z => fmt32.negRes (fmt32.fma rm (fmt32.unpack x) (fmt32.unpack y) (fmt32.unpack z) true)) s

/-- Fmins (R110): minimum. -/
def execFmins (lc : Nat) (t a b c : BitVec 5) (s : State) : Out :=
  fpIns fmt32 0x2a lc t a b c (c != 0) (fun _ x y _ => fmt32.minmax false x y) s

/-- Fmaxs (R110): maximum. -/
def execFmaxs (lc : Nat) (t a b c : BitVec 5) (s : State) : Out :=
  fpIns fmt32 0x2b lc t a b c (c != 0) (fun _ x y _ => fmt32.minmax true x y) s

/-- Fabss (R83): sign 0; b reserved. -/
def execFabss (lc : Nat) (t a b c : BitVec 5) (s : State) : Out :=
  fpBits fmt32 0x2c lc t a b c (fun x => x % fmt32.sign true) s

/-- Fnegs (R83): sign inverted; b reserved. -/
def execFnegs (lc : Nat) (t a b c : BitVec 5) (s : State) : Out :=
  fpBits fmt32 0x2d lc t a b c (fun x => (x + fmt32.sign true) % (2 * fmt32.sign true)) s

/-- Fmovs (R83): t ← a; b reserved. -/
def execFmovs (lc : Nat) (t a b c : BitVec 5) (s : State) : Out :=
  fpBits fmt32 0x2e lc t a b c (fun x => x) s

/-- FcmpSingle (R112): compare, invalid only for a signalling NaN; t reserved. -/
def execFcmpSingle (lc : Nat) (t a b c : BitVec 5) (s : State) : Out :=
  fpCmp fmt32 0x2f lc t a b c false s

/-- Fcmpss (R112): compare, invalid for any NaN; t reserved. -/
def execFcmpss (lc : Nat) (t a b c : BitVec 5) (s : State) : Out :=
  fpCmp fmt32 0x30 lc t a b c true s

/-- Frints (R111): rounded to an integral value; b reserved. -/
def execFrints (lc : Nat) (t a b c : BitVec 5) (s : State) : Out :=
  fpIns fmt32 0x31 lc t a b c (c != 0 || b != 0) (fun rm x _ _ => fmt32.rint rm x) s

/-- Fcvtds (R84, R113): binary64 ← binary32. -/
def execFcvtds (lc : Nat) (t a b c : BitVec 5) (s : State) : Out :=
  fcvt 0x01 lc t a b c (fun r => let v := cvtDS (fmt32.unpack (fmt32.ofReg (r.getF a))); (v.2, fun r => r.setF t (BitVec.ofNat 64 v.1))) s

/-- Fcvtsd (R84, R113): binary32 ← binary64. -/
def execFcvtsd (lc : Nat) (t a b c : BitVec 5) (s : State) : Out :=
  fcvt 0x02 lc t a b c (fun r => let v := cvtSD r.fpRm (fmt64.unpack (fmt64.ofReg (r.getF a))); (v.2, fun r => r.setF t (BitVec.ofNat 64 v.1))) s

/-- Fcvtgd (R84, R113): binary64 ← signed integer. -/
def execFcvtgd (lc : Nat) (t a b c : BitVec 5) (s : State) : Out :=
  fcvt 0x03 lc t a b c (fun r => let v := fmt64.ofInteger r.fpRm (r.getG a).toInt; (v.2, fun r => r.setF t (BitVec.ofNat 64 v.1))) s

/-- Fcvtgud (R84, R113): binary64 ← unsigned integer. -/
def execFcvtgud (lc : Nat) (t a b c : BitVec 5) (s : State) : Out :=
  fcvt 0x04 lc t a b c (fun r => let v := fmt64.ofInteger r.fpRm (r.getG a).toNat; (v.2, fun r => r.setF t (BitVec.ofNat 64 v.1))) s

/-- Fcvtdg (R84, R113): signed integer ← binary64. -/
def execFcvtdg (lc : Nat) (t a b c : BitVec 5) (s : State) : Out :=
  fcvt 0x05 lc t a b c (fun r => let v := fmt64.toInteger r.fpRm true (fmt64.unpack (fmt64.ofReg (r.getF a))); (v.2, fun r => r.setG t v.1)) s

/-- Fcvtdgu (R84, R113): unsigned integer ← binary64. -/
def execFcvtdgu (lc : Nat) (t a b c : BitVec 5) (s : State) : Out :=
  fcvt 0x06 lc t a b c (fun r => let v := fmt64.toInteger r.fpRm false (fmt64.unpack (fmt64.ofReg (r.getF a))); (v.2, fun r => r.setG t v.1)) s

/-- Fcvtgs (R84, R113): binary32 ← signed integer. -/
def execFcvtgs (lc : Nat) (t a b c : BitVec 5) (s : State) : Out :=
  fcvt 0x07 lc t a b c (fun r => let v := fmt32.ofInteger r.fpRm (r.getG a).toInt; (v.2, fun r => r.setF t (BitVec.ofNat 64 v.1))) s

/-- Fcvtsg (R84, R113): signed integer ← binary32. -/
def execFcvtsg (lc : Nat) (t a b c : BitVec 5) (s : State) : Out :=
  fcvt 0x08 lc t a b c (fun r => let v := fmt32.toInteger r.fpRm true (fmt32.unpack (fmt32.ofReg (r.getF a))); (v.2, fun r => r.setG t v.1)) s

/-- Movgf (R84, R113): bits copied, G to F. -/
def execMovgf (lc : Nat) (t a b c : BitVec 5) (s : State) : Out :=
  fpMove 0x09 lc t a b c (fun r => r.setF t (r.getG a)) s

/-- Movfg (R84, R113): bits copied, F to G. -/
def execMovfg (lc : Nat) (t a b c : BitVec 5) (s : State) : Out :=
  fpMove 0x0a lc t a b c (fun r => r.setG t (r.getF a)) s

end Sys2Proof.Machine
end

