-- ==== Sys2Proof/Machine/Int.lean ====
section
/-! DEFINITION. Integer instructions (03 R77 to R79, R86; 04 R93 to R97). -/

namespace Sys2Proof.Machine

/-- What an integer operation gives: the result, the condition code where it sets one, and whether it overflowed. -/
structure Alu where
  val : W64
  cc : Option (BitVec 2)
  ovf : Bool

/-- A result with key A (04 R94). -/
def aluArith (w : Nat) (x : Int) : Alu := let r := arith w x; { val := r.1, cc := some r.2.1, ovf := r.2.2 }

/-- A result that leaves the condition code. -/
def aluPlain (v : W64) : Alu := { val := v, cc := none, ovf := false }

/-- A result with key L. -/
def aluLogic (v : W64) : Alu := { val := v, cc := some (ccLogic v), ovf := false }

/-- A result with key A that cannot overflow. -/
def aluSign (v : W64) : Alu := { val := v, cc := some (ccSign v.toInt), ovf := false }

/-- The low word, signed and unsigned (R93). -/
def lo32 (x : W64) : Int := (x.setWidth 32 : BitVec 32).toInt
def lo32u (x : W64) : Nat := x.toNat % 2 ^ 32

/-- Shifts by a whole 64-bit count (R97). -/
def shl (x : W64) (n : Nat) : W64 := if 64 ≤ n then 0 else x <<< n
def shr (x : W64) (n : Nat) : W64 := if 64 ≤ n then 0 else x >>> n
def sar (x : W64) (n : Nat) : W64 := x.sshiftRight (min n 63)
def rol (x : W64) (n : Nat) : W64 := x.rotateLeft (n % 64)

/-- SLA: the bits of SLL, overflow when the true product does not fit (R97). -/
def shla (x : W64) (n : Nat) : Alu :=
  if 64 ≤ n then { val := 0, cc := some (if x = 0 then 0 else 3), ovf := decide (x ≠ 0) } else aluArith 64 (x.toInt * 2 ^ n)

/-- Write the result and the condition code of an integer operation; a masked-in overflow completes with 0x0008 (R94). -/
def State.setAlu (s : State) (lc : Nat) (t : BitVec 5) (r : Alu) : IRes :=
  let a := (s.arch lc).setG t r.val
  let s' := s.updArch lc (fun _ => match r.cc with | some cc => a.setCc cc | none => a)
  if r.ovf && a.psw.fom then .doneExc s' 8 0 else .done s'

/-- Set only the condition code. -/
def State.setCond (s : State) (lc : Nat) (cc : BitVec 2) : IRes := .done (s.updArch lc (fun a => a.setCc cc))

/-- A register instruction of IREG, IBIT: `bad` tells of its reserved fields beside c. -/
def aluReg (op minor lc : Nat) (t a b c : BitVec 5) (bad : Bool) (f : W64 → W64 → Alu) (s : State) : Out :=
  runCore lc { words := wordsA op minor t a b c, sp := c != 0 || bad } s fun s =>
    s.setAlu lc t (f ((s.arch lc).getG a) ((s.arch lc).getG b))

/-- A divide: a zero divisor, or a quotient that does not fit, suppresses with 0x0009 (R96). -/
def divReg (minor lc : Nat) (t a b c : BitVec 5) (f : W64 → W64 → Option W64) (s : State) : Out :=
  runCore lc { words := wordsA 0 minor t a b c, sp := c != 0 } s fun s =>
    match f ((s.arch lc).getG a) ((s.arch lc).getG b) with
    | some v => s.setAlu lc t (aluPlain v)
    | none => .exc s 9

/-- A register compare; t is reserved. -/
def cmpReg (minor lc : Nat) (t a b c : BitVec 5) (f : W64 → W64 → BitVec 2) (s : State) : Out :=
  runCore lc { words := wordsA 0 minor t a b c, sp := c != 0 || t != 0 } s fun s =>
    s.setCond lc (f ((s.arch lc).getG a) ((s.arch lc).getG b))

/-- An immediate instruction (Table INS-7). -/
def aluImm (op lc : Nat) (t a : BitVec 5) (imm : BitVec 16) (bad : Bool) (f : W64 → Alu) (s : State) : Out :=
  runCore lc { words := wordsB op t a imm, sp := bad } s fun s => s.setAlu lc t (f ((s.arch lc).getG a))

/-- Reserved bits of a shift immediate, and its count (R78). -/
def shBad (imm : BitVec 16) : Bool := imm.extractLsb' 6 10 != 0
def shCount (imm : BitVec 16) : Nat := (imm.extractLsb' 0 6).toNat

/-- Signed quotient and remainder of width `w` (R96): truncated toward zero. -/
def divS (w : Nat) (x y : Int) : Option Int :=
  if y = 0 || (x = -(2 ^ (w - 1)) && y = -1) then none else some (x.tdiv y)
def remS (x y : Int) : Option Int := if y = 0 then none else some (x.tmod y)

/-- Count of leading zero bits, trailing zero bits, one bits. -/
def clzN (x : W64) : Nat := if x.toNat = 0 then 64 else 63 - x.toNat.log2
def ctzN (x : W64) : Nat := ((List.range 64).find? (fun i => x.getLsbD i)).getD 64
def popN (x : W64) : Nat := ((List.range 64).filter (fun i => x.getLsbD i)).length

/-- The low `n` bytes reversed. -/
def revBytes (n : Nat) (x : W64) : W64 :=
  BitVec.ofNat 64 (packBytes ((List.range n).map (fun i => BitVec.ofNat 8 (x.toNat / 256 ^ i))))

/-- Add (R94, Table INS-6): t ← a + b. -/
def execAdd (lc : Nat) (t a b c : BitVec 5) (s : State) : Out :=
  aluReg 0 0x01 lc t a b c false (fun x y => aluArith 64 (x.toInt + y.toInt)) s

/-- Addw (R93, Table INS-6): 32-bit sum. -/
def execAddw (lc : Nat) (t a b c : BitVec 5) (s : State) : Out :=
  aluReg 0 0x02 lc t a b c false (fun x y => aluArith 32 (lo32 x + lo32 y)) s

/-- Sub (R94, Table INS-6): t ← a − b. -/
def execSub (lc : Nat) (t a b c : BitVec 5) (s : State) : Out :=
  aluReg 0 0x03 lc t a b c false (fun x y => aluArith 64 (x.toInt - y.toInt)) s

/-- Subw (R93, Table INS-6): 32-bit difference. -/
def execSubw (lc : Nat) (t a b c : BitVec 5) (s : State) : Out :=
  aluReg 0 0x04 lc t a b c false (fun x y => aluArith 32 (lo32 x - lo32 y)) s

/-- Neg (R94, Table INS-6): t ← −a; b reserved. -/
def execNeg (lc : Nat) (t a b c : BitVec 5) (s : State) : Out :=
  aluReg 0 0x05 lc t a b c (b != 0) (fun x _ => aluArith 64 (-x.toInt)) s

/-- Negw (R93, Table INS-6): 32-bit negation; b reserved. -/
def execNegw (lc : Nat) (t a b c : BitVec 5) (s : State) : Out :=
  aluReg 0 0x06 lc t a b c (b != 0) (fun x _ => aluArith 32 (-lo32 x)) s

/-- Cmp (R77, Table INS-6): signed compare. -/
def execCmp (lc : Nat) (t a b c : BitVec 5) (s : State) : Out :=
  cmpReg 0x07 lc t a b c (fun x y => ccCmp x.toInt y.toInt) s

/-- Cmpu (R77, Table INS-6): unsigned compare. -/
def execCmpu (lc : Nat) (t a b c : BitVec 5) (s : State) : Out :=
  cmpReg 0x08 lc t a b c (fun x y => ccCmp x.toNat y.toNat) s

/-- Cmpw (R77, Table INS-6): signed 32-bit compare. -/
def execCmpw (lc : Nat) (t a b c : BitVec 5) (s : State) : Out :=
  cmpReg 0x09 lc t a b c (fun x y => ccCmp (lo32 x) (lo32 y)) s

/-- Cmpuw (R77, Table INS-6): unsigned 32-bit compare. -/
def execCmpuw (lc : Nat) (t a b c : BitVec 5) (s : State) : Out :=
  cmpReg 0x0A lc t a b c (fun x y => ccCmp (lo32u x) (lo32u y)) s

/-- And (R77, Table INS-6): logical product. -/
def execAnd (lc : Nat) (t a b c : BitVec 5) (s : State) : Out :=
  aluReg 0 0x0B lc t a b c false (fun x y => aluLogic (x &&& y)) s

/-- Or (R77, Table INS-6): logical sum. -/
def execOr (lc : Nat) (t a b c : BitVec 5) (s : State) : Out :=
  aluReg 0 0x0C lc t a b c false (fun x y => aluLogic (x ||| y)) s

/-- Xor (R77, Table INS-6): logical difference. -/
def execXor (lc : Nat) (t a b c : BitVec 5) (s : State) : Out :=
  aluReg 0 0x0D lc t a b c false (fun x y => aluLogic (x ^^^ y)) s

/-- Andn (R77, Table INS-6): a AND NOT b. -/
def execAndn (lc : Nat) (t a b c : BitVec 5) (s : State) : Out :=
  aluReg 0 0x0E lc t a b c false (fun x y => aluLogic (x &&& ~~~y)) s

/-- Orn (R77, Table INS-6): a OR NOT b. -/
def execOrn (lc : Nat) (t a b c : BitVec 5) (s : State) : Out :=
  aluReg 0 0x0F lc t a b c false (fun x y => aluLogic (x ||| ~~~y)) s

/-- Sll (R97): shift left logical. -/
def execSll (lc : Nat) (t a b c : BitVec 5) (s : State) : Out :=
  aluReg 0 0x10 lc t a b c false (fun x y => aluPlain (shl x y.toNat)) s

/-- Srl (R97): shift right logical. -/
def execSrl (lc : Nat) (t a b c : BitVec 5) (s : State) : Out :=
  aluReg 0 0x11 lc t a b c false (fun x y => aluPlain (shr x y.toNat)) s

/-- Sra (R97): shift right arithmetic. -/
def execSra (lc : Nat) (t a b c : BitVec 5) (s : State) : Out :=
  aluReg 0 0x12 lc t a b c false (fun x y => aluSign (sar x y.toNat)) s

/-- Sla (R97): shift left arithmetic. -/
def execSla (lc : Nat) (t a b c : BitVec 5) (s : State) : Out :=
  aluReg 0 0x13 lc t a b c false (fun x y => shla x y.toNat) s

/-- Rol (R97): rotate left. -/
def execRol (lc : Nat) (t a b c : BitVec 5) (s : State) : Out :=
  aluReg 0 0x14 lc t a b c false (fun x y => aluPlain (rol x y.toNat)) s

/-- Ror (R97): rotate right. -/
def execRor (lc : Nat) (t a b c : BitVec 5) (s : State) : Out :=
  aluReg 0 0x15 lc t a b c false (fun x y => aluPlain (rol x (64 - y.toNat % 64))) s

/-- Mul (R95): low 64 bits of the signed product. -/
def execMul (lc : Nat) (t a b c : BitVec 5) (s : State) : Out :=
  aluReg 0 0x16 lc t a b c false (fun x y => aluArith 64 (x.toInt * y.toInt)) s

/-- Mulw (R95): 32-bit product. -/
def execMulw (lc : Nat) (t a b c : BitVec 5) (s : State) : Out :=
  aluReg 0 0x17 lc t a b c false (fun x y => aluArith 32 (lo32 x * lo32 y)) s

/-- Mulh (R95): high 64 bits of the signed product. -/
def execMulh (lc : Nat) (t a b c : BitVec 5) (s : State) : Out :=
  aluReg 0 0x18 lc t a b c false (fun x y => aluPlain (BitVec.ofInt 64 (x.toInt * y.toInt / 2 ^ 64))) s

/-- Mulhu (R95): high 64 bits of the unsigned product. -/
def execMulhu (lc : Nat) (t a b c : BitVec 5) (s : State) : Out :=
  aluReg 0 0x19 lc t a b c false (fun x y => aluPlain (BitVec.ofNat 64 (x.toNat * y.toNat / 2 ^ 64))) s

/-- Div (R96): signed quotient. -/
def execDiv (lc : Nat) (t a b c : BitVec 5) (s : State) : Out :=
  divReg 0x1A lc t a b c (fun x y => (divS 64 x.toInt y.toInt).map (BitVec.ofInt 64)) s

/-- Divu (R96): unsigned quotient. -/
def execDivu (lc : Nat) (t a b c : BitVec 5) (s : State) : Out :=
  divReg 0x1B lc t a b c (fun x y => if y = 0 then none else some (x / y)) s

/-- Rem (R96): signed remainder. -/
def execRem (lc : Nat) (t a b c : BitVec 5) (s : State) : Out :=
  divReg 0x1C lc t a b c (fun x y => (remS x.toInt y.toInt).map (BitVec.ofInt 64)) s

/-- Remu (R96): unsigned remainder. -/
def execRemu (lc : Nat) (t a b c : BitVec 5) (s : State) : Out :=
  divReg 0x1D lc t a b c (fun x y => if y = 0 then none else some (x % y)) s

/-- Divw (R96): signed 32-bit quotient. -/
def execDivw (lc : Nat) (t a b c : BitVec 5) (s : State) : Out :=
  divReg 0x1E lc t a b c (fun x y => (divS 32 (lo32 x) (lo32 y)).map (BitVec.ofInt 64)) s

/-- Remw (R96): signed 32-bit remainder. -/
def execRemw (lc : Nat) (t a b c : BitVec 5) (s : State) : Out :=
  divReg 0x1F lc t a b c (fun x y => (remS (lo32 x) (lo32 y)).map (BitVec.ofInt 64)) s

/-- Mov (R77, Table INS-6): t ← a; b reserved. -/
def execMov (lc : Nat) (t a b c : BitVec 5) (s : State) : Out :=
  aluReg 0 0x20 lc t a b c (b != 0) (fun x _ => aluPlain x) s

/-- Addi (R78): t ← a + sext(imm16). -/
def execAddi (lc : Nat) (t a : BitVec 5) (imm : BitVec 16) (s : State) : Out :=
  aluImm 0x01 lc t a imm false (fun x => aluArith 64 (x.toInt + (sext imm).toInt)) s

/-- Addiw (R78, R93): 32-bit sum. -/
def execAddiw (lc : Nat) (t a : BitVec 5) (imm : BitVec 16) (s : State) : Out :=
  aluImm 0x02 lc t a imm false (fun x => aluArith 32 (lo32 x + lo32 (sext imm))) s

/-- Addis (R78): t ← a + (sext(imm16) shifted left 16). -/
def execAddis (lc : Nat) (t a : BitVec 5) (imm : BitVec 16) (s : State) : Out :=
  aluImm 0x03 lc t a imm false (fun x => aluArith 64 (x.toInt + (sext imm).toInt * 2 ^ 16)) s

/-- Muli (R78, R95): low 64 bits of a × sext(imm16). -/
def execMuli (lc : Nat) (t a : BitVec 5) (imm : BitVec 16) (s : State) : Out :=
  aluImm 0x04 lc t a imm false (fun x => aluArith 64 (x.toInt * (sext imm).toInt)) s

/-- Andi (R78): a AND zext(imm16). -/
def execAndi (lc : Nat) (t a : BitVec 5) (imm : BitVec 16) (s : State) : Out :=
  aluImm 0x05 lc t a imm false (fun x => aluLogic (x &&& zext imm)) s

/-- Ori (R78): a OR zext(imm16). -/
def execOri (lc : Nat) (t a : BitVec 5) (imm : BitVec 16) (s : State) : Out :=
  aluImm 0x06 lc t a imm false (fun x => aluLogic (x ||| zext imm)) s

/-- Xori (R78): a XOR zext(imm16). -/
def execXori (lc : Nat) (t a : BitVec 5) (imm : BitVec 16) (s : State) : Out :=
  aluImm 0x07 lc t a imm false (fun x => aluLogic (x ^^^ zext imm)) s

/-- Cmpi (R78): signed compare; t reserved. -/
def execCmpi (lc : Nat) (t a : BitVec 5) (imm : BitVec 16) (s : State) : Out :=
  runCore lc { words := wordsB 0x08 t a imm, sp := t != 0 } s fun s =>
    let x := (s.arch lc).getG a
    s.setCond lc (ccCmp x.toInt (sext imm).toInt)

/-- Cmpui (R78): unsigned compare; t reserved. -/
def execCmpui (lc : Nat) (t a : BitVec 5) (imm : BitVec 16) (s : State) : Out :=
  runCore lc { words := wordsB 0x09 t a imm, sp := t != 0 } s fun s =>
    let x := (s.arch lc).getG a
    s.setCond lc (ccCmp x.toNat (zext imm).toNat)

/-- Lui (R78): t ← sext(imm16) shifted left 16; a reserved. -/
def execLui (lc : Nat) (t a : BitVec 5) (imm : BitVec 16) (s : State) : Out :=
  aluImm 0x0A lc t a imm (a != 0) (fun _ => aluPlain (sext imm <<< 16)) s

/-- Slli (R78, R97): shift left logical. -/
def execSlli (lc : Nat) (t a : BitVec 5) (imm : BitVec 16) (s : State) : Out :=
  aluImm 0x0B lc t a imm (shBad imm) (fun x => aluPlain (shl x (shCount imm))) s

/-- Srli (R78, R97): shift right logical. -/
def execSrli (lc : Nat) (t a : BitVec 5) (imm : BitVec 16) (s : State) : Out :=
  aluImm 0x0C lc t a imm (shBad imm) (fun x => aluPlain (shr x (shCount imm))) s

/-- Srai (R78, R97): shift right arithmetic. -/
def execSrai (lc : Nat) (t a : BitVec 5) (imm : BitVec 16) (s : State) : Out :=
  aluImm 0x0D lc t a imm (shBad imm) (fun x => aluSign (sar x (shCount imm))) s

/-- Slai (R78, R97): shift left arithmetic. -/
def execSlai (lc : Nat) (t a : BitVec 5) (imm : BitVec 16) (s : State) : Out :=
  aluImm 0x0E lc t a imm (shBad imm) (fun x => shla x (shCount imm)) s

/-- Roli (R78, R97): rotate left. -/
def execRoli (lc : Nat) (t a : BitVec 5) (imm : BitVec 16) (s : State) : Out :=
  aluImm 0x0F lc t a imm (shBad imm) (fun x => aluPlain (rol x (shCount imm))) s

/-- Clz (R79, Table INS-8): count of leading zero bits. -/
def execClz (lc : Nat) (t a b c : BitVec 5) (s : State) : Out :=
  aluReg 0x25 0x01 lc t a b c (b != 0) (fun x _ => aluPlain (BitVec.ofNat 64 (clzN x))) s

/-- Ctz (R79, Table INS-8): count of trailing zero bits. -/
def execCtz (lc : Nat) (t a b c : BitVec 5) (s : State) : Out :=
  aluReg 0x25 0x02 lc t a b c (b != 0) (fun x _ => aluPlain (BitVec.ofNat 64 (ctzN x))) s

/-- Popc (R79, Table INS-8): count of one bits. -/
def execPopc (lc : Nat) (t a b c : BitVec 5) (s : State) : Out :=
  aluReg 0x25 0x03 lc t a b c (b != 0) (fun x _ => aluPlain (BitVec.ofNat 64 (popN x))) s

/-- Bswap (R79, Table INS-8): 8 bytes reversed. -/
def execBswap (lc : Nat) (t a b c : BitVec 5) (s : State) : Out :=
  aluReg 0x25 0x04 lc t a b c (b != 0) (fun x _ => aluPlain (revBytes 8 x)) s

/-- Bswapw (R79, Table INS-8): 4 low bytes reversed, zero-extended. -/
def execBswapw (lc : Nat) (t a b c : BitVec 5) (s : State) : Out :=
  aluReg 0x25 0x05 lc t a b c (b != 0) (fun x _ => aluPlain (revBytes 4 x)) s

/-- Sextb (R79, Table INS-8): sign extension of the low 8 bits. -/
def execSextb (lc : Nat) (t a b c : BitVec 5) (s : State) : Out :=
  aluReg 0x25 0x06 lc t a b c (b != 0) (fun x _ => aluPlain ((x.setWidth 8).signExtend 64)) s

/-- Sexth (R79, Table INS-8): sign extension of the low 16 bits. -/
def execSexth (lc : Nat) (t a b c : BitVec 5) (s : State) : Out :=
  aluReg 0x25 0x07 lc t a b c (b != 0) (fun x _ => aluPlain ((x.setWidth 16).signExtend 64)) s

/-- Sextw (R79, Table INS-8): sign extension of the low 32 bits. -/
def execSextw (lc : Nat) (t a b c : BitVec 5) (s : State) : Out :=
  aluReg 0x25 0x08 lc t a b c (b != 0) (fun x _ => aluPlain ((x.setWidth 32).signExtend 64)) s

/-- Zextb (R79, Table INS-8): zero extension of the low 8 bits. -/
def execZextb (lc : Nat) (t a b c : BitVec 5) (s : State) : Out :=
  aluReg 0x25 0x09 lc t a b c (b != 0) (fun x _ => aluPlain ((x.setWidth 8).setWidth 64)) s

/-- Zexth (R79, Table INS-8): zero extension of the low 16 bits. -/
def execZexth (lc : Nat) (t a b c : BitVec 5) (s : State) : Out :=
  aluReg 0x25 0x0A lc t a b c (b != 0) (fun x _ => aluPlain ((x.setWidth 16).setWidth 64)) s

/-- Zextw (R79, Table INS-8): zero extension of the low 32 bits. -/
def execZextw (lc : Nat) (t a b c : BitVec 5) (s : State) : Out :=
  aluReg 0x25 0x0B lc t a b c (b != 0) (fun x _ => aluPlain ((x.setWidth 32).setWidth 64)) s

/-- Sel (R79, Table INS-8): t ← a if bit CC of c[3:0] is 1, otherwise b; c[4] reserved. -/
def execSel (lc : Nat) (t a b c : BitVec 5) (s : State) : Out :=
  runCore lc { words := wordsA 0x26 0x01 t a b c, sp := c.getLsbD 4 } s fun s =>
    let r := s.arch lc
    s.setAlu lc t (aluPlain (if c.getLsbD r.psw.cc.toNat then r.getG a else r.getG b))

/-- Liw (R86, Table INS-14): t ← sext(imm32); a reserved. -/
def execLiw (lc : Nat) (t a : BitVec 5) (rsv : BitVec 11) (imm : BitVec 32) (s : State) : Out :=
  runCore lc { ilc := 8, words := wordsLI 0x2F 0x01 t a rsv imm, sp := rsv != 0 || a != 0 } s fun s =>
    s.setAlu lc t (aluPlain (imm.signExtend 64))

/-- Liwu (R86, Table INS-14): t ← zext(imm32); a reserved. -/
def execLiwu (lc : Nat) (t a : BitVec 5) (rsv : BitVec 11) (imm : BitVec 32) (s : State) : Out :=
  runCore lc { ilc := 8, words := wordsLI 0x2F 0x02 t a rsv imm, sp := rsv != 0 || a != 0 } s fun s =>
    s.setAlu lc t (aluPlain (imm.setWidth 64))

/-- Lih (R86, Table INS-14): t[63:32] ← imm32, t[31:0] ← a[31:0]. -/
def execLih (lc : Nat) (t a : BitVec 5) (rsv : BitVec 11) (imm : BitVec 32) (s : State) : Out :=
  runCore lc { ilc := 8, words := wordsLI 0x2F 0x03 t a rsv imm, sp := rsv != 0 || false } s fun s =>
    let x := (s.arch lc).getG a
    s.setAlu lc t (aluPlain (imm ++ (x.setWidth 32 : BitVec 32)))

/-- Addli (R86, Table INS-14): t ← a + sext(imm32). -/
def execAddli (lc : Nat) (t a : BitVec 5) (rsv : BitVec 11) (imm : BitVec 32) (s : State) : Out :=
  runCore lc { ilc := 8, words := wordsLI 0x2F 0x04 t a rsv imm, sp := rsv != 0 || false } s fun s =>
    let x := (s.arch lc).getG a
    s.setAlu lc t (aluArith 64 (x.toInt + imm.toInt))

end Sys2Proof.Machine
end

