-- ==== Sys2Proof/Machine/Dispatch.lean ====
section
/-! DEFINITION. One arm for each command: its meaning. -/

namespace Sys2Proof.Machine

def exec (i : Instr) (s : State) : Host.Outcome State Fault Refusal :=
  match i with
  | .add lc t a b c => Sys2Proof.Machine.execAdd lc t a b c s
  | .addw lc t a b c => Sys2Proof.Machine.execAddw lc t a b c s
  | .sub lc t a b c => Sys2Proof.Machine.execSub lc t a b c s
  | .subw lc t a b c => Sys2Proof.Machine.execSubw lc t a b c s
  | .neg lc t a b c => Sys2Proof.Machine.execNeg lc t a b c s
  | .negw lc t a b c => Sys2Proof.Machine.execNegw lc t a b c s
  | .cmp lc t a b c => Sys2Proof.Machine.execCmp lc t a b c s
  | .cmpu lc t a b c => Sys2Proof.Machine.execCmpu lc t a b c s
  | .cmpw lc t a b c => Sys2Proof.Machine.execCmpw lc t a b c s
  | .cmpuw lc t a b c => Sys2Proof.Machine.execCmpuw lc t a b c s
  | .and lc t a b c => Sys2Proof.Machine.execAnd lc t a b c s
  | .or lc t a b c => Sys2Proof.Machine.execOr lc t a b c s
  | .xor lc t a b c => Sys2Proof.Machine.execXor lc t a b c s
  | .andn lc t a b c => Sys2Proof.Machine.execAndn lc t a b c s
  | .orn lc t a b c => Sys2Proof.Machine.execOrn lc t a b c s
  | .sll lc t a b c => Sys2Proof.Machine.execSll lc t a b c s
  | .srl lc t a b c => Sys2Proof.Machine.execSrl lc t a b c s
  | .sra lc t a b c => Sys2Proof.Machine.execSra lc t a b c s
  | .sla lc t a b c => Sys2Proof.Machine.execSla lc t a b c s
  | .rol lc t a b c => Sys2Proof.Machine.execRol lc t a b c s
  | .ror lc t a b c => Sys2Proof.Machine.execRor lc t a b c s
  | .mul lc t a b c => Sys2Proof.Machine.execMul lc t a b c s
  | .mulw lc t a b c => Sys2Proof.Machine.execMulw lc t a b c s
  | .mulh lc t a b c => Sys2Proof.Machine.execMulh lc t a b c s
  | .mulhu lc t a b c => Sys2Proof.Machine.execMulhu lc t a b c s
  | .div lc t a b c => Sys2Proof.Machine.execDiv lc t a b c s
  | .divu lc t a b c => Sys2Proof.Machine.execDivu lc t a b c s
  | .rem lc t a b c => Sys2Proof.Machine.execRem lc t a b c s
  | .remu lc t a b c => Sys2Proof.Machine.execRemu lc t a b c s
  | .divw lc t a b c => Sys2Proof.Machine.execDivw lc t a b c s
  | .remw lc t a b c => Sys2Proof.Machine.execRemw lc t a b c s
  | .mov lc t a b c => Sys2Proof.Machine.execMov lc t a b c s
  | .addi lc t a imm => Sys2Proof.Machine.execAddi lc t a imm s
  | .addiw lc t a imm => Sys2Proof.Machine.execAddiw lc t a imm s
  | .addis lc t a imm => Sys2Proof.Machine.execAddis lc t a imm s
  | .muli lc t a imm => Sys2Proof.Machine.execMuli lc t a imm s
  | .andi lc t a imm => Sys2Proof.Machine.execAndi lc t a imm s
  | .ori lc t a imm => Sys2Proof.Machine.execOri lc t a imm s
  | .xori lc t a imm => Sys2Proof.Machine.execXori lc t a imm s
  | .cmpi lc t a imm => Sys2Proof.Machine.execCmpi lc t a imm s
  | .cmpui lc t a imm => Sys2Proof.Machine.execCmpui lc t a imm s
  | .lui lc t a imm => Sys2Proof.Machine.execLui lc t a imm s
  | .slli lc t a imm => Sys2Proof.Machine.execSlli lc t a imm s
  | .srli lc t a imm => Sys2Proof.Machine.execSrli lc t a imm s
  | .srai lc t a imm => Sys2Proof.Machine.execSrai lc t a imm s
  | .slai lc t a imm => Sys2Proof.Machine.execSlai lc t a imm s
  | .roli lc t a imm => Sys2Proof.Machine.execRoli lc t a imm s
  | .clz lc t a b c => Sys2Proof.Machine.execClz lc t a b c s
  | .ctz lc t a b c => Sys2Proof.Machine.execCtz lc t a b c s
  | .popc lc t a b c => Sys2Proof.Machine.execPopc lc t a b c s
  | .bswap lc t a b c => Sys2Proof.Machine.execBswap lc t a b c s
  | .bswapw lc t a b c => Sys2Proof.Machine.execBswapw lc t a b c s
  | .sextb lc t a b c => Sys2Proof.Machine.execSextb lc t a b c s
  | .sexth lc t a b c => Sys2Proof.Machine.execSexth lc t a b c s
  | .sextw lc t a b c => Sys2Proof.Machine.execSextw lc t a b c s
  | .zextb lc t a b c => Sys2Proof.Machine.execZextb lc t a b c s
  | .zexth lc t a b c => Sys2Proof.Machine.execZexth lc t a b c s
  | .zextw lc t a b c => Sys2Proof.Machine.execZextw lc t a b c s
  | .sel lc t a b c => Sys2Proof.Machine.execSel lc t a b c s
  | .ld lc t a imm => Sys2Proof.Machine.execLd lc t a imm s
  | .lw lc t a imm => Sys2Proof.Machine.execLw lc t a imm s
  | .lws lc t a imm => Sys2Proof.Machine.execLws lc t a imm s
  | .lh lc t a imm => Sys2Proof.Machine.execLh lc t a imm s
  | .lhs lc t a imm => Sys2Proof.Machine.execLhs lc t a imm s
  | .lb lc t a imm => Sys2Proof.Machine.execLb lc t a imm s
  | .lbs lc t a imm => Sys2Proof.Machine.execLbs lc t a imm s
  | .ldp lc t a imm => Sys2Proof.Machine.execLdp lc t a imm s
  | .std lc t a imm => Sys2Proof.Machine.execStd lc t a imm s
  | .stw lc t a imm => Sys2Proof.Machine.execStw lc t a imm s
  | .sth lc t a imm => Sys2Proof.Machine.execSth lc t a imm s
  | .stb lc t a imm => Sys2Proof.Machine.execStb lc t a imm s
  | .stp lc t a imm => Sys2Proof.Machine.execStp lc t a imm s
  | .lea lc t a imm => Sys2Proof.Machine.execLea lc t a imm s
  | .pref lc t a imm => Sys2Proof.Machine.execPref lc t a imm s
  | .ldf lc t a imm => Sys2Proof.Machine.execLdf lc t a imm s
  | .lfs lc t a imm => Sys2Proof.Machine.execLfs lc t a imm s
  | .stf lc t a imm => Sys2Proof.Machine.execStf lc t a imm s
  | .stfs lc t a imm => Sys2Proof.Machine.execStfs lc t a imm s
  | .ldx lc t a b c => Sys2Proof.Machine.execLdx lc t a b c s
  | .lwx lc t a b c => Sys2Proof.Machine.execLwx lc t a b c s
  | .lwsx lc t a b c => Sys2Proof.Machine.execLwsx lc t a b c s
  | .lhx lc t a b c => Sys2Proof.Machine.execLhx lc t a b c s
  | .lhsx lc t a b c => Sys2Proof.Machine.execLhsx lc t a b c s
  | .lbx lc t a b c => Sys2Proof.Machine.execLbx lc t a b c s
  | .lbsx lc t a b c => Sys2Proof.Machine.execLbsx lc t a b c s
  | .stdx lc t a b c => Sys2Proof.Machine.execStdx lc t a b c s
  | .stwx lc t a b c => Sys2Proof.Machine.execStwx lc t a b c s
  | .sthx lc t a b c => Sys2Proof.Machine.execSthx lc t a b c s
  | .stbx lc t a b c => Sys2Proof.Machine.execStbx lc t a b c s
  | .ldfx lc t a b c => Sys2Proof.Machine.execLdfx lc t a b c s
  | .lfsx lc t a b c => Sys2Proof.Machine.execLfsx lc t a b c s
  | .stfx lc t a b c => Sys2Proof.Machine.execStfx lc t a b c s
  | .stfsx lc t a b c => Sys2Proof.Machine.execStfsx lc t a b c s
  | .ldadd lc t a b c => Sys2Proof.Machine.execLdadd lc t a b c s
  | .swp lc t a b c => Sys2Proof.Machine.execSwp lc t a b c s
  | .cas lc t a b c => Sys2Proof.Machine.execCas lc t a b c s
  | .cas128 lc t a b c => Sys2Proof.Machine.execCas128 lc t a b c s
  | .ldmin lc t a b c => Sys2Proof.Machine.execLdmin lc t a b c s
  | .ldmax lc t a b c => Sys2Proof.Machine.execLdmax lc t a b c s
  | .ldminu lc t a b c => Sys2Proof.Machine.execLdminu lc t a b c s
  | .ldmaxu lc t a b c => Sys2Proof.Machine.execLdmaxu lc t a b c s
  | .ldand lc t a b c => Sys2Proof.Machine.execLdand lc t a b c s
  | .ldor lc t a b c => Sys2Proof.Machine.execLdor lc t a b c s
  | .ldxor lc t a b c => Sys2Proof.Machine.execLdxor lc t a b c s
  | .fadd lc t a b c => Sys2Proof.Machine.execFadd lc t a b c s
  | .fsub lc t a b c => Sys2Proof.Machine.execFsub lc t a b c s
  | .fmul lc t a b c => Sys2Proof.Machine.execFmul lc t a b c s
  | .fdiv lc t a b c => Sys2Proof.Machine.execFdiv lc t a b c s
  | .fsqrt lc t a b c => Sys2Proof.Machine.execFsqrt lc t a b c s
  | .fma lc t a b c => Sys2Proof.Machine.execFma lc t a b c s
  | .fms lc t a b c => Sys2Proof.Machine.execFms lc t a b c s
  | .fnma lc t a b c => Sys2Proof.Machine.execFnma lc t a b c s
  | .fnms lc t a b c => Sys2Proof.Machine.execFnms lc t a b c s
  | .fmin lc t a b c => Sys2Proof.Machine.execFmin lc t a b c s
  | .fmax lc t a b c => Sys2Proof.Machine.execFmax lc t a b c s
  | .fabs lc t a b c => Sys2Proof.Machine.execFabs lc t a b c s
  | .fneg lc t a b c => Sys2Proof.Machine.execFneg lc t a b c s
  | .fmov lc t a b c => Sys2Proof.Machine.execFmov lc t a b c s
  | .fcmp lc t a b c => Sys2Proof.Machine.execFcmp lc t a b c s
  | .fcmps lc t a b c => Sys2Proof.Machine.execFcmps lc t a b c s
  | .frint lc t a b c => Sys2Proof.Machine.execFrint lc t a b c s
  | .fadds lc t a b c => Sys2Proof.Machine.execFadds lc t a b c s
  | .fsubs lc t a b c => Sys2Proof.Machine.execFsubs lc t a b c s
  | .fmuls lc t a b c => Sys2Proof.Machine.execFmuls lc t a b c s
  | .fdivs lc t a b c => Sys2Proof.Machine.execFdivs lc t a b c s
  | .fsqrts lc t a b c => Sys2Proof.Machine.execFsqrts lc t a b c s
  | .fmas lc t a b c => Sys2Proof.Machine.execFmas lc t a b c s
  | .fmss lc t a b c => Sys2Proof.Machine.execFmss lc t a b c s
  | .fnmas lc t a b c => Sys2Proof.Machine.execFnmas lc t a b c s
  | .fnmss lc t a b c => Sys2Proof.Machine.execFnmss lc t a b c s
  | .fmins lc t a b c => Sys2Proof.Machine.execFmins lc t a b c s
  | .fmaxs lc t a b c => Sys2Proof.Machine.execFmaxs lc t a b c s
  | .fabss lc t a b c => Sys2Proof.Machine.execFabss lc t a b c s
  | .fnegs lc t a b c => Sys2Proof.Machine.execFnegs lc t a b c s
  | .fmovs lc t a b c => Sys2Proof.Machine.execFmovs lc t a b c s
  | .fcmpSingle lc t a b c => Sys2Proof.Machine.execFcmpSingle lc t a b c s
  | .fcmpss lc t a b c => Sys2Proof.Machine.execFcmpss lc t a b c s
  | .frints lc t a b c => Sys2Proof.Machine.execFrints lc t a b c s
  | .fcvtds lc t a b c => Sys2Proof.Machine.execFcvtds lc t a b c s
  | .fcvtsd lc t a b c => Sys2Proof.Machine.execFcvtsd lc t a b c s
  | .fcvtgd lc t a b c => Sys2Proof.Machine.execFcvtgd lc t a b c s
  | .fcvtgud lc t a b c => Sys2Proof.Machine.execFcvtgud lc t a b c s
  | .fcvtdg lc t a b c => Sys2Proof.Machine.execFcvtdg lc t a b c s
  | .fcvtdgu lc t a b c => Sys2Proof.Machine.execFcvtdgu lc t a b c s
  | .fcvtgs lc t a b c => Sys2Proof.Machine.execFcvtgs lc t a b c s
  | .fcvtsg lc t a b c => Sys2Proof.Machine.execFcvtsg lc t a b c s
  | .movgf lc t a b c => Sys2Proof.Machine.execMovgf lc t a b c s
  | .movfg lc t a b c => Sys2Proof.Machine.execMovfg lc t a b c s
  | .b lc off => Sys2Proof.Machine.execB lc off s
  | .bal lc off => Sys2Proof.Machine.execBal lc off s
  | .callw lc off => Sys2Proof.Machine.execCallw lc off s
  | .bc lc t a imm => Sys2Proof.Machine.execBc lc t a imm s
  | .bct lc t a imm => Sys2Proof.Machine.execBct lc t a imm s
  | .br lc t a b c => Sys2Proof.Machine.execBr lc t a b c s
  | .balr lc t a b c => Sys2Proof.Machine.execBalr lc t a b c s
  | .bcr lc t a b c => Sys2Proof.Machine.execBcr lc t a b c s
  | .retw lc t a b c => Sys2Proof.Machine.execRetw lc t a b c s
  | .liw lc t a rsv imm => Sys2Proof.Machine.execLiw lc t a rsv imm s
  | .liwu lc t a rsv imm => Sys2Proof.Machine.execLiwu lc t a rsv imm s
  | .lih lc t a rsv imm => Sys2Proof.Machine.execLih lc t a rsv imm s
  | .addli lc t a rsv imm => Sys2Proof.Machine.execAddli lc t a rsv imm s
  | .lpsw lc t a sys => Sys2Proof.Machine.execLpsw lc t a sys s
  | .setb lc t a sys => Sys2Proof.Machine.execSetb lc t a sys s
  | .mfsr lc t a sys => Sys2Proof.Machine.execMfsr lc t a sys s
  | .mtsr lc t a sys => Sys2Proof.Machine.execMtsr lc t a sys s
  | .readf lc t a sys => Sys2Proof.Machine.execReadf lc t a sys s
  | .movfb lc t a sys => Sys2Proof.Machine.execMovfb lc t a sys s
  | .movtb lc t a sys => Sys2Proof.Machine.execMovtb lc t a sys s
  | .scall lc t a sys => Sys2Proof.Machine.execScall lc t a sys s
  | .epsw lc t a sys => Sys2Proof.Machine.execEpsw lc t a sys s
  | .sync lc t a sys => Sys2Proof.Machine.execSync lc t a sys s
  | .isync lc t a sys => Sys2Proof.Machine.execIsync lc t a sys s
  | .cleana lc t a sys => Sys2Proof.Machine.execCleana lc t a sys s
  | .invala lc t a sys => Sys2Proof.Machine.execInvala lc t a sys s
  | .clinva lc t a sys => Sys2Proof.Machine.execClinva lc t a sys s
  | .cleanr lc t a sys => Sys2Proof.Machine.execCleanr lc t a sys s
  | .invalr lc t a sys => Sys2Proof.Machine.execInvalr lc t a sys s
  | .clinvr lc t a sys => Sys2Proof.Machine.execClinvr lc t a sys s
  | .cleans lc t a sys => Sys2Proof.Machine.execCleans lc t a sys s
  | .invals lc t a sys => Sys2Proof.Machine.execInvals lc t a sys s
  | .clinvs lc t a sys => Sys2Proof.Machine.execClinvs lc t a sys s
  | .tlbiv lc t a sys => Sys2Proof.Machine.execTlbiv lc t a sys s
  | .tlbia lc t a sys => Sys2Proof.Machine.execTlbia lc t a sys s
  | .tlbip lc t a sys => Sys2Proof.Machine.execTlbip lc t a sys s
  | .tlbiall lc t a sys => Sys2Proof.Machine.execTlbiall lc t a sys s
  | .loadc lc t a sys => Sys2Proof.Machine.execLoadc lc t a sys s
  | .storec lc t a sys => Sys2Proof.Machine.execStorec lc t a sys s
  | .ssch lc t a sys => Sys2Proof.Machine.execSsch lc t a sys s
  | .tsch lc t a sys => Sys2Proof.Machine.execTsch lc t a sys s
  | .sttb lc t a sys => Sys2Proof.Machine.execSttb lc t a sys s
  | .settc lc t a sys => Sys2Proof.Machine.execSettc lc t a sys s
  | .sttc lc t a sys => Sys2Proof.Machine.execSttc lc t a sys s
  | .sigc lc t a sys => Sys2Proof.Machine.execSigc lc t a sys s
  | .rstc lc t a sys => Sys2Proof.Machine.execRstc lc t a sys s
  | .movl lc t a b c => Sys2Proof.Machine.execMovl lc t a b c s
  | .cmpl lc t a b c => Sys2Proof.Machine.execCmpl lc t a b c s
  | .trtl lc t a b c => Sys2Proof.Machine.execTrtl lc t a b c s
  | .cksm lc t a b c => Sys2Proof.Machine.execCksm lc t a b c s
  | .cksm16 lc t a b c => Sys2Proof.Machine.execCksm16 lc t a b c s
  | .cmprs lc t a b c => Sys2Proof.Machine.execCmprs lc t a b c s
  | .xpand lc t a b c => Sys2Proof.Machine.execXpand lc t a b c s
  | .ciph lc t a b c => Sys2Proof.Machine.execCiph lc t a b c s
  | .engineUnitCompletion lc u => Sys2Proof.Machine.execEngineUnitCompletion lc u s
  | .addp lc b1 b2 l1 l2 d1 d2 => Sys2Proof.Machine.execAddp lc b1 b2 l1 l2 d1 d2 s
  | .subp lc b1 b2 l1 l2 d1 d2 => Sys2Proof.Machine.execSubp lc b1 b2 l1 l2 d1 d2 s
  | .mulp lc b1 b2 l1 l2 d1 d2 => Sys2Proof.Machine.execMulp lc b1 b2 l1 l2 d1 d2 s
  | .divp lc b1 b2 l1 l2 d1 d2 => Sys2Proof.Machine.execDivp lc b1 b2 l1 l2 d1 d2 s
  | .cmpp lc b1 b2 l1 l2 d1 d2 => Sys2Proof.Machine.execCmpp lc b1 b2 l1 l2 d1 d2 s
  | .cvdb lc t a imm => Sys2Proof.Machine.execCvdb lc t a imm s
  | .cvbd lc t a imm => Sys2Proof.Machine.execCvbd lc t a imm s
  | .nop lc num opnd => Sys2Proof.Machine.execNop lc num opnd s
  | .pause lc opnd => Sys2Proof.Machine.execPause lc opnd s
  | .undefinedOpcode lc w0 => Sys2Proof.Machine.execUndefinedOpcode lc w0 s
  | .interruptionEntry lc => Sys2Proof.Machine.execInterruptionEntry lc s
  | .restartInterruption lc => Sys2Proof.Machine.execRestartInterruption lc s
  | .spillFrame lc => Sys2Proof.Machine.execSpillFrame lc s
  | .fillFrame lc => Sys2Proof.Machine.execFillFrame lc s
  | .timeBaseComparator lc => Sys2Proof.Machine.execTimeBaseComparator lc s
  | .pmcOverflow lc n => Sys2Proof.Machine.execPmcOverflow lc n s
  | .checkpointComparison lc r => Sys2Proof.Machine.execCheckpointComparison lc r s
  | .retryTimeLimit lc => Sys2Proof.Machine.execRetryTimeLimit lc s
  | .delayRegisterParity p => Sys2Proof.Machine.execDelayRegisterParity p s
  | .storeBufferDrain lc => Sys2Proof.Machine.execStoreBufferDrain lc s
  | .selfCheckSlot pc detected => Sys2Proof.Machine.execSelfCheckSlot pc detected s
  | .sparingMove lc bad ckptBad => Sys2Proof.Machine.execSparingMove lc bad ckptBad s
  | .tanSpreq src v => Sys2Proof.Machine.execTanSpreq src v s
  | .tanCkdataRead q => Sys2Proof.Machine.execTanCkdataRead q s
  | .tanModeWrite src k v => Sys2Proof.Machine.execTanModeWrite src k v s
  | .cacheFill array line pid ecc => Sys2Proof.Machine.execCacheFill array line pid ecc s
  | .rangeEngineLine g => Sys2Proof.Machine.execRangeEngineLine g s
  | .lockEntryEnable src n v => Sys2Proof.Machine.execLockEntryEnable src n v s
  | .lockReady n => Sys2Proof.Machine.execLockReady n s
  | .cacWaypwrWrite src v => Sys2Proof.Machine.execCacWaypwrWrite src v s
  | .wayGroupTransitionEnd sl g => Sys2Proof.Machine.execWayGroupTransitionEnd sl g s
  | .l3WaySparing sl way => Sys2Proof.Machine.execL3WaySparing sl way s
  | .directoryWaySparing way => Sys2Proof.Machine.execDirectoryWaySparing way s
  | .rds q => Sys2Proof.Machine.execRds q s
  | .rdo q => Sys2Proof.Machine.execRdo q s
  | .upg q => Sys2Proof.Machine.execUpg q s
  | .rdsnap q => Sys2Proof.Machine.execRdsnap q s
  | .wrpl q place first last data => Sys2Proof.Machine.execWrpl q place first last data s
  | .atom q off op far op1 op2 => Sys2Proof.Machine.execAtom q off op far op1 op2 s
  | .cmo q kind => Sys2Proof.Machine.execCmo q kind s
  | .wb src h w data poison => Sys2Proof.Machine.execWb src h w data poison s
  | .fwds home h ftgt rtag => Sys2Proof.Machine.execFwds home h ftgt rtag s
  | .fwdo home h ftgt rtag => Sys2Proof.Machine.execFwdo home h ftgt rtag s
  | .fwdsnap home h ftgt rtag => Sys2Proof.Machine.execFwdsnap home h ftgt rtag s
  | .inv home h => Sys2Proof.Machine.execInv home h s
  | .binv home h => Sys2Proof.Machine.execBinv home h s
  | .cln home h => Sys2Proof.Machine.execCln home h s
  | .dataS src line d => Sys2Proof.Machine.execDataS src line d s
  | .dataE src line d => Sys2Proof.Machine.execDataE src line d s
  | .dataM src line h d => Sys2Proof.Machine.execDataM src line h d s
  | .dataSn src line d => Sys2Proof.Machine.execDataSn src line d s
  | .gnt src line pid rights => Sys2Proof.Machine.execGnt src line pid rights s
  | .invack src line => Sys2Proof.Machine.execInvack src line s
  | .fwdack src h wbp dirty data => Sys2Proof.Machine.execFwdack src h wbp dirty data s
  | .nocopy src line => Sys2Proof.Machine.execNocopy src line s
  | .wback line => Sys2Proof.Machine.execWback line s
  | .atomrsp lc line old cc d => Sys2Proof.Machine.execAtomrsp lc line old cc d s
  | .cmpMessage line => Sys2Proof.Machine.execCmpMessage line s
  | .nack src line reason => Sys2Proof.Machine.execNack src line reason s
  | .unblk src line => Sys2Proof.Machine.execUnblk src line s
  | .invite home => Sys2Proof.Machine.execInvite home s
  | .requestResend line => Sys2Proof.Machine.execRequestResend line s
  | .requestTimeout line => Sys2Proof.Machine.execRequestTimeout line s
  | .snoopTimeout line cx => Sys2Proof.Machine.execSnoopTimeout line cx s
  | .inviteTimeout => Sys2Proof.Machine.execInviteTimeout s
  | .packetTransit port hdr data => Sys2Proof.Machine.execPacketTransit port hdr data s
  | .lsn ev => Sys2Proof.Machine.execLsn ev s
  | .fnote src spec => Sys2Proof.Machine.execFnote src spec s
  | .tsreq src t1 => Sys2Proof.Machine.execTsreq src t1 s
  | .tsrsp src t1 t2 t3 t4 => Sys2Proof.Machine.execTsrsp src t1 t2 t3 t4 s
  | .disc port nbr nport digest glt => Sys2Proof.Machine.execDisc port nbr nport digest glt s
  | .sig src rlc lc pid restart => Sys2Proof.Machine.execSig src rlc lc pid restart s
  | .sigrsp lc cc => Sys2Proof.Machine.execSigrsp lc cc s
  | .tlbi src rlc kind pid va => Sys2Proof.Machine.execTlbi src rlc kind pid va s
  | .tlbiack src lc => Sys2Proof.Machine.execTlbiack src lc s
  | .load offset bytes last => Sys2Proof.Machine.execLoad offset bytes last s
  | .felardAck port flit => Sys2Proof.Machine.execFelardAck port flit s
  | .felardNak port flit => Sys2Proof.Machine.execFelardNak port flit s
  | .felardFence port flit => Sys2Proof.Machine.execFelardFence port flit s
  | .felardPause port flit => Sys2Proof.Machine.execFelardPause port flit s
  | .linkRetrain port ok => Sys2Proof.Machine.execLinkRetrain port ok s
  | .felardLaneSparing port lane => Sys2Proof.Machine.execFelardLaneSparing port lane s
  | .discoveryComplete buddyNames => Sys2Proof.Machine.execDiscoveryComplete buddyNames s
  | .timeSyncInterval => Sys2Proof.Machine.execTimeSyncInterval s
  | .timeHoldover => Sys2Proof.Machine.execTimeHoldover s
  | .fabTbset src v => Sys2Proof.Machine.execFabTbset src v s
  | .patrolScrub mc res => Sys2Proof.Machine.execPatrolScrub mc res s
  | .deviceSparingCopy mc dimm rank dev phase => Sys2Proof.Machine.execDeviceSparingCopy mc dimm rank dev phase s
  | .rankPowerDown mc rank => Sys2Proof.Machine.execRankPowerDown mc rank s
  | .regionRegisterWrite src m n dw v => Sys2Proof.Machine.execRegionRegisterWrite src m n dw v s
  | .regionBroadcastWrite src n dw v => Sys2Proof.Machine.execRegionBroadcastWrite src n dw v s
  | .subchannelReload src sch => Sys2Proof.Machine.execSubchannelReload src sch s
  | .subchannelTerminate src sch => Sys2Proof.Machine.execSubchannelTerminate src sch s
  | .subchannelInvalidate src sch => Sys2Proof.Machine.execSubchannelInvalidate src sch s
  | .jwr src entry => Sys2Proof.Machine.execJwr src entry s
  | .jack exid step => Sys2Proof.Machine.execJack exid step s
  | .jdef src sch d => Sys2Proof.Machine.execJdef src sch d s
  | .jdack sch accepted => Sys2Proof.Machine.execJdack sch accepted s
  | .jhnd src entry => Sys2Proof.Machine.execJhnd src entry s
  | .jhack exid step => Sys2Proof.Machine.execJhack exid step s
  | .jrd src idx => Sys2Proof.Machine.execJrd src idx s
  | .jrdr idx entry => Sys2Proof.Machine.execJrdr idx entry s
  | .mirrorTimeout msg => Sys2Proof.Machine.execMirrorTimeout msg s
  | .takeover => Sys2Proof.Machine.execTakeover s
  | .quarantineEnd idx => Sys2Proof.Machine.execQuarantineEnd idx s
  | .veEventDispatch mirror idx => Sys2Proof.Machine.execVeEventDispatch mirror idx s
  | .veAdd e ctx t a b rsv => Sys2Proof.Machine.execVeAdd e ctx t a b rsv s
  | .veSub e ctx t a b rsv => Sys2Proof.Machine.execVeSub e ctx t a b rsv s
  | .veAnd e ctx t a b rsv => Sys2Proof.Machine.execVeAnd e ctx t a b rsv s
  | .veOr e ctx t a b rsv => Sys2Proof.Machine.execVeOr e ctx t a b rsv s
  | .veXor e ctx t a b rsv => Sys2Proof.Machine.execVeXor e ctx t a b rsv s
  | .veAndn e ctx t a b rsv => Sys2Proof.Machine.execVeAndn e ctx t a b rsv s
  | .veSll e ctx t a b rsv => Sys2Proof.Machine.execVeSll e ctx t a b rsv s
  | .veSrl e ctx t a b rsv => Sys2Proof.Machine.execVeSrl e ctx t a b rsv s
  | .veSra e ctx t a b rsv => Sys2Proof.Machine.execVeSra e ctx t a b rsv s
  | .veRol e ctx t a b rsv => Sys2Proof.Machine.execVeRol e ctx t a b rsv s
  | .veCmp e ctx t a b rsv => Sys2Proof.Machine.execVeCmp e ctx t a b rsv s
  | .veMov e ctx t a b rsv => Sys2Proof.Machine.execVeMov e ctx t a b rsv s
  | .veMul e ctx t a b rsv => Sys2Proof.Machine.execVeMul e ctx t a b rsv s
  | .veMulu e ctx t a b rsv => Sys2Proof.Machine.execVeMulu e ctx t a b rsv s
  | .veProductWrite e ctx => Sys2Proof.Machine.execVeProductWrite e ctx s
  | .mfmh e ctx t a b rsv => Sys2Proof.Machine.execMfmh e ctx t a b rsv s
  | .mfml e ctx t a b rsv => Sys2Proof.Machine.execMfml e ctx t a b rsv s
  | .mffl e ctx t a b rsv => Sys2Proof.Machine.execMffl e ctx t a b rsv s
  | .mtfl e ctx t a b rsv => Sys2Proof.Machine.execMtfl e ctx t a b rsv s
  | .veAddi e ctx t a rsv imm => Sys2Proof.Machine.execVeAddi e ctx t a rsv imm s
  | .veAndi e ctx t a rsv imm => Sys2Proof.Machine.execVeAndi e ctx t a rsv imm s
  | .veOri e ctx t a rsv imm => Sys2Proof.Machine.execVeOri e ctx t a rsv imm s
  | .veXori e ctx t a rsv imm => Sys2Proof.Machine.execVeXori e ctx t a rsv imm s
  | .veCmpi e ctx t a rsv imm => Sys2Proof.Machine.execVeCmpi e ctx t a rsv imm s
  | .veLui e ctx t a rsv imm => Sys2Proof.Machine.execVeLui e ctx t a rsv imm s
  | .veSlli e ctx t a rsv imm => Sys2Proof.Machine.execVeSlli e ctx t a rsv imm s
  | .veSrli e ctx t a rsv imm => Sys2Proof.Machine.execVeSrli e ctx t a rsv imm s
  | .veSrai e ctx t a rsv imm => Sys2Proof.Machine.execVeSrai e ctx t a rsv imm s
  | .veLw e ctx t bk sa => Sys2Proof.Machine.execVeLw e ctx t bk sa s
  | .veLh e ctx t bk sa => Sys2Proof.Machine.execVeLh e ctx t bk sa s
  | .veLhs e ctx t bk sa => Sys2Proof.Machine.execVeLhs e ctx t bk sa s
  | .veLb e ctx t bk sa => Sys2Proof.Machine.execVeLb e ctx t bk sa s
  | .veLbs e ctx t bk sa => Sys2Proof.Machine.execVeLbs e ctx t bk sa s
  | .veSw e ctx t bk sa => Sys2Proof.Machine.execVeSw e ctx t bk sa s
  | .veSh e ctx t bk sa => Sys2Proof.Machine.execVeSh e ctx t bk sa s
  | .veSb e ctx t bk sa => Sys2Proof.Machine.execVeSb e ctx t bk sa s
  | .veLwx e ctx t a bk disp => Sys2Proof.Machine.execVeLwx e ctx t a bk disp s
  | .veLbx e ctx t a bk disp => Sys2Proof.Machine.execVeLbx e ctx t a bk disp s
  | .veSwx e ctx t a bk disp => Sys2Proof.Machine.execVeSwx e ctx t a bk disp s
  | .veSbx e ctx t a bk disp => Sys2Proof.Machine.execVeSbx e ctx t a bk disp s
  | .ldm e ctx t a bk n disp => Sys2Proof.Machine.execLdm e ctx t a bk n disp s
  | .stm e ctx t a bk n disp => Sys2Proof.Machine.execStm e ctx t a bk n disp s
  | .lxch e ctx t a bk disp => Sys2Proof.Machine.execLxch e ctx t a bk disp s
  | .veB e ctx cond off => Sys2Proof.Machine.execVeB e ctx cond off s
  | .veBal e ctx cond off => Sys2Proof.Machine.execVeBal e ctx cond off s
  | .veBr e ctx t a rsv imm => Sys2Proof.Machine.execVeBr e ctx t a rsv imm s
  | .wait e ctx t a rsv imm => Sys2Proof.Machine.execWait e ctx t a rsv imm s
  | .veFence e ctx t a rsv imm => Sys2Proof.Machine.execVeFence e ctx t a rsv imm s
  | .mtbk e ctx t a b rsv => Sys2Proof.Machine.execMtbk e ctx t a b rsv s
  | .mfbk e ctx t a b rsv hi => Sys2Proof.Machine.execMfbk e ctx t a b rsv hi s
  | .veNop e ctx t a rsv imm => Sys2Proof.Machine.execVeNop e ctx t a rsv imm s
  | .zopen e ctx t a b rsv => Sys2Proof.Machine.execZopen e ctx t a b rsv s
  | .zstat e ctx t a b rsv => Sys2Proof.Machine.execZstat e ctx t a b rsv s
  | .zclose e ctx t a b rsv => Sys2Proof.Machine.execZclose e ctx t a b rsv s
  | .kopen e ctx t a b rsv => Sys2Proof.Machine.execKopen e ctx t a b rsv s
  | .kstat e ctx t a b rsv => Sys2Proof.Machine.execKstat e ctx t a b rsv s
  | .kclose e ctx t a b rsv => Sys2Proof.Machine.execKclose e ctx t a b rsv s
  | .crcw e ctx t a b rsv => Sys2Proof.Machine.execCrcw e ctx t a b rsv s
  | .crcl e ctx t a b rsv => Sys2Proof.Machine.execCrcl e ctx t a b rsv s
  | .sum16 e ctx t a b rsv => Sys2Proof.Machine.execSum16 e ctx t a b rsv s
  | .jstep e ctx t a b rsv => Sys2Proof.Machine.execJstep e ctx t a b rsv s
  | .jread e ctx t a b rsv => Sys2Proof.Machine.execJread e ctx t a b rsv s
  | .pdsqSubmit e ctx => Sys2Proof.Machine.execPdsqSubmit e ctx s
  | .pdsCommandEnd vp res => Sys2Proof.Machine.execPdsCommandEnd vp res s
  | .veWatchdog e ctx => Sys2Proof.Machine.execVeWatchdog e ctx s
  | .veEngineFailure e planned => Sys2Proof.Machine.execVeEngineFailure e planned s
  | .venCtxselRelease src v => Sys2Proof.Machine.execVenCtxselRelease src v s
  | .venCtxdataRead src => Sys2Proof.Machine.execVenCtxdataRead src s
  | .velexCmd vp h exid xseq cmdix devadr payload => Sys2Proof.Machine.execVelexCmd vp h exid xseq cmdix devadr payload s
  | .velexResume vp h exid xseq cmdix sr => Sys2Proof.Machine.execVelexResume vp h exid xseq cmdix sr s
  | .velexAbort vp h exid => Sys2Proof.Machine.execVelexAbort vp h exid s
  | .velexData vp h exid inbound xseq cmdix last bytes => Sys2Proof.Machine.execVelexData vp h exid inbound xseq cmdix last bytes s
  | .velexStatus vp h exid xseq cmdix dstat scode resid => Sys2Proof.Machine.execVelexStatus vp h exid xseq cmdix dstat scode resid s
  | .velexAck vp h exid xseq cmdix what => Sys2Proof.Machine.execVelexAck vp h exid xseq cmdix what s
  | .velexNak vp h rseq => Sys2Proof.Machine.execVelexNak vp h rseq s
  | .velexCredit vp h cmd data sts urg => Sys2Proof.Machine.execVelexCredit vp h cmd data sts urg s
  | .velexFence vp h reason => Sys2Proof.Machine.execVelexFence vp h reason s
  | .velexEcho vp h stamp => Sys2Proof.Machine.execVelexEcho vp h stamp s
  | .echoInterval vp => Sys2Proof.Machine.execEchoInterval vp s
  | .portSilenceRetrain vp => Sys2Proof.Machine.execPortSilenceRetrain vp s
  | .velexRetrain vp ok => Sys2Proof.Machine.execVelexRetrain vp ok s
  | .portTrainingAttempt vp ok cmd data sts urg => Sys2Proof.Machine.execPortTrainingAttempt vp ok cmd data sts urg s
  | .exchangeTimeout exid => Sys2Proof.Machine.execExchangeTimeout exid s
  | .velexLaneSparing vp lane => Sys2Proof.Machine.execVelexLaneSparing vp lane s
  | .controllerSwitchover vp cause => Sys2Proof.Machine.execControllerSwitchover vp cause s
  | .claimTieTimeout vp => Sys2Proof.Machine.execClaimTieTimeout vp s
  | .portPllLoss vp => Sys2Proof.Machine.execPortPllLoss vp s
  | .zeRecordComplete z handle rc => Sys2Proof.Machine.execZeRecordComplete z handle rc s
  | .streamContextTimeout addr pid => Sys2Proof.Machine.execStreamContextTimeout addr pid s
  | .zeEngineFailure z => Sys2Proof.Machine.execZeEngineFailure z s
  | .stripeAssign w => Sys2Proof.Machine.execStripeAssign w s
  | .stripeComplete w brick checkErr => Sys2Proof.Machine.execStripeComplete w brick checkErr s
  | .knownAnswerTest w brick ok => Sys2Proof.Machine.execKnownAnswerTest w brick ok s
  | .keyCacheFill w slot => Sys2Proof.Machine.execKeyCacheFill w slot s
  | .portBufferGrant vp => Sys2Proof.Machine.execPortBufferGrant vp s
  | .ciphContextTimeout addr pid => Sys2Proof.Machine.execCiphContextTimeout addr pid s
  | .wallFailure w => Sys2Proof.Machine.execWallFailure w s
  | .mailboxGo src mb => Sys2Proof.Machine.execMailboxGo src mb s
  | .mailboxAck src mb => Sys2Proof.Machine.execMailboxAck src mb s
  | .mailboxServiceStart => Sys2Proof.Machine.execMailboxServiceStart s
  | .assign mb => Sys2Proof.Machine.execAssign mb s
  | .generate mb => Sys2Proof.Machine.execGenerate mb s
  | .importKey mb => Sys2Proof.Machine.execImportKey mb s
  | .setattr mb => Sys2Proof.Machine.execSetattr mb s
  | .destroy mb => Sys2Proof.Machine.execDestroy mb s
  | .tkey mb => Sys2Proof.Machine.execTkey mb s
  | .random mb => Sys2Proof.Machine.execRandom mb s
  | .attest mb => Sys2Proof.Machine.execAttest mb s
  | .measure mb => Sys2Proof.Machine.execMeasure mb s
  | .cert mb => Sys2Proof.Machine.execCert mb s
  | .keystoneTimeout => Sys2Proof.Machine.execKeystoneTimeout s
  | .holdRelease blk => Sys2Proof.Machine.execHoldRelease blk s
  | .forcedRelease blk => Sys2Proof.Machine.execForcedRelease blk s
  | .entropyFailure => Sys2Proof.Machine.execEntropyFailure s
  | .entropyRetest pass => Sys2Proof.Machine.execEntropyRetest pass s
  | .clockQualified c => Sys2Proof.Machine.execClockQualified c s
  | .clockSourceFailed c => Sys2Proof.Machine.execClockSourceFailed c s
  | .pllRelock => Sys2Proof.Machine.execPllRelock s
  | .resetHoldPulse => Sys2Proof.Machine.execResetHoldPulse s
  | .clockSwitch dom => Sys2Proof.Machine.execClockSwitch dom s
  | .freewheelSwitch dom => Sys2Proof.Machine.execFreewheelSwitch dom s
  | .gearChange cl => Sys2Proof.Machine.execGearChange cl s
  | .powerEstimateTick watts => Sys2Proof.Machine.execPowerEstimateTick watts s
  | .thermalCapTick cl => Sys2Proof.Machine.execThermalCapTick cl s
  | .powerEmergencyEnd => Sys2Proof.Machine.execPowerEmergencyEnd s
  | .gateClock src tgt => Sys2Proof.Machine.execGateClock src tgt s
  | .powerDown src tgt => Sys2Proof.Machine.execPowerDown src tgt s
  | .wake src tgt => Sys2Proof.Machine.execWake src tgt s
  | .withdraw src => Sys2Proof.Machine.execWithdraw src s
  | .clkSblkWrite src v => Sys2Proof.Machine.execClkSblkWrite src v s
  | .porstNAssert us seen => Sys2Proof.Machine.execPorstNAssert us seen s
  | .coldReset env => Sys2Proof.Machine.execColdReset env s
  | .flashReadSlot imgA imgB overrun => Sys2Proof.Machine.execFlashReadSlot imgA imgB overrun s
  | .booDoorClose src => Sys2Proof.Machine.execBooDoorClose src s
  | .firmwareSetCheck set => Sys2Proof.Machine.execFirmwareSetCheck set s
  | .loadWindowTimeout => Sys2Proof.Machine.execLoadWindowTimeout s
  | .handOver => Sys2Proof.Machine.execHandOver s
  | .warmReset src q => Sys2Proof.Machine.execWarmReset src q s
  | .faultEvent ev => Sys2Proof.Machine.execFaultEvent ev s
  | .errNPulseEnd => Sys2Proof.Machine.execErrNPulseEnd s
  | .logSummaryWrite => Sys2Proof.Machine.execLogSummaryWrite s
  | .fltLogrdWrite src v => Sys2Proof.Machine.execFltLogrdWrite src v s
  | .sdropClear src v => Sys2Proof.Machine.execSdropClear src v s
  | .fltCntselClear src v => Sys2Proof.Machine.execFltCntselClear src v s
  | .fltCntdataRead src => Sys2Proof.Machine.execFltCntdataRead src s
  | .fltSrcCfgWrite src n v => Sys2Proof.Machine.execFltSrcCfgWrite src n v s
  | .servicePortNotice g => Sys2Proof.Machine.execServicePortNotice g s
  | .fnoteSend d => Sys2Proof.Machine.execFnoteSend d s
  | .thermalReading vals => Sys2Proof.Machine.execThermalReading vals s
  | .droopReading vals => Sys2Proof.Machine.execDroopReading vals s
  | .droopEvent mon => Sys2Proof.Machine.execDroopEvent mon s
  | .ageingReading vals => Sys2Proof.Machine.execAgeingReading vals s
  | .marginDetectorFire u => Sys2Proof.Machine.execMarginDetectorFire u s
  | .odometerMinute voltPct => Sys2Proof.Machine.execOdometerMinute voltPct s
  | .odometerPowerOnWrite => Sys2Proof.Machine.execOdometerPowerOnWrite s
  | .odometerHourlyWrite => Sys2Proof.Machine.execOdometerHourlyWrite s
  | .odometerWriteDone ok => Sys2Proof.Machine.execOdometerWriteDone ok s
  | .odometerWriteNow src => Sys2Proof.Machine.execOdometerWriteNow src s
  | .odometerShutdown src => Sys2Proof.Machine.execOdometerShutdown src s
  | .lifSndataRead src => Sys2Proof.Machine.execLifSndataRead src s
  | .registerWrite src off v => Sys2Proof.Machine.execRegisterWrite src off v s
  | .unmappedAccess src off write => Sys2Proof.Machine.execUnmappedAccess src off write s
  | .hostAccessSize off size write => Sys2Proof.Machine.execHostAccessSize off size write s
  | .pcieLinkEvent ev => Sys2Proof.Machine.execPcieLinkEvent ev s
  | .debugHalt src lc => Sys2Proof.Machine.execDebugHalt src lc s
  | .debugStep src lc => Sys2Proof.Machine.execDebugStep src lc s
  | .debugResume src lc => Sys2Proof.Machine.execDebugResume src lc s
  | .breakpointHit lc k => Sys2Proof.Machine.execBreakpointHit lc k s
  | .svcDbgdataAccess src write => Sys2Proof.Machine.execSvcDbgdataAccess src write s
  | .traceEnable src cl v => Sys2Proof.Machine.execTraceEnable src cl v s
  | .bypass => Sys2Proof.Machine.execBypass s
  | .idcode => Sys2Proof.Machine.execIdcode s
  | .samplePreload v => Sys2Proof.Machine.execSamplePreload v s
  | .extest v => Sys2Proof.Machine.execExtest v s
  | .clamp => Sys2Proof.Machine.execClamp s
  | .highz => Sys2Proof.Machine.execHighz s
  | .gpioEdge pin level => Sys2Proof.Machine.execGpioEdge pin level s
  | .thermtrip => Sys2Proof.Machine.execThermtrip s
  | .avsWriteTimeout cl => Sys2Proof.Machine.execAvsWriteTimeout cl s
  | .vddAonLoss => Sys2Proof.Machine.execVddAonLoss s
  | .maxclr src => Sys2Proof.Machine.execMaxclr src s
  | .keystoneRestartComplete pass => Sys2Proof.Machine.execKeystoneRestartComplete pass s
  | .explicitRequestDone => Sys2Proof.Machine.execExplicitRequestDone s
  | .standbyControllerFailure vp => Sys2Proof.Machine.execStandbyControllerFailure vp s
  | .plannedEngineMoveExpiry e => Sys2Proof.Machine.execPlannedEngineMoveExpiry e s
  | .vddAonGood => Sys2Proof.Machine.execVddAonGood s
  | .powerLoss => Sys2Proof.Machine.execPowerLoss s

end Sys2Proof.Machine
end

