-- ==== Sys2Proof/WellFormed.lean ====
section
/-! DEFINITION. Well-formed commands: every operand names something that an OZ7200 system has (00 Table SCO-1, 01, 10 R235). What does not depend on the state is checked here; the meanings refuse a unit that does not exist. -/

namespace Sys2Proof

/-- A logical core of one complex (00 R2). -/
def lcOk (n : Nat) : Bool := decide (n < 48)
/-- A physical core (02 R24). -/
def pcOk (n : Nat) : Bool := decide (n < 56)
/-- A Velex engine (13 R313). -/
def engineOk (n : Nat) : Bool := decide (n < 68)
/-- A context of a Velex engine (13 R315). -/
def ctxOk (n : Nat) : Bool := decide (n < 16)
/-- A complex ID (10 R235). -/
def cxOk (n : Nat) : Bool := decide (n < 1024)
def optCxOk (n : Option Nat) : Bool := match n with | some k => cxOk k | none => true
/-- A Felard or Velex port, a cipher wall, a memory controller (01). -/
def portOk (n : Nat) : Bool := decide (n < 16)
def optPortOk (n : Option Nat) : Bool := match n with | some k => portOk k | none => true
/-- A line: bits 55 to 8 of an absolute address (05 R132). -/
def lineOk (n : Nat) : Bool := decide (n < 2 ^ 48)
/-- An absolute address (05 R132). -/
def addrOk (n : Nat) : Bool := decide (n < 2 ^ 56)
/-- A mailbox (17 R374). -/
def mbOk (n : Nat) : Bool := decide (n < 64)
/-- A partition ID (05 R118). -/
def pidOk (n : Nat) : Bool := decide (n < 256)
/-- A number of eight bits: a byte of a line, a logical core of any complex. -/
def byteOk (n : Nat) : Bool := decide (n < 256)
/-- A journal entry (12 R293). -/
def entryOk (n : Nat) : Bool := decide (n < 16384)
/-- A cluster (02 R24). -/
def clusterOk (n : Nat) : Bool := decide (n < 8)
/-- An L3 slice (08 R187). -/
def sliceOk (n : Nat) : Bool := decide (n < 32)
/-- A logical way of an L3 slice or of the directory (08 R190; 09 R211). -/
def wayOk (n : Nat) : Bool := decide (n < 16)
/-- A compression engine (15 R347). -/
def zeOk (n : Nat) : Bool := decide (n < 22)
/-- A cipher brick of a wall (16 R358). -/
def brickOk (n : Nat) : Bool := decide (n < 272)
/-- A block that Keystone can hold: a wall or the mailbox array (17 R386). -/
def blkOk (n : Nat) : Bool := decide (n < 17)
/-- A clock domain. -/
def domOk (n : Nat) : Bool := decide (n < 64)
/-- A droop monitor (21 R451). -/
def droopOk (n : Nat) : Bool := decide (n < 72)
/-- A GPIO pin (23 R489). -/
def pinOk (n : Nat) : Bool := decide (n < 24)
/-- One of two: a DIMM, a rank of a DIMM, a way group, an FNOTE destination. -/
def rankOk (n : Nat) : Bool := decide (n < 2)
/-- A DRAM device of a rank (11 R268). -/
def devOk (n : Nat) : Bool := decide (n < 20)
/-- A doubleword of a region (05 R135). -/
def dwOk (n : Nat) : Bool := decide (n < 3)
/-- A performance counter (02 R55). -/
def pmcOk (n : Nat) : Bool := decide (n < 8)
/-- One of four: a lock entry, a range engine, a rank of a controller, a breakpoint (08 R196, R201; 11 R266; 22 R473). -/
def lockOk (n : Nat) : Bool := decide (n < 4)
/-- A memory region (05 R135). -/
def regionOk (n : Nat) : Bool := decide (n < 64)
/-- A register FLT_SRC_CFG (20 R430). -/
def srcOk (n : Nat) : Bool := decide (n < 512)
/-- A fault group with sources (20 Table FLT-1). -/
def groupOk (n : Nat) : Bool := decide (n < 17)
/-- A register TAN_MODE (07). -/
def modeRegOk (n : Nat) : Bool := decide (n < 32)
/-- A lane of a port with `k` lanes (10, 14). -/
def laneOk (k n : Nat) : Bool := decide (n < k)
/-- An ATOM operation (09 Table COH-4). -/
def atomOk (n : Nat) : Bool := decide (n < 16)
/-- A subchannel (12 R283). -/
def schOk (n : Nat) : Bool := decide (n < 65536)
/-- A cache array: L1I, L1D or L2 of a physical core (4 per core), or 0x100 and an L3 slice. -/
def arrayNumOk (n : Nat) : Bool := (decide (n < 224) && n % 4 != 3) || (decide (0x100 ≤ n) && decide (n < 0x120))
/-- A key slot (16 R364). -/
def slotOk (n : Nat) : Bool := decide (n < 16384)
/-- An offset of control space (22 R466). -/
def offOk (n : Nat) : Bool := decide (n < 2 ^ 26)
/-- An offset of the load window (22 Table SVC-1). -/
def winOk (n : Nat) : Bool := decide (n < 2 ^ 28)
/-- The values of the GPIO pins, as the boundary register holds them (22 R476). -/
def scanOk (n : Nat) : Bool := decide (n < 2 ^ 24)
/-- A fault event as its source sends it (20 R430, R431). -/
def faultOk (ev : FaultEv) : Bool := decide (ev.src < 512) && decide (ev.unit < 65536) && decide (ev.pid.getD 0 < 256)
/-- The fields of a coherence request (09 R212). -/
def reqOk (q : CohReq) : Bool := cxOk q.src && lineOk q.line && pidOk q.pid && decide (q.stype < 8) && q.rivals.all cxOk

/-- What a patrol scrub found: the device that it names (11 R268). -/
def scrubOk (r : ScrubRes) : Bool :=
  match r with
  | .good => true
  | .corrected d k v | .uncorrectable d k v => rankOk d && rankOk k && devOk v
/-- A link state or a removal that goes round (10 R241, R260). -/
def lsnOk (ev : LsnEvent) : Bool :=
  match ev with
  | .link cx port _ => cxOk cx && portOk port
  | .removed cx => cxOk cx
/-- The unit of a margin detector (21 Table LIF-4). -/
def marginOk (u : MarginUnit) : Bool :=
  match u with
  | .l3Way sl way => sliceOk sl && wayOk way
  | .dirWay way => wayOk way
  | .felardLane port lane => portOk port && laneOk 5 lane
  | .velexLane vp lane => portOk vp && laneOk 3 lane
  | .portController vp => portOk vp
  | .engine e => engineOk e
  | .zip z => zeOk z
  | .brick w b => portOk w && brickOk b
  | .other => true

/-- Is a command well-formed. -/
def wf : Instr → Bool
  | .add lc .. | .addw lc .. | .sub lc .. | .subw lc .. | .neg lc .. | .negw lc .. | .cmp lc .. | .cmpu lc .. | .cmpw lc .. | .cmpuw lc .. | .and lc ..
  | .or lc .. | .xor lc .. | .andn lc .. | .orn lc .. | .sll lc .. | .srl lc .. | .sra lc .. | .sla lc .. | .rol lc .. | .ror lc .. | .mul lc ..
  | .mulw lc .. | .mulh lc .. | .mulhu lc .. | .div lc .. | .divu lc .. | .rem lc .. | .remu lc .. | .divw lc .. | .remw lc .. | .mov lc ..
  | .addi lc .. | .addiw lc .. | .addis lc .. | .muli lc .. | .andi lc .. | .ori lc .. | .xori lc .. | .cmpi lc .. | .cmpui lc .. | .lui lc ..
  | .slli lc .. | .srli lc .. | .srai lc .. | .slai lc .. | .roli lc .. | .clz lc .. | .ctz lc .. | .popc lc .. | .bswap lc .. | .bswapw lc ..
  | .sextb lc .. | .sexth lc .. | .sextw lc .. | .zextb lc .. | .zexth lc .. | .zextw lc .. | .sel lc .. | .ld lc .. | .lw lc .. | .lws lc ..
  | .lh lc .. | .lhs lc .. | .lb lc .. | .lbs lc .. | .ldp lc .. | .std lc .. | .stw lc .. | .sth lc .. | .stb lc .. | .stp lc .. | .lea lc ..
  | .pref lc .. | .ldf lc .. | .lfs lc .. | .stf lc .. | .stfs lc .. | .ldx lc .. | .lwx lc .. | .lwsx lc .. | .lhx lc .. | .lhsx lc .. | .lbx lc ..
  | .lbsx lc .. | .stdx lc .. | .stwx lc .. | .sthx lc .. | .stbx lc .. | .ldfx lc .. | .lfsx lc .. | .stfx lc .. | .stfsx lc .. | .ldadd lc ..
  | .swp lc .. | .cas lc .. | .cas128 lc .. | .ldmin lc .. | .ldmax lc .. | .ldminu lc .. | .ldmaxu lc .. | .ldand lc .. | .ldor lc .. | .ldxor lc ..
  | .fadd lc .. | .fsub lc .. | .fmul lc .. | .fdiv lc .. | .fsqrt lc .. | .fma lc .. | .fms lc .. | .fnma lc .. | .fnms lc .. | .fmin lc ..
  | .fmax lc .. | .fabs lc .. | .fneg lc .. | .fmov lc .. | .fcmp lc .. | .fcmps lc .. | .frint lc .. | .fadds lc .. | .fsubs lc .. | .fmuls lc ..
  | .fdivs lc .. | .fsqrts lc .. | .fmas lc .. | .fmss lc .. | .fnmas lc .. | .fnmss lc .. | .fmins lc .. | .fmaxs lc .. | .fabss lc .. | .fnegs lc ..
  | .fmovs lc .. | .fcmpSingle lc .. | .fcmpss lc .. | .frints lc .. | .fcvtds lc .. | .fcvtsd lc .. | .fcvtgd lc .. | .fcvtgud lc .. | .fcvtdg lc ..
  | .fcvtdgu lc .. | .fcvtgs lc .. | .fcvtsg lc .. | .movgf lc .. | .movfg lc .. | .b lc .. | .bal lc .. | .callw lc .. | .bc lc .. | .bct lc ..
  | .br lc .. | .balr lc .. | .bcr lc .. | .retw lc .. | .liw lc .. | .liwu lc .. | .lih lc .. | .addli lc .. | .lpsw lc .. | .setb lc .. | .mfsr lc ..
  | .mtsr lc .. | .readf lc .. | .movfb lc .. | .movtb lc .. | .scall lc .. | .epsw lc .. | .sync lc .. | .isync lc .. | .cleana lc .. | .invala lc ..
  | .clinva lc .. | .cleanr lc .. | .invalr lc .. | .clinvr lc .. | .cleans lc .. | .invals lc .. | .clinvs lc .. | .tlbiv lc .. | .tlbia lc ..
  | .tlbip lc .. | .tlbiall lc .. | .loadc lc .. | .storec lc .. | .ssch lc .. | .tsch lc .. | .sttb lc .. | .settc lc .. | .sttc lc .. | .sigc lc ..
  | .rstc lc .. | .movl lc .. | .cmpl lc .. | .trtl lc .. | .cksm lc .. | .cksm16 lc .. | .cmprs lc .. | .xpand lc .. | .ciph lc ..
  | .engineUnitCompletion lc .. | .addp lc .. | .subp lc .. | .mulp lc .. | .divp lc .. | .cmpp lc .. | .cvdb lc .. | .cvbd lc .. | .nop lc ..
  | .pause lc .. | .undefinedOpcode lc .. | .interruptionEntry lc | .restartInterruption lc | .spillFrame lc | .fillFrame lc | .timeBaseComparator lc
  | .checkpointComparison lc .. | .retryTimeLimit lc | .delayRegisterParity ⟨lc, _⟩ | .storeBufferDrain lc | .sparingMove lc .. | .sigrsp lc ..
  | .debugHalt _ lc | .debugStep _ lc | .debugResume _ lc => lcOk lc
  | .pmcOverflow lc n => lcOk lc && pmcOk n
  | .selfCheckSlot pc .. => pcOk pc
  | .warmReset _ q => q.failedPcs.all pcOk
  | .tanSpreq .. | .tanCkdataRead .. | .cacWaypwrWrite .. | .timeSyncInterval | .timeHoldover | .fabTbset ..
  | .subchannelReload .. | .subchannelTerminate .. | .subchannelInvalidate .. | .jack .. | .jhack .. | .mirrorTimeout .. | .takeover
  | .venCtxselRelease .. | .venCtxdataRead .. | .exchangeTimeout .. | .mailboxServiceStart | .keystoneTimeout | .entropyFailure | .entropyRetest ..
  | .clockQualified .. | .clockSourceFailed .. | .pllRelock | .resetHoldPulse | .powerEstimateTick .. | .powerEmergencyEnd | .gateClock ..
  | .powerDown .. | .wake .. | .withdraw .. | .clkSblkWrite .. | .porstNAssert .. | .coldReset .. | .flashReadSlot .. | .booDoorClose ..
  | .firmwareSetCheck .. | .loadWindowTimeout | .handOver | .errNPulseEnd | .logSummaryWrite | .fltLogrdWrite .. | .sdropClear ..
  | .fltCntselClear .. | .fltCntdataRead .. | .thermalReading .. | .droopReading .. | .ageingReading .. | .odometerMinute ..
  | .odometerPowerOnWrite | .odometerHourlyWrite | .odometerWriteDone .. | .odometerWriteNow .. | .odometerShutdown .. | .lifSndataRead ..
  | .svcDbgdataAccess .. | .bypass | .idcode | .clamp | .highz | .thermtrip | .vddAonLoss | .maxclr .. | .inviteTimeout | .keystoneRestartComplete ..
  | .explicitRequestDone | .vddAonGood | .powerLoss => true
  | .pcieLinkEvent (.configRead off) => decide (off < 4096) && decide (off % 4 = 0)
  | .pcieLinkEvent _ => true
  | .tanModeWrite _ k .. => modeRegOk k
  | .cacheFill array line pid .. => arrayNumOk array && lineOk line && pidOk pid
  | .rangeEngineLine g => lockOk g
  | .lockEntryEnable _ n .. | .lockReady n => lockOk n
  | .wayGroupTransitionEnd sl g => sliceOk sl && rankOk g
  | .l3WaySparing sl way => sliceOk sl && wayOk way
  | .directoryWaySparing way => wayOk way
  | .rds q | .rdo q | .upg q | .rdsnap ⟨q, _⟩ | .cmo q .. => reqOk q
  | .wrpl q _ first last .. => reqOk q && byteOk first && byteOk last
  | .atom q off op .. => reqOk q && byteOk off && atomOk op
  | .wb src ⟨line, _, _⟩ ⟨pid, _⟩ .. | .dataM src line ⟨pid, _, _⟩ .. | .gnt src line pid .. | .fwdack src ⟨line, pid, _⟩ .. => cxOk src && lineOk line && pidOk pid
  | .fwds home ⟨line, _, _⟩ ftgt .. | .fwdo home ⟨line, _, _⟩ ftgt .. | .fwdsnap home ⟨line, _, _⟩ ftgt .. => cxOk home && lineOk line && cxOk ftgt
  | .inv home ⟨line, _⟩ | .binv home ⟨line, _⟩ | .cln home ⟨line, _⟩ => cxOk home && lineOk line
  | .dataS src line .. | .dataE src line .. | .dataSn src line .. | .invack src line | .nocopy src line | .unblk src line | .nack src line .. => cxOk src && lineOk line
  | .wback line | .cmpMessage line | .requestResend line | .requestTimeout line => lineOk line
  | .atomrsp lc line .. => lcOk lc && lineOk line
  | .invite cx => cxOk cx
  | .snoopTimeout line cx => lineOk line && cxOk cx
  | .packetTransit port .. | .felardAck port .. | .felardNak port .. | .felardFence port .. | .felardPause port .. | .linkRetrain port .. => portOk port
  | .fnote src .. | .tsreq src .. | .tsrsp src .. | .jwr src .. | .jhnd src .. => cxOk src
  | .disc port nbr nport .. => portOk port && cxOk nbr && portOk nport
  | .sig src rlc lc pid .. => cxOk src && byteOk rlc && lcOk lc && pidOk pid
  | .tlbi src rlc _ pid .. => cxOk src && byteOk rlc && pidOk pid
  | .tlbiack src lc => cxOk src && lcOk lc
  | .load offset .. => winOk offset
  | .felardLaneSparing port lane => portOk port && laneOk 5 lane
  | .discoveryComplete buddyNames => optCxOk buddyNames
  | .patrolScrub mc res => portOk mc && scrubOk res
  | .lsn ev => lsnOk ev
  | .marginDetectorFire u => marginOk u
  | .deviceSparingCopy mc dimm rank dev .. => portOk mc && rankOk dimm && rankOk rank && devOk dev
  | .rankPowerDown mc rank => portOk mc && lockOk rank
  | .regionRegisterWrite _ m n dw .. => portOk m && regionOk n && dwOk dw
  | .regionBroadcastWrite _ n dw .. => regionOk n && dwOk dw
  | .jdef src sch .. => cxOk src && schOk sch
  | .jdack sch .. => schOk sch
  | .jrd src idx => cxOk src && entryOk idx
  | .jrdr idx .. | .quarantineEnd idx | .veEventDispatch _ idx => entryOk idx
  | .veAdd e ctx .. | .veSub e ctx .. | .veAnd e ctx .. | .veOr e ctx .. | .veXor e ctx .. | .veAndn e ctx .. | .veSll e ctx .. | .veSrl e ctx ..
  | .veSra e ctx .. | .veRol e ctx .. | .veCmp e ctx .. | .veMov e ctx .. | .veMul e ctx .. | .veMulu e ctx .. | .veProductWrite e ctx | .mfmh e ctx ..
  | .mfml e ctx .. | .mffl e ctx .. | .mtfl e ctx .. | .veAddi e ctx .. | .veAndi e ctx .. | .veOri e ctx .. | .veXori e ctx .. | .veCmpi e ctx ..
  | .veLui e ctx .. | .veSlli e ctx .. | .veSrli e ctx .. | .veSrai e ctx .. | .veLw e ctx .. | .veLh e ctx .. | .veLhs e ctx .. | .veLb e ctx ..
  | .veLbs e ctx .. | .veSw e ctx .. | .veSh e ctx .. | .veSb e ctx .. | .veLwx e ctx .. | .veLbx e ctx .. | .veSwx e ctx .. | .veSbx e ctx ..
  | .ldm e ctx .. | .stm e ctx .. | .lxch e ctx .. | .veB e ctx .. | .veBal e ctx .. | .veBr e ctx .. | .wait e ctx .. | .veFence e ctx ..
  | .mtbk e ctx .. | .mfbk e ctx .. | .veNop e ctx .. | .zopen e ctx .. | .zstat e ctx .. | .zclose e ctx .. | .kopen e ctx .. | .kstat e ctx ..
  | .kclose e ctx .. | .crcw e ctx .. | .crcl e ctx .. | .sum16 e ctx .. | .jstep e ctx .. | .jread e ctx .. | .pdsqSubmit e ctx | .veWatchdog e ctx => engineOk e && ctxOk ctx
  | .pdsCommandEnd vp .. | .velexCmd vp .. | .velexResume vp .. | .velexAbort vp .. | .velexData vp .. | .velexStatus vp .. | .velexAck vp ..
  | .velexNak vp .. | .velexCredit vp .. | .velexFence vp .. | .velexEcho vp .. | .echoInterval vp | .portSilenceRetrain vp | .velexRetrain vp ..
  | .portTrainingAttempt vp .. | .controllerSwitchover vp .. | .claimTieTimeout vp | .portBufferGrant vp | .standbyControllerFailure vp => portOk vp
  | .veEngineFailure e .. | .plannedEngineMoveExpiry e => engineOk e
  | .velexLaneSparing vp lane => portOk vp && laneOk 3 lane
  | .portPllLoss vp => optPortOk vp
  | .zeRecordComplete z .. | .zeEngineFailure z => zeOk z
  | .streamContextTimeout addr pid | .ciphContextTimeout addr pid => addrOk addr && pidOk pid
  | .stripeAssign w | .wallFailure w => portOk w
  | .stripeComplete w brick .. | .knownAnswerTest w brick .. => portOk w && brickOk brick
  | .keyCacheFill w slot => portOk w && slotOk slot
  | .mailboxGo _ mb | .mailboxAck _ mb | .assign mb | .generate mb | .importKey mb | .setattr mb | .destroy mb | .tkey mb | .random mb | .attest mb
  | .measure mb | .cert mb => mbOk mb
  | .holdRelease blk | .forcedRelease blk => blkOk blk
  | .clockSwitch dom | .freewheelSwitch dom => domOk dom
  | .gearChange cl | .thermalCapTick cl | .traceEnable _ cl .. | .avsWriteTimeout cl => clusterOk cl
  | .faultEvent ev => faultOk ev
  | .fltSrcCfgWrite _ n .. => srcOk n
  | .servicePortNotice g => groupOk g
  | .fnoteSend d => rankOk d
  | .droopEvent mon => droopOk mon
  | .registerWrite _ off .. | .unmappedAccess _ off .. | .hostAccessSize off .. => offOk off
  | .breakpointHit lc k => lcOk lc && lockOk k
  | .samplePreload v | .extest v => scanOk v
  | .gpioEdge pin .. => pinOk pin

end Sys2Proof
end

