-- ==== Sys2Proof/Safety.lean ====
section
/-! DEFINITION. What counts as a safe step, the invariants that claims are stated with, and when a core or an engine can complete an instruction. -/

namespace Sys2Proof.Machine

/-- A step is safe when it answers a next state. -/
def SafeStep (s : State) : Prop := ∃ t, step s = .next t

/-- The canonical form of memory: addresses rise, no listed byte reads as an unlisted one does. -/
def Mem.wf (m : Mem) : Bool := m.bytes.wf 0

/-- FLT_ERRPIN shows what holds ERR_N (20 R445). -/
def PinOk (s : State) : Prop := s.reg F.FLT_ERRPIN_PIN.base = s.errWord

/-- Every waiting command is well-formed. -/
def QueueOk (s : State) : Prop := ∀ c ∈ s.pending, wf c = true

/-- A core at a checkpoint with nothing due: no interval runs or waits for its comparison, no store is held, nothing is logged or replayed, no interruption is owed, it is in lock-step and in no retry (07 R166 to R178). -/
def Core.quiet (c : Core) : Prop :=
  c.bounded = false ∧ c.retired = 0 ∧ c.entries = 0 ∧ c.stbuf = [] ∧ c.inlog = [] ∧ c.replay = [] ∧ c.pendSpill = [] ∧ c.pendProg = none ∧ c.broken = false ∧ c.retry = 0

/-- Logical core `lc` can run an instruction of `ilc` bytes: it operates, it is quiet, the instruction's bytes can be fetched (03 Table INS-3), and it waits as `w` says, for no SYNC. -/
def ReadyWith (s : State) (lc ilc : Nat) (w : CoreWait) : Prop :=
  lc < 48 ∧ s.canRun lc = true ∧ (s.core lc).quiet ∧ s.fetch lc ilc = .ok s () ∧ (s.core lc).wait = w ∧ w ≠ .sync

/-- Logical core `lc` can begin an instruction: it waits for nothing. -/
def Ready (s : State) (lc ilc : Nat) : Prop := ReadyWith s lc ilc .none

/-- Nothing outside logical core `lc` has changed: memory and caches, fabric, channel subsystem, service blocks, the other cores, the queue, what has been sent, and every register of control space, with ERR_N as it was. -/
def OnlyCore (s t : State) (lc : Nat) : Prop :=
  t.mem = s.mem ∧ t.fab = s.fab ∧ t.chn = s.chn ∧ t.svc = s.svc ∧ t.p2base = s.p2base ∧ t.part = s.part ∧ t.pending = s.pending ∧ t.out = s.out ∧
    (∀ n, n ≠ lc → t.core n = s.core n) ∧ (∀ off, off ≠ F.FLT_ERRPIN_PIN.base → t.reg off = s.reg off)

/-- The state that a command leaves: its own effect, the queue as it was, ERR_N following. -/
def left (s t : State) : State := ({ t with pending := s.pending } : State).errPin

/-- The instruction completes: the core's architected state becomes `a` with the address of the next instruction, its store buffer becomes `buf`, nothing else changes. -/
def CompletesBuf (i : Instr) (s : State) (lc ilc : Nat) (a : Arch) (buf : List StEnt) : Prop :=
  ∃ t, exec i s = .next t ∧ (t.core lc).arch = a.setIa ((s.core lc).arch.psw.ia + BitVec.ofNat 64 ilc) ∧ (t.core lc).stbuf = buf ∧ OnlyCore s t lc

/-- The instruction completes and holds no store. -/
def Completes (i : Instr) (s : State) (lc ilc : Nat) (a : Arch) : Prop := CompletesBuf i s lc ilc a (s.core lc).stbuf

/-- As `Completes`, for an instruction that sets the next address itself. -/
def Goes (i : Instr) (s : State) (lc : Nat) (a : Arch) : Prop :=
  ∃ t, exec i s = .next t ∧ (t.core lc).arch = a ∧ (t.core lc).stbuf = (s.core lc).stbuf ∧ OnlyCore s t lc

/-- The instruction is suppressed: no result is written, and program exception `code` is taken with the old PSW at the instruction, identified with `addr` (02 R49, R51; for an IEEE exception `addr` is the DXC, 04 R107). -/
def TrapsAt (i : Instr) (s : State) (lc ilc code : Nat) (addr : W64) : Prop :=
  ∃ words, exec i s = .next (left s (s.suppress lc words (.program (BitVec.ofNat 16 code) ilc 0 0 addr)))

def Traps (i : Instr) (s : State) (lc ilc code : Nat) : Prop := TrapsAt i s lc ilc code 0

/-- The instruction completes with architected state `a`, then program exception `code` is taken with the old PSW at the next instruction (04 R94, R107). -/
def ThenTraps (i : Instr) (s : State) (lc ilc code dxc : Nat) (a : Arch) : Prop :=
  ∃ p : Pre, p.ilc = ilc ∧ exec i s = .next (left s ((s.updArch lc (fun _ => a)).completeInt lc p (s.core lc) code dxc))

/-- FPC after an operation that met the conditions `k`: the flags of those that are not enabled are set (04 R107). -/
def Arch.fpFlags (a : Arch) (k : Nat) (b : Arch) : Arch :=
  b.setSr 0x0C (putField (a.getSr 0x0C) 23 19 (fieldOf (a.getSr 0x0C) 23 19 ||| (k &&& (31 - a.fpEna))))

/-- The command answers a next state of which `P` holds. -/
def Does (i : Instr) (s : State) (P : State → Prop) : Prop := ∃ t, exec i s = .next t ∧ P t

/-- The command leaves the state `u`, with the queue as it was and ERR_N following its causes. -/
def Leaves (i : Instr) (s u : State) : Prop := exec i s = .next (left s u)

/-- The operation of the instruction leaves the state `u`, and the instruction retires from it: the next address, the interval's count (07 R166). -/
def Retires (i : Instr) (s : State) (lc ilc : Nat) (u : State) : Prop :=
  ∃ p : Pre, p.ilc = ilc ∧ Leaves i s (u.retire lc p (s.core lc).arch ((s.core lc).arch.psw.ia + BitVec.ofNat 64 ilc))

/-- Is a PID's use of the instructions that STO_ICTL controls open (05 R128): the monitor's own PID, or no bit set. -/
def Arch.opened (a : Arch) : Prop := a.psw.pid = 0 ∨ a.getSr 0x33 = 0

/-- Context `ctx` of engine `e` can run an instruction: it runs, the complex is not fenced, and no store that it has posted is open or ended unnoticed (13 R315, R319). -/
def VeReady (s : State) (e ctx : Nat) : Prop :=
  e < 68 ∧ ctx < 16 ∧ (s.veCtx (e * 16 + ctx)).st = .running ∧ s.flag F.FLT_FENCE_CXF = false ∧
    ∀ p ∈ s.mem.reqs, veKey (e * 16 + ctx) p.1 = true → p.2.req.kind ≠ .wrpl

/-- The engine instruction completes: the context becomes `c` with the address of the next instruction, nothing else changes. -/
def VeEnds (i : Instr) (s : State) (e ctx : Nat) (c : VeCtx) : Prop :=
  Leaves i s (s.setVe (e * 16 + ctx) { c with pc := (s.veCtx (e * 16 + ctx)).pc + 1 })

/-- FLAGS, [3] N, [2] Z, [1] C, [0] V, after an operation with result `r` (13 R321). -/
def veFlags (r : W32) (c v : Bool) : BitVec 4 := BitVec.ofBool r.msb ++ BitVec.ofBool (r == 0) ++ BitVec.ofBool c ++ BitVec.ofBool v

/-- Key A of 03 Table INS-4, for a true result and the width of its operation. -/
def keyA (w : Nat) (x : Int) : BitVec 2 := if fitsSigned w x then ccSign x else 3

end Sys2Proof.Machine
end

