-- ==== Sys2Proof/Certificates/Slice0/Obligations.lean ====
section
/-! DEFINITION. The obligations: what the commands of each family do, what a step keeps, what memory and the buffers give back. -/

open Sys2Proof Sys2Proof.Machine

/-- 04 R93 to R95, R97, 03 R77: the integer register instructions write the result and the condition code that their rules give, in every bank and window, on a core that is ready; they change nothing else. An overflow with FOM = 0 writes the low bits and CC 3. -/
def Obligations.IntegerRegister : Prop :=
  ∀ (s : State) (lc : Nat) (t a b : BitVec 5), Ready s lc 4 →
    let r := (s.core lc).arch
    let x := r.getG a
    let y := r.getG b
    let x32 := x.setWidth 32
    let y32 := y.setWidth 32
    let plain := fun (i : Instr) (v : W64) => Completes i s lc 4 (r.setG t v)
    let logic := fun (i : Instr) (v : W64) => Completes i s lc 4 ((r.setG t v).setCc (if v = 0 then 0 else 1))
    let arith := fun (i : Instr) (w : Nat) (v : W64) (n : Int) => (r.psw.fom = false ∨ fitsSigned w n = true) → Completes i s lc 4 ((r.setG t v).setCc (keyA w n))
    (arith (.add lc t a b 0) 64 (x + y) (x.toInt + y.toInt) ∧ arith (.sub lc t a b 0) 64 (x - y) (x.toInt - y.toInt) ∧
      arith (.neg lc t a 0 0) 64 (-x) (-x.toInt) ∧ arith (.mul lc t a b 0) 64 (x * y) (x.toInt * y.toInt) ∧
      arith (.addw lc t a b 0) 32 ((x32 + y32).signExtend 64) (x32.toInt + y32.toInt) ∧
      arith (.subw lc t a b 0) 32 ((x32 - y32).signExtend 64) (x32.toInt - y32.toInt) ∧
      arith (.negw lc t a 0 0) 32 ((-x32).signExtend 64) (-x32.toInt) ∧
      arith (.mulw lc t a b 0) 32 ((x32 * y32).signExtend 64) (x32.toInt * y32.toInt) ∧
      (y.toNat < 64 → arith (.sla lc t a b 0) 64 (x <<< y.toNat) (x.toInt * 2 ^ y.toNat)) ∧
      (64 ≤ y.toNat → x = 0 ∨ r.psw.fom = false → Completes (.sla lc t a b 0) s lc 4 ((r.setG t 0).setCc (if x = 0 then 0 else 3)))) ∧
    (logic (.and lc t a b 0) (x &&& y) ∧ logic (.or lc t a b 0) (x ||| y) ∧ logic (.xor lc t a b 0) (x ^^^ y) ∧
      logic (.andn lc t a b 0) (x &&& ~~~y) ∧ logic (.orn lc t a b 0) (x ||| ~~~y)) ∧
    (plain (.sll lc t a b 0) (if 64 ≤ y.toNat then 0 else x <<< y.toNat) ∧ plain (.srl lc t a b 0) (if 64 ≤ y.toNat then 0 else x >>> y.toNat) ∧
      Completes (.sra lc t a b 0) s lc 4 ((r.setG t (x.sshiftRight (min y.toNat 63))).setCc (ccSign (x.sshiftRight (min y.toNat 63)).toInt)) ∧
      plain (.rol lc t a b 0) (x.rotateLeft y.toNat) ∧ plain (.ror lc t a b 0) (x.rotateRight y.toNat) ∧
      plain (.mulh lc t a b 0) ((x.signExtend 128 * y.signExtend 128).extractLsb' 64 64) ∧
      plain (.mulhu lc t a b 0) ((x.setWidth 128 * y.setWidth 128).extractLsb' 64 64) ∧ plain (.mov lc t a 0 0) x) ∧
    (Completes (.cmp lc 0 a b 0) s lc 4 (r.setCc (if x = y then 0 else if x.slt y then 1 else 2)) ∧
      Completes (.cmpu lc 0 a b 0) s lc 4 (r.setCc (if x = y then 0 else if x.ult y then 1 else 2)) ∧
      Completes (.cmpw lc 0 a b 0) s lc 4 (r.setCc (if x32 = y32 then 0 else if x32.slt y32 then 1 else 2)) ∧
      Completes (.cmpuw lc 0 a b 0) s lc 4 (r.setCc (if x32 = y32 then 0 else if x32.ult y32 then 1 else 2)))

/-- 04 R96: quotient and remainder, truncated toward zero, when the divisor is not zero and a signed quotient fits; otherwise the divide is suppressed with program exception 0x0009. A remainder by −1 is zero. -/
def Obligations.Divides : Prop :=
  ∀ (s : State) (lc : Nat) (t a b : BitVec 5), Ready s lc 4 →
    let r := (s.core lc).arch
    let x := r.getG a
    let y := r.getG b
    let x32 := x.setWidth 32
    let y32 := y.setWidth 32
    let divides := fun (i : Instr) (ok : Prop) (v : W64) => (ok → Completes i s lc 4 (r.setG t v)) ∧ (¬ok → Traps i s lc 4 9)
    divides (.div lc t a b 0) (y ≠ 0 ∧ ¬(x = BitVec.intMin 64 ∧ y = -1)) (x.sdiv y) ∧ divides (.divu lc t a b 0) (y ≠ 0) (x.udiv y) ∧
    divides (.rem lc t a b 0) (y ≠ 0) (x.srem y) ∧ divides (.remu lc t a b 0) (y ≠ 0) (x.umod y) ∧
    divides (.divw lc t a b 0) (y32 ≠ 0 ∧ ¬(x32 = BitVec.intMin 32 ∧ y32 = -1)) ((x32.sdiv y32).signExtend 64) ∧
    divides (.remw lc t a b 0) (y32 ≠ 0) ((x32.srem y32).signExtend 64)

/-- 03 R78, R86: the immediate and long-immediate instructions, with the immediate extended as their rows say; an overflow with FOM = 0 writes the low bits and CC 3. 03 R79: the bit and extension instructions and SEL. CLZ and CTZ count the zero bits before the first one bit, POPC the one bits; BSWAP moves byte i to byte 7 − i. -/
def Obligations.ImmediatesAndBits : Prop :=
  (∀ (s : State) (lc : Nat) (t a : BitVec 5) (imm : BitVec 16) (imm32 : BitVec 32),
     let r := (s.core lc).arch
     let x := r.getG a
     let x32 := x.setWidth 32
     let se := imm.signExtend 64
     let ze := imm.setWidth 64
     let plain := fun (i : Instr) (ilc : Nat) (v : W64) => Completes i s lc ilc (r.setG t v)
     let logic := fun (i : Instr) (v : W64) => Completes i s lc 4 ((r.setG t v).setCc (if v = 0 then 0 else 1))
     let arith := fun (i : Instr) (ilc w : Nat) (v : W64) (n : Int) => (r.psw.fom = false ∨ fitsSigned w n = true) → Completes i s lc ilc ((r.setG t v).setCc (keyA w n))
     (Ready s lc 4 →
       (arith (.addi lc t a imm) 4 64 (x + se) (x.toInt + imm.toInt) ∧ arith (.addiw lc t a imm) 4 32 ((x32 + imm.signExtend 32).signExtend 64) (x32.toInt + imm.toInt) ∧
         arith (.addis lc t a imm) 4 64 (x + se <<< 16) (x.toInt + imm.toInt * 2 ^ 16) ∧ arith (.muli lc t a imm) 4 64 (x * se) (x.toInt * imm.toInt)) ∧
       (logic (.andi lc t a imm) (x &&& ze) ∧ logic (.ori lc t a imm) (x ||| ze) ∧ logic (.xori lc t a imm) (x ^^^ ze)) ∧
       (Completes (.cmpi lc 0 a imm) s lc 4 (r.setCc (if x = se then 0 else if x.slt se then 1 else 2)) ∧
         Completes (.cmpui lc 0 a imm) s lc 4 (r.setCc (if x = ze then 0 else if x.ult ze then 1 else 2))) ∧
       plain (.lui lc t 0 imm) 4 (se <<< 16) ∧
       ∀ n, n < 64 → imm = BitVec.ofNat 16 n →
         plain (.slli lc t a imm) 4 (x <<< n) ∧ plain (.srli lc t a imm) 4 (x >>> n) ∧ plain (.roli lc t a imm) 4 (x.rotateLeft n) ∧
         Completes (.srai lc t a imm) s lc 4 ((r.setG t (x.sshiftRight n)).setCc (ccSign (x.sshiftRight n).toInt)) ∧
         arith (.slai lc t a imm) 4 64 (x <<< n) (x.toInt * 2 ^ n)) ∧
     (Ready s lc 8 →
       plain (.liw lc t 0 0 imm32) 8 (imm32.signExtend 64) ∧ plain (.liwu lc t 0 0 imm32) 8 (imm32.setWidth 64) ∧
       plain (.lih lc t a 0 imm32) 8 (imm32 ++ x32) ∧ arith (.addli lc t a 0 imm32) 8 64 (x + imm32.signExtend 64) (x.toInt + imm32.toInt))) ∧
  (∀ (s : State) (lc : Nat) (t a b : BitVec 5), Ready s lc 4 →
     let r := (s.core lc).arch
     let x := r.getG a
     let plain := fun (i : Instr) (v : W64) => Completes i s lc 4 (r.setG t v)
     (∃ n : Nat, plain (.clz lc t a 0 0) (BitVec.ofNat 64 n) ∧ n ≤ 64 ∧ (∀ k, k < n → x.getLsbD (63 - k) = false) ∧ (n < 64 → x.getLsbD (63 - n) = true)) ∧
     (∃ n : Nat, plain (.ctz lc t a 0 0) (BitVec.ofNat 64 n) ∧ n ≤ 64 ∧ (∀ k, k < n → x.getLsbD k = false) ∧ (n < 64 → x.getLsbD n = true)) ∧
     plain (.popc lc t a 0 0) (BitVec.ofNat 64 (((List.range 64).filter (fun i => x.getLsbD i)).length)) ∧
     (∃ v, plain (.bswap lc t a 0 0) v ∧ ∀ i, i < 8 → v.extractLsb' (8 * i) 8 = x.extractLsb' (56 - 8 * i) 8) ∧
     (∃ v, plain (.bswapw lc t a 0 0) v ∧ v.extractLsb' 32 32 = 0 ∧ ∀ i, i < 4 → v.extractLsb' (8 * i) 8 = x.extractLsb' (24 - 8 * i) 8) ∧
     plain (.sextb lc t a 0 0) ((x.setWidth 8).signExtend 64) ∧ plain (.sexth lc t a 0 0) ((x.setWidth 16).signExtend 64) ∧
     plain (.sextw lc t a 0 0) ((x.setWidth 32).signExtend 64) ∧ plain (.zextb lc t a 0 0) (x &&& 0xFF) ∧
     plain (.zexth lc t a 0 0) (x &&& 0xFFFF) ∧ plain (.zextw lc t a 0 0) (x &&& 0xFFFFFFFF) ∧
     ∀ c : BitVec 5, c.getLsbD 4 = false → plain (.sel lc t a b c) (if c.getLsbD r.psw.cc.toNat then x else r.getG b))

/-- 04 R94: with FOM = 1 an integer overflow completes, with its low bits and CC 3 written, and then takes program exception 0x0008 with the old PSW at the next instruction. -/
def Obligations.OverflowTraps : Prop :=
  ∀ (s : State) (lc : Nat) (t a b : BitVec 5) (imm : BitVec 16), Ready s lc 4 → (s.core lc).arch.psw.fom = true →
    let r := (s.core lc).arch
    let x := r.getG a
    let y := r.getG b
    let ovf := fun (i : Instr) (n : Int) => fitsSigned 64 n = false → ThenTraps i s lc 4 8 0 ((r.setG t (BitVec.ofInt 64 n)).setCc 3)
    let over32 := fun (i : Instr) (n : Int) => fitsSigned 32 n = false → ThenTraps i s lc 4 8 0 ((r.setG t ((BitVec.ofInt 32 n).signExtend 64)).setCc 3)
    ovf (.add lc t a b 0) (x.toInt + y.toInt) ∧ ovf (.sub lc t a b 0) (x.toInt - y.toInt) ∧ ovf (.mul lc t a b 0) (x.toInt * y.toInt) ∧
    ovf (.addi lc t a imm) (x.toInt + imm.toInt) ∧ ovf (.addis lc t a imm) (x.toInt + imm.toInt * 2 ^ 16) ∧ ovf (.muli lc t a imm) (x.toInt * imm.toInt) ∧
    over32 (.addw lc t a b 0) ((x.setWidth 32).toInt + (y.setWidth 32).toInt) ∧ over32 (.subw lc t a b 0) ((x.setWidth 32).toInt - (y.setWidth 32).toInt) ∧
    over32 (.mulw lc t a b 0) ((x.setWidth 32).toInt * (y.setWidth 32).toInt) ∧ over32 (.addiw lc t a imm) ((x.setWidth 32).toInt + imm.toInt) ∧
    ovf (.neg lc t a 0 0) (-x.toInt) ∧ over32 (.negw lc t a 0 0) (-(x.setWidth 32).toInt)

/-- 03 R80, R81: a load whose bytes can be read completes: the register gets the big-endian value, zero- or sign-extended as its row says; a floating-point word load clears the upper half; LDP loads a pair from an aligned quadword. LEA writes the address itself. Nothing else changes. -/
def Obligations.Loads : Prop :=
  ∀ (s : State) (lc : Nat) (t a b : BitVec 5) (imm : BitVec 16) (v : Nat), Ready s lc 4 →
    let r := (s.core lc).arch
    let ea := r.getG a + imm.signExtend 64
    let eax := r.getG a + r.getG b
    let w := BitVec.ofNat 64 v
    let can := fun (e : W64) (n : Nat) => s.loadNat ((s.core lc).xctx lc) e n = .ok s v
    (can ea 8 → Completes (.ld lc t a imm) s lc 4 (r.setG t w) ∧ Completes (.ldf lc t a imm) s lc 4 (r.setF t w)) ∧
    (can ea 4 → Completes (.lw lc t a imm) s lc 4 (r.setG t w) ∧ Completes (.lws lc t a imm) s lc 4 (r.setG t ((w.setWidth 32).signExtend 64)) ∧
      Completes (.lfs lc t a imm) s lc 4 (r.setF t w)) ∧
    (can ea 2 → Completes (.lh lc t a imm) s lc 4 (r.setG t w) ∧ Completes (.lhs lc t a imm) s lc 4 (r.setG t ((w.setWidth 16).signExtend 64))) ∧
    (can ea 1 → Completes (.lb lc t a imm) s lc 4 (r.setG t w) ∧ Completes (.lbs lc t a imm) s lc 4 (r.setG t ((w.setWidth 8).signExtend 64))) ∧
    (can ea 16 → t.getLsbD 0 = false → ea.toNat % 16 = 0 →
      Completes (.ldp lc t a imm) s lc 4 ((r.setG t (BitVec.ofNat 64 (v / 2 ^ 64))).setG (t + 1) w)) ∧
    (can eax 8 → Completes (.ldx lc t a b 0) s lc 4 (r.setG t w) ∧ Completes (.ldfx lc t a b 0) s lc 4 (r.setF t w)) ∧
    (can eax 4 → Completes (.lwx lc t a b 0) s lc 4 (r.setG t w) ∧ Completes (.lwsx lc t a b 0) s lc 4 (r.setG t ((w.setWidth 32).signExtend 64)) ∧
      Completes (.lfsx lc t a b 0) s lc 4 (r.setF t w)) ∧
    (can eax 2 → Completes (.lhx lc t a b 0) s lc 4 (r.setG t w) ∧ Completes (.lhsx lc t a b 0) s lc 4 (r.setG t ((w.setWidth 16).signExtend 64))) ∧
    (can eax 1 → Completes (.lbx lc t a b 0) s lc 4 (r.setG t w) ∧ Completes (.lbsx lc t a b 0) s lc 4 (r.setG t ((w.setWidth 8).signExtend 64))) ∧
    Completes (.lea lc t a imm) s lc 4 (r.setG t ea)

/-- 03 R80, R81, 07 R170: a store whose places can all be written completes when the store buffer has room: its bytes are held at the places that the address translates to, the most significant byte at the lowest; no register, no byte of memory and nothing else changes. -/
def Obligations.Stores : Prop :=
  ∀ (s : State) (lc : Nat) (t a b : BitVec 5) (imm : BitVec 16) (places : List (Nat × Nat)), Ready s lc 4 →
    let r := (s.core lc).arch
    let ea := r.getG a + imm.signExtend 64
    let eax := r.getG a + r.getG b
    let stores := fun (i : Instr) (e : W64) (n : Nat) (v : W128) =>
      let buf := holdBytes (s.core lc).stbuf r.psw.pid places ((List.range n).map (fun k => v.extractLsb' (8 * (n - 1 - k)) 8))
      s.checkStore ((s.core lc).xctx lc) .wr 2 e n = .ok s places → buf.length ≤ 80 → CompletesBuf i s lc 4 r buf
    let g := (r.getG t).setWidth 128
    let f := (r.getF t).setWidth 128
    stores (.std lc t a imm) ea 8 g ∧ stores (.stw lc t a imm) ea 4 g ∧ stores (.sth lc t a imm) ea 2 g ∧ stores (.stb lc t a imm) ea 1 g ∧
    stores (.stf lc t a imm) ea 8 f ∧ stores (.stfs lc t a imm) ea 4 f ∧
    (t.getLsbD 0 = false → ea.toNat % 16 = 0 → stores (.stp lc t a imm) ea 16 (r.getG t ++ r.getG (t + 1))) ∧
    stores (.stdx lc t a b 0) eax 8 g ∧ stores (.stwx lc t a b 0) eax 4 g ∧ stores (.sthx lc t a b 0) eax 2 g ∧ stores (.stbx lc t a b 0) eax 1 g ∧
    stores (.stfx lc t a b 0) eax 8 f ∧ stores (.stfsx lc t a b 0) eax 4 f

/-- 00 R6, 07 R170: a load in one line, with addresses that are absolute in the monitor, sees for each byte the core's newest held store and otherwise the line, the byte at the lowest address most significant. -/
def Obligations.LoadSeesBytes : Prop :=
  ∀ (s : State) (lc : Nat) (va : W64) (n : Nat) (c : CLine),
    (s.core lc).arch.psw.asm = 0 → (s.core lc).arch.psw.pid = 0 → va.toNat < 2 ^ 56 → 0 < n → va.toNat % 256 + n ≤ 256 →
    s.held (va.toNat / 256) = some c → c.serves 0 .rd = true →
    ∃ v, s.loadNat ((s.core lc).xctx lc) va n = .ok s v ∧ v < 2 ^ (8 * n) ∧
      ∀ k, k < n → BitVec.ofNat 8 (v / 256 ^ (n - 1 - k)) = fwdByte (s.core lc).stbuf (va.toNat + k) (c.data.extractLsb' (8 * (255 - (va.toNat + k) % 256)) 8)

/-- 07 R170: a byte put in the store buffer is the one that the core then sees at its address, and what it sees at every other address stays. The buffer holds blocks of 64 aligned bytes, the confirmed ones first. -/
def Obligations.HeldByteForwards : Prop :=
  ∀ (buf : List StEnt) (a : Nat) (v d : Byte) (pid : BitVec 8), (∀ e ∈ buf, e.addr % 64 = 0) → buf.Pairwise (fun e f => f.conf = true → e.conf = true) →
    fwdByte (stPut buf a v pid) a d = v ∧ ∀ k, k ≠ a → fwdByte (stPut buf a v pid) k d = fwdByte buf k d

/-- 03 R81, R82, 09 R220: PREF changes no state that a program sees, and a prefetch whose address fails does nothing. An atomic whose answer has come writes the old value to t, CAS and CAS128 the condition code too, and counts as event 0x11; no TLB operation waits for it here. What storage becomes is the operation of its row. 03 R82 (Table INS-10): what the eleven atomic operations store, and the condition code of CAS and CAS128. -/
def Obligations.PrefetchAndAtomics : Prop :=
  (∀ (s : State) (lc : Nat) (t a b c : BitVec 5) (imm : BitVec 16) (line : Nat) (old : W128) (cc : BitVec 2),
     let r := (s.core lc).arch
     let ea := r.getG a + imm.signExtend 64
     let need := if t = 0 then Need.rd else if t = 1 then .wr else .fx
     (Ready s lc 4 → t.toNat ≤ 2 →
       ((∃ p, s.access ((s.core lc).xctx lc) ea need = .ok s p) ∨ (∃ u f, s.access ((s.core lc).xctx lc) ea need = .fail u f)) → Completes (.pref lc t a imm) s lc 4 r) ∧
     (ReadyWith s lc 4 (.atomGot line old cc) → c.toNat ≤ 1 → s.mem.tlbWaits = [] →
       let n := (r.pmc 0x11 1).1
       let whole := fun (i : Instr) => Completes i s lc 4 (n.setG t (old.setWidth 64))
       ((r.getG a).toNat % 8 = 0 →
         whole (.ldadd lc t a b c) ∧ whole (.swp lc t a b c) ∧ whole (.ldmin lc t a b c) ∧ whole (.ldmax lc t a b c) ∧ whole (.ldminu lc t a b c) ∧
         whole (.ldmaxu lc t a b c) ∧ whole (.ldand lc t a b c) ∧ whole (.ldor lc t a b c) ∧ whole (.ldxor lc t a b c) ∧
         Completes (.cas lc t a b c) s lc 4 ((n.setG t (old.setWidth 64)).setCc cc)) ∧
       ((r.getG a).toNat % 16 = 0 → t.getLsbD 0 = false → b.getLsbD 0 = false →
         Completes (.cas128 lc t a b c) s lc 4 (((n.setG t (old.extractLsb' 64 64)).setG (t + 1) (old.setWidth 64)).setCc cc)))) ∧
  (∀ (o t b : W64) (oldq tq bq : W128),
     let w := fun (x : W64) => (x.setWidth 128 : W128)
     (atomFn 1 (w o) (w t) (w b)).1 = w (o + b) ∧ (atomFn 2 (w o) (w t) (w b)).1 = w b ∧
     atomFn 3 (w o) (w t) (w b) = (if o = t then (w b, 0) else (w o, 1)) ∧ atomFn 4 oldq tq bq = (if oldq = tq then (bq, 0) else (oldq, 1)) ∧
     (atomFn 5 (w o) (w t) (w b)).1 = w (if b.slt o then b else o) ∧ (atomFn 6 (w o) (w t) (w b)).1 = w (if o.slt b then b else o) ∧
     (atomFn 7 (w o) (w t) (w b)).1 = w (if b.ult o then b else o) ∧ (atomFn 8 (w o) (w t) (w b)).1 = w (if o.ult b then b else o) ∧
     (atomFn 9 (w o) (w t) (w b)).1 = w (o &&& b) ∧ (atomFn 10 (w o) (w t) (w b)).1 = w (o ||| b) ∧ (atomFn 11 (w o) (w t) (w b)).1 = w (o ^^^ b))

/-- 03 R83, R84, 04 R103 to R113: a floating-point instruction whose conditions are all disabled completes: it writes its result and sets the flags of the conditions it met; compares set CC by key Cf; sign operations and moves copy bits and set nothing. Where the spec is open it follows the model's choices of log 11. -/
def Obligations.FloatingPoint : Prop :=
  ∀ (s : State) (lc : Nat) (t a b c : BitVec 5), Ready s lc 4 →
    let r := (s.core lc).arch
    let rm := r.fpRm
    let x := (r.getF a).toNat
    let y := (r.getF b).toNat
    let z := (r.getF c).toNat
    let xs := x % 2 ^ 32
    let ys := y % 2 ^ 32
    let zs := z % 2 ^ 32
    let d := fmt64.unpack
    let w := fmt32.unpack
    let gives := fun (i : Instr) (v : Nat × Nat) => v.2 &&& r.fpEna = 0 → Completes i s lc 4 (r.fpFlags v.2 (r.setF t (BitVec.ofNat 64 v.1)))
    let given := fun (i : Instr) (v : W64 × Nat) => v.2 &&& r.fpEna = 0 → Completes i s lc 4 (r.fpFlags v.2 (r.setG t v.1))
    let compares := fun (i : Instr) (v : BitVec 2 × Nat) => v.2 &&& r.fpEna = 0 → Completes i s lc 4 (r.fpFlags v.2 (r.setCc v.1))
    let moves := fun (i : Instr) (v : Nat) => Completes i s lc 4 (r.setF t (BitVec.ofNat 64 v))
    (gives (.fadd lc t a b 0) (fmt64.add rm (d x) (d y)) ∧ gives (.fsub lc t a b 0) (fmt64.add rm (d x) (d y).neg) ∧ gives (.fmul lc t a b 0) (fmt64.mul rm (d x) (d y)) ∧
      gives (.fdiv lc t a b 0) (fmt64.div rm (d x) (d y)) ∧ gives (.fsqrt lc t a 0 0) (fmt64.sqrt rm (d x)) ∧ gives (.fma lc t a b c) (fmt64.fma rm (d x) (d y) (d z) false) ∧
      gives (.fms lc t a b c) (fmt64.fma rm (d x) (d y) (d z) true) ∧ gives (.fnma lc t a b c) (fmt64.negRes (fmt64.fma rm (d x) (d y) (d z) false)) ∧
      gives (.fnms lc t a b c) (fmt64.negRes (fmt64.fma rm (d x) (d y) (d z) true)) ∧ gives (.fmin lc t a b 0) (fmt64.minmax false x y) ∧
      gives (.fmax lc t a b 0) (fmt64.minmax true x y) ∧ gives (.frint lc t a 0 0) (fmt64.rint rm x)) ∧
    (gives (.fadds lc t a b 0) (fmt32.add rm (w xs) (w ys)) ∧ gives (.fsubs lc t a b 0) (fmt32.add rm (w xs) (w ys).neg) ∧ gives (.fmuls lc t a b 0) (fmt32.mul rm (w xs) (w ys)) ∧
      gives (.fdivs lc t a b 0) (fmt32.div rm (w xs) (w ys)) ∧ gives (.fsqrts lc t a 0 0) (fmt32.sqrt rm (w xs)) ∧ gives (.fmas lc t a b c) (fmt32.fma rm (w xs) (w ys) (w zs) false) ∧
      gives (.fmss lc t a b c) (fmt32.fma rm (w xs) (w ys) (w zs) true) ∧ gives (.fnmas lc t a b c) (fmt32.negRes (fmt32.fma rm (w xs) (w ys) (w zs) false)) ∧
      gives (.fnmss lc t a b c) (fmt32.negRes (fmt32.fma rm (w xs) (w ys) (w zs) true)) ∧ gives (.fmins lc t a b 0) (fmt32.minmax false xs ys) ∧
      gives (.fmaxs lc t a b 0) (fmt32.minmax true xs ys) ∧ gives (.frints lc t a 0 0) (fmt32.rint rm xs)) ∧
    (compares (.fcmp lc 0 a b 0) (fmt64.compare false (d x) (d y)) ∧ compares (.fcmps lc 0 a b 0) (fmt64.compare true (d x) (d y)) ∧
      compares (.fcmpSingle lc 0 a b 0) (fmt32.compare false (w xs) (w ys)) ∧ compares (.fcmpss lc 0 a b 0) (fmt32.compare true (w xs) (w ys))) ∧
    (moves (.fabs lc t a 0 0) (x % 2 ^ 63) ∧ moves (.fneg lc t a 0 0) (x ^^^ 2 ^ 63) ∧ moves (.fmov lc t a 0 0) x ∧
      moves (.fabss lc t a 0 0) (xs % 2 ^ 31) ∧ moves (.fnegs lc t a 0 0) (xs ^^^ 2 ^ 31) ∧ moves (.fmovs lc t a 0 0) xs ∧
      Completes (.movgf lc t a 0 0) s lc 4 (r.setF t (r.getG a)) ∧ Completes (.movfg lc t a 0 0) s lc 4 (r.setG t (r.getF a))) ∧
    (gives (.fcvtds lc t a 0 0) (cvtDS (w xs)) ∧ gives (.fcvtsd lc t a 0 0) (cvtSD rm (d x)) ∧ gives (.fcvtgd lc t a 0 0) (fmt64.ofInteger rm (r.getG a).toInt) ∧
      gives (.fcvtgud lc t a 0 0) (fmt64.ofInteger rm (r.getG a).toNat) ∧ gives (.fcvtgs lc t a 0 0) (fmt32.ofInteger rm (r.getG a).toInt) ∧
      given (.fcvtdg lc t a 0 0) (fmt64.toInteger rm true (d x)) ∧ given (.fcvtdgu lc t a 0 0) (fmt64.toInteger rm false (d x)) ∧
      given (.fcvtsg lc t a 0 0) (fmt32.toInteger rm true (w xs)))

/-- 04 R107: an enabled invalid or divide-by-zero suppresses FADD and FDIV with an IEEE exception and its DXC; with these off, an enabled overflow, underflow or inexact writes the result first. 04 R108, R110, R111, R112: the special cases of both formats. The first NaN operand is the result, quieted, and a signalling one raises invalid; infinities of opposite sign, zero times infinity, 0/0, ∞/∞ and the root of a negative number raise invalid and give the default NaN; a finite number over zero gives an infinity and divide-by-zero; an exact zero sum is −0 only when rounding down or both are −0; a compare with a NaN is unordered. -/
def Obligations.FloatingPointTraps : Prop :=
  (∀ (s : State) (lc : Nat) (t a b : BitVec 5), Ready s lc 4 →
     let r := (s.core lc).arch
     let traps := fun (i : Instr) (v : Nat × Nat) =>
       let on := v.2 &&& r.fpEna
       let dxc := if on.testBit 4 then 0x80 else if on.testBit 3 then 0x40 else if on.testBit 2 then 0x20 else if on.testBit 1 then 0x10 else 0x08
       (on &&& 24 ≠ 0 → TrapsAt i s lc 4 0x0C (BitVec.ofNat 64 dxc)) ∧
       (on ≠ 0 → on &&& 24 = 0 → ThenTraps i s lc 4 0x0C dxc (r.fpFlags v.2 (r.setF t (BitVec.ofNat 64 v.1))))
     let x := fmt64.unpack (r.getF a).toNat
     let y := fmt64.unpack (r.getF b).toNat
     traps (.fadd lc t a b 0) (fmt64.add r.fpRm x y) ∧ traps (.fmul lc t a b 0) (fmt64.mul r.fpRm x y) ∧ traps (.fdiv lc t a b 0) (fmt64.div r.fpRm x y) ∧
     traps (.fsqrt lc t a 0 0) (fmt64.sqrt r.fpRm x)) ∧
  (∀ (f : Fmt), f = fmt64 ∨ f = fmt32 → ∀ (rm : Nat) (n n' : Bool) (fr m m' : Nat) (e e' : Int) (x : Fp), 0 < fr → 0 < m → 0 < m' → (∀ q k, x ≠ .nan q k) →
     let quieted := f.quiet n fr
     let nv := if fr.testBit (f.fb - 1) then 0 else 16
     f.add rm (.nan n fr) x = (quieted, nv) ∧ f.add rm x (.nan n fr) = (quieted, nv) ∧ f.mul rm x (.nan n fr) = (quieted, nv) ∧
     f.div rm (.nan n fr) x = (quieted, nv) ∧ f.sqrt rm (.nan n fr) = (quieted, nv) ∧ f.compare true x (.nan n fr) = (3, 16) ∧
     f.compare false x (.nan n fr) = (3, nv) ∧
     f.add rm (.inf n) (.inf (!n)) = (f.dnan, 16) ∧ f.mul rm (.inf n) (.fin n' 0 e) = (f.dnan, 16) ∧ f.div rm (.fin n 0 e) (.fin n' 0 e') = (f.dnan, 16) ∧
     f.div rm (.inf n) (.inf n') = (f.dnan, 16) ∧ f.sqrt rm (.fin true m e) = (f.dnan, 16) ∧ f.sqrt rm (.inf true) = (f.dnan, 16) ∧
     f.div rm (.fin n m e) (.fin n' 0 e') = (f.infBits (n != n'), 8) ∧ f.div rm (.fin n m e) (.inf n') = (f.sign (n != n'), 0) ∧
     f.add rm (.inf n) (.fin n' m e) = (f.infBits n, 0) ∧ f.mul rm (.inf n) (.fin n' m e) = (f.infBits (n != n'), 0) ∧
     f.add rm (.fin n m e) (.fin (!n) m e) = (f.sign (rm == 3), 0) ∧ f.add rm (.fin n 0 e) (.fin n 0 e') = (f.sign n, 0) ∧
     f.add rm (.fin n 0 e) (.fin (!n) 0 e') = (f.sign (rm == 3), 0) ∧
     f.compare false (.fin n 0 e) (.fin n' 0 e') = (0, 0) ∧ f.compare false (.fin true m e) (.fin false m' e') = (1, 0) ∧ f.compare false (.fin false m e) (.inf true) = (2, 0))

/-- 04 R106: rounding a magnitude that the format holds exactly gives it back, with no condition, in every mode: packing what was unpacked is the identity on finite data. -/
def Obligations.ExactResultsRoundToThemselves : Prop :=
  ∀ (f : Fmt), f = fmt64 ∨ f = fmt32 → ∀ (rm x : Nat) (n : Bool) (m : Nat) (e : Int), x < 2 ^ (f.fb + f.eb + 1) → f.unpack x = .fin n m e → f.round rm n m e false = (x, 0)

/-- 03 R60, R85: branches. A relative target is the branch's own address plus four times the offset; BAL and BALR save the address of the next instruction; a conditional branch looks at bit CC of its mask; BCT counts down to zero. A register target that is not a multiple of four is a specification exception. 03 R74, R87, R92, 07 R171, 09 R222: with no store held, SYNC, ISYNC, NOP, PAUSE and every other hint change nothing but the next address. 03 R59, R62, R66, R67, R76, R92, Tables INS-1 and INS-5: the words of the core's instructions. The major opcode of the first word decides the length and the format; the fields become the operands; a minor that is not defined makes an undefined opcode; major 0x3E holds the hints, PAUSE for number 1 and NOP for every other one. -/
def Obligations.BranchesAndHints : Prop :=
  (∀ (s : State) (lc : Nat) (t a b : BitVec 5) (off : BitVec 26) (imm : BitVec 16), Ready s lc 4 → (s.core lc).arch.psw.ia.extractLsb' 0 2 = 0 →
     let r := (s.core lc).arch
     let ia := r.psw.ia
     let far := ia + 4 * off.signExtend 64
     let near := ia + 4 * imm.signExtend 64
     let mask := fun (m : BitVec 5) => m.getLsbD r.psw.cc.toNat
     let x := r.getG a
     Goes (.b lc off) s lc (r.setIa far) ∧ Goes (.bal lc off) s lc ((r.setG 15 (ia + 4)).setIa far) ∧
     (t.getLsbD 4 = false → (mask t = true → Goes (.bc lc t 0 imm) s lc (r.setIa near)) ∧ (mask t = false → Completes (.bc lc t 0 imm) s lc 4 r)) ∧
     (r.getG t ≠ 1 → Goes (.bct lc t 0 imm) s lc ((r.setG t (r.getG t - 1)).setIa near)) ∧ (r.getG t = 1 → Completes (.bct lc t 0 imm) s lc 4 (r.setG t 0)) ∧
     (x.extractLsb' 0 2 = 0 →
       Goes (.br lc 0 a 0 0) s lc (r.setIa x) ∧ Goes (.balr lc t a 0 0) s lc ((r.setG t (ia + 4)).setIa x) ∧
       (b.getLsbD 4 = false → mask b = true → Goes (.bcr lc 0 a 0 b) s lc (r.setIa x))) ∧
     (b.getLsbD 4 = false → mask b = false → Completes (.bcr lc 0 a 0 b) s lc 4 r) ∧
     (x.extractLsb' 0 2 ≠ 0 → Traps (.br lc 0 a 0 0) s lc 4 6 ∧ Traps (.balr lc t a 0 0) s lc 4 6)) ∧
  (∀ (s : State) (lc : Nat) (num : BitVec 10) (opnd : BitVec 16), Ready s lc 4 →
     let r := (s.core lc).arch
     Completes (.sync lc 0 0 0) s lc 4 r ∧ Completes (.isync lc 0 0 0) s lc 4 r ∧ Completes (.nop lc num opnd) s lc 4 r ∧ Completes (.pause lc opnd) s lc 4 r) ∧
  (∀ (lc : Nat) (w v : BitVec 32),
     let op := w.extractLsb' 26 6
     let t : BitVec 5 := w.extractLsb' 21 5
     let a : BitVec 5 := w.extractLsb' 16 5
     let b : BitVec 5 := w.extractLsb' 11 5
     let c : BitVec 5 := w.extractLsb' 6 5
     let low := w.extractLsb' 0 6
     let sub := w.extractLsb' 20 6
     let imm : BitVec 16 := w.extractLsb' 0 16
     let is := fun (i : Instr) => decodeCore lc w v = i
     (coreIlc w = if op = 0x2F ∨ op = 0x3A then 8 else 4) ∧
     (op = 0x00 → (low = 0x01 → is (.add lc t a b c)) ∧ (low = 0x20 → is (.mov lc t a b c)) ∧ (low = 0 ∨ 0x20 < low.toNat → is (.undefinedOpcode lc w))) ∧
     (op = 0x23 → low = 0x01 → is (.ldx lc t a b c)) ∧ (op = 0x24 → low = 0x04 → is (.cas128 lc t a b c)) ∧ (op = 0x27 → low = 0x06 → is (.fma lc t a b c)) ∧
     (op = 0x27 → low = 0x21 → is (.fadds lc t a b c)) ∧ (op = 0x27 → low = 0x12 → is (.undefinedOpcode lc w)) ∧ (op = 0x3D → low = 0x03 → is (.ciph lc t a b c)) ∧
     (op = 0x01 → is (.addi lc t a imm)) ∧ (op = 0x10 → is (.ld lc t a imm)) ∧ (op = 0x1C → is (.stp lc t a imm)) ∧ (op = 0x2C → is (.bc lc t a imm)) ∧
     (op = 0x29 → is (.b lc (w.extractLsb' 0 26))) ∧ (op = 0x2A → is (.bal lc (w.extractLsb' 0 26))) ∧
     (op = 0x2F → (w.extractLsb' 11 5 = (1 : BitVec 5) → is (.liw lc t a (w.extractLsb' 0 11) v)) ∧ (w.extractLsb' 11 5 = (5 : BitVec 5) → is (.undefinedOpcode lc w))) ∧
     (op = 0x30 → (sub = 3 → is (.mfsr lc (w.extractLsb' 15 5) (w.extractLsb' 10 5) (w.extractLsb' 0 10))) ∧ (sub = 0 → is (.undefinedOpcode lc w))) ∧
     (op = 0x3A → w.extractLsb' 0 8 = (1 : BitVec 8) → is (.addp lc t a (w.extractLsb' 12 4) (w.extractLsb' 8 4) (v.extractLsb' 16 16) (v.extractLsb' 0 16))) ∧
     (op = 0x3E → (w.extractLsb' 16 10 = (1 : BitVec 10) → is (.pause lc imm)) ∧ (w.extractLsb' 16 10 ≠ (1 : BitVec 10) → is (.nop lc (w.extractLsb' 16 10) imm))) ∧
     (op = 0x3F → is (.undefinedOpcode lc w)))

/-- 02 R39, R40, R47: CALLW makes the next frame the window, saves the return address in its W7 and branches; the new out registers hold free values (log 5), every other register stays. RETW branches to W7 and goes back a frame, unless a spill that has begun takes that frame away (log 52). B7 has four windows that do not wrap; the fifth is a check stop, and a return with one window a specification exception. -/
def Obligations.WindowCalls : Prop :=
  ∀ (s : State) (lc : Nat) (off : BitVec 26), Ready s lc 4 → (s.core lc).arch.psw.ia.extractLsb' 0 2 = 0 →
    let r := (s.core lc).arch
    let bank := r.psw.bank.toNat
    let cwp := r.cwp bank
    let nres := r.nres bank
    let next := if bank = 7 then cwp + 1 else (cwp + 1) % 8
    let prev := if bank = 7 then cwp - 1 else (cwp + 7) % 8
    ((if bank = 7 then nres < 4 ∧ cwp < 3 else nres < 6 ∨ nres = 6 ∧ (s.core lc).xfer ≠ some (bank, false)) →
      Does (.callw lc off) s (fun t =>
        let u := (t.core lc).arch
        OnlyCore s t lc ∧ u.psw = { r.psw with ia := r.psw.ia + 4 * off.signExtend 64 } ∧ u.cwp bank = next ∧ u.nres bank = nres + 1 ∧ u.spdepth bank = r.spdepth bank ∧
        (∀ n, n ≠ bank → u.wstOf n = r.wstOf n) ∧ u.g = r.g ∧ u.f = r.f ∧ u.sr = r.sr ∧ u.wsp = r.wsp ∧ u.tbc = r.tbc ∧ u.getG 23 = r.psw.ia + 4 ∧
        (∀ i, i < 7 → u.getGB bank (16 + i) = r.getGB bank (24 + i)) ∧
        (∀ k, k / 8 ≠ bank * 8 + (next + 1) % 8 → k ≠ winKey bank cwp 15 → u.w.get 0 k = r.w.get 0 k))) ∧
    ((r.getG 23).extractLsb' 0 2 = 0 → (if bank = 7 then 2 ≤ nres ∧ 1 ≤ cwp else 2 < nres ∨ nres = 2 ∧ (s.core lc).xfer ≠ some (bank, true)) →
      Goes (.retw lc 0 0 0 0) s lc ((r.setWin bank prev (nres - 1)).setIa (r.getG 23))) ∧
    (bank = 7 → nres = 4 ∨ cwp = 3 → Does (.callw lc off) s (fun t => (t.core lc).run = .checkStop ∨ (t.core lc).run = .fenced)) ∧
    (bank = 7 → nres = 1 ∨ cwp = 0 → Traps (.retw lc 0 0 0 0) s lc 4 6)

/-- 02 R32 to R36, R47, R53, R54: LPSW loads the PSW from an aligned quadword when its image is legal for the state; SETB changes the bank; special registers, feature registers and the registers of another bank are read and written; STTB reads the time base, SETTC and STTC the comparator; EPSW copies PSW doubleword 0. A number that is not assigned is an operation exception, a register above the state a privileged-operation exception. -/
def Obligations.SystemRegisters : Prop :=
  ∀ (s : State) (lc : Nat) (t a : BitVec 5) (sys : BitVec 10) (v : Nat), Ready s lc 4 →
    let r := (s.core lc).arch
    let st := r.psw.state.toNat
    let n := (sys.extractLsb' 0 6).toNat
    let x := r.getG a
    let d0 := BitVec.ofNat 64 (v / 2 ^ 64)
    let d1 := BitVec.ofNat 64 v
    let opened := r.psw.pid = 0 ∨ r.getSr 0x33 = 0
    (1 ≤ st → x.toNat % 16 = 0 → s.loadNat ((s.core lc).xctx lc) x 16 = .ok s v → pswBad d0 d1 = false → r.psw.bank ≠ 7 → (Psw.ofDws d0 d1).bank ≠ 7 →
      (st = 2 ∨ (st = 1 ∧ (Psw.ofDws d0 d1).state ≠ 2)) →
      Goes (.lpsw lc 0 a 0) s lc { r with psw := if st = 1 then { Psw.ofDws d0 d1 with pid := r.psw.pid } else Psw.ofDws d0 d1 }) ∧
    (∀ k : BitVec 3, k ≠ 7 → (st ≠ 0 ∨ (r.getSr 0x0B).getLsbD k.toNat = true) →
      Completes (.setb lc 0 0 (k.setWidth 10)) s lc 4 { (if r.psw.bank = 7 then r.setWin 7 0 1 else r) with psw := { r.psw with bank := k } }) ∧
    (∀ k : BitVec 3, k ≠ 7 → st = 0 → (r.getSr 0x0B).getLsbD k.toNat = false → Traps (.setb lc 0 0 (k.setWidth 10)) s lc 4 2) ∧
    Traps (.setb lc 0 0 7) s lc 4 6 ∧
    (sys.extractLsb' 6 4 = 0 →
      (∀ low, r.srLow n false = some low → (low ≤ st → Completes (.mfsr lc t 0 sys) s lc 4 (r.setG t (s.srRead lc n))) ∧ (st < low → Traps (.mfsr lc t 0 sys) s lc 4 2)) ∧
      (r.srLow n false = none → Traps (.mfsr lc t 0 sys) s lc 4 1) ∧
      (∀ low, r.srLow n true = some low → (s.core lc).srBad n x = false → opened →
        (low ≤ st → n ≠ 8 ∧ n ≠ 9 ∧ n ≠ 0x34 ∧ n ≠ 0x10 → Completes (.mtsr lc 0 a sys) s lc 4 (r.setSr n x)) ∧
        (low ≤ st → n = 8 → Completes (.mtsr lc 0 a sys) s lc 4 { r with wsp := r.wsp.put r.psw.bank.toNat x }) ∧
        (low ≤ st → n = 0x34 → Does (.mtsr lc 0 a sys) s (fun u => u.p2base = x ∧ u.mem = s.mem ∧ (u.core lc).arch = r.setIa (r.psw.ia + 4))) ∧
        (st < low → Traps (.mtsr lc 0 a sys) s lc 4 2))) ∧
    (1 ≤ st → opened →
      (∀ k : BitVec 3, Completes (.readf lc t 0 (k.setWidth 10)) s lc 4 (r.setG t (s.feat lc k.toNat))) ∧
      Completes (.settc lc 0 a 0) s lc 4 { r with tbc := x } ∧ Completes (.sttc lc t 0 0) s lc 4 (r.setG t r.tbc) ∧
      (r.bwBad a = false → (s.core lc).bwWait = false → Completes (.movfb lc t a 0) s lc 4 (r.setG t ((s.core lc).bwGet a))) ∧
      (r.bwBad t = false → r.bwFile ≠ 2 → (s.core lc).bwWait = false → Completes (.movtb lc t a 0) s lc 4 ((s.core lc).bwPut t x).arch)) ∧
    Completes (.epsw lc t 0 0) s lc 4 (r.setG t r.psw.dw0) ∧ Completes (.sttb lc t 0 0) s lc 4 (r.setG t s.fab.tb)

/-- 02 R36: MOVFB and MOVTB reach G, W and F registers of the bank that BANKWIN names: what MOVTB writes MOVFB reads back, and the registers of other banks stay. -/
def Obligations.BankWindowReadsBack : Prop :=
  ∀ (c : Core) (x : BitVec 5) (v : W64), c.arch.bwFile ≠ 2 → (c.arch.bwFile = 0 ∨ c.arch.bwFile = 1) →
    (c.bwPut x v).bwGet x = v ∧ (c.bwPut x v).stbuf = c.stbuf ∧ (c.bwPut x v).arch.psw = c.arch.psw ∧
    ∀ n k, n ≠ c.arch.bwBank → n < 8 → k < 32 →
      (c.bwPut x v).arch.getGB n k = c.arch.getGB n k ∧ (c.bwPut x v).arch.f.get 0 (n * 32 + k) = c.arch.f.get 0 (n * 32 + k)

/-- 02 R49 to R52: what an entry leaves in the core. Whatever the class, the new PSW has BANK 7, the monitor's PID 0 or the partition's own, STATE below monitor in the partition's area and an aligned IA; B7 shows window 0 after an entry from another bank and one more window after one from B7; the old PSW and the identification are held stores of the entry, the register files stay. -/
def Obligations.InterruptionEntry : Prop :=
  ∀ (s u : State) (lc : Nat) (q : IntReq) (oldIa : W64) (monitor : Bool) (places : List (List (Nat × Nat) × List Byte)) (d0 d1 : W64),
    s.entryArea lc q oldIa monitor = .ok s places d0 d1 → s.enterAt lc q oldIa monitor = .ok u →
    let r := (s.core lc).arch
    let n := (u.core lc).arch
    n.psw = { Psw.ofDws d0 d1 with bank := 7, pid := if monitor then 0 else r.psw.pid } ∧ n.psw.state ≠ 3 ∧ (monitor = false → n.psw.state ≠ 2) ∧
    n.psw.ia.extractLsb' 0 2 = 0 ∧ n.g = r.g ∧ n.w = r.w ∧ n.f = r.f ∧ n.wsp = r.wsp ∧ n.tbc = r.tbc ∧ n.bp = r.bp ∧
    (if r.psw.bank = 7 ∧ q ≠ .restart then n.cwp 7 = r.cwp 7 + 1 ∧ n.nres 7 = r.nres 7 + 1 else n.cwp 7 = 0 ∧ n.nres 7 = 1) ∧
    (u.core lc).stbuf = places.foldl (fun b p => holdBytes b (if monitor then 0 else r.psw.pid) p.1 p.2) (s.core lc).stbuf ∧
    (∀ k, k ≠ lc → u.core k = s.core k) ∧ u.mem = s.mem ∧ u.ctl = s.ctl ∧ u.chn = s.chn ∧ u.fab = s.fab ∧ u.svc = s.svc ∧ u.out = s.out

/-- 02 R49, 03 R66, R67, 07 R168: SCALL enters with its immediate and an old PSW that addresses the next instruction; it counts as retired, and the entry belongs to the interval that begins with it. An undefined opcode is an operation exception. A waiting interruption of highest priority is taken at a boundary, a restart on a stopped core at once. -/
def Obligations.CallsAndEntries : Prop :=
  ∀ (s u : State) (lc : Nat) (t a : BitVec 5) (sys : BitVec 10) (w0 : BitVec 32) (x : IntSrc),
    let c := s.core lc
    let q := IntReq.svc ((t ++ a ++ sys : BitVec 20).setWidth 16)
    (Ready s lc 4 → t.extractLsb' 1 4 = 0 → s.enterAt lc q (c.arch.psw.ia + 4) (c.arch.psw.state == 2) = .ok u →
      Leaves (.scall lc t a sys) s ((u.updCore lc (fun d => ({ d with retired := d.retired + 1, lastIlc := 4 } : Core).countIns c.arch)).entered lc c.arch.psw.pid)) ∧
    (Ready s lc (coreIlc w0) → coreDefined w0 = false → Traps (.undefinedOpcode lc w0) s lc (coreIlc w0) 1) ∧
    (lc < 48 → s.canRun lc = true → s.pickInt lc = some x → c.mayTake = true → Leaves (.interruptionEntry lc) s (s.takePending lc x)) ∧
    (lc < 48 → c.wait ≠ .sync → c.replay = [] → s.pickInt lc = none → Leaves (.interruptionEntry lc) s s) ∧
    (lc < 48 → s.lcExists lc = true → c.pendRestart = true → s.flag F.FLT_FENCE_CXF = false → s.svc.resetHold = false → c.run = .stopped →
      Leaves (.restartInterruption lc) s (s.restartStopped lc)) ∧
    (lc < 48 → c.pendRestart = false → Leaves (.restartInterruption lc) s s)

/-- 02 R45, R49, R51, R53, 20 R494: the order of pending classes at a boundary. A machine check held for the complex goes to the lowest-numbered operating core with MCM = 1; with none, poisoned data that a transfer met, then a spill fault (before a pending program interruption: the model's choice, log 51), these before external interruptions with EXM = 1, the comparator first among them; a restart comes last. What a failed prefix keeps for the monitor's return is not among them. -/
def Obligations.InterruptionPriority : Prop :=
  ∀ (s : State) (lc b : Nat) (q : IntReq) (p : IntReq × W64) (id : W64) (abs : Option W64) (rest : List (Nat × IntReq)),
    let c := s.core lc
    (∀ m, s.svc.mcs = [m] → s.lowestCore = some lc → c.arch.psw.mcm = true → c.pendSpill = [] → s.pickInt lc = some (.machine m)) ∧
    (s.svc.mcs = [] → c.pendSpill = (b, .machine id abs) :: rest → s.pickInt lc = some (.poison b)) ∧
    (s.svc.mcs = [] → c.pendSpill = [(b, q)] → (∀ i a, q ≠ .machine i a) → c.kept ≠ some (.spill b) → s.pickInt lc = some (.spill b)) ∧
    (s.svc.mcs = [] → c.pendSpill = [] →
      (c.pendProg = some p → c.kept ≠ some .program → s.pickInt lc = some .program) ∧
      (c.pendProg = none ∨ c.kept = some .program →
        (c.arch.psw.exm = true → c.arch.tbc.toNat ≤ s.fab.tb.toNat → c.kept ≠ some (.external 0x1001) → s.pickInt lc = some (.external 0x1001)) ∧
        (c.arch.psw.exm = false → c.arch.psw.iom = false → s.pickInt lc = if c.pendRestart then some .restart else none)))

/-- 02 R41 to R44: the engine stores the oldest resident frame at WSP and moves WSP up 64 bytes, or loads the frame below from WSP − 64; SPDEPTH and NRES follow, the current window stays. -/
def Obligations.SpillAndFill : Prop :=
  ∀ (s : State) (lc bank : Nat) (places : List (Nat × Nat)) (bs : List Byte), lc < 48 →
    let c := s.core lc
    let r := c.arch
    let x : XCtx := { c.xctx lc with st := max 1 r.psw.state.toNat }
    let wsp := r.wsp.get 0 bank
    let top := (r.cwp bank + 9 - r.nres bank) % 8
    let below := (r.cwp bank + 8 - r.nres bank) % 8
    let frame := (List.range 8).flatMap (fun i => toBytes 8 (r.w.get 0 (bank * 64 + top * 8 + i)).toNat)
    let buf := holdBytes c.stbuf r.psw.pid places frame
    (s.engineRuns lc (bank, true) = true → r.spdepth bank < 2 ^ 32 - 1 → s.checkStore x .wr 2 wsp 64 = .ok s places → buf.length ≤ 80 →
      Does (.spillFrame lc) s (fun t =>
        let n := (t.core lc).arch
        OnlyCore s t lc ∧ (t.core lc).stbuf = buf ∧ n.wsp.get 0 bank = wsp + 64 ∧ n.spdepth bank = r.spdepth bank + 1 ∧ n.nres bank = r.nres bank - 1 ∧
        n.cwp bank = r.cwp bank ∧ n.psw = r.psw ∧ n.g = r.g ∧ n.w = r.w ∧ n.f = r.f ∧ ∀ b, b ≠ bank → n.wsp.get 0 b = r.wsp.get 0 b ∧ n.wstOf b = r.wstOf b)) ∧
    (s.engineRuns lc (bank, false) = true → r.nres bank < 7 → bs.length = 64 → s.loadBytes x 2 (wsp - 64) 64 = .ok s bs →
      Does (.fillFrame lc) s (fun t =>
        let n := (t.core lc).arch
        OnlyCore s t lc ∧ (t.core lc).stbuf = c.stbuf ∧ n.wsp.get 0 bank = wsp - 64 ∧ n.spdepth bank = r.spdepth bank - 1 ∧ n.nres bank = r.nres bank + 1 ∧
        n.cwp bank = r.cwp bank ∧ n.psw = r.psw ∧ n.g = r.g ∧ n.f = r.f ∧
        (∀ i, i < 8 → n.w.get 0 (bank * 64 + below * 8 + i) = BitVec.ofNat 64 (packBytes ((bs.drop (8 * i)).take 8))) ∧
        (∀ k, k / 8 ≠ bank * 8 + below → n.w.get 0 k = r.w.get 0 k) ∧ ∀ b, b ≠ bank → n.wsp.get 0 b = r.wsp.get 0 b ∧ n.wstOf b = r.wstOf b))

/-- 07 R167, R170, R174, R184: a comparison without a difference confirms the interval; the first mismatch, also of an interval that has begun and not ended, goes back to the checkpoint, keeps the confirmed stores and the input log, and starts attempt 1; after three attempts the retry is exhausted; an uncorrectable error of the checkpoint array loses the core. An attempt that has begun runs to its comparison. A parity error on a delay register is counted and retried. -/
def Obligations.CheckpointsAndRetry : Prop :=
  ∀ (s : State) (lc : Nat) (bad : Bool), lc < 48 →
    let c := s.core lc
    (s.canRun lc = true → c.broken = false →
      (c.bounded = true → Leaves (.checkpointComparison lc ⟨false, bad⟩) s ((s.confirmCore lc).endSync lc)) ∧
      (c.bounded = true ∨ c.begun = true →
        (c.retry = 0 → Leaves (.checkpointComparison lc ⟨true, true⟩) s (s.loseCore lc 2)) ∧ (c.retry = 3 → Leaves (.checkpointComparison lc ⟨true, bad⟩) s (s.retryExhausted lc)) ∧
        (c.retry = 0 → c.retryStart = none → s.mem.tlbWaits = [] → Does (.checkpointComparison lc ⟨true, false⟩) s (fun t =>
          let n := t.core lc
          n.retry = 1 ∧ n.retired = 0 ∧ n.entries = 0 ∧ n.bounded = false ∧ n.retryLeft = max c.retryLeft (c.retired + c.entries) ∧ n.retryStart = some s.fab.tb ∧ n.replay = c.inlog ++ c.replay ∧ n.inlog = [] ∧
          n.stbuf = c.stbuf.filter (fun e => e.conf) ∧ n.arch.psw = c.ckpt.psw ∧ n.arch.g = c.ckpt.g ∧ n.arch.w = c.ckpt.w ∧ n.arch.f = c.ckpt.f ∧ n.ckpt.psw = c.ckpt.psw ∧
          (∀ k, k ≠ lc → t.core k = s.core k) ∧ t.chn = s.chn ∧ t.fab = s.fab ∧ t.svc = s.svc ∧ t.out = s.out ∧ t.mem.bytes = s.mem.bytes ∧ t.mem.lines = s.mem.lines)))) ∧
    (∀ t0, c.retryStart = some t0 → s.canRun lc = true → c.retry ≠ 0 → Leaves (.retryTimeLimit lc) s (s.reach (t0.toNat + 8192))) ∧
    (s.canRun lc = true →
      let u := (s.count F.TAN_PCSTAT_PAR (some F.TAN_PCSTAT_POVF) c.phys).flt 2 1 c.phys
      (c.broken = true → Leaves (.delayRegisterParity ⟨lc, bad⟩) s u) ∧ (c.broken = false → Leaves (.delayRegisterParity ⟨lc, bad⟩) s (u.mismatch lc bad)))

/-- 07 R167: confirmation makes the running state the checkpoint but for the counters it updates, lets the held stores drain and ends the interval; it loses no register and no store. -/
def Obligations.ConfirmationKeepsTheState : Prop :=
  ∀ (s : State) (lc : Nat), (s.core lc).retry = 0 → (s.core lc).trbuf = [] →
    let c := s.core lc
    let n := ((s.confirmCore lc).core lc)
    n.arch.psw = c.arch.psw ∧ n.arch.g = c.arch.g ∧ n.arch.w = c.arch.w ∧ n.arch.f = c.arch.f ∧ n.arch.wsp = c.arch.wsp ∧ n.arch.wst = c.arch.wst ∧ n.arch.tbc = c.arch.tbc ∧
    n.ckpt = n.arch ∧ n.retired = 0 ∧ n.entries = 0 ∧ n.bounded = false ∧ n.inlog = [] ∧ n.stbuf.length = c.stbuf.length ∧ (∀ e ∈ n.stbuf, e.conf = true) ∧
    (∀ a d, fwdByte n.stbuf a d = fwdByte c.stbuf a d) ∧ (∀ k, k ≠ lc → (s.confirmCore lc).core k = s.core k) ∧ (s.confirmCore lc).mem.bytes = s.mem.bytes

/-- 07 R170, 09 R221: the drain of the oldest confirmed entry writes exactly its bytes, in the line's copy, and leaves every other byte of storage. -/
def Obligations.DrainWritesItsBytes : Prop :=
  ∀ (s : State) (lc : Nat) (e : StEnt) (rest : List StEnt) (c : CLine), lc < 48 → s.lcExists lc = true → s.flag F.FLT_FENCE_CXF = false →
    (s.core lc).wait ≠ .sync → s.mem.tlbWaits = [] → (s.core lc).stbuf = e :: rest → e.conf = true → e.addr % 64 = 0 → s.held (e.addr / 256) = some c → c.serves e.pid.toNat .wr = true →
    Does (.storeBufferDrain lc) s (fun t =>
      (t.core lc).stbuf = rest ∧ (t.core lc).arch = (s.core lc).arch ∧ (∀ k, k ≠ lc → t.core k = s.core k) ∧
      (∀ a, t.byteAt a = if e.covers a then e.byte a else s.byteAt a) ∧ (∃ d, t.held (e.addr / 256) = some { c with st := .m, data := d, stype := 0 }) ∧
      t.chn = s.chn ∧ t.fab = s.fab ∧ t.svc = s.svc ∧ t.out = s.out ∧ t.mem.bytes = s.mem.bytes)

/-- 02 R53, R55, 07 R169, R177 to R184: time, counter, self-check (one for every 2^20 checkpoints), sparing and checkpoint-read events of a core; a move waits while a confirmed store does. Where the spec is open it follows the model's choices of logs 54, 4, 24 and 10. 03 R87, R88, 07 R183: SIGC makes external 0x1201 pending on an operating core of the same PID and sets the condition code; RSTC makes a restart pending. LOADC and STOREC, in monitor state, read and write control space. Where the spec is open it follows the model's choices of log 54. -/
def Obligations.CoreEvents : Prop :=
  (∀ (s : State) (lc pc k n : Nat) (src : Src) (v : W64) (bad lines : List Nat) (missed : Bool) (x : Item), lc < 48 → pc < 56 → k < 32 → n < 8 →
     let c := s.core lc
     Does (.timeBaseComparator lc) s (fun t => t.fab.tb.toNat = max s.fab.tb.toNat c.arch.tbc.toNat ∧ t.externalPending lc 0x1001 = true ∧ t.cores = s.cores ∧ t.mem = s.mem ∧ t.chn = s.chn ∧ t.svc = s.svc) ∧
     (c.run = .running → c.arch.pmcOn n (fieldOf (c.arch.getSr (0x18 + n)) 15 0) = true → fieldOf (c.arch.getSr 0x10) 16 16 = 0 →
       Does (.pmcOverflow lc n) s (fun t =>
         let r := (t.core lc).arch
         OnlyCore s t lc ∧ r.getSr (0x20 + n) = 0 ∧ fieldOf (r.getSr 0x10) (8 + n) (8 + n) = 1 ∧ r.psw = c.arch.psw ∧ r.g = c.arch.g ∧
         (fieldOf (c.arch.getSr 0x10) 2 2 = 1 → 0x1301 ∈ (t.core lc).pendExt))) ∧
     (s.lcOf pc = some lc →
       let u := s.updSvc (fun z => { z with selfSlot := z.selfSlot.upd 0 pc (fun m => m + 1) })
       (s.svc.selfSlot.get 0 pc < s.svc.ckptCount.get 0 pc / 2 ^ 20 →
         Leaves (.selfCheckSlot pc true) s (u.setFld F.TAN_PCSTAT_SCOK ((s.fld F.TAN_PCSTAT_SCOK pc + 1) % 65536) pc) ∧
         Leaves (.selfCheckSlot pc false) s ((u.flt 2 5 pc).requestSparing lc true)) ∧
       (s.svc.ckptCount.get 0 pc / 2 ^ 20 ≤ s.svc.selfSlot.get 0 pc → Leaves (.selfCheckSlot pc missed) s s)) ∧
     (s.flag F.FLT_FENCE_CXF = false → s.moveNow = some lc →
       let u := (((s.setMoving (some lc)).discardCore lc).accessGone lc).drainAll lc
       let z := (u.cleanBad (u.pcOf lc) lines).setMoving none
       ((u.core lc).stbuf ≠ [] → Leaves (.sparingMove lc ⟨bad, lines⟩ missed) s u) ∧
       ((u.core lc).stbuf = [] →
         Leaves (.sparingMove lc ⟨bad, lines⟩ true) s (z.loseCore lc 2) ∧
         (∀ w p, z.chooseSpare bad (z.spareList (z.pcOf lc)) = (w, some p) → Leaves (.sparingMove lc ⟨bad, lines⟩ false) s (w.moveTo lc p)) ∧
         (∀ w, z.chooseSpare bad (z.spareList (z.pcOf lc)) = (w, none) → Leaves (.sparingMove lc ⟨bad, lines⟩ false) s (w.loseCore lc 1)))) ∧
     (fieldOf v 63 63 = 1 →
       let m := fieldOf v 5 0
       (s.lcExists m = true → (s.core m).run ≠ .lost → (s.core m).run ≠ .checkStop → Leaves (.tanSpreq src v) s (s.requestSparing m false)) ∧
       ((s.core m).run = .lost → Leaves (.tanSpreq src v) s (s.cfgErr src 0x500008))) ∧
     (s.fld F.TAN_CKSEL_LC = lc → s.lcExists lc = true → c.run = .checkStop → itemOf (s.fld F.TAN_CKSEL_INDEX) = some x →
       Does (.tanCkdataRead ⟨src, false⟩) s (fun t => t.busData = s.itemGet c.ckpt x ∧ t.cores = s.cores ∧ t.mem = s.mem ∧ t.chn = s.chn ∧ t.svc = s.svc ∧ t.out = s.out) ∧
       Does (.tanCkdataRead ⟨src, true⟩) s (fun t => t.busData = 0 ∧ (t.core lc).run = .lost ∧ (t.core lc).lostCkpt = true)) ∧
     (0 < k → k < 31 → Leaves (.tanModeWrite src k v) s (s.wrReg src (0x500100 + k * 8) v)) ∧
     Leaves (.tanModeWrite src 0 v) s (s.wrReg src 0x500100 (putField v 63 56 0)) ∧ Leaves (.tanModeWrite src 31 v) s (s.wrReg src 0x5001F8 (putField v 7 0 0))) ∧
  (∀ (s : State) (lc n : Nat) (t a : BitVec 5) (cc : BitVec 2),
     let r := (s.core lc).arch
     let v := r.getG t
     let x := r.getG a
     let given := fun (restart : Bool) =>
       let p := s.signal n r.psw.pid.toNat restart
       (p.1.updArch lc (fun q => q.setCc p.2)).logInput lc .signal 0 p.2
     (Ready s lc 4 → r.psw.state = 2 → r.opened →
       (v = BitVec.ofNat 64 (s.cxid * 256 + n) → s.cxid < 1024 → n < 256 → Retires (.sigc lc t 0 0) s lc 4 (given false) ∧ Retires (.rstc lc t 0 0) s lc 4 (given true)) ∧
       (x.toNat < 0x4000000 → x.toNat % 8 = 0 →
         Retires (.loadc lc t a 0) s lc 4 (((s.ctlRead .core x.toNat).1.logInput lc .loadc ((s.ctlRead .core x.toNat).2.setWidth 256) 0).updArch lc (fun q => q.setG t (s.ctlRead .core x.toNat).2)) ∧
         (let u := (s.logInput lc .storec 0 0).ctlWrite .core x.toNat v
          (u.core lc).run = .running → Retires (.storec lc t a 0) s lc 4 u))) ∧
     (ReadyWith s lc 4 (.ccGot cc) → r.psw.state = 2 → r.opened → v.toNat < 2 ^ 18 →
       Completes (.sigc lc t 0 0) s lc 4 (r.setCc cc) ∧ Completes (.rstc lc t 0 0) s lc 4 (r.setCc cc)) ∧
     (s.lcExists n = true → (s.core n).run = .running → s.flag F.FLT_FENCE_CXF = false → (s.core n).arch.psw.pid = r.psw.pid →
       (s.signal n r.psw.pid.toNat false).2 = 0 ∧ 0x1201 ∈ ((s.signal n r.psw.pid.toNat false).1.core n).pendExt ∧
       (s.signal n r.psw.pid.toNat true).2 = 0 ∧ ((s.signal n r.psw.pid.toNat true).1.core n).pendRestart = true) ∧
     (s.lcExists n = true → (s.core n).run = .running → (s.core n).arch.psw.pid ≠ r.psw.pid → s.signal n r.psw.pid.toNat false = (s, 1)))

/-- 03 R87, 05 R131, 08 R192 to R200: cache maintenance by address, range, and set and way, and the TLB operations, in supervisor or monitor state with the monitor's controls open: each does its operation and retires; a TLB operation completes when every other complex has answered and no access that used an entry in scope is outstanding here. Where the spec is open it follows the model's choices of logs 17, 53 and 70. 05 R131: the drop removes from every core of the complex exactly the TLB entries in scope. -/
def Obligations.MaintenanceInstructions : Prop :=
  (∀ (s u : State) (lc : Nat) (t a : BitVec 5), (s.core lc).arch.opened →
     let r := (s.core lc).arch
     let x := r.getG a
     let alone := s.others = [] ∧ s.mem.tlbWaits = []
     (Ready s lc 4 →
       (s.cmoAddr lc x .clean = .done u → Retires (.cleana lc 0 a 0) s lc 4 u) ∧ (s.cmoAddr lc x .clinv = .done u → Retires (.clinva lc 0 a 0) s lc 4 u) ∧
       Retires (.cleanr lc t a 0) s lc 4 (s.rangeIns lc t a .clean 1).1 ∧ Retires (.clinvr lc t a 0) s lc 4 (s.rangeIns lc t a .clinv 3).1 ∧
       (1 ≤ r.psw.state.toNat →
         (s.cmoAddr lc x .inval = .done u → Retires (.invala lc 0 a 0) s lc 4 (u.logInput lc .cache 0 0)) ∧
         Retires (.invalr lc t a 0) s lc 4 ((s.rangeIns lc t a .inval 2).1.logInput lc .cache 0 (s.rangeIns lc t a .inval 2).2) ∧
         (setWayBad x false = false → (s.setWay lc x .clean = .done u → Retires (.cleans lc 0 a 0) s lc 4 u) ∧ (s.setWay lc x .clinv = .done u → Retires (.clinvs lc 0 a 0) s lc 4 (u.logInput lc .cache 0 0))) ∧
         (setWayBad x true = false → s.setWay lc x .inval = .done u → Retires (.invals lc 0 a 0) s lc 4 (u.logInput lc .cache 0 0)) ∧
         (alone → (s.tlbLeft .va r.psw.pid = ([], []) → Retires (.tlbiv lc 0 a 0) s lc 4 ((s.dropTlb .va r.psw.pid x).logInput lc .tlb 0 0)) ∧
           (s.tlbLeft .pidAll r.psw.pid = ([], []) → Retires (.tlbia lc 0 0 0) s lc 4 ((s.dropTlb .pidAll r.psw.pid 0).logInput lc .tlb 0 0)))) ∧
       (r.psw.state = 2 → alone →
         ((r.getG t).toNat < 256 → s.tlbLeft .pidAll ((r.getG t).setWidth 8) = ([], []) → Retires (.tlbip lc t 0 0) s lc 4 ((s.dropTlb .pidAll ((r.getG t).setWidth 8) 0).logInput lc .tlb 0 0)) ∧
         (s.tlbLeft .everything 0 = ([], []) → Retires (.tlbiall lc 0 0 0) s lc 4 ((s.dropTlb .everything 0 0).logInput lc .tlb 0 0)))) ∧
     (ReadyWith s lc 4 (.tlbAcks []) → r.psw.state = 2 → s.tlbBusy s.cxid lc = false →
       Completes (.tlbiv lc 0 a 0) s lc 4 r ∧ Completes (.tlbia lc 0 0 0) s lc 4 r ∧ Completes (.tlbiall lc 0 0 0) s lc 4 r)) ∧
  (∀ (s : State) (k : TlbKind) (pid : BitVec 8) (va : W64) (lc : Nat) (e : TlbEnt),
     (e ∈ ((s.dropTlb k pid va).core lc).tlb ↔ e ∈ (s.core lc).tlb ∧ e.hit k pid va = false) ∧ ((s.dropTlb k pid va).core lc).arch = (s.core lc).arch)

/-- 03 R90, 06 R158 to R160: a unit of MOVL, CMPL, TRTL, CKSM and CKSM16 whose bytes can be reached takes as many bytes as its unit length, advances the addresses, counts the length down, and sets CC 0 at the end of the operand and CC 3 before it. 04 R101, 06 R158: under CT = 1 a unit takes the least of 4,096 and the length; under CT = 0 it takes no more than that. -/
def Obligations.LongInstructions : Prop :=
  (∀ (s u : State) (lc : Nat) (t a b : BitVec 5) (pt pa : List (Nat × Nat)) (bs bt tab : List Byte), Ready s lc 4 → t ≠ a → t ≠ b → a ≠ b →
     let r := (s.core lc).arch
     let x := (s.core lc).xctx lc
     let vt := r.getG t
     let va := r.getG a
     let len := r.getG b
     let advance := fun (k : Nat) (q : Arch) => ((q.setG t (vt + BitVec.ofNat 64 k)).setG a (va + BitVec.ofNat 64 k)).setG b (len - BitVec.ofNat 64 k)
     let cc := fun (n : Nat) => if n = len.toNat then (0 : BitVec 2) else 3
     (let n := unitLen r.psw.ct 32 (movPer vt va) 256 (fun k => 4 * (crossings vt k + crossings va k)) len;
       (s.checkStore x .wr (n / 256 + 2) vt n = .ok s pt → s.loadBytes x (n / 256 + 2) va n = .ok s bs → s.copyBytes x n vt va = .ok u () →
         Retires (.movl lc t a b 0) s lc 4 ((u.updArch lc (advance n)).unitCc lc (cc n))) ∧
       (r.psw.ct = false → ∀ k, s.compareBytes x 0 n vt va = .ok s (k, none) → Retires (.cmpl lc t a b 0) s lc 4 ((s.updArch lc (advance k)).unitCc lc (cc n))) ∧
       (r.psw.ct = false → ∀ k p q, s.compareBytes x 0 n vt va = .ok s (k, some (p, q)) →
         Retires (.cmpl lc t a b 0) s lc 4 ((s.updArch lc (advance k)).unitCc lc (if p.toNat < q.toNat then 1 else 2)))) ∧
     (let n := unitLen r.psw.ct (24 + 4 * crossings va 256) 64 64 (fun k => 4 * crossings vt k) len;
       0 < n → s.loadBytes x (n / 256 + 2) vt n = .ok s bt → s.checkStore x .wr (n / 256 + 2) vt n = .ok s pa → s.loadBytes x 3 va 256 = .ok s tab →
         s.storeBytes x vt (bt.map (fun i => tab.getD i.toNat 0)) = .ok u () →
         Retires (.trtl lc t a b 0) s lc 4 ((u.updArch lc (fun q => (q.setG t (vt + BitVec.ofNat 64 n)).setG b (len - BitVec.ofNat 64 n))).unitCc lc (cc n))) ∧
     (let n := unitLen r.psw.ct 24 16 256 (fun k => 4 * crossings va k) len;
       s.loadBytes x (n / 256 + 2) va n = .ok s bs →
         let sums := fun (v : W64) (q : Arch) => ((q.setG t v).setG a (va + BitVec.ofNat 64 n)).setG b (len - BitVec.ofNat 64 n)
         Retires (.cksm lc t a b 0) s lc 4 ((s.updArch lc (sums ((crc32c (vt.setWidth 32) bs).setWidth 64))).unitCc lc (cc n)) ∧
         Retires (.cksm16 lc t a b 0) s lc 4 ((s.updArch lc (sums (BitVec.ofNat 64 (ones16 (fieldOf vt 15 0) bs)))).unitCc lc (cc n)))) ∧
  (∀ (base per size : Nat) (extra : Nat → Nat) (len : W64),
     unitLen true base per size extra len = min 4096 len.toNat ∧ unitLen false base per size extra len ≤ min 4096 len.toNat)

/-- 03 R91, 04 R115 to R119: the decimal instructions, on valid operands that do not overlap: the result is stored in operand 1 with the preferred sign, truncated to its digits, CC by key D; an overflow with DOM = 0 sets CC 3; a zero divisor and an invalid digit suppress. CVDB and CVBD convert. Where the spec is open it follows the model's choices of log 68. -/
def Obligations.DecimalInstructions : Prop :=
  ∀ (s u : State) (lc : Nat) (b1 b2 : BitVec 5) (l1 l2 : BitVec 4) (d1 d2 : BitVec 16) (p q : List Byte) (places : List (Nat × Nat)) (v1 v2 : Int),
    let r := (s.core lc).arch
    let x := (s.core lc).xctx lc
    let e1 := r.getG b1 + d1.signExtend 64
    let e2 := r.getG b2 + d2.signExtend 64
    let n1 := l1.toNat + 1
    (Ready s lc 8 → decOverlap e1 e2 n1 (l2.toNat + 1) = false → s.loadBytes x 2 e1 n1 = .ok s p → s.loadBytes x 2 e2 (l2.toNat + 1) = .ok s q →
      s.checkStore x .wr 2 e1 n1 = .ok s places →
      (packedVal p = some v1 → packedVal q = some v2 →
        let result := fun (i : Instr) (v : Int) => s.storeBytes x e1 (packedBytes n1 (decide (v < 0)) v.natAbs) = .ok u () →
          (v.natAbs < 10 ^ (2 * n1 - 1) → Retires i s lc 8 (u.updArch lc (fun a => a.setCc (ccSign v)))) ∧
          (10 ^ (2 * n1 - 1) ≤ v.natAbs → (u.core lc).arch.psw.dom = false → Retires i s lc 8 (u.updArch lc (fun a => a.setCc 3)))
        result (.addp lc b1 b2 l1 l2 d1 d2) (v1 + v2) ∧ result (.subp lc b1 b2 l1 l2 d1 d2) (v1 - v2) ∧
        Completes (.cmpp lc b1 b2 l1 l2 d1 d2) s lc 8 (r.setCc (if v1 = v2 then 0 else if v1 < v2 then 1 else 2)) ∧
        (l2.toNat < l1.toNat → result (.mulp lc b1 b2 l1 l2 d1 d2) (v1 * v2) ∧ (v2 ≠ 0 → result (.divp lc b1 b2 l1 l2 d1 d2) (v1.tdiv v2)) ∧
          (v2 = 0 → Traps (.divp lc b1 b2 l1 l2 d1 d2) s lc 8 0x0B))) ∧
      (packedVal q = none → Traps (.addp lc b1 b2 l1 l2 d1 d2) s lc 8 7 ∧ Traps (.cmpp lc b1 b2 l1 l2 d1 d2) s lc 8 7)) ∧
    (Ready s lc 4 →
      (∀ v, s.loadBytes x 2 e1 16 = .ok s p → packedVal p = some v → (r.psw.fom = false ∨ fitsSigned 64 v = true) →
        Completes (.cvdb lc b2 b1 d1) s lc 4 ((r.setG b2 (BitVec.ofInt 64 v)).setCc (keyA 64 v))) ∧
      (let w := (r.getG b2).toInt
       s.storeBytes x e1 (packedBytes 16 (decide (w < 0)) w.natAbs) = .ok u () → Retires (.cvbd lc b2 b1 d1) s lc 4 u))

/-- 04 R115, R116: what a packed operand of n bytes is written with reads back as its value, with its sign, when its digits fit. -/
def Obligations.PackedReadsBack : Prop :=
  ∀ (n v : Nat) (neg : Bool), 0 < n → n ≤ 16 → v < 10 ^ (2 * n - 1) → packedVal (packedBytes n neg v) = some (if neg then -(v : Int) else v)

/-- 15 R356 to R358, 16 R369, R370: CMPRS, XPAND and CIPH with a request block at an aligned address. The completion of a unit by the engine is what the waiting instruction then picks up. A unit of an admissible request whose source can be read and whose destination can be written ends with CODE 0 in t and CC 3, or CC 0 when it is the last; the counts go back into the request block. Where the spec is open it follows the model's choices of logs 18 and 20. -/
def Obligations.EngineInstructions : Prop :=
  ∀ (s u v : State) (lc n0 b abs kind blk : Nat) (t a : BitVec 5) (k : CoreWait) (e : UnitEnd) (data aad : List Byte) (p q : List (Nat × Nat × W64)) (z : ZCtx) (c : CCtx) (key : BitVec 512),
    let r := (s.core lc).arch
    let addr := r.getG a
    let x := (s.core lc).xctx lc
    let here := abs * 256 + r.psw.pid.toNat
    let ready := fun (y : State) => y.updCore lc (fun d => { d with wait := .none })
    let told := fun (y : State) (word : Nat) (cc : BitVec 2) =>
      (((y.updArch lc (fun f => f.setG t (compWord 0 word))).unitCc lc cc).accessGone lc).logInput lc .engine ((compWord 0 word).setWidth 256) cc
    let at_ := fun (i : Nat) => BitVec.ofNat 64 (dw b 8 i)
    (lc < 48 → (s.core lc).wait = .unit kind blk → Leaves (.engineUnitCompletion lc e) s (s.updCore lc (fun d => { d with wait := .unitGot e.consumed }))) ∧
    (ReadyWith s lc 4 k → addr.toNat % 64 = 0 →
      (zExec false lc t s addr = .done u → Retires (.cmprs lc t a 0 0) s lc 4 u) ∧ (zExec true lc t s addr = .done u → Retires (.xpand lc t a 0 0) s lc 4 u) ∧
      (cExec lc t s addr = .done u → Retires (.ciph lc t a 0 0) s lc 4 u)) ∧
    (ReadyWith s lc 4 (.unitGot n0) → addr.toNat % 64 = 0 → s.loadNat x addr 64 = .ok s b → s.translate x addr .rd = .ok s abs →
      (∀ dec : Bool,
        let m : Agent := { tag := 128 + lc, pid := r.psw.pid.toNat, stype := 4 }
        let n := min (min n0 4096) (dw b 8 2 - z.inDone)
        let o := zUnit dec b z data (z.inDone + n = dw b 8 2)
        zRefusal s dec b = none → s.chn.zctx.find here = some z → s.engLoad x m (at_ 1 + BitVec.ofNat 64 z.inDone) n = .ok s data → o.code = 0 → o.raw = 0 →
        s.placesOf x .wr (at_ 3 + BitVec.ofNat 64 z.outDone) o.out.length = .ok s p → s.placesOf x .wr (addr + 40) 16 = .ok s q →
        s.engWrite m p o.out = .ok u () → u.engWrite m q (toBytes 8 o.z.inDone ++ toBytes 8 o.z.outDone) = .ok v () →
          Retires (if dec then .xpand lc t a 0 0 else .cmprs lc t a 0 0) s lc 4
            (told (if o.fin then (ready v).zFree here else (ready v).zPut here o.z) o.z.outDone (if o.fin then 0 else 3))) ∧
      (let m : Agent := { tag := 128 + lc, pid := r.psw.pid.toNat, stype := 5 }
       let d0 := dw b 8 0
       let mode := bits d0 55 53
       let len := dw b 8 2
       let iv := dw b 8 5 * 2 ^ 64 + dw b 8 6
       let n := min (min n0 4096) (len - c.inDone)
       let fin := c.inDone + n = len
       let buf := c.buf ++ data
       let text := cCrypt mode false (bits d0 52 52 == 1) key iv buf
       let out := text.drop c.out ++ (if fin ∧ mode ≤ 2 then gcmTag (modeKl mode) (keyOne mode key) (BitVec.ofNat 96 (iv / 2 ^ 32)) aad text else [])
       let d : CCtx := { c with inDone := c.inDone + n, buf := buf, key := some key, out := c.out + out.length }
       bits d0 63 56 = 1 → cRefusal s b = none → s.chn.cctx.find here = some c → s.ctxKey here c (bits d0 45 32) r.psw.pid.toNat mode false = some key →
       s.engLoad x m (at_ 1 + BitVec.ofNat 64 c.inDone) n = .ok s data → (if mode ≤ 2 then s.engLoad x m (at_ 4) (bits d0 31 0) = .ok s aad else aad = []) →
       s.engStore x m (at_ 3 + BitVec.ofNat 64 c.out) out = .ok u () → u.engStore x m (addr + 56) (toBytes 8 (c.inDone + n)) = .ok v () →
         Retires (.ciph lc t a 0 0) s lc 4 (told (if fin then (ready v).cFree here else (ready v).cPut here d) d.out (if fin then 0 else 3))) ∧
      (let m : Agent := { tag := 128 + lc, pid := r.psw.pid.toNat, stype := 5 }
       let d0 := dw b 8 0
       let n := min 4096 (dw b 8 2 - c.out)
       let text := ((cCrypt (bits d0 55 53) true (bits d0 52 52 == 1) key (dw b 8 5 * 2 ^ 64 + dw b 8 6) c.buf).drop c.out).take n
       bits d0 63 56 = 2 → cRefusal s b = none → s.chn.cctx.find here = some c → c.tagOk = true → c.key = some key →
       s.engStore x m (at_ 3 + BitVec.ofNat 64 c.out) text = .ok u () →
         Retires (.ciph lc t a 0 0) s lc 4
           (if c.out + n = dw b 8 2 then told ((ready u).cFree here) (dw b 8 2) 0 else told ((ready u).cPut here { c with out := c.out + n }) (c.out + n) 3)))

/-- 12 R287 to R289, R300, R309: SSCH answers with the condition code of Table VLX-3, and starts the exchange when it is accepted; TSCH stores the status of a subchannel at the address given and clears it. Where the spec is open it follows the model's choices of log 91. -/
def Obligations.SubchannelInstructions : Prop :=
  ∀ (s u w : State) (lc n i : Nat) (t a : BitVec 5) (cc : BitVec 2) (orb : Nat),
    let r := (s.core lc).arch
    let v := r.getG t
    let x := r.getG a
    let told := fun (z : State) (k : BitVec 2) (log : BitVec 256) => (z.updArch lc (fun q => q.setCc k)).logInput lc .subch log k
    (ReadyWith s lc 4 (.ccGot cc) → 1 ≤ r.psw.state.toNat → v.toNat < 65536 → x.toNat % 64 = 0 → Completes (.ssch lc t a 0) s lc 4 (r.setCc cc)) ∧
    (Ready s lc 4 → 1 ≤ r.psw.state.toNat → v = BitVec.ofNat 64 n → n < 65536 →
      (x.toNat % 64 = 0 → s.loadNat ((s.core lc).xctx lc) x 64 = .ok s orb → orbBad orb r.psw.pid.toNat = false →
        (∀ k, s.sschCond n r.psw.pid.toNat = some (k, none) → Retires (.ssch lc t a 0) s lc 4 (told s k 0)) ∧
        (s.sschCond n r.psw.pid.toNat = none → s.allocEntry = some (i, u) → u.buddy = none →
          Retires (.ssch lc t a 0) s lc 4 (told ((u.startExch n i orb ((u.upPaths (u.sch n)).headD 0) true).flt 7 2) 0 0))) ∧
      (x.toNat % 16 = 0 → (s.sch n).valid = true → fieldOf (s.sch n).def_ 247 240 = r.psw.pid.toNat → (s.sch n).final = false → (s.sch n).inter = true →
        ∀ pl, s.checkStore ((s.core lc).xctx lc) .wr 2 x 32 = .ok s pl → s.storeBytes ((s.core lc).xctx lc) x (toBytes 32 (s.sch n).scsw.toNat) = .ok w () →
          Retires (.tsch lc t a 0) s lc 4 (told ((w.unqueue n).setSch n { w.sch n with inter := false }) 0 (s.sch n).scsw)) ∧
      (x.toNat % 16 = 0 → (s.sch n).valid = false → Retires (.tsch lc t a 0) s lc 4 (told s 3 0)))

/-- 08 R191, R196 to R198, R201, R203, R205, 09 R211: the events of the cache arrays. A fill enters its array and its ECC result acts; a range engine does the next line of its oldest operation, ends it at the last, and stops it with END 0b10 at a failure; a lock entry becomes ready once its way is empty; a way group's transition ends with its lines gone when it powers down; the spare takes a way's place or the way, with the locks it carried, is retired; a directory way leaves service once its entries are gone. Where the spec is open it follows the model's choices of logs 25, 6, 53 and 56. -/
def Obligations.CacheEvents : Prop :=
  ∀ (s u z : State) (array line pid g n sl way : Nat) (c : CLine) (ecc : EccRes) (src : Src) (v : W64) (o : RangeOp) (rest : List RangeOp) (abs : Nat) (f : SFail),
    let a : W64 := BitVec.ofNat 64 (o.next.toNat / 256 * 256)
    let drop := fun (z : State) (l w : Nat) => z.dropWays l (fun k => k == w)
    (s.flag F.FLT_FENCE_CXF = false → s.held line = some c → c.pid.toNat = pid →
      (sl < 32 → sliceOf (line * 256) = sl → Leaves (.cacheFill (0x100 + sl) line pid ecc) s ((s.install line c).eccOn (0x100 + sl) line ecc)) ∧
      (array < 224 → array % 4 = 2 ∨ (array % 4 < 2 ∧ (s.mem.wayOf (array / 4 * 4 + 2) (setOf (array / 4 * 4 + 2) line) line 16).isSome = true) →
        let there := (s.mem.wayOf array (setOf array line) line (waysOf array)).isSome
        (there = false → Leaves (.cacheFill array line pid ecc) s (((s.fillPrivate array line pid).missCount array).eccOn array line ecc)) ∧
        (there = true → Leaves (.cacheFill array line pid ecc) s (s.eccOn array line ecc))) ∧
      (array < 224 → array % 4 < 2 → (s.mem.wayOf (array / 4 * 4 + 2) (setOf (array / 4 * 4 + 2) line) line 16).isSome = false → Leaves (.cacheFill array line pid ecc) s s)) ∧
    (g < 4 → s.flag F.FLT_FENCE_CXF = false → s.mem.range.get [] g = o :: rest → o.submitted = true →
      (s.rangeTrans g o (cmoNeed o.kind) = .ok z abs →
        let o' := (z.mem.range.get [] g).headD o
        z.cmoCore o'.lc (64 + g) o'.pid.toNat 0 (abs / 256) o'.kind = .done u →
        let w := if o'.counted || z.rangeLocked o' (abs / 256) then u.rangeLock o' else u
        (o'.next.toNat / 256 = o'.last.toNat / 256 →
          Leaves (.rangeEngineLine g) s ((w.rangeStat o'.lc (fun r => putField (putField r 63 63 0) 61 60 1) (o'.last + 1)).rangePop g)) ∧
        (o'.next.toNat / 256 ≠ o'.last.toNat / 256 →
          let n : W64 := BitVec.ofNat 64 ((o'.next.toNat / 256 + 1) * 256)
          Leaves (.rangeEngineLine g) s ((w.rangeStat o'.lc (fun r => r) n).updMem (fun m => { m with
            range := m.range.upd [] g (fun q => match q with | _ :: r => { o' with next := n, counted := false } :: r | [] => []) })))) ∧
      (s.rangeTrans g o (cmoNeed o.kind) = .fail u f →
        Leaves (.rangeEngineLine g) s ((u.rangeStat o.lc (fun r => putField (putField (putField r 63 63 0) 61 60 2) 55 48 (f.rangeDetail (cmoNeed o.kind).acc).toNat) a).rangePop g))) ∧
    (g < 4 → s.mem.range.get [] g = [] → Leaves (.rangeEngineLine g) s s) ∧
    (n < 4 → s.lockBad n v = false → s.flag F.CAC_LOCKCTL_EN n = false →
      Leaves (.lockEntryEnable src n v) s ((s.wrReg src (0x600110 + n * 0x20) v).setFlag F.CAC_LOCKCTL_READY false n)) ∧
    (n < 4 → s.lockBad n v = true → Leaves (.lockEntryEnable src n v) s (s.refuseWr src (0x600110 + n * 0x20))) ∧
    (n < 4 → s.flag F.CAC_LOCKCTL_EN n = true → s.flag F.CAC_LOCKCTL_READY n = false →
      Leaves (.lockReady n) s (((List.range 32).foldl (fun z l => if bits (z.fld F.CAC_LOCKCTL_SLICES n) l l = 1 then drop z l (s.fld F.CAC_LOCKCTL_WAY n) else z) s).setFlag F.CAC_LOCKCTL_READY true n)) ∧
    (let tran := s.reg 0x600008
     let old := s.reg 0x600000
     (old ^^^ v) &&& tran = 0 → Leaves (.cacWaypwrWrite src v) s ((s.setReg 0x600000 ((v &&& ~~~tran) ||| (old &&& tran))).setReg 0x600008 (tran ||| (old ^^^ v)))) ∧
    (sl < 32 → g < 2 → (s.reg 0x600008).getLsbD (2 * sl + g) = true →
      ((s.reg 0x600000).getLsbD (2 * sl + g) = true → u = s.dropWays sl (fun w => decide (8 + 4 * g ≤ w) && decide (w < 12 + 4 * g)) →
        Leaves (.wayGroupTransitionEnd sl g) s (u.setReg 0x600008 (putField (s.reg 0x600008) (2 * sl + g) (2 * sl + g) 0))) ∧
      ((s.reg 0x600000).getLsbD (2 * sl + g) = false → Leaves (.wayGroupTransitionEnd sl g) s (s.setReg 0x600008 (putField (s.reg 0x600008) (2 * sl + g) (2 * sl + g) 0)))) ∧
    (sl < 32 → way < 16 → s.wayRetired sl way = false →
      let unit := 17 * sl + s.physWay sl way
      u = drop (s.sparedUnit 0x31 unit) sl way →
      (u.flag F.CAC_SLC_SPUSED sl = false →
        Leaves (.l3WaySparing sl way) s ((((u.setFlag F.CAC_SLC_SPUSED true sl).setFld F.CAC_SLC_SPWAY way sl).consume 2).flt 3 4 unit)) ∧
      (u.flag F.CAC_SLC_SPUSED sl = true →
        Leaves (.l3WaySparing sl way) s ((((u.locks sl).filter (fun p => p.2 == way)).foldl (fun z p => (z.setFlag F.CAC_LOCKCTL_LOST true p.1).flt 3 6)
          (u.setFld F.CAC_SLC_RETIRED (putBits (u.fld F.CAC_SLC_RETIRED sl) way way 1) sl)).flt 3 5 unit))) ∧
    (way < 16 → bits (s.fld F.COH_DIRSTAT_RETIRED) way way ≠ 1 →
      let unit := s.dirPhys way
      u = s.evictWay way →
      (u.mem.dir.any (fun p => p.2.way == way) = true → u.svc.sparePend.contains (0x40, unit) = false →
        Leaves (.directoryWaySparing way) s { u with svc := { u.svc with sparePend := u.svc.sparePend ++ [(0x40, unit)] } }) ∧
      (u.mem.dir.any (fun p => p.2.way == way) = false → u.flag F.COH_DIRSTAT_SPUSED = false →
        Leaves (.directoryWaySparing way) s (((((u.sparedUnit 0x40 unit).setFlag F.COH_DIRSTAT_SPUSED true).setFld F.COH_DIRSTAT_SPWAY way).consume 3).flt 4 2 unit)) ∧
      (u.mem.dir.any (fun p => p.2.way == way) = false → u.flag F.COH_DIRSTAT_SPUSED = true →
        Leaves (.directoryWaySparing way) s (((u.sparedUnit 0x40 unit).setFld F.COH_DIRSTAT_RETIRED (putBits (u.fld F.COH_DIRSTAT_RETIRED) way way 1)).flt 4 3 unit)))

/-- 09 R215, R217 to R219, R214: the home takes a request of another complex for a line that is homed here; it acts by the home's rules and nothing else of the command counts. A WRPL with FIRST above LAST and an ATOM whose operand is not aligned are no requests. Where the spec is open it follows the model's choices of logs 26, 28, 29, 55 and 58. 09 R214, R216, R230, R232, R234, R225, R226: what replies and writebacks do at the home. Where the spec is open it follows the model's choices of logs 26, 27 and 28. -/
def Obligations.HomeRequests : Prop :=
  (∀ (s : State) (q : CohReq) (place : BitVec 18) (first last off op : Nat) (data : Line) (far : Bool) (a b : W128) (kind : CmoKind),
     let r := fun k => { Req.mk0 k q.src q.tag q.line q.pid q.stype with hdr := q }
     (q.src < 1024 → q.src ≠ s.cxid → s.flag F.FLT_FENCE_CXF = false → s.homeOf (q.line * 256) = some s.cxid →
       Leaves (.rds q) s (s.homeReq (r .rds)) ∧ Leaves (.rdo q) s (s.homeReq (r .rdo)) ∧ Leaves (.upg q) s (s.homeReq (r .upg)) ∧
       Leaves (.rdsnap ⟨q, far⟩) s (s.homeReq { r .rdsnap with far := far }) ∧ Leaves (.cmo q kind) s (s.homeReq (r (.cmo kind))) ∧
       (first ≤ last → last < 256 → Leaves (.wrpl q place first last data) s (s.homeReq { r .wrpl with place := place, first := first, last := last, data := data })) ∧
       (off < 256 → 1 ≤ op → op ≤ 11 → off % 8 = 0 → (op = 4 → off % 16 = 0) →
         Leaves (.atom q off op far a b) s (s.homeReq { r .atom with first := off, op := op, far := far, op1 := a, op2 := b }))) ∧
     (last < first → Leaves (.wrpl q place first last data) s s) ∧ (off % 8 ≠ 0 → Leaves (.atom q off op far a b) s s) ∧
     (q.src < 1024 → s.flag F.FLT_FENCE_CXF = true → Leaves (.rds q) s s)) ∧
  (∀ (s : State) (src line pid stype : Nat) (t : Txn) (r : Req) (e : DirEnt) (wbp dirty keep lock poison : Bool) (data : Line) (m : Src),
     src < 1024 → src ≠ s.cxid → s.flag F.FLT_FENCE_CXF = false →
     (s.mem.txns.find line = some t →
       Leaves (.invack src line) s (s.onTxn line (fun z => { z with acks := z.acks.filter (fun c => c != src) })) ∧
       (t.fwd = some src →
         Leaves (.nocopy src line) s ((s.dropOwner line).onTxn line (fun z => { z with fwd := none, dataWait := false, sent := false, unblk := false, answer := some .nocopy }))) ∧
       (t.req = some r → r.hdr.src = src → Leaves (.unblk src line) s (s.onTxn line (fun z => { z with unblk := false }))) ∧
       (t.req = some r → t.fwd = some src →
         (r.kind = .rds → wbp = false →
           Leaves (.fwdack src ⟨line, pid, stype⟩ wbp dirty data) s ((s.forwarded r src wbp dirty).onTxn line (fun z => { z with fwd := none, answer := some (.ack wbp dirty) }))) ∧
         (r.kind = .rds → wbp = true → t.wbSeen = false →
           Leaves (.fwdack src ⟨line, pid, stype⟩ wbp dirty data) s (((s.forwarded r src wbp dirty).updMem (fun z => { z with late := z.late ++ [(line, src, true)] })).onTxn line
             (fun z => { z with fwd := none, answer := some (.ack wbp dirty) }))) ∧
         (r.kind = .cmo .clean → wbp = true → t.wbSeen = false → Leaves (.fwdack src ⟨line, pid, stype⟩ wbp dirty data) s (s.onTxn line (fun z => { z with fwd := none, acks := src :: z.acks }))) ∧
         (r.kind = .cmo .clean → wbp = false → dirty = true →
           Leaves (.fwdack src ⟨line, pid, stype⟩ wbp dirty data) s (((s.forwarded r src wbp dirty).wbStore src line pid stype data false).onTxn line
             (fun z => { z with fwd := none, answer := some (.ack wbp dirty) })))) ∧
       (t.fwd = some src →
         Leaves (.snoopTimeout line src) s (((s.ownerLost line src).flt 4 7 0 none (BitVec.ofNat 64 src)).onTxn line (fun z => { z with fwd := none, dataWait := false, sent := false, unblk := false, answer := some .nocopy })))) ∧
     (s.homeOf (line * 256) = some s.cxid → s.mem.wbQ = [] → s.mem.wbUsed < 256 → s.mem.txns.find line = none → s.mem.late = [] →
       let taken := s.updMem (fun z => { z with wbUsed := z.wbUsed + 1 })
       (s.mem.dir.find line = some e → e.st ≠ .s → e.owner = src → taken.admits (line * 256) pid (wbNeed stype) (stype == 6) = true →
         Leaves (.wb src ⟨line, keep, lock⟩ ⟨pid, stype⟩ data poison) s ((((taken.dram line).updMem (fun z => z.putLine line data (if poison then 2 else 0))).dropOwner line).coh src 0x38 line lock)) ∧
       (s.mem.dir.find line = none → Leaves (.wb src ⟨line, keep, lock⟩ ⟨pid, stype⟩ data poison) s ((taken.flt 4 4).coh src 0x38 line lock))) ∧
     (s.homeOf (line * 256) = some s.cxid → 256 ≤ s.mem.wbUsed →
       Leaves (.wb src ⟨line, keep, lock⟩ ⟨pid, stype⟩ data poison) s (s.updMem (fun z => { z with
         wbQ := z.wbQ ++ [{ src := src, line := line, pid := pid, stype := stype, keep := keep, lock := lock, data := data, poison := poison }] }))) ∧
     (∀ rest, s.mem.kept = src :: rest → Leaves .inviteTimeout s ((s.updMem (fun z => { z with kept := rest })).freeResv)) ∧
     (s.mem.kept = [] → Leaves .inviteTimeout s s) ∧
     Leaves (.maxclr m) s (s.setFld F.COH_RESV_MAX (s.fld F.COH_RESV_CUR)))

/-- 09 Table COH-2, R216, R231, R232: what the messages of a home do at an owner or sharer. A forward is answered with the data, the owner going to O or S, leaving, or staying as it is; with no copy NOCOPY answers, with a writeback under way its buffer does. INV drops an S copy, BINV any copy; a dirty one goes home as WB; CLN makes M into E and O into S. Where the spec is open it follows the model's choices of logs 26, 27, 57 and 110. 09 R206, R212, R224 to R226, R233: what answers do at a requester. Data installs the line, the store that waits for it is made, and UNBLK answers; GNT makes the copy writable; the answers of an atomic, a snapshot, a placement and a maintenance operation reach who waits; a NACK makes the request back off and it is resent with STARVE from the ninth sending; a reply that stays out ends the request as poisoned data would. Where the spec is open it follows the model's choices of logs 6, 58, 109 and 110. -/
def Obligations.SnoopsAndAnswers : Prop :=
  (∀ (s : State) (home line ftgt rtag : Nat) (rights : BitVec 3) (lock : Bool) (c : CLine) (w : WbEnt),
     home < 1024 → ftgt < 1024 → home ≠ s.cxid → s.flag F.FLT_FENCE_CXF = false → s.homeOf (line * 256) = some home →
     let keep := fun (st : Moesi) => (s.updMem (fun m => { m with lines := m.lines.put line { c with st := st } })).ownStale line
     let data := fun (z : State) (code : Nat) => z.fwdData ftgt code line lock rights c.data false
     let ack := fun (z : State) (dirty : Bool) (d : Line) => z.fwdAck home line lock false dirty c.pid.toNat c.stype.toNat d
     let late := fun (code : Nat) => (s.fwdData ftgt code line lock rights w.data w.poison).fwdAck home line lock true true w.pid.toNat w.stype.toNat 0
     let gone := ((s.dropLine line true).upgLost line)
     (s.held line = some c → c.st ≠ .s →
       (c.st.dirty = true → Leaves (.fwds home ⟨line, rights, lock⟩ ftgt rtag) s (ack (data (keep .o) 0x30) true 0) ∧
         Leaves (.fwdo home ⟨line, rights, lock⟩ ftgt rtag) s (ack (data gone 0x32) true 0)) ∧
       (c.st = .e → Leaves (.fwds home ⟨line, rights, lock⟩ ftgt rtag) s (ack (data (keep .s) 0x30) false 0) ∧
         Leaves (.fwdo home ⟨line, rights, lock⟩ ftgt rtag) s (ack (data gone 0x31) false 0) ∧
         Leaves (.cln home ⟨line, lock⟩) s (ack (keep .e) false 0)) ∧
       (c.st = .m → Leaves (.cln home ⟨line, lock⟩) s (ack (keep .e) true c.data)) ∧ (c.st = .o → Leaves (.cln home ⟨line, lock⟩) s (ack (keep .s) true c.data)) ∧
       Leaves (.fwdsnap home ⟨line, rights, lock⟩ ftgt rtag) s (ack (data s 0x33) c.st.dirty 0)) ∧
     (s.held line = none → s.mem.wbuf.find line = some w →
       Leaves (.fwds home ⟨line, rights, lock⟩ ftgt rtag) s (late 0x30) ∧ Leaves (.fwdo home ⟨line, rights, lock⟩ ftgt rtag) s (late 0x32) ∧
       Leaves (.fwdsnap home ⟨line, rights, lock⟩ ftgt rtag) s (late 0x33) ∧
       Leaves (.cln home ⟨line, lock⟩) s (s.fwdAck home line lock true true w.pid.toNat w.stype.toNat 0)) ∧
     (s.held line = none → s.mem.wbuf.find line = none →
       Leaves (.fwds home ⟨line, rights, lock⟩ ftgt rtag) s (s.coh home 0x37 line lock) ∧ Leaves (.fwdo home ⟨line, rights, lock⟩ ftgt rtag) s (s.coh home 0x37 line lock) ∧
       Leaves (.fwdsnap home ⟨line, rights, lock⟩ ftgt rtag) s (s.coh home 0x37 line lock) ∧ Leaves (.cln home ⟨line, lock⟩) s (s.coh home 0x37 line lock)) ∧
     (s.held line = none → Leaves (.inv home ⟨line, lock⟩) s (s.coh home 0x35 line lock)) ∧
     (s.held line = some c → c.st = .s → Leaves (.inv home ⟨line, lock⟩) s ((((s.lockHit line).1.dropLine line).upgLost line).coh home 0x35 line lock)) ∧
     (s.held line = some c →
       let left := (((s.lockHit line).1.dropLine line false (s.lockHit line).2 lock).upgLost line)
       (c.st.dirty = false → Leaves (.binv home ⟨line, lock⟩) s (left.coh home 0x35 line lock)) ∧ (c.st.dirty = true → Leaves (.binv home ⟨line, lock⟩) s left)) ∧
     (s.held line = none → s.mem.wbuf.has line = false → Leaves (.binv home ⟨line, lock⟩) s (s.coh home 0x35 line lock)) ∧
     (s.held line = none → s.mem.wbuf.has line = true → Leaves (.binv home ⟨line, lock⟩) s s)) ∧
  (∀ (s z : State) (src line k lc h stype : Nat) (q : ReqEnt) (c : CLine) (d : DataRsp) (pid : Nat) (place : BitVec 18) (old : W128) (cc : BitVec 2) (why : NackReason),
     src < 1024 → s.flag F.FLT_FENCE_CXF = false →
     let put := fun (z : ReqEnt) => s.updMem (fun m => { m with reqs := m.reqs.put k z })
     let came := fun (st : Moesi) => (((s.install line { st := st, pid := BitVec.ofNat 8 q.req.hdr.pid, rights := d.rights, data := d.data }).updMem (fun m => { m with reqs := m.reqs.del line })).drainLine q.req.hdr.tag line).coh
       ((s.homeOf (line * 256)).getD s.cxid) 0x3C line q.req.hdr.lock
     (src ≠ s.cxid → s.mem.txns.find line = none →
       (s.mem.reqs.find line = some q → d.poison = false →
         (q.st = .isD → Leaves (.dataS src line d) s (came .s) ∧ Leaves (.dataE src line d) s (came .e)) ∧
         (q.st = .imD → Leaves (.dataE src line d) s (came .e) ∧ (fieldOf place 17 16 = 0 → Leaves (.dataM src line ⟨pid, stype, place⟩ d) s (came .m))) ∧
         (q.st = .smG → q.req.hdr.pid = pid → s.held line = some c →
           Leaves (.gnt src line pid d.rights) s (((s.updMem (fun m => { m with lines := m.lines.put line { c with st := .e, rights := d.rights }, reqs := m.reqs.del line })).drainLine q.req.hdr.tag line).coh src 0x3C line q.req.hdr.lock))) ∧
       (s.outst line = some (k, q) → q.st = .snap → d.poison = false → Leaves (.dataSn src line d) s (put { q with st := .got d }))) ∧
     (src ≠ s.cxid → d.poison = false → fieldOf place 17 16 = 2 →
       Leaves (.dataM src line ⟨pid, stype, place⟩ d) s (s.install line { st := .m, pid := BitVec.ofNat 8 pid, rights := d.rights, data := d.data, stype := BitVec.ofNat 4 stype })) ∧
     (lc < 48 → (s.core lc).wait = .atom line →
       let t := s.updMem (fun m => { m with reqs := m.reqs.del (line + 2 ^ 48 * (lc + 1)) })
       (d.poison = false → Leaves (.atomrsp lc line old cc d) s (t.updCore lc (fun z => { z with wait := .atomGot line old cc }))) ∧
       (d.poison = true → d.rights = 0 → Leaves (.atomrsp lc line old cc d) s (t.updCore lc (fun z => { z with wait := .atomFail line 0 })))) ∧
     (s.outst line = some (k, q) →
       (q.req.kind = .wrpl → Leaves (.cmpMessage line) s (put { q with st := .cmp })) ∧
       (src ≠ s.cxid → why = .resfull → Leaves (.nack src line why) s (put { q with backoff := true, stopped := true })) ∧
       (src ≠ s.cxid → why ≠ .resfull →
         let l := lfsrStep (s.mem.lfsrOf reqArray)
         Leaves (.nack src line why) s (s.updMem (fun m => { m with lfsr := m.lfsr.put reqArray l, reqs := m.reqs.put k { q with backoff := true, stopped := false, due := s.after (32 * 2 ^ min (q.sends - 1) 5 + l.toNat * 32 / 65536) } }))) ∧
       (q.backoff = true → q.stopped = false → z = s.reach q.due.toNat → z.homeOf (q.req.hdr.line * 256) = some h →
         Leaves (.requestResend line) s (z.sendReq h { q.req with hdr := { q.req.hdr with starve := decide (8 ≤ q.sends) } } k q.st)) ∧
       (q.backoff = true → Leaves (.requestTimeout line) s s) ∧
       (q.backoff = false →
         let bad := s.flt 4 6 0 (some q.req.hdr.pid) (BitVec.ofNat 64 (q.req.hdr.line * 256))
         (q.req.kind = .rds → Leaves (.requestTimeout line) s (bad.updMem (fun m => { m with reqs := m.reqs.put k { q with st := .failed 3 } }))) ∧
         (q.req.kind = .atom → Leaves (.requestTimeout line) s ((bad.updMem (fun m => { m with reqs := m.reqs.del k })).updCore q.req.hdr.tag (fun c =>
           if c.wait = .atom q.req.hdr.line then { c with wait := .atomFail q.req.hdr.line 3 } else c))))) ∧
     (src ≠ s.cxid → s.mem.reqs = [(k, q)] → q.st.open = true → q.stopped = true → q.req.hdr.starve = true → s.homeOf (q.req.hdr.line * 256) = some src →
       Leaves (.invite src) s (s.sendReq src { q.req with hdr := { q.req.hdr with starve := decide (8 ≤ q.sends) } } k q.st)) ∧
     Leaves (.wback line) s (s.updMem (fun m => { m with wbuf := m.wbuf.del line })))

/-- 10 R239, R241, R242, R244 to R249, R253, 09 R212: a packet that arrives. One with a bad CRC is counted and refused with a NAK; one in sequence frees its buffer and is acknowledged, and then it is forwarded with one more hop, discarded as a type that no table lists, or accepted: then the message that its header fields spell takes effect, as that message's own command has it. One ahead of its turn is refused with a NAK, one behind it acknowledged again. Where the spec is open it follows the model's choices of logs 30 and 14. 10 R248 to R251, R253, R259, R260: what control flits and the events of a link do at a port. The credit returns of an acknowledgement are cumulative: a lane gains what its 4-bit value has risen by. Where the spec is open it follows the model's choices of log 30. -/
def Obligations.PacketsAndLinks : Prop :=
  (∀ (s u : State) (port : Nat) (hdr : BitVec 256) (data : Option Line), port < 16 → s.flag F.FLT_FENCE_CXF = false → s.portUp port = true → (fieldOf hdr 242 242 == 1) = data.isSome →
     let seq : BitVec 8 := BitVec.ofNat 8 (fieldOf hdr 143 136)
     let t := s.flack port (BitVec.ofNat 8 (fieldOf hdr 135 128))
     let rx := (t.fport port).rxSeq
     let ok := (t.setFport port { t.fport port with rxSeq := rx + 1, freed := (t.fport port).freed.upd 0 (laneOf hdr) (fun n => n + 1) }).ctlFlit port 1 rx.toNat
     let type := fieldOf hdr 255 248
     let dst := fieldOf hdr 239 230
     let src := fieldOf hdr 229 220
     let line := fieldOf hdr 191 144
     let lock := fieldOf hdr 247 246 == 0 || fieldOf hdr 241 241 == 1
     let q : CohReq := { src := src, tag := fieldOf hdr 207 192, line := line, pid := fieldOf hdr 219 212, stype := fieldOf hdr 211 208, starve := fieldOf hdr 240 240 == 1, lock := lock }
     let d : DataRsp := { data := data.getD 0, poison := fieldOf hdr 127 127 == 1, rights := BitVec.ofNat 3 (fieldOf hdr 126 124) }
     (fieldOf hdr 31 0 ≠ pktCrc hdr data → Leaves (.packetTransit port hdr data) s ((s.fcrc port).ctlFlit port 2 (s.fport port).rxSeq.toNat)) ∧
     (fieldOf hdr 31 0 = pktCrc hdr data →
       (seq = rx → typeOk type = false → Leaves (.packetTransit port hdr data) s (ok.flt 4 8 0 none (BitVec.ofNat 64 port))) ∧
       (seq = rx → typeOk type = true → dst ≠ ok.cxid → Leaves (.packetTransit port hdr data) s (ok.forward (putField hdr 245 243 (fieldOf hdr 245 243 + 1)) data)) ∧
       (seq = rx → dst = ok.cxid → ∀ c : Instr,
         (type = 0x01 ∧ c = .rds q ∨ type = 0x03 ∧ c = .upg q ∨ type = 0x04 ∧ c = .rdsnap ⟨q, fieldOf hdr 111 111 == 1⟩ ∨
           type = 0x05 ∧ c = .wrpl q (BitVec.ofNat 18 (fieldOf hdr 108 91)) (fieldOf hdr 90 83) (fieldOf hdr 82 75) d.data ∨
           type = 0x24 ∧ c = .binv src ⟨line, lock⟩ ∨ type = 0x31 ∧ c = .dataE src line d ∨ type = 0x35 ∧ c = .invack src line ∨
           type = 0x39 ∧ c = .atomrsp (fieldOf hdr 207 192) line (BitVec.ofNat 128 (d.data.toNat / 2 ^ 1920)) (BitVec.ofNat 2 (fieldOf hdr 74 73)) d ∨
           type = 0x3B ∧ fieldOf hdr 123 120 = 1 ∧ c = .nack src line .busy ∨ type = 0x41 ∧ c = .fnote src (hdr.extractLsb' 32 96)) →
         exec c ok = .next u → Leaves (.packetTransit port hdr data) s u) ∧
       (seq ≠ rx → (seq - rx).toNat < 128 → Leaves (.packetTransit port hdr data) s (t.ctlFlit port 2 rx.toNat)) ∧
       (seq ≠ rx → 128 ≤ (seq - rx).toNat → Leaves (.packetTransit port hdr data) s (t.ctlFlit port 1 (rx - 1).toNat)))) ∧
  (∀ (s u : State) (port lane nbr nport l : Nat) (flit : BitVec 256) (digest : BitVec 32) (glt : W64) (k : Pkt) (rest : List Pkt),
     port < 16 → s.flag F.FLT_FENCE_CXF = false →
     let x := s.fport port
     let seq : BitVec 8 := BitVec.ofNat 8 (fieldOf flit 247 240)
     let crcOk := fieldOf flit 31 0 = (crcIscsi ((toBytes 32 flit.toNat).take 28)).toNat
     (l < 45 → x.granted.wf 0 = true → x.granted.get 0 l < 16 →
       let n := fieldOf flit (239 - 4 * l) (236 - 4 * l)
       (x.credit flit).granted.get 0 l = n ∧ (x.credit flit).credits.get 0 l = x.credits.get 0 l + (n + 16 - x.granted.get 0 l) % 16) ∧
     (s.portUp port = true →
       (¬crcOk → Leaves (.felardAck port flit) s (s.fcrc port) ∧ Leaves (.felardNak port flit) s (s.fcrc port) ∧ Leaves (.felardFence port flit) s (s.fcrc port) ∧ Leaves (.felardPause port flit) s (s.fcrc port)) ∧
       (crcOk →
         (fieldOf flit 255 248 = 1 → Leaves (.felardAck port flit) s (((s.setFport port (x.credit flit)).flack port seq).fflush port)) ∧
         (fieldOf flit 255 248 = 2 → Leaves (.felardNak port flit) s ((s.flack port (seq - 1)).fresend port seq)) ∧
         (fieldOf flit 255 248 = 3 → Leaves (.felardFence port flit) s ((s.removeAndTell (s.fld F.FAB_PSTAT_RCX port)).linkLost port 6)) ∧
         (fieldOf flit 255 248 = 4 → Leaves (.felardPause port flit) s (s.setFport port { x with paused := true }))) ∧
       (8 ≤ x.resends → u = (s.count F.FAB_PERR_RETRAIN (some F.FAB_PERR_TOVF) port).flt 5 1 port →
         (x.replay = k :: rest → Leaves (.linkRetrain port true) s ((u.setFport port { x with resends := 0, retrainFails := 0 }).fresend port k.lseq)) ∧
         (x.retrainFails < 2 → Leaves (.linkRetrain port false) s (u.setFport port { x with retrainFails := x.retrainFails + 1 })) ∧
         (2 ≤ x.retrainFails → Leaves (.linkRetrain port false) s (u.linkDown port))) ∧
       (lane < 4 → x.badLanes = [] →
         u = ((((((s.setFport port { x with badLanes := [lane], paused := false }).ctlFlit port 4 0).setFlag F.FAB_PSTAT_SPUSED true port).setFld F.FAB_PSTAT_SPLANE lane port).consume 5).flt 5 2 (port * 8 + lane)) →
         ((u.fport port).replay = [] → Leaves (.felardLaneSparing port lane) s (u.fflush port)) ∧
         ((u.fport port).replay = k :: rest → Leaves (.felardLaneSparing port lane) s ((u.fresend port k.lseq).fflush port))) ∧
       (x.badLanes = [] → Leaves (.felardLaneSparing port 4) s (s.setFport port { x with badLanes := [4], paused := false })) ∧
       (lane < 5 → x.badLanes.contains lane = true → Leaves (.felardLaneSparing port lane) s s) ∧
       (lane < 5 → x.badLanes.contains lane = false → x.badLanes.length = 1 ∨ x.badLanes.length = 2 → s.fld F.FAB_PSTAT_STATE port = 2 →
         u = (((s.setFport port { x with badLanes := x.badLanes ++ [lane], paused := false }).setFld F.FAB_PSTAT_STATE 3 port).flt 5 3) →
         (u.fport port).replay = [] → Leaves (.felardLaneSparing port lane) s (u.fflush port)) ∧
       (lane < 5 → x.badLanes.contains lane = false → x.badLanes.length = 3 →
         Leaves (.felardLaneSparing port lane) s ((s.setFport port { x with badLanes := x.badLanes ++ [lane], paused := false }).linkDown port))) ∧
     (nbr < 1024 → nport < 16 → port < 14 → s.fld F.FAB_PSTAT_STATE port = 1 → x.loadOnly = false → u = (s.setFld F.FAB_PSTAT_RCX nbr port).setFld F.FAB_PSTAT_RPORT nport port →
       (u.wire u.cxid port ≠ some (nbr, nport) → Leaves (.disc port nbr nport digest glt) s ((u.refuseLink port 4).flt 5 9)) ∧
       (u.wire u.cxid port = some (nbr, nport) → digest.toNat ≠ u.fld F.FAB_DIGEST_DIGEST → Leaves (.disc port nbr nport digest glt) s ((u.refuseLink port 5).flt 5 10)) ∧
       (u.wire u.cxid port = some (nbr, nport) → digest.toNat = u.fld F.FAB_DIGEST_DIGEST →
         let w := (u.setFport port { u.fport port with loadOnly := false }).setFld F.FAB_PSTAT_STATE 2 port
         let v := w.ctlFlit port 1 ((w.fport port).rxSeq - 1).toNat
         (v.fab.discovered = true → Leaves (.disc port nbr nport digest glt) s (v.flood v.wallMates [0, v.cxid, port, 1])) ∧
         (v.fab.discovered = false → Leaves (.disc port nbr nport digest glt) s
           ((v.seen nbr).flood ((List.range 1024).filter (fun c => v.cxExists c && c != v.cxid)) [0, v.cxid, port, 1])))))

/-- 10 R236, R237, R239: the wiring is symmetrical, so that the far end of the far end of a port within a wall is the port itself, and a route that stays on a course or at a position goes straight to its destination while that link is up. -/
def Obligations.WiringAndRoutes : Prop :=
  ∀ (s : State) (cx port dst : Nat),
    (cx < 1024 → port < 14 → ∃ q, s.wire cx port = some q ∧ q.1 < 1024 ∧ q.2 < 14 ∧ q.1 ≠ cx ∧ s.wire q.1 q.2 = some (cx, port)) ∧
    (dst < 1024 → dst ≠ s.cxid → cxWall dst = cxWall s.cxid → cxCourse dst = cxCourse s.cxid → s.linkUp (mkCx (cxWall s.cxid) (cxCourse s.cxid) (cxPos s.cxid)) (coursePort (cxPos s.cxid) (cxPos dst)) = true →
      s.route dst = some (coursePort (cxPos s.cxid) (cxPos dst))) ∧
    (dst < 1024 → cxWall dst = cxWall s.cxid → cxCourse dst ≠ cxCourse s.cxid → cxPos dst = cxPos s.cxid →
      s.linkUp (mkCx (cxWall s.cxid) (cxCourse s.cxid) (cxPos s.cxid)) (wallPort (cxCourse s.cxid) (cxCourse dst)) = true →
      s.route dst = some (wallPort (cxCourse s.cxid) (cxCourse dst)))

/-- 10 R241, R249, R258 to R265, 20 R449: the fabric's own messages, discovery and the time base. Where the spec is open it follows the model's choices of logs 34, 35 and 62. 05 R137, 11 R270 to R273, R277, R278, R282: the events and region registers of a memory controller. Where the spec is open it follows the model's choices of logs 35 and 63. -/
def Obligations.FabricAndMemory : Prop :=
  (∀ (s u : State) (src cx lc rlc pid port m p : Nat) (spec : BitVec 96) (t1 t2 t3 t4 v va : W64) (restart : Bool) (cc c : BitVec 2) (kind : TlbKind) (l : List Nat) (g : Src),
     src < 1024 → src ≠ s.cxid → s.flag F.FLT_FENCE_CXF = false →
     let down := s.fab.down.filter (fun q => q != (cx, port))
     (cx < 1024 → port < 16 → cxWall cx = cxWall s.cxid → cx ≠ s.cxid → s.fab.discovered = false →
       Leaves (.lsn (.link cx port false)) s { s with fab := { s.fab with down := down ++ [(cx, port)] } } ∧
       (s.cxExists cx = true → Leaves (.lsn (.link cx port true)) s ({ s with fab := { s.fab with down := down } }.seen cx))) ∧
     (cx < 1024 → port < 16 → cxWall cx ≠ cxWall s.cxid → s.cxExists cx = true → s.fab.discovered = false → Leaves (.lsn (.link cx port true)) s (s.seen cx)) ∧
     (cx < 1024 → Leaves (.lsn (.removed cx)) s (s.removeCx cx)) ∧
     Leaves (.fnote src spec) s (s.flt 0 2 src none (spec.extractLsb' 32 64)) ∧
     Leaves (.tsreq src t1) s (s.send .fab src 0x43 [t1.toNat, s.fab.tb.toNat, s.fab.tb.toNat]) ∧
     (s.isMaster = false → s.fld F.FAB_TBSTAT_PARENT = src →
       let o := tsOffset t1 t2 t3 t4
       let t := if s.fab.firstExch then s.steer o else s.reach (s.fab.tb.toNat + o.toNat)
       let w : State := { t with fab := { t.fab with firstExch := true, missed := 0, synced := t.fab.synced || decide (o.natAbs ≤ 102) } }
       Leaves (.tsrsp src t1 t2 t3 t4) s (((w.setFld F.FAB_TBSTAT_OFFSET (BitVec.ofInt 32 o).toNat).setFlag F.FAB_TBSTAT_SYNC (decide (o.natAbs ≤ 102))).setFlag F.FAB_TBSTAT_HOLD false)) ∧
     (s.signal lc pid restart = (u, c) → Leaves (.sig src rlc lc pid restart) s (u.send .fab src 0x49 [rlc, c.toNat])) ∧
     (lc < 48 → (s.core lc).wait = .signal m → Leaves (.sigrsp lc cc) s (s.updCore lc (fun k => { k with wait := .ccGot cc }))) ∧
     (lc < 48 → (s.core lc).wait = .none → Leaves (.sigrsp lc cc) s s ∧ Leaves (.tlbiack src lc) s s) ∧
     (let left := s.tlbLeft kind (BitVec.ofNat 8 pid)
      let t := s.dropTlb kind (BitVec.ofNat 8 pid) va
      (s.mem.tlbWaits = [] → left.1 = [] → left.2 = [] → Leaves (.tlbi src rlc kind pid va) s (t.send .fab src 0x4B [rlc])) ∧
      (left.1 ≠ [] ∨ left.2 ≠ [] → Leaves (.tlbi src rlc kind pid va) s
        (t.updMem (fun k => { k with tlbWaits := k.tlbWaits ++ [{ cx := src, tag := rlc, stores := left.1, atoms := left.2 }] })))) ∧
     (lc < 48 → (s.core lc).wait = .tlbAcks l → Leaves (.tlbiack src lc) s (s.updCore lc (fun k => { k with wait := .tlbAcks (l.filter (fun x => x != src)) }))) ∧
     (s.fab.master = some s.cxid → Leaves .timeSyncInterval s ((({ s with fab := { s.fab with synced := true } }).setFlag F.FAB_TBSTAT_MASTER true).setFlag F.FAB_TBSTAT_SYNC true)) ∧
     (u = { s with fab := { s.fab with missed := s.fab.missed + 1 } } → s.fab.master = some m → m ≠ s.cxid → u.route m = some p →
       Leaves .timeSyncInterval s (((u.setFld F.FAB_TBSTAT_PARENT (u.fld F.FAB_PSTAT_RCX p)).setFld F.FAB_TBSTAT_PORT p).send .fab (u.fld F.FAB_PSTAT_RCX p) 0x42 [s.fab.tb.toNat])) ∧
     (s.isMaster = false → 4 ≤ s.fab.missed → s.flag F.FAB_TBSTAT_HOLD = false → Leaves .timeHoldover s ((s.setFlag F.FAB_TBSTAT_HOLD true).flt 5 7)) ∧
     (s.isMaster = true → Leaves .timeHoldover s s) ∧
     Leaves (.fabTbset g v) s (s.tbSet g v) ∧
     (s.fab.discovered = true → ∀ b, Leaves (.discoveryComplete b) s s) ∧
     (s.fab.discovered = false → (u = { s.seen s.cxid with fab := { (s.seen s.cxid).fab with discovered := true } }) → u.fld F.BOO_STAT_STEP ≠ 11 → u.minority = false → u.flag F.VLX_BUDDY_BV = true →
       (u.present (u.fld F.VLX_BUDDY_BCX) = false → Leaves (.discoveryComplete (some cx)) s (u.setFld F.VLX_STAT_BST 2)) ∧
       (u.present (u.fld F.VLX_BUDDY_BCX) = true → cx = u.cxid → Leaves (.discoveryComplete (some cx)) s (u.setFld F.VLX_STAT_BST 1)) ∧
       (u.present (u.fld F.VLX_BUDDY_BCX) = true → cx ≠ u.cxid → Leaves (.discoveryComplete (some cx)) s ((u.setFlag F.VLX_BUDDY_BV false).flt 14 3)))) ∧
  (∀ (s u : State) (mc dimm rank dev lines n dw : Nat) (v : W64) (src : Src), mc < 16 → dimm < 2 → rank < 2 → dev < 20 → n < 64 → dw < 3 →
     let p := s.fld F.MEM_CHSTAT_SCRPTR mc
     let line := s.absLine (s.chanOff mc p)
     let next := fun (z : State) => z.setFld F.MEM_CHSTAT_SCRPTR (if z.chanLines ≤ p + 1 then 0 else p + 1) mc
     let x := s.mc mc
     let r := 2 * dimm + rank
     let unit := devUnit mc dimm rank dev
     let off := rgnOff mc n dw
     (s.populated mc = true → s.fld F.MEM_CHSTAT_PWR mc ≠ 3 → x.selfRef = [] → (∀ l, line = some l → s.mem.txns.has l = false) →
       let t := s.rankAccess mc p
       Leaves (.patrolScrub mc .good) s (next t) ∧
       Leaves (.patrolScrub mc (.corrected dimm rank dev)) s (next ((t.count F.MEM_ECC_CORR (some F.MEM_ECC_COVF) mc).flt 6 0 unit)) ∧
       Leaves (.patrolScrub mc (.uncorrectable dimm rank dev)) s (next (t.uncorrectable mc dimm rank dev p line))) ∧
     (s.fld F.MEM_CHSTAT_PWR mc = 3 → Leaves (.patrolScrub mc .good) s s) ∧
     (s.populated mc = true → s.fld F.MEM_CHSTAT_PWR mc ≠ 3 →
       (s.svc.sparePend.contains (0x60, unit) = true → u = { s with svc := { s.svc with sparePend := s.svc.sparePend.erase (0x60, unit) } } →
         (bits (s.fld F.MEM_CHSTAT_SPUSED mc) r r = 1 → s.flag F.MEM_CHSTAT_SPBUSY mc = false →
           (x.spares.get 32 r ≠ dev → Leaves (.deviceSparingCopy mc dimm rank dev .start) s (u.flt 6 6)) ∧
           (x.spares.get 32 r = dev → Leaves (.deviceSparingCopy mc dimm rank dev .start) s u)) ∧
         (s.flag F.MEM_CHSTAT_SPBUSY mc = true → x.copyRank = some r →
           (s.fld F.MEM_CHSTAT_SPDEV mc ≠ dev → Leaves (.deviceSparingCopy mc dimm rank dev .start) s (u.flt 6 6)) ∧
           (s.fld F.MEM_CHSTAT_SPDEV mc = dev → Leaves (.deviceSparingCopy mc dimm rank dev .start) s u)) ∧
         (bits (s.fld F.MEM_CHSTAT_SPUSED mc) r r ≠ 1 → s.flag F.MEM_CHSTAT_SPBUSY mc = false →
           Leaves (.deviceSparingCopy mc dimm rank dev .start) s (((u.setFlag F.MEM_CHSTAT_SPBUSY true mc).setFld F.MEM_CHSTAT_SPDEV dev mc).setMc mc { x with copyRank := some r, copyPtr := 0 }))) ∧
       (x.copyRank = some r → s.flag F.MEM_CHSTAT_SPBUSY mc = true →
         Leaves (.deviceSparingCopy mc dimm rank dev (.lines lines false)) s (s.setMc mc { x with copyPtr := min (x.copyPtr + lines) s.rankLines }) ∧
         (x.copyPtr < s.rankLines → Leaves (.deviceSparingCopy mc dimm rank dev .finish) s s) ∧
         (s.rankLines ≤ x.copyPtr → u = s.setMc mc { x with copyRank := none, spares := x.spares.put r (s.fld F.MEM_CHSTAT_SPDEV mc) } →
           Leaves (.deviceSparingCopy mc dimm rank dev .finish) s
             ((((u.setFlag F.MEM_CHSTAT_SPBUSY false mc).setFld F.MEM_CHSTAT_SPUSED (putBits (u.fld F.MEM_CHSTAT_SPUSED mc) r r 1) mc).consume 7).flt 6 3 unit)))) ∧
     (s.populated mc = true → s.fld F.MEM_SCRUB_PDIDLE ≠ 0 → s.fld F.MEM_CHSTAT_PWR mc ≠ 3 → s.ranks.contains r = true → x.selfRef.contains r = false →
       Leaves (.rankPowerDown mc r) s ((s.setMc mc { x with powerDown := if x.powerDown.contains r then x.powerDown else x.powerDown ++ [r] }).pwr mc)) ∧
     (s.fld F.MEM_SCRUB_PDIDLE = 0 → Leaves (.rankPowerDown mc r) s s) ∧
     (s.populated mc = true →
       (s.rgnRefused mc n dw v = true → Leaves (.regionRegisterWrite src mc n dw v) s (s.cfgErr src off)) ∧
       (s.rgnRefused mc n dw v = false → Leaves (.regionRegisterWrite src mc n dw v) s (s.wrReg src off v)) ∧
       (s.rgnRefused mc n dw v = true → Leaves (.regionBroadcastWrite src n dw v) s (s.cfgErr src (0x908800 + n * 0x20 + dw * 8)))) ∧
     ((∀ k, k < 16 → s.populated k = true → s.rgnRefused k n dw v = false) →
       Leaves (.regionBroadcastWrite src n dw v) s (((List.range 16).filter (fun k => s.populated k)).foldl (fun z k => z.wrReg src (rgnOff k n dw) v) s)))

/-- 13 R321, R322, Table VEN-5: the arithmetic of an engine, on 32 bits with N, Z, C and V; a product goes to the pipeline of the context and reaches MH and ML when it is written, the oldest first; a nonzero reserved field is an illegal instruction, cause 0x01. -/
def Obligations.EngineArithmetic : Prop :=
  ∀ (s : State) (e ctx : Nat) (t a b : BitVec 4) (imm : BitVec 16) (rsv : BitVec 8) (p : W64) (rest : List W64), VeReady s e ctx →
    let c := s.veCtx (e * 16 + ctx)
    let x : W32 := c.e.get 0 a.toNat
    let y : W32 := c.e.get 0 b.toNat
    let z : W32 := imm.signExtend 32
    let u : W32 := imm.setWidth 32
    let put := fun (v : W32) => { c with e := c.e.put t.toNat v }
    let both := fun (v : W32) (f : BitVec 4) => { put v with flags := f }
    let nz := fun (v : W32) => both v (veFlags v (c.flags.getLsbD 1) (c.flags.getLsbD 0))
    let big := fun (v : Int) => decide (v < -2 ^ 31 ∨ 2 ^ 31 ≤ v)
    let sum := fun (w : W32) => veFlags (x + w) (decide (2 ^ 32 ≤ x.toNat + w.toNat)) (big (x.toInt + w.toInt))
    let diff := fun (w : W32) => veFlags (x - w) (decide (w.toNat ≤ x.toNat)) (big (x.toInt - w.toInt))
    VeEnds (.veAdd e ctx t a b 0) s e ctx (both (x + y) (sum y)) ∧ VeEnds (.veSub e ctx t a b 0) s e ctx (both (x - y) (diff y)) ∧
    VeEnds (.veAnd e ctx t a b 0) s e ctx (nz (x &&& y)) ∧ VeEnds (.veOr e ctx t a b 0) s e ctx (nz (x ||| y)) ∧ VeEnds (.veXor e ctx t a b 0) s e ctx (nz (x ^^^ y)) ∧
    VeEnds (.veAndn e ctx t a b 0) s e ctx (nz (x &&& ~~~y)) ∧
    VeEnds (.veSll e ctx t a b 0) s e ctx (nz (x <<< (y.toNat % 64))) ∧ VeEnds (.veSrl e ctx t a b 0) s e ctx (nz (x >>> (y.toNat % 64))) ∧
    VeEnds (.veSra e ctx t a b 0) s e ctx (nz (x.sshiftRight (y.toNat % 64))) ∧ VeEnds (.veRol e ctx t a b 0) s e ctx (nz (x.rotateLeft (y.toNat % 32))) ∧
    VeEnds (.veCmp e ctx 0 a b 0) s e ctx { c with flags := diff y } ∧ VeEnds (.veMov e ctx t a 0 0) s e ctx (put x) ∧
    VeEnds (.veMul e ctx 0 a b 0) s e ctx { c with prods := c.prods ++ [x.signExtend 64 * y.signExtend 64] } ∧
    VeEnds (.veMulu e ctx 0 a b 0) s e ctx { c with prods := c.prods ++ [x.setWidth 64 * y.setWidth 64] } ∧
    VeEnds (.mfmh e ctx t 0 0 0) s e ctx (put c.mh) ∧ VeEnds (.mfml e ctx t 0 0 0) s e ctx (put c.ml) ∧
    VeEnds (.mffl e ctx t 0 0 0) s e ctx (put (c.flags.setWidth 32)) ∧ VeEnds (.mtfl e ctx 0 a 0 0) s e ctx { c with flags := x.setWidth 4 } ∧
    VeEnds (.veAddi e ctx t a 0 imm) s e ctx (both (x + z) (sum z)) ∧ VeEnds (.veCmpi e ctx 0 a 0 imm) s e ctx { c with flags := diff z } ∧
    VeEnds (.veAndi e ctx t a 0 imm) s e ctx (nz (x &&& u)) ∧ VeEnds (.veOri e ctx t a 0 imm) s e ctx (nz (x ||| u)) ∧ VeEnds (.veXori e ctx t a 0 imm) s e ctx (nz (x ^^^ u)) ∧
    VeEnds (.veLui e ctx t 0 0 imm) s e ctx (put (u <<< 16)) ∧
    (imm.toNat < 32 → VeEnds (.veSlli e ctx t a 0 imm) s e ctx (nz (x <<< imm.toNat)) ∧ VeEnds (.veSrli e ctx t a 0 imm) s e ctx (nz (x >>> imm.toNat)) ∧
      VeEnds (.veSrai e ctx t a 0 imm) s e ctx (nz (x.sshiftRight imm.toNat))) ∧
    (32 ≤ imm.toNat → Leaves (.veSlli e ctx t a 0 imm) s (s.veTrap e ctx 1)) ∧
    (c.prods = p :: rest → Leaves (.veProductWrite e ctx) s (s.setVe (e * 16 + ctx) { c with prods := rest, mh := p.extractLsb' 32 32, ml := p.extractLsb' 0 32 })) ∧
    (rsv ≠ 0 → Leaves (.veAdd e ctx t a b rsv) s (s.veTrap e ctx 1) ∧ Leaves (.veMulu e ctx 0 a b rsv) s (s.veTrap e ctx 1) ∧ Leaves (.veMov e ctx t a 0 rsv) s (s.veTrap e ctx 1))

/-- 13 R315, R317, R319 to R321, Tables VEN-4 to VEN-6: branches, the bank registers, FENCE, NOP and WAIT; and the word of instruction RAM at a context's PC runs as the instruction that its opcode and function name, with its fields as operands; one that names none is illegal, cause 0x01. -/
def Obligations.EngineControl : Prop :=
  ∀ (s : State) (e ctx : Nat) (t a b cond : BitVec 4) (off : BitVec 22) (w : W32), VeReady s e ctx →
    let k := e * 16 + ctx
    let c := s.veCtx k
    let x : W32 := c.e.get 0 a.toNat
    let y : W32 := c.e.get 0 b.toNat
    let nn := c.flags.getLsbD 3
    let zz := c.flags.getLsbD 2
    let cc := c.flags.getLsbD 1
    let vv := c.flags.getLsbD 0
    let taken := [true, zz, !zz, nn, !nn, cc, !cc, vv, !vv, cc && !zz, nn != vv, nn == vv, !zz && nn == vv, zz || nn != vv].getD cond.toNat false
    (cond.toNat < 14 → Leaves (.veB e ctx cond off) s (if taken then s.setVe k { c with pc := c.pc + off.setWidth 15 } else s.setVe k { c with pc := c.pc + 1 })) ∧
    (14 ≤ cond.toNat → Leaves (.veB e ctx cond off) s (s.veTrap e ctx 1)) ∧
    Leaves (.veBal e ctx 0 off) s (s.setVe k { c with e := c.e.put 15 ((c.pc + 1).setWidth 32), pc := c.pc + off.setWidth 15 }) ∧
    (cond ≠ 0 → Leaves (.veBal e ctx cond off) s (s.veTrap e ctx 1)) ∧
    Leaves (.veBr e ctx 0 a 0 0) s (s.setVe k { c with pc := x.setWidth 15 }) ∧
    (1 ≤ t.toNat → t.toNat ≤ 3 → VeEnds (.mtbk e ctx t a b 0) s e ctx { c with bk := c.bk.put t.toNat (x.setWidth 12 ++ y : BitVec 44) }) ∧
    (t = 0 ∨ 3 < t.toNat → Leaves (.mtbk e ctx t a b 0) s (s.veTrap e ctx 1)) ∧
    (1 ≤ a.toNat → a.toNat ≤ 3 →
      VeEnds (.mfbk e ctx t a 0 0 false) s e ctx { c with e := c.e.put t.toNat ((c.bk.get 0 a.toNat).setWidth 32) } ∧
      VeEnds (.mfbk e ctx t a 0 0 true) s e ctx { c with e := c.e.put t.toNat (((c.bk.get 0 a.toNat).extractLsb' 32 12).setWidth 32) }) ∧
    VeEnds (.veNop e ctx 0 0 0 0) s e ctx c ∧ VeEnds (.veFence e ctx 0 0 0 0) s e ctx c ∧
    (s.chn.iram.get 0 c.pc.toNat = w →
      let op := w.extractLsb' 26 6
      let fn := w.extractLsb' 0 6
      let wt : BitVec 4 := w.extractLsb' 22 4
      let wa : BitVec 4 := w.extractLsb' 18 4
      let wb : BitVec 4 := w.extractLsb' 14 4
      let wk : BitVec 2 := w.extractLsb' 16 2
      let rsv : BitVec 8 := w.extractLsb' 6 8
      let runs := fun (i : Instr) => s.veStep e ctx = exec i s
      (op = 0x00 → fn = 1 → runs (.veAdd e ctx wt wa wb rsv)) ∧ (op = 0x00 → fn = 13 → runs (.veMul e ctx wt wa wb rsv)) ∧ (op = 0x00 → fn = 18 → runs (.mtfl e ctx wt wa wb rsv)) ∧
      (op = 0x01 → runs (.veAddi e ctx wt wa wk (w.extractLsb' 0 16))) ∧ (op = 0x10 → runs (.veLw e ctx wt (w.extractLsb' 20 2) (w.extractLsb' 0 20))) ∧
      (op = 0x17 → runs (.veSb e ctx wt (w.extractLsb' 20 2) (w.extractLsb' 0 20))) ∧ (op = 0x18 → runs (.veLwx e ctx wt wa wk (w.extractLsb' 0 16))) ∧
      (op = 0x1C → runs (.ldm e ctx wt wa wk (w.extractLsb' 13 3) (w.extractLsb' 0 13))) ∧ (op = 0x20 → runs (.veB e ctx wt (w.extractLsb' 0 22))) ∧
      (op = 0x23 → runs (.wait e ctx wt wa wk (w.extractLsb' 0 16))) ∧ (op = 0x26 → fn = 2 → runs (.mfbk e ctx wt wa wb rsv true)) ∧
      (op = 0x38 → fn = 1 → runs (.zopen e ctx wt wa wb rsv)) ∧ (op = 0x3B → fn = 1 → runs (.jstep e ctx wt wa wb rsv)) ∧
      (op = 0x3F ∨ w = 0 ∨ (op = 0x39 ∧ fn = 4) → s.veStep e ctx = .next (left s (s.veTrap e ctx 1)))) ∧
    (s.chn.veMoving.contains e = false →
      Does (.wait e ctx 0 0 0 0) s (fun u => (u.veCtx k).st = .free ∧ u.fld F.VEN_ENG_BUSY e = s.fld F.VEN_ENG_BUSY e - 1 ∧ u.mem = s.mem ∧ u.cores = s.cores ∧ u.fab = s.fab ∧
        (∀ q, s.exOf c.exid = some q → u.chn.exch.find q.key = some { q with running := false }) ∧ ∀ n, n ≠ k → u.veCtx n = s.veCtx n))

/-- 13 R317 to R319, R326, Tables VEN-3 and VEN-5: loads and stores of an engine complete with what their accesses yield; in local space an aligned access reads or writes the data SRAM or reads the context's own words, an unaligned one traps with cause 0x02, one outside with 0x03. -/
def Obligations.EngineAccesses : Prop :=
  ∀ (s u : State) (e ctx : Nat) (t a : BitVec 4) (bk : BitVec 2) (sa : BitVec 20) (disp : BitVec 16) (d13 : BitVec 13) (n : BitVec 3) (l : List Byte), VeReady s e ctx →
    let k := e * 16 + ctx
    let c := s.veCtx k
    let ea := ((c.e.get 0 a.toNat).setWidth 20 + disp.signExtend 20 : BitVec 20).toNat
    let em := ((c.e.get 0 a.toNat).setWidth 20 + 4 * d13.signExtend 20 : BitVec 20).toNat
    let put := fun (v : W32) => { c with e := c.e.put t.toNat v }
    let v : W32 := BitVec.ofNat 32 (packBytes l)
    let next := fun (z : State) => z.updVe k (fun q => { q with pc := q.pc + 1 })
    let x := (c.get t.toNat)
    (s.veRead e ctx c bk.toNat sa.toNat 4 4 = .ok s l → VeEnds (.veLw e ctx t bk sa) s e ctx (put v)) ∧
    (s.veRead e ctx c bk.toNat sa.toNat 2 2 = .ok s l → VeEnds (.veLh e ctx t bk sa) s e ctx (put v) ∧ VeEnds (.veLhs e ctx t bk sa) s e ctx (put ((v.setWidth 16).signExtend 32))) ∧
    (s.veRead e ctx c bk.toNat sa.toNat 1 1 = .ok s l → VeEnds (.veLb e ctx t bk sa) s e ctx (put v) ∧ VeEnds (.veLbs e ctx t bk sa) s e ctx (put ((v.setWidth 8).signExtend 32))) ∧
    (s.veRead e ctx c bk.toNat ea 4 4 = .ok s l → VeEnds (.veLwx e ctx t a bk disp) s e ctx (put v)) ∧
    (s.veRead e ctx c bk.toNat ea 1 1 = .ok s l → VeEnds (.veLbx e ctx t a bk disp) s e ctx (put v)) ∧
    (t.toNat + n.toNat ≤ 15 → s.veRead e ctx c bk.toNat em (4 * (n.toNat + 1)) 4 = .ok s l →
      VeEnds (.ldm e ctx t a bk n d13) s e ctx { c with e := (List.range (n.toNat + 1)).foldl (fun z i => z.put (t.toNat + i) (BitVec.ofNat 32 (packBytes ((l.drop (4 * i)).take 4)))) c.e }) ∧
    ((u.veCtx k).st = .running →
      (s.veWrite e ctx c bk.toNat sa.toNat 4 (toBytes 4 x) = .ok u () → Leaves (.veSw e ctx t bk sa) s (next u)) ∧
      (s.veWrite e ctx c bk.toNat sa.toNat 2 (toBytes 2 x) = .ok u () → Leaves (.veSh e ctx t bk sa) s (next u)) ∧
      (s.veWrite e ctx c bk.toNat sa.toNat 1 (toBytes 1 x) = .ok u () → Leaves (.veSb e ctx t bk sa) s (next u)) ∧
      (s.veWrite e ctx c bk.toNat ea 4 (toBytes 4 x) = .ok u () → Leaves (.veSwx e ctx t a bk disp) s (next u)) ∧
      (s.veWrite e ctx c bk.toNat ea 1 (toBytes 1 x) = .ok u () → Leaves (.veSbx e ctx t a bk disp) s (next u)) ∧
      (t.toNat + n.toNat ≤ 15 → s.veWrite e ctx c bk.toNat em 4 ((List.range (n.toNat + 1)).flatMap (fun i => toBytes 4 (c.get (t.toNat + i)))) = .ok u () →
        Leaves (.stm e ctx t a bk n d13) s (next u))) ∧
    (15 < t.toNat + n.toNat → Leaves (.ldm e ctx t a bk n d13) s (s.veTrap e ctx 1) ∧ Leaves (.stm e ctx t a bk n d13) s (s.veTrap e ctx 1)) ∧
    (ea % 4 = 0 → ea < 65536 →
      Leaves (.lxch e ctx t a 0 disp) s ((s.sramWrite e ea (toBytes 4 x)).setVe k { put (BitVec.ofNat 32 (packBytes (s.sramRead e ea 4))) with pc := c.pc + 1 })) ∧
    (bk ≠ 0 → Leaves (.lxch e ctx t a bk disp) s (s.veTrap e ctx 1)) ∧
    (∀ w, (w = 1 ∨ w = 2 ∨ w = 4) → (sa.toNat % w = 0 → sa.toNat < 65536 →
        s.veRead e ctx c 0 sa.toNat w w = .ok s (s.sramRead e sa.toNat w) ∧ s.veWrite e ctx c 0 sa.toNat w (toBytes w x) = .ok (s.sramWrite e sa.toNat (toBytes w x)) ())) ∧
    (sa.toNat % 4 ≠ 0 → Leaves (.veLw e ctx t bk sa) s (s.veTrap e ctx 2) ∧ Leaves (.veSw e ctx t bk sa) s (s.veTrap e ctx 2)) ∧
    (65536 ≤ sa.toNat → Leaves (.veLb e ctx t 0 sa) s (s.veTrap e ctx 3) ∧ Leaves (.veSb e ctx t 0 sa) s (s.veTrap e ctx 3)) ∧
    VeEnds (.veLw e ctx t 0 0x10000) s e ctx (put (c.evt.setWidth 32)) ∧ VeEnds (.veLw e ctx t 0 0x10004) s e ctx (put (c.exid.setWidth 32)) ∧
    VeEnds (.veLw e ctx t 0 0x10008) s e ctx (put (BitVec.ofNat 32 (256 * e + ctx))) ∧ VeEnds (.veLw e ctx t 0 0x1000C) s e ctx (put (c.pid.setWidth 32)) ∧
    VeEnds (.veLw e ctx t 0 0x10010) s e ctx (put (s.fab.tb.extractLsb' 12 32))

/-- 13 R317: what a store puts into the data SRAM of an engine is read back from there, and every other byte of every engine stays. -/
def Obligations.SramReadsBack : Prop :=
  ∀ (s : State) (e sa : Nat) (bs : List Byte), sa + bs.length ≤ 65536 →
    (s.sramWrite e sa bs).sramRead e sa bs.length = bs ∧
    ∀ f i n, (f ≠ e ∨ i + n ≤ sa ∨ sa + bs.length ≤ i) → i + n ≤ 65536 → (s.sramWrite e sa bs).sramRead f i n = s.sramRead f i n

/-- 13 R323 to R325, 12 R295, 16 R365: the coprocessor functions of an engine: handles of streams and records, checksums, steps and words of the journal entry, and the descriptor that a stalled context submits. -/
def Obligations.EngineCoprocessor : Prop :=
  ∀ (s u : State) (e ctx v : Nat) (t a b : BitVec 4) (h : Handle) (x : Exch), VeReady s e ctx →
    let k := e * 16 + ctx
    let c := s.veCtx k
    let ra := c.get a.toNat
    let rb := c.get b.toNat
    let rt : W32 := c.e.get 0 t.toNat
    let put := fun (w : W32) => { c with e := c.e.put t.toNat w }
    let next := fun (z : State) => z.updVe k (fun q => { q with pc := q.pc + 1, st := if q.st = .waitJack then .running else q.st })
    (∀ z, s.exOf c.exid = some x → s.portEngine x.vp = some z → s.fld F.ZIP_ENG_STREAMS z < 64 →
      (s.setFld F.ZIP_ENG_STREAMS (s.fld F.ZIP_ENG_STREAMS z + 1) z).newHandle { exid := c.exid, kind := 0, state := 0, zlib := ra / 2 % 2 == 1, slot := z, mode := ra % 2 } = (u, v) →
      Leaves (.zopen e ctx t a 0 0) s (next (u.veSet k t v))) ∧
    (s.chn.handles.find ra = some h → h.exid = c.exid →
      (h.kind = 0 → VeEnds (.zstat e ctx t a 0 0) s e ctx (put (BitVec.ofNat 32 h.state)) ∧ Leaves (.kstat e ctx t a 0 0) s (s.veTrap e ctx 1) ∧ Leaves (.kclose e ctx 0 a 0 0) s (s.veTrap e ctx 1) ∧
        (h.slot < 22 → u = { s with chn := { s.chn with handles := s.chn.handles.del ra } } →
          Leaves (.zclose e ctx 0 a 0 0) s (next (u.setFld F.ZIP_ENG_STREAMS (u.fld F.ZIP_ENG_STREAMS h.slot - 1) h.slot)))) ∧
      (h.kind = 1 → VeEnds (.kstat e ctx t a 0 0) s e ctx (put (BitVec.ofNat 32 h.state)) ∧
        Leaves (.kclose e ctx 0 a 0 0) s (next { s with chn := { s.chn with handles := s.chn.handles.del ra } }))) ∧
    (s.chn.handles.find ra = none → Leaves (.zstat e ctx t a 0 0) s (s.veTrap e ctx 1) ∧ Leaves (.kclose e ctx 0 a 0 0) s (s.veTrap e ctx 1)) ∧
    (let q := s.chn.keys.get KSlot.reset (ra % 16384)
     let mode := rb % 8
     1 ≤ mode → q.v = true → q.pid = c.pid → q.modes.getLsbD (mode - 1) = true → q.enc = true →
       s.newHandle { exid := c.exid, kind := 1, state := 0, zlib := false, slot := ra % 16384, mode := mode } = (u, v) → Leaves (.kopen e ctx t a b 0) s (next (u.veSet k t v))) ∧
    ((s.chn.keys.get KSlot.reset (ra % 16384)).v = false → s.exOf c.exid = none →
      Leaves (.kopen e ctx t a b 0) s (next ((s.flt 11 4 0 (some c.pid.toNat)).veSet k t (2 ^ 32 - 1)))) ∧
    VeEnds (.crcw e ctx t a 0 0) s e ctx (put (crc32c rt (toBytes 4 ra))) ∧
    (rb ≤ 4096 → ra % 2 ^ 20 + rb ≤ 65536 → VeEnds (.crcl e ctx t a b 0) s e ctx (put (crc32c rt (s.sramRead e (ra % 2 ^ 20) rb))) ∧
      (rb % 2 = 0 → VeEnds (.sum16 e ctx t a b 0) s e ctx (put (BitVec.ofNat 32 (ones16 (rt.toNat % 65536) (s.sramRead e (ra % 2 ^ 20) rb)))))) ∧
    (4096 < rb → Leaves (.crcl e ctx t a b 0) s (s.veTrap e ctx 1) ∧ Leaves (.sum16 e ctx t a b 0) s (s.veTrap e ctx 1)) ∧
    (rb ≤ 4096 → 65536 < ra % 2 ^ 20 + rb → Leaves (.crcl e ctx t a b 0) s (s.veTrap e ctx 3)) ∧
    (s.exOf c.exid = some x →
      VeEnds (.jread e ctx t 0 b 0) s e ctx (put (BitVec.ofNat 32 ((s.img x).toNat / 2 ^ (32 * (15 - rb % 16))))) ∧
      (let i : Img := BitVec.ofNat 512 (packBytes (s.sramRead e (ra % 2 ^ 20) 64))
       ra % 2 ^ 20 + 64 ≤ 65536 →
        ((s.jent x.mirror x.idx).outst = true → Leaves (.jstep e ctx t a 0 0) s (s.keep s (256 + k))) ∧
        ((s.jent x.mirror x.idx).outst = false →
          (jState i = 4 → Leaves (.jstep e ctx t a 0 0) s (s.veTrap e ctx 1)) ∧
          (jState (s.img x) = 1 → jState i = 2 →
            s.writeStep x (fun j =>
              let j := jput (jput (jput j 0 63 60 2) 1 47 32 (jget i 1 47 32)) 1 31 16 (jget i 1 31 16)
              let j := jput (jput j 2 55 0 (jget i 2 55 0)) 6 63 56 (jget i 6 63 56)
              jput (jput j 6 55 48 (jget i 6 55 48)) 6 24 0 (jget i 6 24 0)) = u →
            ((u.jent x.mirror x.idx).outst = true → (u.veCtx k).st = .running → Leaves (.jstep e ctx t a 0 0) s ((u.updVe k (fun q => { q with st := .waitJack })).keep s (256 + k))) ∧
            ((u.jent x.mirror x.idx).outst = false →
              Leaves (.jstep e ctx t a 0 0) s (next ((u.startQueued x.key).veSet k t (b2n (jSolo (u.jent x.mirror x.idx).img))))))))) ∧
    Leaves (.pdsqSubmit e ctx) s s

/-- 13 R315, R316, R325 to R327, 16 R367, 06 R156: events of engines and sequencers: dispatch, the watchdog, failure and planned moves, the release and reading of parked contexts, the end of a command, and a grant of the port buffer. Where the spec is open it follows the model's choices of logs 38, 65, 37 and 85. 13 R325: a context that a full queue has stalled submits its descriptor once there is room, and goes on. -/
def Obligations.EngineEvents : Prop :=
  (∀ (s u w : State) (e ctx idx n vp m : Nat) (mirror : Bool) (x : Exch) (d : PdsDesc) (r : W64) (v : W64) (src : Src) (exid : BitVec 24) (resid : BitVec 25) (rest : List (BitVec 24 × Nat)),
     e < 68 → ctx < 16 → vp < 16 →
     let k := e * 16 + ctx
     (s.chn.exch.find (exKey mirror idx) = some x → x.ipl = false → s.flag F.FLT_FENCE_CXF = false → s.veActive x.eng = true → s.chn.veMoving.contains x.eng = false →
       (x.ev ≠ 0 → x.running = false →
         (List.range 16).find? (fun n => (s.veCtx (x.eng * 16 + n)).st == .free && !s.veOpen (x.eng * 16 + n)) = some n → s.free = (w, r) →
         u = w.updMem (fun z => { z with reqs := z.reqs.filter (fun q => !veKey (x.eng * 16 + n) q.1) }) →
         let kind := ((List.range 8).find? (fun i => x.ev.getLsbD i)).getD 0
         let c : VeCtx := { VeCtx.reset with st := .running, mh := r.extractLsb' 32 32, ml := r.extractLsb' 0 32, pc := BitVec.ofNat 15 kind, pid := BitVec.ofNat 8 (jget (u.img x) 0 55 48), exid := BitVec.ofNat 24 (u.exid x), evt := x.ev }
         let z := u.setVe (x.eng * 16 + n) ((c.put 0 x.ev.toNat).put 1 (u.exid x))
         Leaves (.veEventDispatch mirror idx) s ((z.setFld F.VEN_ENG_BUSY (z.fld F.VEN_ENG_BUSY x.eng + 1) x.eng).setEx { x with ev := 0, running := true })) ∧
       (x.running = true → Leaves (.veEventDispatch mirror idx) s s)) ∧
     (VeReady s e ctx → Leaves (.veWatchdog e ctx) s ((s.veTrap e ctx 4).veMoveDue e)) ∧
     ((s.veCtx k).st = .parked → Leaves (.veWatchdog e ctx) s s) ∧
     (s.fld F.VEN_ENG_ROLE e = 0 → Leaves (.veEngineFailure e false) s (s.veFail e) ∧
       (s.fld F.VEN_ENG_BUSY e ≠ 0 → Does (.veEngineFailure e true) s (fun t => t.chn.veMoving.contains e = true ∧ t.chn.ctx = s.chn.ctx ∧ t.chn.exch = s.chn.exch ∧ t.mem = s.mem))) ∧
     (s.fld F.VEN_ENG_ROLE e = 1 → Leaves (.veEngineFailure e false) s (((s.setFld F.VEN_ENG_ROLE 2 e).consume 10).flt 8 3 e)) ∧
     (s.fld F.VEN_ENG_ROLE e = 2 → Leaves (.veEngineFailure e true) s s) ∧
     (s.chn.veMoving.contains e = true → Leaves (.plannedEngineMoveExpiry e) s (s.veFail e)) ∧ (s.chn.veMoving.contains e = false → Leaves (.plannedEngineMoveExpiry e) s s) ∧
     (u = s.wrReg src F.VEN_CTXSEL_ENG.base v →
       let g := u.fld F.VEN_CTXSEL_ENG
       let q := u.fld F.VEN_CTXSEL_CTX
       (v.getLsbD 63 = false → Leaves (.venCtxselRelease src v) s u) ∧
       (v.getLsbD 63 = true → fieldOf v 19 13 = g → (u.veCtx (g * 16 + q)).st = .parked →
         let order := (u.chn.parkOrder.get [] g).filter (fun i => i != q)
         Leaves (.venCtxselRelease src v) s ((({ u with chn := { u.chn with parkOrder := u.chn.parkOrder.put g order } } : State).setVe (g * 16 + q) VeCtx.reset).setFld F.VEN_ENG_PARKED order.length g))) ∧
     (let c := s.veCtx (s.fld F.VEN_CTXSEL_ENG * 16 + s.fld F.VEN_CTXSEL_CTX)
      let i := s.fld F.VEN_CTXSEL_INDEX
      (c.st = .parked → i < 16 → Leaves (.venCtxdataRead src) s { s with busData := (c.e.get 0 i).setWidth 64 }) ∧
      (c.st ≠ .parked → Leaves (.venCtxdataRead src) s { s.cfgErr src F.VEN_CTXDATA_DATA.base with busData := 0 })) ∧
     (s.exOf exid = some x → x.cur = some d → x.ipl = false → x.vp = vp → x.sent = true →
       (d.writes = false → Leaves (.pdsCommandEnd vp (.done exid resid)) s (s.endRead x d resid)) ∧
       Leaves (.pdsCommandEnd vp (.addressCheck exid resid)) s (s.cmdFail x 0x11 resid.toNat) ∧ Leaves (.pdsCommandEnd vp (.authFail exid)) s (s.cmdBad x d 0x13) ∧
       Leaves (.pdsCommandEnd vp (.keyRefused exid)) s (s.cmdBad x d 0x15) ∧ Leaves (.pdsCommandEnd vp (.programCheck exid)) s (s.cmdFail x 0x10 d.count.toNat)) ∧
     (w = s.flt 1 6 vp → u = { w with chn := { w.chn with pdsStop := insertNat vp w.chn.pdsStop } } →
       Leaves (.pdsCommandEnd vp .uncorrectable) s ((u.exOn vp).foldl (fun z q => match z.chn.exch.find q with
         | some y => if y.ipl then z.iplTry y else z.pathLost q
         | none => z) u)) ∧
     (let b := s.chn.pbuf.get PortBuf.reset vp
      b.queue = (exid, m) :: rest →
       (4194304 < b.used + m → Leaves (.portBufferGrant vp) s s) ∧
       (b.used + m ≤ 4194304 → u = { s with chn := { s.chn with pbuf := s.chn.pbuf.put vp { used := b.used + m, queue := rest, granted := b.granted ++ [(exid, m)] } } } →
         u.exOf exid = some x → x.cur = some d → Leaves (.portBufferGrant vp) s (u.sendCmd x d)))) ∧
  (∀ (s u : State) (e ctx : Nat) (x : Exch), e < 68 → ctx < 16 → s.flag F.FLT_FENCE_CXF = false → (∀ p ∈ s.mem.reqs, veKey (e * 16 + ctx) p.1 = true → p.2.req.kind ≠ .wrpl) →
     let k := e * 16 + ctx
     let c := s.veCtx k
     c.st = .waitPds → s.descOk c c.word = true → s.exOf c.exid = some x → (s.chn.pdsq.get [] (bits (c.word 0) 3 0)).length < 64 →
       (s.setVe k { c with st := .running, desc := [] }).submitCmd x (mkDesc c c.word) (bits (c.word 0) 3 0) = u → (u.veCtx k).st = .running →
       Leaves (.pdsqSubmit e ctx) s (u.updVe k (fun q => { q with pc := q.pc + 1 })))

/-- 12 R284, R312: the subchannel commands. One that comes while another is in progress is refused; a reload checks the definition, mirrors it, and brings it into force or refuses it with its code; an invalidation is the reload of an empty definition; a termination asks the adapter to abort. Where the spec is open it follows the model's choices of logs 71 and 92. 12 R284, R285, R294, R298, R299, R305, R307: the messages of the journal's mirror, its timeout, a takeover and the end of a quarantine. Where the spec is open it follows the model's choices of logs 32, 92 and 93. -/
def Obligations.SubchannelsAndJournal : Prop :=
  (∀ (s u : State) (src : Src) (n : BitVec 16) (d : BitVec 256) (b i : Nat) (x : Exch),
     let k := n.toNat
     let st := (s.setFld F.VLX_SCCMD_SCH k).setFlag F.VLX_SCCMD_BUSY true
     let c := s.sch k
     let vl := F.VLX_SCCMD_BUSY.base
     (s.flag F.VLX_SCCMD_BUSY = true → Leaves (.subchannelTerminate src n) s (s.cfgErr src vl) ∧ Leaves (.subchannelInvalidate src n) s (s.cfgErr src vl) ∧
       (s.defRead = false → Leaves (.subchannelReload src n) s (s.cfgErr src vl))) ∧
     (s.flag F.VLX_SCCMD_BUSY = false →
       Leaves (.subchannelReload src n) s (st.reloadRead k) ∧
       (c.active = none → c.final = false → st.flag F.VLX_BUDDY_BV = false → Leaves (.subchannelInvalidate src n) s (st.acceptDef k 0)) ∧
       (c.active.isSome = true → Leaves (.subchannelInvalidate src n) s (st.sccDone 2)) ∧
       (c.active = none → Leaves (.subchannelTerminate src n) s (st.sccDone 5)) ∧
       (c.active = some (false, i) → c.final = false → s.chn.exch.find i = some x → u = (st.setEx (x.raise 6)).abortEx i 0x22 →
         (∀ y, u.chn.exch.find i = some y → y.aborting.isSome = true → Leaves (.subchannelTerminate src n) s u) ∧
         ((∀ y, u.chn.exch.find i = some y → y.aborting = none) → Leaves (.subchannelTerminate src n) s (u.sccDone 0)))) ∧
     (defBad d = true → s.reloadDef k d = s.sccDone 1) ∧
     (defBad d = false → c.active.isSome = true → s.reloadDef k d = s.sccDone 2) ∧
     (defBad d = false → c.active = none → c.final = false → s.flag F.VLX_BUDDY_BV = true → s.buddy = some b →
       s.reloadDef k d = ({ s with chn := { s.chn with mirr := { s.chn.mirr with jdef := some k, jdefTries := 0, jdefDef := d } } }).send .journal b 0x52 [k, d.toNat])) ∧
  (∀ (s u : State) (src sch i n b : Nat) (e : BitVec 512) (exid : BitVec 24) (step : BitVec 16) (d : BitVec 256) (x : Exch), s.flag F.FLT_FENCE_CXF = false →
     let m := jExid e % 16384
     let j := s.jent true m
     let own := exid.toNat % 16384
     let o := s.jent false own
     (s.flag F.VLX_BUDDY_BV = true → s.fld F.VLX_BUDDY_BCX = src → s.chn.frozen = false →
       (jok e = true →
         (stepLater (jStep e) (jStep j.img) = true → Leaves (.jwr src e) s ((s.setJent true m { j with img := e }).send .journal src 0x51 [jExid e, jStep e])) ∧
         (stepLater (jStep e) (jStep j.img) = false → Leaves (.jwr src e) s (s.send .journal src 0x51 [jExid e, jStep e])) ∧
         (s.chn.exch.has (16384 + m) = true → Leaves (.jhnd src e) s (s.send .journal src 0x55 [jExid e, jStep e])) ∧
         (s.chn.exch.has (16384 + m) = false → Leaves (.jhnd src e) s (((s.setJent true m { j with img := e }).adopt m).1.send .journal src 0x55 [jExid e, jStep e]))) ∧
       (jok e = false → Leaves (.jwr src e) s s ∧ Leaves (.jhnd src e) s s) ∧
       (sch < 65536 → Leaves (.jdef src sch d) s (s.send .journal src 0x53 [sch, if s.defAccepted sch d then 1 else 0])) ∧
       (i < 16384 → Leaves (.jrd src i) s (s.send .journal src 0x57 [i, (s.jent true i).img.toNat]))) ∧
     (s.flag F.VLX_BUDDY_BV = false → Leaves (.jwr src e) s s ∧ Leaves (.jdef src sch d) s s ∧ Leaves (.jhnd src e) s s ∧ Leaves .takeover s s) ∧
     (exid.toNat / 16384 = s.cxid →
       (o.outst = true → jStep o.img = step.toNat → Leaves (.jack exid step) s (((s.setJent false own { o with outst := false, tries := 0 }).stepAcked own).startQueued own)) ∧
       (jStep o.img ≠ step.toNat → Leaves (.jack exid step) s s) ∧
       (s.chn.exch.find own = some x → s.chn.mirr.jhnd.has own = true → jStep o.img = step.toNat →
         u = { s with chn := { s.chn with mirr := { s.chn.mirr with jhnd := s.chn.mirr.jhnd.del own } } } →
         Leaves (.jhack exid step) s ((u.setJent false own { o with img := jseal (jput o.img 0 63 60 4) }).endExch x))) ∧
     (s.chn.mirr.jdef = some n → u = { s with chn := { s.chn with mirr := { s.chn.mirr with jdef := none } } } →
       Leaves (.jdack n true) s (u.acceptDef n s.chn.mirr.jdefDef) ∧ Leaves (.jdack n false) s (u.sccDone 3)) ∧
     (i < 16384 →
       (s.chn.exch.find i = some x →
         (s.chn.mirr.jrd.has i = false → Leaves (.jrdr i e) s s) ∧
         (s.chn.mirr.jrd.has i = true → u = { s with chn := { s.chn with mirr := { s.chn.mirr with jrd := s.chn.mirr.jrd.del i } } } →
           let j := u.jent false i
           let good := u.setJent false i { j with img := e, outst := false, tries := 0 }
           (jSolo (u.img x) = false → jok e = true →
             (j.outst = true → jStep e = jStep j.img → Leaves (.jrdr i e) s ((good.stepAcked i).startQueued i)) ∧
             (j.outst = false → (jState e ≠ 3 → Leaves (.jrdr i e) s (good.setEx (x.raise 4))) ∧ (jState e = 3 → Leaves (.jrdr i e) s (good.setEx x)))) ∧
           (jSolo (u.img x) = true ∨ jok e = false → Leaves (.jrdr i e) s (u.journalLost i)))) ∧
       (let q := s.jent false i
        (q.quar = false → Leaves (.quarantineEnd i) s s) ∧
        (q.quar = true → u = s.setJent false i { q with quar := false, img := jseal (jput q.img 0 63 60 0) } →
         Leaves (.quarantineEnd i) s (({ u with chn := { u.chn with jfreed := u.chn.jfreed ++ [i] } }).jused (u.fld F.VLX_STAT_JUSED - 1))) ∧
        (s.buddy = some b → q.outst = true →
         (q.tries < 2 → Leaves (.mirrorTimeout (.jwr i)) s (((s.setJent false i { q with tries := q.tries + 1 }).send .journal b 0x50 [q.img.toNat]).flt 7 0)) ∧
         (2 ≤ q.tries → Leaves (.mirrorTimeout (.jwr i)) s s.buddyLost.startAll)))) ∧
     (s.buddy = none → Leaves (.mirrorTimeout (.jwr i)) s s) ∧
     (s.flag F.VLX_BUDDY_BV = true → s.fld F.VLX_STAT_BST = 2 → s.present (s.fld F.VLX_BUDDY_BCX) = false → s.chn.frozen = false → s.chn.mir = [] →
       (u = ({ s.buddyLost.startAll with chn := { s.buddyLost.startAll.chn with frozen := true } } : State).setFlag F.VLX_STAT_TKACT true) → u.chn.mir = [] →
       Leaves .takeover s ((u.setFlag F.VLX_STAT_TKACT false).flt 7 9)) ∧
     (s.chn.frozen = true → Leaves .takeover s s))

/-- 14 R332 to R339, R343: frames at a port. The complex takes a good link frame and acknowledges and counts a good numbered one in sequence; a bad one is refused; an adapter that takes part keeps to the order of XSEQ, holds what it has executed, and ends an exchange by ABORT. 14 R330, R337 to R345: the events of a port: echo, retraining and training, the exchange timeout, lane sparing, the switch-over of controllers and the loss of its clock. -/
def Obligations.Ports : Prop :=
  (∀ (s u : State) (vp : Nat) (h : LinkHdr) (exid : BitVec 24) (xseq cmdix devadr : BitVec 16) (payload : BitVec 256) (sr last : Bool) (bytes : List Byte) (dstat : Byte) (scode : BitVec 3) (resid : BitVec 25)
     (rseq cmd data sts urg : BitVec 8) (stamp : BitVec 32) (a : AdEx) (x : Exch), vp < 16 →
     let cmdFr : VParts := { exid := exid.toNat, xseq := xseq.toNat, spec := 2 ^ 36 + cmdix.toNat * 2 ^ 16 + devadr.toNat, pay := toBytes 32 payload.toNat }
     let resFr : VParts := { exid := exid.toNat, xseq := xseq.toNat, spec := 2 * 2 ^ 36 + b2n sr * 2 ^ 35 + cmdix.toNat * 2 ^ 16, pay := [] }
     let aboFr : VParts := { exid := exid.toNat, xseq := fieldOf h.rest 135 120, spec := 3 * 2 ^ 36, pay := [] }
     let datFr := velexParts 2 [exid.toNat, xseq.toNat, cmdix.toNat, b2n last, bytes.length, packBytes bytes]
     let ackFr := fun (what : Nat) => velexParts 4 [exid.toNat, xseq.toNat, cmdix.toNat, what]
     let stsFr : VParts := { exid := exid.toNat, xseq := xseq.toNat, spec := dstat.toNat * 2 ^ 32 + scode.toNat * 2 ^ 29 + resid.toNat, pay := h.stsPay cmdix }
     let nakFr := velexParts 5 [rseq.toNat]
     let creFr := velexParts 6 [cmd.toNat, data.toNat, sts.toNat, urg.toNat]
     let echFr := velexParts 8 [stamp.toNat]
     (s.adTakes vp h 1 cmdFr = true → fieldOf payload 243 240 = 0 → fieldOf payload 239 224 = 0 → fieldOf payload 191 128 = 0 → s.adEx exid = none → xseq = 0 →
       Leaves (.velexCmd vp h exid xseq cmdix devadr payload) s (s.setAd exid { exp := 1, executed := cmdix, partialCmd := true, statusSent := false, vp := vp, ended := false })) ∧
     (s.adEx exid = some a → a.ended = false →
       (s.adTakes vp h 1 resFr = true →
         Leaves (.velexResume vp h exid xseq cmdix sr) s (s.setAd exid { a with exp := xseq, partialCmd := a.partialCmd && decide (cmdix.toNat < a.executed.toNat), statusSent := a.statusSent || sr, vp := vp })) ∧
       (a.vp = vp →
         (s.adTakes vp h 1 aboFr = true → Leaves (.velexAbort vp h exid) s (s.setAd exid { a with ended := true, partialCmd := false })) ∧
         (1 ≤ bytes.length → bytes.length ≤ 4096 → s.adTakes vp h 2 datFr = true →
           (xseq = a.exp → Leaves (.velexData vp h exid false xseq cmdix last bytes) s (s.setAd exid { a with exp := a.exp + 1, partialCmd := true, executed := if last then cmdix + 1 else a.executed })) ∧
           (xseq = a.exp - 1 → Leaves (.velexData vp h exid false xseq cmdix last bytes) s s) ∧
           (xseq = a.exp + 1 → Leaves (.velexData vp h exid false xseq cmdix last bytes) s (s.setAd exid { a with ended := true }))))) ∧
     (s.adEx exid = some a →
       (s.adTakes vp h 4 (ackFr 3) = true → Leaves (.velexAck vp h exid xseq cmdix 3) s (s.setAd exid { a with executed := cmdix + 1, partialCmd := false })) ∧
       (s.adTakes vp h 4 (ackFr 4) = true → Leaves (.velexAck vp h exid xseq cmdix 4) s { s with chn := { s.chn with adEx := s.chn.adEx.del exid.toNat } })) ∧
     (s.adTakes vp h 7 (velexParts 7 [1]) = true →
       Leaves (.velexFence vp h 1) s { s with chn := { s.chn with adFenced := insertNat vp (s.chn.adFenced.filter (fun n => n != vp)) } }) ∧
     (s.adTakes vp h 1 cmdFr = false → Leaves (.velexCmd vp h exid xseq cmdix devadr payload) s s) ∧
     (s.adTakes vp h 1 resFr = false → Leaves (.velexResume vp h exid xseq cmdix sr) s s) ∧
     (s.adTakes vp h 1 aboFr = false → Leaves (.velexAbort vp h exid) s s) ∧
     (s.adTakes vp h 7 (velexParts 7 [rseq.toNat]) = false → Leaves (.velexFence vp h rseq) s s) ∧
     (s.vpUp vp = true → (s.vport vp).fencing = 0 →
       (h.crcOk 5 nakFr = false → Leaves (.velexNak vp h rseq) s (s.vbad vp)) ∧
       (h.crcOk 6 creFr = false → Leaves (.velexCredit vp h cmd data sts urg) s (s.vbad vp)) ∧
       (h.crcOk 8 echFr = false → Leaves (.velexEcho vp h stamp) s (s.vbad vp)) ∧
       (h.crcOk 3 stsFr = false → Leaves (.velexStatus vp h exid xseq cmdix dstat scode resid) s (s.vbad vp)) ∧
       (h.aborted = false →
         let t := s.vlack vp h.lack
         let p := t.vport vp
         let took := (t.setVport vp { p with rxSeq := p.rxSeq + 1, returned := p.returned.upd 0 (4 + vcOf h.urgent 2) (fun n => (n + 1) % 256) }).sendCredit vp
         (h.crcOk 8 echFr = true → h.rsvOk 8 = true → Leaves (.velexEcho vp h stamp) s t) ∧
         (h.crcOk 8 echFr = true → h.rsvOk 8 = false → Leaves (.velexEcho vp h stamp) s (t.flt 9 5)) ∧
         (h.crcOk 5 nakFr = true → h.rsvOk 5 = true →
           (((t.vresend vp rseq).vport vp).resends < 8 → Leaves (.velexNak vp h rseq) s (t.vresend vp rseq)) ∧
           (8 ≤ ((t.vresend vp rseq).vport vp).resends → Leaves (.velexNak vp h rseq) s ((t.vresend vp rseq).vretrain vp))) ∧
         (h.crcOk 6 creFr = true → h.rsvOk 6 = true →
           let q := [cmd, data, sts, urg].zipIdx.foldl (fun (p : VPort) c =>
             { p with cred := p.cred.upd 0 c.2 (fun n => n + (c.1 - BitVec.ofNat 8 (p.returned.get 0 c.2)).toNat), returned := p.returned.put c.2 c.1.toNat }) p
           Leaves (.velexCredit vp h cmd data sts urg) s ((t.setVport vp q).vpump vp (q.waitq.length + 1))) ∧
         (h.lseq = p.rxSeq → u = took →
           (h.crcOk 3 stsFr = true → h.rsvOk 3 = true → scode = 0 → u.exOf exid = some x → x.vp = vp → x.ipl = false →
             (xseq = x.inExp → ∀ w y j, y = { x with inExp := x.inExp + 1, owed := true, dstat := dstat, scode := scode, resid := resid } → w = (u.setEx { x with inExp := x.inExp + 1 }).setEx y →
               jState (w.img y) = 1 → j = w.jent y.mirror y.idx →
               Leaves (.velexStatus vp h exid xseq cmdix dstat scode resid) s
                 ((w.setJent y.mirror y.idx { j with img := jseal (jput (jput j.img 6 55 48 dstat.toNat) 6 24 0 resid.toNat) }).setEx (y.raise 2))) ∧
             (xseq = x.inExp - 1 → Leaves (.velexStatus vp h exid xseq cmdix dstat scode resid) s (u.count F.VPT_XCH_DUPS (some F.VPT_XCH_DOVF) vp)) ∧
             (xseq = x.inExp + 1 → Leaves (.velexStatus vp h exid xseq cmdix dstat scode resid) s (u.finalStatus x.key 0x21))) ∧
           (h.crcOk 4 (ackFr 1) = true → h.rsvOk 4 = true → u.exOf exid = none → Leaves (.velexAck vp h exid xseq cmdix 1) s u)) ∧
         (h.lseq = p.rxSeq + 1 → h.crcOk 3 stsFr = true → Leaves (.velexStatus vp h exid xseq cmdix dstat scode resid) s (t.sendLink vp 5 [p.rxSeq.toNat])))) ∧
     (s.vpUp vp = false → Leaves (.velexNak vp h rseq) s s ∧ Leaves (.velexEcho vp h stamp) s s)) ∧
  (∀ (s u : State) (vp lane : Nat) (cmd data sts urg : BitVec 8) (exid : BitVec 24) (x : Exch), vp < 16 →
     let p := s.vport vp
     (s.fld F.VPT_STAT_STATE vp = 4 → Leaves (.echoInterval vp) s (s.sendLink vp 7 [max 1 p.fencing.toNat])) ∧
     (s.vpUp vp = true → s.fld F.VPT_STAT_STATE vp ≠ 4 → Leaves (.echoInterval vp) s ((s.sendLink vp 8 [fieldOf s.fab.tb 43 12]).sendCredit vp)) ∧
     (s.vpUp vp = true → Leaves (.portSilenceRetrain vp) s (((s.setFld F.VPT_STAT_STATE 1 vp).count F.VPT_ERR_RETRAIN (some F.VPT_ERR_TOVF) vp).flt 9 1 vp)) ∧
     (s.vpUp vp = false → Leaves (.portSilenceRetrain vp) s s) ∧
     (s.retraining vp = true →
       (u = (s.setVport vp { p with resends := 0, retrainFails := 0 }).setFld F.VPT_STAT_STATE (s.vstate vp) vp →
         Leaves (.velexRetrain vp true) s ((p.replay.foldl (fun z f => z.sendSeq vp f) u).vpump vp (p.waitq.length + 1))) ∧
       (p.retrainFails < 2 → Leaves (.velexRetrain vp false) s (s.setVport vp { p with retrainFails := p.retrainFails + 1 })) ∧
       (2 ≤ p.retrainFails → Leaves (.velexRetrain vp false) s (s.portDown vp))) ∧
     (s.fld F.VPT_STAT_STATE vp = 0 → p.fencing = 0 → s.flag F.VPT_CTL_EN vp = true → s.driven vp = true → s.vlanes vp ≠ 0 → s.flag F.FLT_FENCE_CXF = false →
       Leaves (.portTrainingAttempt vp false cmd data sts urg) s s ∧
       (u = s.sendLink vp 6 [32, 64, 64, 16] →
         (cmd = 0 → Leaves (.portTrainingAttempt vp true cmd data sts urg) s ((u.setFld F.VPT_STAT_STATE 1 vp).flt 9 6)) ∧
         (cmd ≠ 0 → 8 ≤ data.toNat → sts ≠ 0 → urg ≠ 0 →
           Does (.portTrainingAttempt vp true cmd data sts urg) s (fun t =>
             t.fld F.VPT_STAT_STATE vp = (if 2 ≤ s.vlanes vp then 2 else 3) ∧ (t.vport vp).txSeq = 0 ∧ (t.vport vp).rxSeq = 0 ∧
             (t.vport vp).cred = [(0, cmd.toNat), (1, data.toNat), (2, sts.toNat), (3, urg.toNat)] ∧ t.out = u.out ∧ t.mem = s.mem ∧ t.cores = s.cores)))) ∧
     (s.flag F.VPT_CTL_EN vp = false → Leaves (.portTrainingAttempt vp true cmd data sts urg) s s) ∧
     (s.exOf exid = some x → x.ipl = false →
       (x.timer = false → Leaves (.exchangeTimeout exid) s s) ∧
       (x.timer = true → x.aborting = none →
         Leaves (.exchangeTimeout exid) s ((s.count F.VPT_XCH_TMOCNT (some F.VPT_XCH_MOVF) x.vp).setEx (({ x with timer := false } : Exch).raise 5)))) ∧
     (lane < 2 → p.badLanes = [] → s.flag F.VPT_STAT_SPUSED vp = false →
       Leaves (.velexLaneSparing vp lane) s (((((s.setVport vp { p with badLanes := [lane] }).setFlag F.VPT_STAT_SPUSED true vp).setFld F.VPT_STAT_SPLANE lane vp).consume 6).flt 9 2 (8 * vp + lane))) ∧
     (lane < 3 → p.badLanes.contains lane = true → Leaves (.velexLaneSparing vp lane) s s) ∧
     (∀ parity, Leaves (.controllerSwitchover vp (.stateError parity)) s (s.controllerLost vp (!parity)) ∧ Leaves (.controllerSwitchover vp (.heartbeat parity)) s (s.controllerLost vp (!parity))) ∧
     (p.tie = true → Leaves (.claimTieTimeout vp) s (s.portDown vp)) ∧ (p.tie = false → Leaves (.claimTieTimeout vp) s s) ∧
     (s.flag F.VPT_STAT_PAIRED vp = true → Leaves (.standbyControllerFailure vp) s ((((s.setFld (s.actFld vp).2 0 vp).setFlag F.VPT_STAT_PAIRED false vp).consume 11).flt 9 8 vp)) ∧
     (s.flag F.VPT_STAT_PAIRED vp = false → Leaves (.standbyControllerFailure vp) s s) ∧
     Leaves (.portPllLoss (some vp)) s (s.portDown vp) ∧ Leaves (.portPllLoss none) s ((List.range 16).foldl (fun z v => z.portDown v) (s.flt 9 12)))

/-- 15 R349 to R357, 16 R360 to R372: the events of the compression engines and the cipher walls: records, stripes and their checks, key caches, known-answer tests, context timeouts and failures. -/
def Obligations.EngineAndWallEvents : Prop :=
  ∀ (s u : State) (z w slot brick addr pid handle m n : Nat) (rc : ZRecord) (x : Exch) (d : PdsDesc) (ps : List (Nat × Nat)) (l : List Byte) (rest : List Seg) (g : Seg),
    z < 22 → w < 16 → slot < 16384 → brick < 272 →
    let y := s.wall w
    (s.zExchange z handle = none → Leaves (.zeRecordComplete z handle rc) s s) ∧
    (s.zExchange z handle = some (x, d) → s.cmdPlaces x d = .ok s (some ps) → s.readAt (s.pdsAgent x) ps = .ok s l → x.got = 0 → rc.orig = l.take 65536 → rc.last = decide (l.length ≤ 65536) →
      let r := writeRecord [] (s.cmdZlib x d) rc.last rc.orig
      let y := { x with got := rc.orig.length, buf := x.buf ++ r.1 }
      let q := (if r.2 then s.count F.ZIP_CNT_RAWREC (some F.ZIP_CNT_ROVF) z else s).setEx y
      Leaves (.zeRecordComplete z handle rc) s (if rc.last then q.sendOut y d else q)) ∧
    (let key := addr * 256 + pid
     (s.unitBusy key = false → Leaves (.streamContextTimeout addr pid) s (s.zFree key) ∧ Leaves (.ciphContextTimeout addr pid) s (s.cFree key)) ∧
     (s.unitBusy key = true → Leaves (.streamContextTimeout addr pid) s s ∧ Leaves (.ciphContextTimeout addr pid) s s)) ∧
    (s.fld F.ZIP_ENG_ROLE z = 2 → Leaves (.zeEngineFailure z) s s) ∧
    (let q := s.setFld F.ZIP_ENG_ROLE 2 z
     u = { q with svc := { q.svc with sparePend := q.svc.sparePend.filter (fun p => !(p.2 == z && p.1 == 0xA0)) } } →
      (s.fld F.ZIP_ENG_ROLE z = 1 → Leaves (.zeEngineFailure z) s (u.consume 9)) ∧
      (s.fld F.ZIP_ENG_ROLE z = 0 → (List.range 22).find? (fun y => u.fld F.ZIP_ENG_ROLE y == 1) = some n →
        let b := u.flag F.ZIP_ENG_POOL z
        let t := (((u.zRole n z).zLost z (if b then none else some n)).consume 9).flt 10 2 z
        (b = true → Leaves (.zeEngineFailure z) s t) ∧ (b = false → Leaves (.zeEngineFailure z) s (t.restartCmds (u.fld F.ZIP_ENG_PORT z) (fun d => d.cmp || d.dcmp))))) ∧
    (u = s.wallRetire w → u.wallRuns w = false → Leaves (.stripeAssign w) s u) ∧
    (u = s.wallRetire w → u.wallRuns w = true → (u.wall w).segs = g :: rest → (u.wall w).pick = some g →
      (List.range 272).find? (fun b => (u.wall w).brickOn b && !(u.wall w).busy.has b) = some brick → (g :: rest).all (fun q => q.port) = true →
      (g.checked = false → (u.wall w).cache.contains g.slot = false → Leaves (.stripeAssign w) s u) ∧
      (g.checked = true →
        let v := (u.setWall w { u.wall w with turn := (u.wall w).turn }).updSeg w g.mark (fun q => { q with checked := true, key := g.key, assigned := if q.redo = 0 then q.assigned + 1 else q.assigned, redo := q.redo - 1 })
        Leaves (.stripeAssign w) s (v.setWall w { v.wall w with busy := (v.wall w).busy.put brick g.mark }))) ∧
    (y.busy.find brick = none → ∀ e, Leaves (.stripeComplete w brick e) s s) ∧
    (y.busy.find brick = some m →
      Leaves (.stripeComplete w brick true) s ((((s.setWall w { y with busy := y.busy.del brick }).updSeg w m (fun q => { q with redo := q.redo + 1 })).flt 11 0 (272 * w + brick)).wallRetire w) ∧
      (u = (s.setWall w { y with busy := y.busy.del brick, stripes := y.stripes.upd 0 brick (fun n => n + 1) }).updSeg w m (fun q => { q with done := q.done + 1 }) →
        (u.wall w).segs.find? (fun q => q.mark == m) = some g → g.port = false → Leaves (.stripeComplete w brick false) s u)) ∧
    (y.brickOn brick = true → y.busy.has brick = false →
      (y.stripes.get 0 brick < 65536 → ∀ ok, Leaves (.knownAnswerTest w brick ok) s s) ∧
      (65536 ≤ y.stripes.get 0 brick → u = s.setWall w { y with stripes := y.stripes.del brick } →
        Leaves (.knownAnswerTest w brick true) s u ∧ Leaves (.knownAnswerTest w brick false) s ((u.flt 11 1).brickRetire w brick))) ∧
    (s.wallRuns w = true → y.cache.contains slot = false → y.segs.any (fun q => q.slot == slot && !q.checked) = true → y.cache.length < 16 →
      Leaves (.keyCacheFill w slot) s (((s.setWall w { y with cache := y.cache ++ [slot] }).wallRegs w).count F.CIP_CNT_KMISS (some F.CIP_CNT_KOVF) w)) ∧
    (y.cache.contains slot = true → Leaves (.keyCacheFill w slot) s s) ∧
    (s.fld F.CIP_WALL_STATE w = 2 → Leaves (.wallFailure w) s s) ∧
    (s.fld F.CIP_WALL_STATE w = 0 → u = ((((s.chn.cctx.filter (fun p => p.2.wall == w)).map (·.1)).foldl (fun z k => z.cFree k) s).wallScrub w).setFld F.CIP_WALL_STATE 2 w →
      let t := match u.nextWall w 0 with | some k => u.movePort ((w + k) % 16) w | none => u
      let q := t.flt 11 7 w none (BitVec.ofNat 64 (if (t.portWall w).isNone then 2 ^ w else 0))
      q.exOn w = [] → Leaves (.wallFailure w) s q)

/-- 17 R375 to R377, R384, R386 to R390: the mailboxes of Keystone and its events. GO asks for a service in IDLE alone, ACK zeroes the reply, the oldest request in turn becomes active; a request that stays active too long ends with status 0x0A and Keystone restarts; the entropy source's failure and repair show in ENT. Where the spec is open it follows the model's choices of logs 39, 49 and 104. 17 R378 to R385: the services of Keystone for the mailbox that is active: a malformed request ends with status 1, one without the right with 2, a slot in the wrong state with 3, wrong attributes with 4, a bad blob with 5 and the noted fault, missing transport key with 6, missing entropy with 8, a bad point with 0x0C; else the slot, the keys or the reply change as the service says. Where the spec is open it follows the model's choices of logs 39, 40 and 41. -/
def Obligations.Keystone : Prop :=
  (∀ (s u : State) (src : Src) (mb m blk : Nat), mb < 64 → blk < 17 → s.dead = false →
     (mbSide src mb = true →
       (s.fld F.KEY_MBSTAT_STATE mb = 0 → 56 ≤ mb →
         (s.fld F.KEY_STAT_STATE = 1 → Leaves (.mailboxGo src mb) s (s.setFld F.KEY_MBSTAT_STATE 1 mb)) ∧
         (s.fld F.KEY_STAT_STATE = 2 → Leaves (.mailboxGo src mb) s (s.mbEnd mb 0x0B))) ∧
       (s.fld F.KEY_MBSTAT_STATE mb ≠ 0 → Leaves (.mailboxGo src mb) s (s.cfgErr src (F.KEY_MBCTL_PID.off mb))) ∧
       (s.fld F.KEY_MBSTAT_STATE mb = 3 → Leaves (.mailboxAck src mb) s (((s.mbZeroRsp mb).setFld F.KEY_MBSTAT_STATE 0 mb).setFld F.KEY_MBSTAT_STATUS 0 mb)) ∧
       (s.fld F.KEY_MBSTAT_STATE mb ≠ 3 → Leaves (.mailboxAck src mb) s s)) ∧
     (mbSide src mb = false → Leaves (.mailboxGo src mb) s (s.cfgErr src (F.KEY_MBCTL_PID.off mb)) ∧ Leaves (.mailboxAck src mb) s (s.cfgErr src (F.KEY_MBSTAT_STATE.off mb))) ∧
     (s.mbActive.isSome = true → Leaves .mailboxServiceStart s s) ∧
     (s.fld F.KEY_STAT_STATE = 1 → s.mbActive = none → s.svc.blk.get .run 16 = .run →
       ((List.range 64).map (fun i => (s.svc.krr + 1 + i) % 64)).find? (fun k => s.fld F.KEY_MBSTAT_STATE k == 1) = some m →
       u = ((((s.setFld F.KEY_MBSTAT_STATE 2 m).setFld F.KEY_STAT_CURMB m).freeze true).updSvc (fun k => { k with krr := m, kForced := false, ktime := s.fab.tb })) →
         (u.mbSvc m = 0x10 → Leaves .mailboxServiceStart s (u.hold 16)) ∧ (u.mbSvc m = 0x7F → Leaves .mailboxServiceStart s ((u.hold 16).svcEnd m 1))) ∧
     (s.mbActive = none → Leaves .keystoneTimeout s s) ∧
     (s.mbActive = some m → s.fld F.KEY_HOLD_HOLD = 0 → u = (s.forget 4096).mbEnd m 0x0A → (∀ b, b < 16 → u.held? b = false) →
       Leaves .keystoneTimeout s (((((u.unhold 16).updSvc (fun k => { k with kForced := false })).freeze false).flt 12 3).kRestart)) ∧
     (s.fld F.KEY_STAT_STATE = 0 → 9 ≤ s.fld F.BOO_STAT_STEP →
       (s.flag F.KEY_STAT_ENT = true ∨ s.svc.entBad = true → Leaves (.keystoneRestartComplete true) s (s.setFld F.KEY_STAT_STATE 1)) ∧
       (s.flag F.KEY_STAT_ENT = false → s.svc.entBad = false →
         Leaves (.keystoneRestartComplete true) s (((s.setFld F.KEY_STAT_STATE 1).updSvc (fun k => { k with drbg := k.drbg + 1 })).setFlag F.KEY_STAT_ENT true)) ∧
       (u = (s.setFld F.KEY_STAT_STATE 2).flt 12 4 →
         Leaves (.keystoneRestartComplete false) s ((List.range 64).foldl (fun z k => if z.fld F.KEY_MBSTAT_STATE k == 1 then z.mbEnd k 0x0B else z) u))) ∧
     (s.fld F.KEY_STAT_STATE ≠ 0 → Leaves (.keystoneRestartComplete true) s s) ∧
     (s.held? blk = true → Leaves (.holdRelease blk) s (s.unhold blk)) ∧ (s.held? blk = false → Leaves (.holdRelease blk) s s) ∧
     Leaves (.forcedRelease blk) s (s.forceRelease blk) ∧
     (s.flag F.KEY_STAT_ENT = true → Leaves .entropyFailure s (((s.setFlag F.KEY_STAT_ENT false).updSvc (fun k => { k with entBad := true })).flt 12 2) ∧ Leaves (.entropyRetest true) s s) ∧
     (s.flag F.KEY_STAT_ENT = false → Leaves .entropyFailure s s ∧ Leaves (.entropyRetest false) s s ∧
       (s.fld F.KEY_STAT_STATE = 1 → Leaves (.entropyRetest true) s ((s.updSvc (fun k => { k with drbg := k.drbg + 1, entBad := false })).setFlag F.KEY_STAT_ENT true)))) ∧
  (∀ (s u : State) (mb kl : Nat) (key tk : BitVec 256) (ws : List W64) (w : W64) (words : List W64), mb < 64 → s.dead = false → s.fld F.KEY_STAT_STATE = 1 → s.fld F.KEY_MBSTAT_STATE mb = 2 →
     bits (s.mbReq mb 0) 55 16 = 0 → s.svc.kForced = false →
     let r := s.mbReq mb 1
     let a := s.mbReq mb 2
     let n := s.mbSlot mb
     let k := s.keySlot n
     let ent := s.flag F.KEY_STAT_ENT
     let slotOk := s.mbClear mb 3 = true ∧ bits r 63 14 = 0 ∧ attrRsv a = false
     (s.mbSvc mb = 1 → s.mbClear mb 2 = true → bits r 63 24 = 0 → bits r 15 14 = 0 → bits r 23 16 ≠ 255 →
       (s.mbPid mb ≠ 0 → Leaves (.assign mb) s (s.svcEnd mb 2)) ∧ (s.mbPid mb = 0 → k.v = true → Leaves (.assign mb) s (s.svcEnd mb 3)) ∧
       (s.mbPid mb = 0 → k.v = false → Leaves (.assign mb) s ((s.setSlot n { k with pid := BitVec.ofNat 8 (bits r 23 16) }).svcEnd mb 0))) ∧
     (s.mbSvc mb = 1 → bits r 23 16 = 255 → Leaves (.assign mb) s (s.svcEnd mb 1)) ∧
     (s.mbSvc mb = 2 → slotOk →
       (s.mbMay mb = false → Leaves (.generate mb) s (s.svcEnd mb 2)) ∧ (s.mbMay mb = true → attrKlen k a = none → Leaves (.generate mb) s (s.svcEnd mb 4)) ∧
       (s.mbMay mb = true → attrKlen k a = some kl → ent = false → Leaves (.generate mb) s (s.svcEnd mb 8)) ∧
       (s.mbMay mb = true → attrKlen k a = some 32 → ent = true → s.draw = (u, key) →
         let full : BitVec 512 := BitVec.ofNat 512 (key.toNat * 2 ^ 256)
         Leaves (.generate mb) s ((u.fillSlot n a full).svcEnd mb 0 (kwWrap Config.dwk.toNat (BitVec.ofNat 64 a :: (List.range 4).map (fun i => full.extractLsb' (448 - 64 * i) 64)))))) ∧
     (s.mbSvc mb = 3 → s.mbClear mb 12 = true → bits r 63 17 = 0 → bits r 15 14 = 0 →
       (s.mbMay mb = false → Leaves (.importKey mb) s (s.svcEnd mb 2)) ∧
       (s.mbMay mb = true → bits r 16 16 = 1 → s.svc.tkey.find (s.mbPid mb) = none → Leaves (.importKey mb) s (s.svcEnd mb 6)) ∧
       (s.mbMay mb = true → bits r 16 16 = 1 → s.svc.tkey.find (s.mbPid mb) = some tk →
         let tries := ([4, 6, 10].filter (fun i => s.mbClear mb (2 + i))).findSome? (fun i => kwUnwrap tk.toNat ((List.range i).map (fun j => BitVec.ofNat 64 (s.mbReq mb (2 + j)))))
         (tries = none → Leaves (.importKey mb) s ((s.flt 12 1).svcEnd mb 5)) ∧
         (tries = some (w :: words) → attrRsv w.toNat = false → attrKlen k w.toNat = some (8 * words.length) →
           Leaves (.importKey mb) s ((s.fillSlot n w.toNat (BitVec.ofNat 512 (words.foldl (fun x y => x * 2 ^ 64 + y.toNat) 0 * 2 ^ (512 - 64 * words.length)))).svcEnd mb 0)))) ∧
     (s.mbSvc mb = 4 → slotOk →
       (s.mbMay mb = true → k.v = false → Leaves (.setattr mb) s (s.svcEnd mb 3)) ∧
       (s.mbMay mb = true → k.v = true → attrKlen k a = some kl → k.klen = some kl → Leaves (.setattr mb) s (((s.setSlot n (k.withAttr a)).slotInval n).svcEnd mb 0)) ∧
       (s.mbMay mb = true → k.v = true → attrKlen k a = none → Leaves (.setattr mb) s (s.svcEnd mb 4))) ∧
     (s.mbSvc mb = 5 → s.mbClear mb 2 = true → bits r 63 14 = 0 →
       (s.mbMay mb = false → Leaves (.destroy mb) s (s.svcEnd mb 2)) ∧ (s.mbMay mb = true → Leaves (.destroy mb) s (((s.setSlot n { KSlot.reset with pid := k.pid }).slotInval n).svcEnd mb 0))) ∧
     (s.mbSvc mb = 6 → s.mbClear mb 13 = true →
       let num := fun (i : Nat) => (List.range 6).foldl (fun x j => x * 2 ^ 64 + s.mbReq mb (i + j)) 0
       (onP384 (num 1) (num 7) = false → Leaves (.tkey mb) s (s.svcEnd mb 0x0C)) ∧ (onP384 (num 1) (num 7) = true → ent = false → Leaves (.tkey mb) s (s.svcEnd mb 8)) ∧
       (onP384 (num 1) (num 7) = true → ent = true →
         let z := Config.ecdh (BitVec.ofNat 768 (num 1 * 2 ^ 384 + num 7))
         let d := (sha384 (bytesOf 4 1 ++ bytesOf 48 z.toNat ++ bytesOf 2 s.cxid ++ bytesOf 1 (s.mbPid mb))).extractLsb' 128 256
         Leaves (.tkey mb) s ((s.updSvc (fun q => { q with tkey := q.tkey.put (s.mbPid mb) d })).svcEnd mb 0))) ∧
     (s.mbSvc mb = 0x10 → s.mbClear mb 2 = true → bits r 63 4 = 0 → bits r 3 0 ≠ 0 →
       (ent = false → Leaves (.random mb) s (s.svcEnd mb 8)) ∧ (ent = true → s.drawWords (bits r 3 0) = (u, ws) → Leaves (.random mb) s (u.svcEnd mb 0 ws))) ∧
     (s.mbBufOk mb = true →
       (s.mbSvc mb = 0x20 → s.mbClear mb 8 = true →
         let rep := s.report (s.mbPid mb) ((List.range 6).flatMap (fun i => bytesOf 8 (s.mbReq mb (2 + i))))
         Leaves (.attest mb) s (s.mbWrite mb (rep ++ bytesOf 96 (Config.ecdsa rep).toNat) [])) ∧
       (s.mbSvc mb = 0x21 → s.mbClear mb 2 = true → Leaves (.measure mb) s (s.mbWrite mb (s.report (s.mbPid mb) (List.replicate 48 0)) [])) ∧
       (s.mbSvc mb = 0x22 → s.mbClear mb 2 = true → Leaves (.cert mb) s (s.mbWrite mb (Config.cert.take 2048) [BitVec.ofNat 64 (Config.cert.take 2048).length]))) ∧
     (s.mbSvc mb ≠ 5 → Leaves (.destroy mb) s s))

/-- 18 R391 to R401: clock sources, the switches of domains and the gears. A source joins once it is qualified, its failure is final; the reference follows the first good one of XA, XB and FOSC; a cluster changes gear by way of the bridge clock. Where the spec is open it follows the model's choices of logs 42, 43, 44, 46 and 73. 18 R394, R403 to R409; 17 R389: the estimate of power, the caps and the emergencies they end in, explicit requests on blocks, the service blocks; and the pulse while the complex holds itself in reset. Where the spec is open it follows the model's choices of logs 44, 46 and 107. -/
def Obligations.ClocksAndPower : Prop :=
  (∀ (s u : State) (c : ClkSrc) (dom cl gear : Nat), s.dead = false → dom < 64 → cl < 8 →
     (s.qual c = true ∨ s.failed c = true → Leaves (.clockQualified c) s s) ∧
     (s.qual c = false → s.failed c = false → u = (s.setFld F.CLK_SRC_QUAL (putBits (s.fld F.CLK_SRC_QUAL) (srcBit c) (srcBit c) 1)).setRef →
       (c ≠ .xb ∨ u.fld F.BOO_STAT_STEP < 11 → Leaves (.clockQualified c) s u) ∧
       (c = .xb → 11 ≤ u.fld F.BOO_STAT_STEP → u.fld F.BOO_STAT_PHASE ≠ 1 → Leaves (.clockQualified c) s u.trainPorts)) ∧
     (s.clkOk c = false → Leaves (.clockSourceFailed c) s s) ∧
     (s.clkOk c = true → u = (s.setFld F.CLK_SRC_FAIL (putBits (s.fld F.CLK_SRC_FAIL) (srcBit c) (srcBit c) 1)).flt 13 0 0 none (BitVec.ofNat 64 (srcBit c)) →
       (c = .xa → Leaves (.clockSourceFailed c) s u.setRef) ∧
       (c = .xb → (∀ p, p < 16 → u.fld F.FAB_PSTAT_STATE p = 0) → Leaves (.clockSourceFailed c) s u.setRef) ∧
       (c = .sosc → Leaves (.clockSourceFailed c) s (u.holdReset 3)) ∧
       (c = .fosc → u.fld F.CLK_SRC_REF = 2 → Leaves (.clockSourceFailed c) s (u.holdReset 1)) ∧
       (c = .fosc → u.fld F.CLK_SRC_REF ≠ 2 → u.clkOk .xa = true → Leaves (.clockSourceFailed c) s u) ∧
       (c = .vref → Leaves (.clockSourceFailed c) s ((List.range 16).foldl (fun z v => z.portDown v) (u.flt 9 12))) ∧
       (c = .pcie → u.svc.pcieUp = false → Leaves (.clockSourceFailed c) s u) ∧ (c = .pcie → u.svc.pcieUp = true → Leaves (.clockSourceFailed c) s u.pcieLost)) ∧
     Leaves .pllRelock s (s.updSvc (fun k => { k with holdOver := false })) ∧
     (dom < 8 → Leaves (.clockSwitch dom) s (s.updSvc (fun k => { k with domSel := k.domSel.put dom (b2n (s.flag F.CLK_GEAR_CHG dom || s.emergency || s.svc.avsHeld.contains dom)) }))) ∧
     (8 ≤ dom → Leaves (.clockSwitch dom) s s) ∧
     Leaves (.freewheelSwitch dom) s ((((s.clkSwitch dom).count F.CLK_SWLOG_COUNT (some F.CLK_SWLOG_OVF)).setFld F.CLK_SWLOG_LAST dom).flt 13 2) ∧
     (s.flag F.CLK_GEAR_CHG cl = false ∨ s.emergency = true ∨ s.svc.avsHeld.contains cl = true → Leaves (.gearChange cl) s s) ∧
     (s.flag F.CLK_GEAR_CHG cl = true → s.emergency = false → s.svc.avsHeld.contains cl = false → s.svc.gearTo.find cl = some gear →
       u = ((s.setFld F.CLK_GEAR_CUR gear cl).setFlag F.CLK_GEAR_CHG false cl).updSvc (fun k => { k with domSel := k.domSel.put cl 0, gearTo := k.gearTo.del cl }) →
         (u.gearTarget cl = u.fld F.CLK_GEAR_CUR cl → u.flag F.CLK_GEAR_CHG cl = false → Leaves (.gearChange cl) s u))) ∧
  (∀ (s u : State) (src : Src) (tgt : BitVec 8) (v : W64) (cl watts c : Nat), cl < 8 →
     (s.svc.resetHold = true → s.svc.powered = true → s.svc.trip = false → Leaves .resetHoldPulse s s.errPulse) ∧ (s.svc.resetHold = false → Leaves .resetHoldPulse s s) ∧
     (s.dead = false →
       (let lim := s.fld F.CLK_PWR_PLIM
        let q := s.setFld F.CLK_PWR_EST (min watts 1023)
        (watts ≤ lim → lim * 95 ≤ watts * 100 →
          Leaves (.powerEstimateTick watts) s (q.updSvc (fun k => { k with powHigh := 0, powLow := 0, powUnder := if watts < lim then k.powUnder + 1 else 0 }))) ∧
        (lim * 105 < watts * 100 → s.svc.powHigh = 9 →
          Leaves (.powerEstimateTick watts) s ((q.updSvc (fun k => { k with powHigh := 10, powLow := 0, powUnder := 0 })).emergencyOn false)) ∧
        (lim < watts → watts * 100 ≤ lim * 105 → u = q.updSvc (fun k => { k with powHigh := 0, powLow := 0, powUnder := 0 }) →
          u.topGear ((List.range 8).filter (fun k => u.fld F.CLK_GEAR_PWRCAP k != 0)) = some c → u.fld F.CLK_GEAR_PWRCAP cl ≠ 15 →
          Leaves (.powerEstimateTick watts) s (u.setCap F.CLK_GEAR_PWRCAP c (u.fld F.CLK_GEAR_PWRCAP c - 1)))) ∧
       (let l := s.groupTemps cl
        let t : Int := s.fld F.CLK_PWR_TTHR * 16
        let cap := s.fld F.CLK_GEAR_THMCAP cl
        (s.blind cl = true → Leaves (.thermalCapTick cl) s s) ∧
        (s.blind cl = false → (∃ x ∈ l, t ≤ x) → (cap = 0 → Leaves (.thermalCapTick cl) s s) ∧
          (0 < cap → s.fld F.CLK_GEAR_THMCAP c ≠ 15 → c < 8 → Leaves (.thermalCapTick cl) s (s.setCap F.CLK_GEAR_THMCAP cl (cap - 1)))) ∧
        (s.blind cl = false → (∀ x ∈ l, x < t - 80) → cap < 15 → s.emergency = false → Leaves (.thermalCapTick cl) s (s.setCap F.CLK_GEAR_THMCAP cl (cap + 1)))) ∧
       (s.flag F.CLK_PWR_PEMERG = true → s.fld F.CLK_PWR_EST < s.fld F.CLK_PWR_PLIM → Leaves .powerEmergencyEnd s (s.emergencyOff false)) ∧
       (s.flag F.CLK_PWR_PEMERG = false → Leaves .powerEmergencyEnd s s) ∧
       (let st := s.fld F.CLK_REQ_STATE
        let t := tgt.toNat
        let put := fun (op : Nat) => (s.setFld F.CLK_REQ_OP op).setFld F.CLK_REQ_TGT t
        let go := fun (op : Nat) => (put op).updSvc (fun k => { k with reqOp := op, reqTgt := t })
        let bad := s.cfgErr src F.CLK_REQ_STATE.base
        (st = 1 ∨ st = 2 ∨ tgtOk t = false → Leaves (.gateClock src tgt) s bad ∧ Leaves (.powerDown src tgt) s bad ∧ Leaves (.wake src tgt) s bad) ∧
        (st ≠ 1 → st ≠ 2 → tgtOk t = true →
          ((put 1).reqReason 1 t = 0 → t ≤ 16 → (go 1).held? t = true → (go 1).emergency = false →
            Leaves (.gateClock src tgt) s (((go 1).setFld F.CLK_REQ_STATE 2).setFld F.CLK_REQ_REASON 0)) ∧
          ((put 1).reqReason 1 t = 0 → (go 1).held? t = false → Leaves (.gateClock src tgt) s ((((go 1).scrub t).setFld F.CLK_REQ_STATE 1).setFld F.CLK_REQ_REASON 0)) ∧
          ((put 2).reqReason 2 t = 0 → (go 2).held? t = false → Leaves (.powerDown src tgt) s ((((go 2).scrub t).setFld F.CLK_REQ_STATE 1).setFld F.CLK_REQ_REASON 0)) ∧
          (opListed 2 t = false → Leaves (.powerDown src tgt) s (((put 2).setFld F.CLK_REQ_STATE 4).setFld F.CLK_REQ_REASON 1)) ∧
          ((put 3).reqReason 3 t = 0 → Leaves (.wake src tgt) s (((go 3).setFld F.CLK_REQ_STATE 1).setFld F.CLK_REQ_REASON 0)) ∧
          ((put 3).reqReason 3 t = 3 → Leaves (.wake src tgt) s (((put 3).setFld F.CLK_REQ_STATE 4).setFld F.CLK_REQ_REASON 3))) ∧
        (st = 2 → Leaves (.withdraw src) s ((s.setFld F.CLK_REQ_STATE 0).setFld F.CLK_REQ_OP 4)) ∧ (st ≠ 2 → Leaves (.withdraw src) s bad) ∧
        (st ≠ 1 → Leaves .explicitRequestDone s s) ∧
        (st = 1 → u = s.setFld F.CLK_REQ_STATE 3 →
          (s.svc.reqTgt < 64 →
            (s.svc.reqOp = 1 → Leaves .explicitRequestDone s (u.updSvc (fun k => { k with blk := k.blk.put s.svc.reqTgt BlkSt.gated }))) ∧
            (s.svc.reqOp = 2 → Leaves .explicitRequestDone s (u.updSvc (fun k => { k with blk := k.blk.put s.svc.reqTgt BlkSt.off }))) ∧
            (s.svc.reqOp = 3 → Leaves .explicitRequestDone s (u.updSvc (fun k => { k with blk := k.blk.del s.svc.reqTgt })))) ∧
          (∀ m, s.svc.reqTgt = 64 + m → u.fld F.MEM_CHSTAT_PWR m ≠ 3 → u.populated m = true →
            (s.svc.reqOp = 2 → Leaves .explicitRequestDone s ((u.setMc m { u.mc m with powerDown := [], selfRef := u.ranks }).pwr m)) ∧
            (s.svc.reqOp = 3 → Leaves .explicitRequestDone s ((u.setMc m { u.mc m with powerDown := [], selfRef := [] }).pwr m))))) ∧
       (u = s.wrReg src F.CLK_SBLK_TRACE.base v →
         (u.fld F.CLK_SBLK_TRACE ≠ 2 → u.fld F.CLK_SBLK_GPIO ≠ 2 → u.fld F.CLK_SBLK_JTAG ≠ 2 → Leaves (.clkSblkWrite src v) s u) ∧
         (u.fld F.CLK_SBLK_JTAG = 2 → s.fld F.CLK_SBLK_JTAG ≠ 2 → Does (.clkSblkWrite src v) s (fun t => t.svc.tapReg = 0 ∧ t.svc.tapBoundary = 0 ∧ t.svc.tapSample = 0)) ∧
         (u.fld F.CLK_SBLK_TRACE = 2 → s.fld F.CLK_SBLK_TRACE ≠ 2 → Does (.clkSblkWrite src v) s (fun t => t.svc.trace = [] ∧ t.svc.traceLost = [])))))

/-- 19 R410 to R429, 23 R486: start-up. PORST_N, the release with its self-test, the images of the configuration flash, the load window and its check, the hand-over, warm reset. Where the spec is open it follows the model's choices of logs 76, 77, 89 and 107. -/
def Obligations.StartUp : Prop :=
  ∀ (s u : State) (env : BootEnv) (a b : FlashImage) (us offset : Nat) (seen late last : Bool) (bytes : List Byte) (set : FwSet) (src : Src) (v : W64) (pcs : List Nat),
    (s.svc.trip = true ∨ us < 2 → Leaves (.porstNAssert us seen) s s) ∧
    (s.svc.trip = false → 10 ≤ us ∨ (2 ≤ us ∧ seen = true) → Leaves (.porstNAssert us seen) s (s.coldState.updSvc (fun k => { k with porst := true }))) ∧
    (s.svc.aonGood = false ∨ s.svc.trip = true → Leaves (.coldReset env) s s) ∧
    (s.svc.aonGood = true → s.svc.trip = false →
      u = ((({ s with part := env.part } : State).coldState).updSvc (fun k => { k with env := some env, powered := true, porst := false, resetHold := false })).setFld F.BOO_STAT_STEP 2 →
        (env.qualified = [] → Leaves (.coldReset env) s (u.holdReset 2)) ∧
        (env.qualified = [.fosc] → Leaves (.coldReset env) s (u.holdReset 3)) ∧
        (env.qualified = [.fosc, .sosc, .xa, .xb, .vref, .pcie] → Leaves (.coldReset env) s (((u.setFld F.CLK_SRC_QUAL 63).setFld F.CLK_SRC_REF 0).selfTest env))) ∧
    (s.svc.env = some env → s.dead = false → s.fld F.BOO_STAT_PHASE = 0 →
      let p := bits env.straps.toNat 2 0
      let q := s.setFld F.BOO_STAT_STEP 5
      let x := q.checkImage a.bytes late p env.xbsel.toNat
      let y := q.checkImage b.bytes late p env.xbsel.toNat
      (s.fld F.BOO_STAT_STEP ≠ 4 → Leaves (.flashReadSlot a b late) s s) ∧
      (s.fld F.BOO_STAT_STEP = 4 → x.reason ≠ 0 → y.reason ≠ 0 →
        Leaves (.flashReadSlot a b late) s (((((q.setFld F.BOO_STAT_RSNA x.reason).setFld F.BOO_STAT_RSNB y.reason).flt 14 0 0 none (BitVec.ofNat 64 x.reason)).flt 14 0 0 none (BitVec.ofNat 64 (256 + y.reason))).startStop 5 0x30)) ∧
      (s.fld F.BOO_STAT_STEP = 4 → x.reason = 0 → y.reason = 0 → seqLater y.gen x.gen = false →
        u = ((((x.st.setFld F.BOO_STAT_RSNA 0).setFld F.BOO_STAT_RSNB 0).setFlag F.BOO_STAT_IMG false).setFld F.BOO_STAT_GEN x.gen).updSvc (fun k => { k with flashMr := sha384 x.bytes }) →
          (env.stable = false → Leaves (.flashReadSlot a b late) s (((u.setFlag F.FAB_ID_MATCH false).flt 5 8).startStop 5 0x31)) ∧
          (env.stable = true → x.crsid * 8 + p = env.straps.toNat → ∀ t w, t = (u.setFlag F.FAB_ID_MATCH true).setFld F.FAB_DIGEST_DIGEST u.digest →
            w = ({ t with fab := { t.fab with master := some (t.fld F.FAB_TMASTER_PRIMARY) } } : State) →
            Leaves (.flashReadSlot a b late) s (((List.range 16).foldl (fun z k => if !z.flag F.VPT_CTL_EN k then z.setFld F.VPT_STAT_STATE 7 k else if z.clkOk .vref then z.setFld F.VPT_STAT_STATE 1 k else z)
              (w.setFlag F.FAB_TBSTAT_MASTER (w.fld F.FAB_TMASTER_PRIMARY == w.cxid))).step6 x.lead x.hosts)))) ∧
    (s.dead = false →
      (s.flag F.BOO_DOOR_OPEN = true → Leaves (.booDoorClose src) s (((s.setFlag F.BOO_DOOR_OPEN false).setFlag F.BOO_DOOR_BUSY true).setFld F.BOO_STAT_STEP 8)) ∧
      (s.flag F.BOO_DOOR_OPEN = false → Leaves (.booDoorClose src) s (s.cfgErr src F.BOO_DOOR_OPEN.base)) ∧
      (s.flag F.BOO_STAT_FWD = false → Leaves (.load offset bytes last) s s) ∧
      (s.flag F.BOO_STAT_FWD = true → s.flag F.BOO_DOOR_BUSY = false → s.flag F.BOO_DOOR_DONE = false → s.fld F.BOO_STAT_PHASE = 0 →
        (∃ p < 7, (s.fport p).loadOnly = true ∧ s.portUp p = true) → offset + bytes.length ≤ 2 ^ 28 →
        u = s.updSvc (fun k => { k with window := bytes.zipIdx.foldl (fun t p => t.set 0 (offset + p.2) p.1) k.window }) →
          (last = true → Leaves (.load offset bytes last) s ((u.setFlag F.BOO_DOOR_BUSY true).setFld F.BOO_STAT_STEP 8)) ∧ (last = false → Leaves (.load offset bytes last) s (u.setFld F.BOO_STAT_STEP 7))) ∧
      (s.flag F.BOO_DOOR_BUSY = false → Leaves (.firmwareSetCheck set) s s) ∧
      ((s.fwInstall set).svc.stores = set.stores ∧ (s.fwInstall set).svc.fw = some set ∧ (s.fwInstall set).chn.sram = fwSram set ∧ (s.fwInstall set).cores = s.cores ∧ (s.fwInstall set).mem = s.mem) ∧
      (s.svc.env = some env → s.flag F.BOO_DOOR_BUSY = true → s.fld F.BOO_STAT_PHASE = 0 → ∀ r n, fwResult env.oemFuse env.oemOnly set = (r, n) → u = (s.setFld F.BOO_DOOR_RESULT r).setFld F.BOO_DOOR_COMP n →
        (r ≠ 0 → u.flag F.BOO_STAT_FWD = false → ∀ w, w = (u.flt 14 1 0 none (BitVec.ofNat 64 (r * 256 + n))).setFld F.BOO_STAT_STEP 7 → w.flag F.BOO_STAT_FWD = false →
          let x := (w.setFlag F.BOO_DOOR_OPEN true).doorDone
          (x.windowPast = false → Leaves (.firmwareSetCheck set) s x) ∧ (x.windowPast = true → Leaves (.firmwareSetCheck set) s x.windowOver)) ∧
        (r = 0 → ∀ w, w = ((u.setFlag F.BOO_DOOR_DONE true).fwInstall set).doorDone → w.flag F.BOO_STAT_FWD = true → Leaves (.firmwareSetCheck set) s (w.afterLoad env))) ∧
      (s.flag F.BOO_DOOR_DONE = true → Leaves .loadWindowTimeout s s) ∧
      (s.flag F.BOO_DOOR_DONE = false → s.fld F.BOO_STAT_PHASE = 0 → 6 ≤ s.fld F.BOO_STAT_STEP → u = s.reach (s.svc.winStart.toNat + 600 * 1000000 * usec) →
        (u.flag F.BOO_DOOR_BUSY = true → Leaves .loadWindowTimeout s u) ∧
        (u.flag F.BOO_DOOR_BUSY = false → u.flag F.BOO_STAT_FWD = false → Leaves .loadWindowTimeout s ((u.setFlag F.BOO_DOOR_OPEN false).startStop 7 0x40))) ∧
      (s.flag F.FLT_FENCE_CXF = false → s.fld F.BOO_STAT_PHASE = 0 → s.flag F.BOO_DOOR_DONE = true → s.fld F.BOO_STAT_STEP = 11 ∨ s.fld F.BOO_STAT_STEP = 12 → Leaves .handOver s s.step13) ∧
      (s.flag F.BOO_DOOR_DONE = false → Leaves .handOver s s) ∧
      (fieldOf v 63 63 = 0 → Leaves (.warmReset src ⟨v, pcs⟩) s s) ∧
      (fieldOf v 63 63 = 1 → fieldOf v 7 0 ≠ 0xA5 → Leaves (.warmReset src ⟨v, pcs⟩) s (s.cfgErr src F.BOO_RST_WARM.base)) ∧
      (fieldOf v 63 63 = 1 → fieldOf v 7 0 = 0xA5 → (s.fld F.BOO_STAT_PHASE ≠ 2 → Leaves (.warmReset src ⟨v, pcs⟩) s s) ∧ (s.fld F.BOO_STAT_PHASE = 2 → Leaves (.warmReset src ⟨v, pcs⟩) s (s.warm pcs))))

/-- 20 R430 to R449, 22 R470, 10 R261, 06 R156, 11 R272, R273, 12 R299: the fault collector: an event goes through counting, classification, reactions and the log, and one of a memory read, of a sequencer's control store or of the journal has its own effect too; the pulse of ERR_N; what software reads and frees; the notices to the host and the fabric. Where the spec is open it follows the model's choices of logs 32, 63, 75 and 99. -/
def Obligations.FaultCollector : Prop :=
  ∀ (s u : State) (ev : FaultEv) (src : Src) (v : W64) (n g d : Nat) (m : Summary) (x : NoteCnt), n < 512 → g < 17 → d < 2 → s.dead = false →
    (fltUsed ev.src = true → ev.unit < fltUnits ev.src → ev.pid = none ∨ (∃ p, ev.pid = some p ∧ p < 256) →
      let a := bits ev.detail.toNat 55 0
      (ev.src ≠ 0x16 → ev.src ≠ 0x60 → ev.src ≠ 0x65 → ev.src ≠ 0x7A →
        Leaves (.faultEvent ev) s (s.fault ev) ∧
        (ev.pid = none → (s.fltClass ev.src ev.unit).2 = 0 → s.fld F.FLT_SRC_CFG_RNO ev.src = 0 → Leaves (.faultEvent ev) s ((s.fltClass ev.src ev.unit).1.fltTally ev.src 0))) ∧
      (ev.src = 0x16 → Leaves (.faultEvent ev) s ((s.stopPds ev.unit).fault ev)) ∧
      (ev.src = 0x60 → Leaves (.faultEvent ev) s ((s.count F.MEM_ECC_CORR (some F.MEM_ECC_COVF) (ev.unit / 80)).fault ev)) ∧
      (ev.src = 0x65 → s.homeOf a = some s.cxid → ∃ dev < 20,
        let r := s.rankOf (s.chanLine a)
        Leaves (.faultEvent ev) s ((({ s with freeCtr := s.freeCtr + 1 } : State).ecc (s.mcOf a) (r / 2) (r % 2) dev (s.chanLine a) (some (a / 256))).fault ev)) ∧
      (ev.src = 0x7A → s.chn.exch.find ev.detail.toNat = none → Leaves (.faultEvent ev) s s) ∧
      (ev.src = 0x7A → ev.detail.toNat < 16384 → ∀ y b, s.chn.exch.find ev.detail.toNat = some y → y.ipl = false →
        (jSolo (s.img y) = false → s.buddy = some b → Leaves (.faultEvent ev) s
          (({ s with chn := { s.chn with mirr := { s.chn.mirr with jrd := s.chn.mirr.jrd.put ev.detail.toNat 0 } } } : State).send .journal b 0x56 [ev.detail.toNat])) ∧
        (jSolo (s.img y) = true ∨ s.buddy = none → Leaves (.faultEvent ev) s (s.journalLost ev.detail.toNat)))) ∧
    Leaves .errNPulseEnd s (s.updSvc (fun k => { k with pulse := false })) ∧
    (s.svc.summ = none → Leaves .logSummaryWrite s s) ∧
    (s.svc.summ = some m → 3840 ≤ s.fld F.FLT_LOGSTAT_USED → Leaves .logSummaryWrite s s) ∧
    (s.svc.summ = some m → s.fld F.FLT_LOGSTAT_USED < 3840 → u = s.logPut m.first.toNat (3 * 2 ^ 62) m.last.toNat m.dropped → Leaves .logSummaryWrite s (u.updSvc (fun k => { k with summ := none }))) ∧
    (let k := (fieldOf v 11 0 + 4096 - s.fld F.FLT_LOGRD_RD) % 4096
     (s.fld F.FLT_LOGSTAT_USED < k → Leaves (.fltLogrdWrite src v) s (s.cfgErr src F.FLT_LOGRD_RD.base)) ∧
     (k ≤ s.fld F.FLT_LOGSTAT_USED → s.svc.summ = none → Leaves (.fltLogrdWrite src v) s ((s.setFld F.FLT_LOGRD_RD (fieldOf v 11 0)).setFld F.FLT_LOGSTAT_USED (s.fld F.FLT_LOGSTAT_USED - k)))) ∧
    (fieldOf v 49 49 = 0 →
      (fieldOf v 50 50 = 0 → Leaves (.sdropClear src v) s s) ∧
      (fieldOf v 50 50 = 1 → s.flag F.FLT_LOGSTAT_SDROP = true → s.fld F.FLT_LOGSTAT_USED < 4096 → Leaves (.sdropClear src v) s (s.setFlag F.FLT_LOGSTAT_SDROP false)) ∧
      (fieldOf v 50 50 = 1 → s.flag F.FLT_LOGSTAT_SDROP = true → 4096 ≤ s.fld F.FLT_LOGSTAT_USED → Leaves (.sdropClear src v) s (s.cfgErr src F.FLT_LOGSTAT_SDROP.base))) ∧
    (u = s.wrReg src F.FLT_CNTSEL_CLR.base v →
      (fieldOf v 63 63 = 0 → Leaves (.fltCntselClear src v) s u) ∧
      (fieldOf v 63 63 = 1 → Leaves (.fltCntselClear src v) s (u.updSvc (fun k => { k with inst := k.inst.del (fltKey (fieldOf v 24 16) (fieldOf v 15 0)) })))) ∧
    (let a := s.fld F.FLT_CNTSEL_SRC
     let b := s.fld F.FLT_CNTSEL_UNIT
     let y := s.svc.inst.get FltInst.reset (fltKey a b)
     (fltExists a b = true → Leaves (.fltCntdataRead src) s { s with busData := BitVec.ofNat 64 (y.count.toNat * 2 ^ 32 + b2n y.ovf * 2 ^ 31 + y.wcnt * 2 ^ 23 + y.escc * 2 ^ 19) }) ∧
     (fltExists a b = false → Leaves (.fltCntdataRead src) s { s.cfgErr src F.FLT_CNTDATA_COUNT.base with busData := 0 })) ∧
    (fltUsed n = false → Leaves (.fltSrcCfgWrite src n v) s s) ∧
    (let p := writeFlds R.FLT_SRC_CFG.flds s.svc.locked (s.reg (F.FLT_SRC_CFG_N.off n)) (srcCfgWanted n (s.reg (F.FLT_SRC_CFG_N.off n)) v).1
     fltUsed n = true → (srcCfgWanted n (s.reg (F.FLT_SRC_CFG_N.off n)) v).2 = false → p.2 = false → u = s.setReg (F.FLT_SRC_CFG_N.off n) p.1 →
       (p.1 = s.reg (F.FLT_SRC_CFG_N.off n) → Leaves (.fltSrcCfgWrite src n v) s u) ∧
       (fieldOf p.1 7 0 ≠ fieldOf (s.reg (F.FLT_SRC_CFG_N.off n)) 7 0 → Leaves (.fltSrcCfgWrite src n v) s
         (u.updSvc (fun k => { k with inst := k.inst.map (fun q => if q.1 / 65536 = n then (q.1, { q.2 with wcnt := 0, escc := 0, open_ := false }) else q) })))) ∧
    (x = s.svc.notes.get NoteCnt.reset g →
      (x.due = false → Leaves (.servicePortNotice g) s s) ∧
      (∀ l, x.last = some l → s.fab.tb.toNat < l.toNat + 1000 * usec → Leaves (.servicePortNotice g) s s) ∧
      (x.due = true → (∀ l, x.last = some l → l.toNat + 1000 * usec ≤ s.fab.tb.toNat) → x.noted < 2 ^ 20 → x.recur < 2 ^ 20 → x.severe < 2 ^ 20 →
        u = (((s.setFld F.SVC_NOTE_NOTED x.noted g).setFld F.SVC_NOTE_RECUR x.recur g).setFld F.SVC_NOTE_SEVERE x.severe g).setFlag F.SVC_NOTE_OVF false g →
        Leaves (.servicePortNotice g) s ((u.updSvc (fun k => { k with notes := k.notes.put g { NoteCnt.reset with last := some s.fab.tb } })).msix g))) ∧
    (x = s.svc.fnote.get NoteCnt.reset d →
      (x.due = false ∨ s.flag F.FLT_FENCE_CXF = true → Leaves (.fnoteSend d) s s) ∧
      (∀ l, x.last = some l → s.fab.tb.toNat < l.toNat + 100 * usec → Leaves (.fnoteSend d) s s) ∧
      (x.due = true → s.flag F.FLT_FENCE_CXF = false → (∀ l, x.last = some l → l.toNat + 100 * usec ≤ s.fab.tb.toNat) →
        (d = 0 → s.flag F.FAB_FNDEST_EN0 = true → Leaves (.fnoteSend d) s ((s.updSvc (fun k => { k with fnote := k.fnote.put 0 { NoteCnt.reset with last := some s.fab.tb } })).send .fab (s.fld F.FAB_FNDEST_DEST0) 0x41 [x.spec])) ∧
        (d = 1 → s.flag F.FAB_FNDEST_EN1 = true → Leaves (.fnoteSend d) s ((s.updSvc (fun k => { k with fnote := k.fnote.put 1 { NoteCnt.reset with last := some s.fab.tb } })).send .fab (s.fld F.FAB_FNDEST_DEST1) 0x41 [x.spec]))))

/-- 20 R432 to R434: one event on an instance. COUNT saturates and then sets OVF; a new window opens at the first event and at T or more after WSTART, and ESCCNT is cleared when the old one had not reached N; any other event adds to WCNT; the one that brings WCNT to N is recurring, closes the window and adds to ESCCNT; with N = 1 every event is; the ESCN-th recurrence is severe. -/
def Obligations.FaultClassification : Prop :=
  ∀ (x : FltInst) (n escn t now : Nat),
    (∀ sev, (x.event sev n escn t now).1.count.toNat = min (x.count.toNat + 1) (2 ^ 32 - 1) ∧ ((x.event sev n escn t now).1.ovf = true ↔ x.ovf = true ∨ x.count = BitVec.allOnes 32)) ∧
    (x.event true n escn t now).2 = 2 ∧
    (1 < n → x.open_ = false → now < 2 ^ 64 → let y := x.event false n escn t now; y.2 = 0 ∧ y.1.open_ = true ∧ y.1.wcnt = 1 ∧ y.1.wstart.toNat = now ∧ y.1.escc = x.escc) ∧
    (1 < n → x.open_ = true → x.wstart.toNat + t ≤ now → now < 2 ^ 64 → let y := x.event false n escn t now; y.2 = 0 ∧ y.1.open_ = true ∧ y.1.wcnt = 1 ∧ y.1.wstart.toNat = now ∧ y.1.escc = 0) ∧
    (n = 1 → let y := x.event false n escn t now; y.2 ≠ 0 ∧ y.1.open_ = false) ∧
    (x.open_ = true → 0 < t → now < x.wstart.toNat + t → x.wcnt + 1 < n → let y := x.event false n escn t now; y.2 = 0 ∧ y.1.wcnt = x.wcnt + 1 ∧ y.1.wstart = x.wstart ∧ y.1.escc = x.escc) ∧
    (x.open_ = true → 0 < t → now < x.wstart.toNat + t → n ≤ x.wcnt + 1 →
      let y := x.event false n escn t now
      y.1.open_ = false ∧ y.1.wcnt = 0 ∧ (escn ≠ 0 → escn ≤ x.escc + 1 → y.2 = 2 ∧ y.1.escc = 0) ∧ (escn = 0 ∨ x.escc + 1 < escn → y.2 = 1 ∧ y.1.escc = min (x.escc + 1) 15))

/-- 21 R451 to R461, 18 R404: monitors, ageing and the odometer: readings, a droop, the fire of a detector, the record that is written, verified, tried again or queued. Where the spec is open it follows the model's choices of logs 47 and 100. -/
def Obligations.MonitorsAndOdometer : Prop :=
  ∀ (s u : State) (src : Src) (temps volts ages : List Int) (mon z n r : Nat), mon < 72 → z < 22 → s.dead = false →
    (u = (List.range 144).foldl (fun z i => z.thmCheck i) ((temps.take 144).zipIdx.foldl (fun z p => z.setMon 0 p.2 ((z.mon 0 p.2).read false p.1)) s) →
      let all := (List.range 10).flatMap (fun g => u.groupTemps g)
      ((∃ t ∈ all, 1680 ≤ t) → Leaves (.thermalReading temps) s (u.emergencyOn true)) ∧
      ((∀ t ∈ all, t < 1680) → u.flag F.CLK_PWR_TEMERG = false → Leaves (.thermalReading temps) s u) ∧
      ((∀ t ∈ all, t < 1600) → u.flag F.CLK_PWR_TEMERG = true → u.blind 8 = false → u.blind 9 = false → Leaves (.thermalReading temps) s (u.emergencyOff true))) ∧
    (u = (List.range 72).foldl (fun z i => z.droopCheck i) ((volts.take 72).zipIdx.foldl (fun z p => z.setMon 1 p.2 ((z.mon 1 p.2).read true p.1)) s) →
      (∀ q, q < 14 → u.disagree q = false) → Leaves (.droopReading volts) s u) ∧
    ((s.mon 1 mon).retired = true → Leaves (.droopEvent mon) s s) ∧ ((s.mon 1 mon).retired = false → Leaves (.droopEvent mon) s (s.emergencyOn false)) ∧
    Leaves (.ageingReading ages) s ((List.range 8).foldl (fun z c => z.ageCap c) ((List.range 56).foldl (fun z p => z.coreAge p) ((ages.take 88).zipIdx.foldl (fun z p => z.ageRead p.2 p.1) s))) ∧
    ((s.mon 2 87).armed = true → Leaves (.marginDetectorFire .other) s (s.flt 15 7)) ∧ ((s.mon 2 87).armed = false → Leaves (.marginDetectorFire .other) s s) ∧
    ((s.mon 2 64).armed = true → Leaves (.marginDetectorFire (.brick 0 z)) s (s.brickRetire 0 z)) ∧
    ((s.mon 2 86).armed = true → s.fld F.ZIP_ENG_ROLE 20 = 2 → Leaves (.marginDetectorFire (.zip 20)) s s) ∧
    (let k := s.fld F.LIF_SNSEL_KIND
     let i := s.fld F.LIF_SNSEL_INDEX
     let m := s.mon 1 i
     (monCount k ≤ i → Leaves (.lifSndataRead src) s { s.cfgErr src F.LIF_SNDATA_VALUE.base with busData := 0 }) ∧
     (k = 1 → i < 72 → m.retired = false → Leaves (.lifSndataRead src) s { s with busData := BitVec.ofNat 64 ((BitVec.ofInt 16 m.val).toNat * 2 ^ 48 + (BitVec.ofInt 16 m.peak).toNat * 2 ^ 32) })) ∧
    (let hot := (hottest ((List.range 10).flatMap (fun g => u.groupTemps g))).getD 0
     u = (List.range 8).foldl (fun z c => z.odoAdd (280 + 16 * c + z.fld F.CLK_GEAR_CUR c)) ((volts.take 14).zipIdx.foldl (fun z p => z.odoAdd (168 + 8 * p.2 + voltBin p.1))
       ((List.range 10).foldl (fun z g => match hottest (z.groupTemps g) with | some t => z.odoAdd (8 + 16 * g + tempBin t) | none => z) s)) →
       (u.svc.odo.minutes + 1) % 60 ≠ 0 →
         (u.svc.odo.hotSince < hot + 640 → Leaves (.odometerMinute volts) s (u.updOdo (fun o => { o with hotSince := max o.hotSince hot, minutes := o.minutes + 1 }))) ∧
         (hot + 640 ≤ u.svc.odo.hotSince → Leaves (.odometerMinute volts) s ((u.odoAdd 4).updOdo (fun o => { o with hotSince := hot, minutes := o.minutes + 1 })))) ∧
    (let c := (((s.svc.odo.cnt.put 1 (0x00010000 + r)).put 2 ((s.odo 2 + 1) % 2 ^ 32)).put 6 (s.fab.tb.toNat / 2 ^ 32)).put 7 (s.fab.tb.toNat % 2 ^ 32)
     s.svc.odo.writing = none → u = (s.updOdo (fun o => { o with cnt := c, writing := some ((s.fld F.LIF_ODOSTAT_SLOT + 1) % 1024), tries := 0 })).setFlag F.LIF_ODOSTAT_BUSY true →
       (r = 1 → Leaves .odometerHourlyWrite s u) ∧ (r = 2 → Leaves .odometerPowerOnWrite s u) ∧ (r = 3 → Leaves (.odometerShutdown src) s u) ∧ (r = 4 → Leaves (.odometerWriteNow src) s u)) ∧
    (s.svc.odo.writing = some n → s.svc.odo.pendReason = none →
      (Leaves .odometerHourlyWrite s ((s.updOdo (fun o => { o with pendReason := some 1 })).setFlag F.LIF_ODOSTAT_PEND true) ∧
       Leaves (.odometerShutdown src) s ((s.updOdo (fun o => { o with pendReason := some 3 })).setFlag F.LIF_ODOSTAT_PEND true)) ∧
      (s.odo 1 % 65536 ≠ 3 →
        Leaves (.odometerWriteDone true) s ((((s.updOdo (fun o => { o with slots := (odoErase n o.slots).put n o.cnt, writing := none })).setFld F.LIF_ODOSTAT_SLOT n).setFld F.LIF_ODOSTAT_SEQ (s.odo 2)).setFlag F.LIF_ODOSTAT_BUSY false)) ∧
      (s.odo 1 % 65536 = 3 →
        Leaves (.odometerWriteDone true) s (((((s.updOdo (fun o => { o with slots := (odoErase n o.slots).put n o.cnt, writing := none })).setFld F.LIF_ODOSTAT_SLOT n).setFld F.LIF_ODOSTAT_SEQ (s.odo 2)).setFlag F.LIF_ODOSTAT_DONE true).setFlag F.LIF_ODOSTAT_BUSY false)) ∧
      (s.svc.odo.tries < 2 → Leaves (.odometerWriteDone false) s (s.updOdo (fun o => { o with slots := (odoErase n o.slots).put n odoBad, writing := some ((n + 1) % 1024), tries := o.tries + 1 })))) ∧
    (s.svc.odo.writing = none → Leaves (.odometerWriteDone true) s s ∧ Leaves (.odometerWriteDone false) s s)

/-- 22 R465 to R475, 00 R3: the service port: its link and identity, accesses that reach no register or are no doubleword, halt, step, resume and breakpoints, debug data, the trace rings. Where the spec is open it follows the model's choices of logs 64 and 102. 22 R476, 23 R480 to R493, 00 R11: the boundary scan and the package: the pins that a scan may take, edges of GPIO, the thermal trip, a regulator that does not answer, power that is lost and comes back. -/
def Obligations.ServicePortAndPackage : Prop :=
  (∀ (s u : State) (src : Src) (off size lc k cl : Nat) (v : W64) (x : Item), lc < 48 → k < 4 → cl < 8 → s.dead = false →
     Leaves (.pcieLinkEvent .trained) s (s.updSvc (fun k => { k with pcieUp := true })) ∧ Leaves (.pcieLinkEvent .flr) s s.portReset ∧
     (let down := s.portReset.updSvc (fun k => { k with pcieUp := false })
      (s.svc.pcieUp = false → Leaves (.pcieLinkEvent .linkDown) s s ∧ Leaves (.pcieLinkEvent .hotReset) s down ∧ Leaves (.pcieLinkEvent .peRst) s down ∧ Leaves (.pcieLinkEvent (.configRead off)) s s) ∧
      (s.svc.pcieUp = true → Leaves (.pcieLinkEvent .linkDown) s (down.flt 16 2) ∧ Leaves (.pcieLinkEvent .hotReset) s (down.flt 16 2) ∧ Leaves (.pcieLinkEvent .peRst) s (down.flt 16 2) ∧
        Leaves (.pcieLinkEvent (.configRead 0)) s { s with busData := 0x72001D9A } ∧ Leaves (.pcieLinkEvent (.configRead 8)) s { s with busData := 0x088000B1 })) ∧
     (regAt off = none → Leaves (.unmappedAccess src off true) s (s.unmapped off) ∧ Leaves (.unmappedAccess src off false) s { s.unmapped off with busData := 0 } ∧ Leaves (.registerWrite src off v) s (s.unmapped off)) ∧
     (size ≠ 8 ∨ off % 8 ≠ 0 → Leaves (.hostAccessSize off size true) s (s.flt 16 1) ∧ Leaves (.hostAccessSize off size false) s { s.flt 16 1 with busData := 0 }) ∧
     (size = 8 → off % 8 = 0 → Leaves (.hostAccessSize off size true) s s) ∧
     (u = s.setFld F.SVC_DBGCTL_LC lc → s.part = .b48 →
       (let c := s.core lc
        let halted := u.setCore lc { c with run := .halted, broken := true, brokenSince := s.fab.tb, haltPend := false, haltWhy := 1, haltBpn := 0 }
        (c.run = .running → c.wait = .none → c.begun = false → c.broken = false → Leaves (.debugHalt src lc) s halted) ∧
        (c.run = .stopped → Leaves (.debugHalt src lc) s (u.setCore lc { c with haltPend := true, haltWhy := 1 })) ∧
        (c.run = .checkStop → Leaves (.debugHalt src lc) s (u.cfgErr src F.SVC_DBGCTL_CMD.base)) ∧
        (c.run ≠ .halted → Leaves (.debugStep src lc) s (u.cfgErr src F.SVC_DBGCTL_CMD.base) ∧ Leaves (.debugResume src lc) s (u.cfgErr src F.SVC_DBGCTL_CMD.base)) ∧
        (c.run = .halted → Leaves (.debugStep src lc) s ((u.setCore lc { c with run := .running, haltPend := true, haltWhy := 2 }).boundary lc) ∧
          (c.spareReq = false → Leaves (.debugResume src lc) s (((u.setCore lc { c with run := .running, broken := false, haltPend := false }).setFlag F.TAN_LCMAP_UNCHK true lc).flt 2 2 c.phys none c.brokenSince))))) ∧
     (let c := s.core lc
      (s.canRun lc = true → c.wait = .none → c.begun = false → c.broken = true → fieldOf (c.arch.bp.get 0 k) 0 0 = 1 → fieldOf (c.arch.bp.get 0 k) 63 2 = fieldOf c.arch.psw.ia 63 2 →
        fieldOf (c.arch.bp.get 0 4) (63 - 8 * k) (56 - 8 * k) = c.arch.psw.pid.toNat →
        Leaves (.breakpointHit lc k) s (s.setCore lc { c with run := .halted, haltPend := false, haltWhy := 3, haltBpn := BitVec.ofNat 2 k })) ∧
      (fieldOf (c.arch.bp.get 0 k) 0 0 = 0 → Leaves (.breakpointHit lc k) s s)) ∧
     (s.dbgItem = none → Leaves (.svcDbgdataAccess src (some v)) s (s.cfgErr src F.SVC_DBGDATA_DATA.base) ∧ Leaves (.svcDbgdataAccess src none) s { s.cfgErr src F.SVC_DBGDATA_DATA.base with busData := 0 }) ∧
     (s.dbgItem = some (lc, .g k) →
       let a := { (s.core lc).arch with g := (s.core lc).arch.g.put k v }
       Leaves (.svcDbgdataAccess src (some v)) s (s.setCore lc { s.core lc with arch := a, ckpt := a }) ∧
       Leaves (.svcDbgdataAccess src none) s { s with busData := (s.core lc).arch.g.get 0 k }) ∧
     (s.dbgItem = some (lc, x) → s.itemPut lc x v = none → Leaves (.svcDbgdataAccess src (some v)) s (s.cfgErr src F.SVC_DBGDATA_DATA.base)) ∧
     (s.fld F.CLK_SBLK_TRACE = 2 → Leaves (.traceEnable src cl v) s (s.cfgErr src (F.SVC_TRCTL_EN.off cl))) ∧
     (s.fld F.CLK_SBLK_TRACE ≠ 2 → s.flag F.SVC_TRCTL_EN cl = false → u = (s.setFld F.CLK_SBLK_TRACE 0).wrReg src (F.SVC_TRCTL_EN.off cl) v → (s.setFld F.CLK_SBLK_TRACE 0).flag F.SVC_TRCTL_EN cl = false →
       (u.flag F.SVC_TRCTL_EN cl = false → Leaves (.traceEnable src cl v) s u) ∧
       (u.flag F.SVC_TRCTL_EN cl = true → Leaves (.traceEnable src cl v) s ((u.setFld F.SVC_TRCTL_WR 0 cl).updSvc (fun k => { k with trace := k.trace.filter (fun p => p.1 / 4096 != cl), traceLost := k.traceLost.del cl }))))) ∧
  (∀ (s u : State) (pin cl v : Nat) (level : Bool), pin < 24 → cl < 8 →
     (s.dead = true ∨ s.fld F.CLK_SBLK_JTAG = 2 → Leaves .bypass s s ∧ Leaves .idcode s s ∧ Leaves (.samplePreload v) s s ∧ Leaves (.extest v) s s ∧ Leaves .clamp s s ∧ Leaves .highz s s) ∧
     (s.dead = false → s.fld F.CLK_SBLK_JTAG ≠ 2 →
       let tap := fun (code : Nat) => (s.setFld F.CLK_SBLK_JTAG 0).updSvc (fun k => { k with tapReg := code })
       Leaves .bypass s (tap 0) ∧ Leaves .idcode s ((tap 1).send .tap 0 1 [0x17200A6B]) ∧
       Leaves (.samplePreload v) s (((tap 2).updSvc (fun k => { k with tapSample := k.gpioLevel.toNat, tapBoundary := v })).send .tap 0 2 [s.svc.gpioLevel.toNat]) ∧
       (s.scanOk = true →
         (u = tap 3 → u.scanOk = true → Leaves (.extest v) s ((u.updSvc (fun k => { k with tapSample := k.gpioLevel.toNat, tapBoundary := v })).send .tap 1 3 [v])) ∧
         (u = tap 4 → u.scanOk = true → Leaves .clamp s (u.send .tap 1 4 [u.svc.tapBoundary])) ∧ (u = tap 5 → u.scanOk = true → Leaves .highz s (u.send .tap 1 5 []))) ∧
       (s.scanOk = false → (tap 0).scanOk = false → Leaves (.extest v) s ((tap 0).flt 16 4) ∧ Leaves .clamp s ((tap 0).flt 16 4) ∧ Leaves .highz s ((tap 0).flt 16 4))) ∧
     (let w : BitVec 24 := if level then s.svc.gpioLevel ||| BitVec.ofNat 24 (2 ^ pin) else s.svc.gpioLevel &&& ~~~(BitVec.ofNat 24 (2 ^ pin))
      s.dead = false → s.fld F.CLK_SBLK_GPIO = 0 → s.svc.gpioLevel.getLsbD pin ≠ level → u = s.updSvc (fun k => { k with gpioLevel := w }) →
        (s.flag F.PKG_GPIO_IE pin = false ∨ edgeWanted (s.fld F.PKG_GPIO_EDGE pin) level = false → Leaves (.gpioEdge pin level) s u) ∧
        (s.flag F.PKG_GPIO_IE pin = true → edgeWanted (s.fld F.PKG_GPIO_EDGE pin) level = true →
          Leaves (.gpioEdge pin level) s (u.updSvc (fun k => { k with gpioPend := k.gpioPend.upd 0 (s.fld F.PKG_GPIO_PID pin) (fun x => x ||| BitVec.ofNat 24 (2 ^ pin)) })))) ∧
     (s.dead = true ∨ s.fld F.CLK_SBLK_GPIO ≠ 0 ∨ s.svc.gpioLevel.getLsbD pin = level → Leaves (.gpioEdge pin level) s s) ∧
     (s.svc.aonGood = true → s.svc.trip = false → Leaves .thermtrip s (s.coldState.updSvc (fun k => { k with trip := true, hiZ := true }))) ∧
     (s.svc.aonGood = false ∨ s.svc.trip = true → Leaves .thermtrip s s) ∧
     (s.dead = true ∨ s.svc.avsHeld.contains cl = true → Leaves (.avsWriteTimeout cl) s s) ∧
     (s.dead = false → s.svc.avsHeld.contains cl = false →
       Leaves (.avsWriteTimeout cl) s ((((s.updSvc (fun k => { k with avsHeld := k.avsHeld ++ [cl] })).bridge cl).send .avs (cl / 4) (cl % 4)).flt 13 6)) ∧
     (∃ t, exec .vddAonLoss s = .next t ∧ t.svc.powered = false ∧ t.svc.aonGood = false ∧ t.svc.trip = false ∧ t.cores = [] ∧ t.mem = State.reset.mem ∧ t.reg F.CLK_AONCAUSE_VAL.base = 0 ∧ t.svc.odo = s.svc.odo ∧ t.pending = s.pending ∧ t.out = s.out) ∧
     Leaves .vddAonGood s (s.updSvc (fun k => { k with aonGood := true })) ∧
     (∃ t, exec .powerLoss s = .next t ∧ t.svc.powered = false ∧ t.svc.aonGood = s.svc.aonGood ∧ t.svc.trip = s.svc.trip ∧ t.cores = [] ∧ t.reg F.CLK_AONCAUSE_VAL.base = s.reg F.CLK_AONCAUSE_VAL.base ∧ t.svc.odo = s.svc.odo ∧
       t.mem.bytes = [] ∧ t.pending = s.pending))

/-- 00 R10, R12 to R14, 22 R466 to R469: a write of a register of windows VPT, ZIP and CIP acts field by field: RO keeps its value, RW and an unlocked RWL take the value unless it is reserved, a refused field keeps its value and sets CFG_ERR of the window; no other register changes. CFG_ERR of the window, an RW1C bit, clears where the write has a one. -/
def Obligations.RegisterWrites : Prop :=
  ∀ (s : State) (src : Src) (off : Nat) (v : W64) (r : RegDesc), s.dead = false → regAt off = some r → 12 ≤ off / 0x100000 → off / 0x100000 ≤ 14 → off % 0x100000 ≠ 0xFFFF8 →
    let werr := off / 0x100000 * 0x100000 + 0xFFFF8
    Does (.registerWrite src off v) s (fun t =>
      (∀ f ∈ r.flds,
        let new := fieldOf v f.hi f.lo
        let old := fieldOf (s.reg off) f.hi f.lo
        let got := fieldOf (t.reg off) f.hi f.lo
        (f.ty = .ro → got = old) ∧
        (f.ty = .rw ∨ (f.ty = .rwl ∧ s.svc.locked = false) → f.reserved new = false → got = new) ∧
        (f.ty = .rw → f.reserved new = true → got = old ∧ fieldOf (t.reg werr) 63 63 = 1) ∧
        (f.ty = .rwl → s.svc.locked = true → new ≠ old → got = old ∧ fieldOf (t.reg werr) 63 63 = 1)) ∧
      (∀ o, o ≠ off → o ≠ werr → o ≠ F.FLT_ERRPIN_PIN.base → t.reg o = s.reg o) ∧
      t.mem = s.mem ∧ t.cores = s.cores ∧ t.fab = s.fab ∧ t.chn = s.chn ∧ t.svc = s.svc ∧ t.out = s.out ∧ t.pending = s.pending) ∧
    Does (.registerWrite src werr v) s (fun t => fieldOf (t.reg werr) 63 63 = fieldOf (s.reg werr &&& ~~~v) 63 63 ∧ ∀ o, o ≠ werr → o ≠ F.FLT_ERRPIN_PIN.base → t.reg o = s.reg o)

/-- The queue is first in, first out: a step takes the command at its front and answers what exec answers on the rest of the queue. On an empty queue time goes on (the model's choice, log 14): the time base counts, one unit where it is not steered; then a writeback buffer drains and the messages put out enter the fabric, unless the complex is fenced; one that is held in reset or without power does nothing. -/
def Obligations.StepRunsTheFront : Prop :=
  (∀ (c : Instr) (s : State), step { s with pending := c :: s.pending } = exec c s) ∧
  (∀ (s t : State) (k : Nat), s.pending = [] → (k : Int) = (s.fab.frac : Int) + 1000000 + s.fab.rate →
    t = { s with fab := { s.fab with tb := s.fab.tb + BitVec.ofNat 64 (k / 1000000), frac := k % 1000000 } } →
    (s.dead = true → step s = .next s) ∧
    (s.dead = false → s.flag F.FLT_FENCE_CXF = true → step s = .next t) ∧
    (s.dead = false → s.flag F.FLT_FENCE_CXF = false → step s = .next (t.wbDrain.launchAll).errPin) ∧
    (s.fab.rate = 0 → s.fab.frac = 0 → t = { s with fab := { s.fab with tb := s.fab.tb + 1 } }))

/-- No command touches the queue: after a step the queue is what stood behind the front, and a queue of well-formed commands stays one. -/
def Obligations.StepKeepsTheQueue : Prop :=
  ∀ (s t : State), step s = .next t → t.pending = s.pending.tail ∧ (QueueOk s → QueueOk t)

/-- 20 R445: ERR_N and its register follow their causes through every step: HOLD, the running pulse, the fence of the complex, SDROP. -/
def Obligations.PinFollowsEveryStep : Prop :=
  ∀ (s t : State), PinOk s → step s = .next t → PinOk t

/-- The invariants hold at reset: ERR_N shows its causes, the queue holds no command that is ill-formed, memory is in its canonical form. 00 R9, 02 R53, 10 R262: what cold reset leaves: every register of control space at the value of its fields, every core of no state at its checkpoint, stopped, with the comparator at all ones and its special registers at their values, no exchange, no key, no event in the log. Registers that the tables give no value hold the model's (logs 1, 2). -/
def Obligations.ResetState : Prop :=
  (PinOk State.reset ∧ QueueOk State.reset ∧ State.reset.mem.wf = true) ∧
  (let s := State.reset
   (∀ off r, regAt off = some r → s.reg off = r.resetVal) ∧ (∀ off, regAt off = none → s.reg off = 0) ∧
   (∀ n, (s.core n).run = .stopped ∧ (s.core n).arch = (s.core n).ckpt ∧ (s.core n).arch.tbc = BitVec.allOnes 64 ∧ (s.core n).stbuf = [] ∧ ∀ k, (s.core n).arch.getSr k = srReset k) ∧
   s.fab.tb = 0 ∧ s.chn.exch = [] ∧ s.chn.sch = [] ∧ s.svc.log = [] ∧ s.svc.logSeq = 0 ∧ s.out = [] ∧ s.pending = [] ∧ s.errWord = BitVec.ofNat 64 (2 ^ 60))

/-- Every well-formed command answers a next state, in every state; an event of the fault collector does when its source and instance exist. No command is refused. -/
def Obligations.EveryCommandRuns : Prop :=
  (∀ (i : Instr) (s : State), wf i = true → (∀ ev, i = .faultEvent ev → fltUsed ev.src = true ∧ ev.unit < fltUnits ev.src) → ∃ t, exec i s = .next t) ∧
  (∀ (i : Instr) (s : State) (r : Refusal), exec i s ≠ .refused r)

/-- 11 R273: memory by lines: what a whole-line write stores reads back, with its poison, every other line stays, and the canonical form is kept. -/
def Obligations.LinesReadBack : Prop :=
  ∀ (m : Mem) (l k : Nat) (d : Line) (p : Nat), m.wf = true →
    (m.putLine l d p).wf = true ∧ (m.putLine l d p).line l = d ∧ (k ≠ l → (m.putLine l d p).line k = m.line k) ∧
    (m.putLine l d p).poison.find l = (if p = 0 then none else some p)

/-- 03 R67: every word whose bits [31:26] are 0x3F is undefined, whatever its other bits hold: it raises an operation exception (0x0001). -/
def Obligations.MajorThreeF : Prop :=
  ∀ (s : State) (lc : Nat) (w : BitVec 32), Ready s lc 4 → w.extractLsb' 26 6 = 0x3F → coreIlc w = 4 ∧ Traps (.undefinedOpcode lc w) s lc 4 1
end

