-- ==== Sys2Proof/Laws/Tab.lean ====
section
/-! SUPPORT. Laws of sparse tables: read after write, writes elsewhere, the canonical form. -/

namespace Sys2Proof.Machine

variable {α : Type}

@[simp] theorem Tab.get_put (d : α) (t : Tab α) (k : Nat) (v : α) : (t.put k v).get d k = v := by
  induction t with
  | nil => simp [Tab.put, Tab.get]
  | cons p r ih =>
    obtain ⟨k', v'⟩ := p
    simp only [Tab.put]
    split
    · simp [Tab.get]
    · split
      · simp [Tab.get]
      · simp_all [Tab.get]

theorem Tab.get_put_ne (d : α) (t : Tab α) (k n : Nat) (v : α) (h : n ≠ k) : (t.put k v).get d n = t.get d n := by
  induction t with
  | nil => simp [Tab.put, Tab.get, h]
  | cons p r ih =>
    obtain ⟨k', v'⟩ := p
    simp only [Tab.put]
    split
    · simp only [Tab.get, if_neg h]
      split
      · split
        · rfl
        · omega
      · rfl
    · split
      · subst k'; simp [Tab.get, h]
      · simp [Tab.get, ih]

@[simp] theorem Tab.find_put (t : Tab α) (k : Nat) (v : α) : (t.put k v).find k = some v := by
  induction t with
  | nil => simp [Tab.put, Tab.find]
  | cons p r ih =>
    obtain ⟨k', v'⟩ := p
    simp only [Tab.put]
    split
    · simp [Tab.find]
    · split
      · simp [Tab.find]
      · simp_all [Tab.find]

theorem Tab.find_put_ne (t : Tab α) (k n : Nat) (v : α) (h : n ≠ k) : (t.put k v).find n = t.find n := by
  induction t with
  | nil => simp [Tab.put, Tab.find, h]
  | cons p r ih =>
    obtain ⟨k', v'⟩ := p
    simp only [Tab.put]
    split
    · simp only [Tab.find, if_neg h]
      split
      · split
        · rfl
        · omega
      · rfl
    · split
      · subst k'; simp [Tab.find, h]
      · simp [Tab.find, ih]

/-- A table whose keys lie above a bound keeps that below a lower bound. -/
theorem Tab.wfAbove_mono [DecidableEq α] (d : α) (t : Tab α) {b c : Option Nat} (h : t.wfAbove d b = true)
    (hc : ∀ x, c = some x → ∃ y, b = some y ∧ x ≤ y) : t.wfAbove d c = true := by
  cases t with
  | nil => rfl
  | cons p r =>
    obtain ⟨k, v⟩ := p
    simp only [Tab.wfAbove, Bool.and_eq_true] at h ⊢
    refine ⟨⟨?_, h.1.2⟩, h.2⟩
    cases c with
    | none => rfl
    | some x =>
      obtain ⟨y, rfl, hy⟩ := hc x rfl
      have := h.1.1
      simp at this ⊢
      omega

theorem Tab.set_wfAbove [DecidableEq α] (d : α) (t : Tab α) (k : Nat) (v : α) (b : Option Nat) (h : t.wfAbove d b = true)
    (hk : ∀ x, b = some x → x < k) : (t.set d k v).wfAbove d b = true := by
  induction t generalizing b with
  | nil =>
    simp only [Tab.set]
    split
    · rfl
    · rename_i hv
      cases b with
      | none => simp [Tab.wfAbove, hv]
      | some x => simp [Tab.wfAbove, hv, hk x rfl]
  | cons p r ih =>
    obtain ⟨k', v'⟩ := p
    have h0 := h
    simp only [Tab.wfAbove, Bool.and_eq_true] at h
    simp only [Tab.set]
    split
    · rename_i hlt
      split
      · exact h0
      · rename_i hv
        simp only [Tab.wfAbove, Bool.and_eq_true]
        refine ⟨⟨?_, by simp [hv]⟩, ⟨by simp [hlt], h.1.2⟩, h.2⟩
        cases b with
        | none => rfl
        | some x => simp [hk x rfl]
    · split
      · subst k'
        split
        · refine Tab.wfAbove_mono d r h.2 ?_
          intro x hx
          exact ⟨k, rfl, Nat.le_of_lt (hk x hx)⟩
        · rename_i hv
          simp only [Tab.wfAbove, Bool.and_eq_true]
          exact ⟨⟨h.1.1, by simp [hv]⟩, h.2⟩
      · simp only [Tab.wfAbove, Bool.and_eq_true]
        refine ⟨h.1, ih _ h.2 ?_⟩
        intro x hx
        cases hx
        omega

/-- A write keeps the canonical form. -/
theorem Tab.set_wf [DecidableEq α] (d : α) (t : Tab α) (k : Nat) (v : α) (h : t.wf d = true) : (t.set d k v).wf d = true :=
  Tab.set_wfAbove d t k v none h (by simp)

/-- Below the keys of a canonical table everything reads as the default. -/
theorem Tab.get_of_below [DecidableEq α] (d : α) (t : Tab α) (b n : Nat) (h : t.wfAbove d (some b) = true) (hn : n ≤ b) : t.get d n = d := by
  cases t with
  | nil => rfl
  | cons p r =>
    obtain ⟨k, v⟩ := p
    simp only [Tab.wfAbove, Bool.and_eq_true, decide_eq_true_eq] at h
    simp only [Tab.get]
    rw [if_pos (by omega)]

theorem Tab.get_set_above [DecidableEq α] (d : α) (t : Tab α) (k n : Nat) (v : α) (b : Option Nat) (h : t.wfAbove d b = true) :
    (t.set d k v).get d n = if n = k then v else t.get d n := by
  induction t generalizing b with
  | nil =>
    simp only [Tab.set]
    split
    · rename_i hv; subst hv; simp [Tab.get]
    · simp only [Tab.get]
      by_cases hn : n = k
      · simp [hn]
      · simp [hn]
  | cons p r ih =>
    obtain ⟨k', v'⟩ := p
    simp only [Tab.wfAbove, Bool.and_eq_true] at h
    simp only [Tab.set]
    split
    · rename_i hlt
      split
      · rename_i hv
        subst hv
        split
        · subst n; simp [Tab.get, hlt]
        · rfl
      · by_cases hn : n = k
        · subst n; simp [Tab.get]
        · simp only [Tab.get, hn, if_false]
          split
          · split
            · rfl
            · omega
          · rfl
    · split
      · subst k'
        split
        · rename_i hv
          subst hv
          split
          · subst n; exact Tab.get_of_below v r k k h.2 (Nat.le_refl _)
          · rename_i hn
            simp only [Tab.get, hn, if_false]
            split
            · exact Tab.get_of_below v r k n h.2 (by omega)
            · rfl
        · by_cases hn : n = k
          · subst n; simp [Tab.get]
          · simp [Tab.get, hn]
      · rename_i h1 h2
        have := ih (some k') h.2
        simp only [Tab.get, this]
        split
        · split
          · omega
          · rfl
        · split
          · split
            · omega
            · rfl
          · rfl

/-- Read after write in a canonical table. -/
theorem Tab.get_set [DecidableEq α] (d : α) (t : Tab α) (k n : Nat) (v : α) (h : t.wf d = true) :
    (t.set d k v).get d n = if n = k then v else t.get d n := Tab.get_set_above d t k n v none h

end Sys2Proof.Machine
end

