-- ==== Sys2Proof/Laws/State.lean ====
section
/-! SUPPORT. What each update of the state leaves, field by field, and what reads after it see. -/

namespace Sys2Proof.Machine

@[simp] theorem State.setReg_pending (s : State) (off : Nat) (v : W64) : (s.setReg off v).pending = s.pending := rfl
@[simp] theorem State.setReg_part (s : State) (off : Nat) (v : W64) : (s.setReg off v).part = s.part := rfl
@[simp] theorem State.setReg_cores (s : State) (off : Nat) (v : W64) : (s.setReg off v).cores = s.cores := rfl
@[simp] theorem State.setReg_p2base (s : State) (off : Nat) (v : W64) : (s.setReg off v).p2base = s.p2base := rfl
@[simp] theorem State.setReg_mem (s : State) (off : Nat) (v : W64) : (s.setReg off v).mem = s.mem := rfl
@[simp] theorem State.setReg_fab (s : State) (off : Nat) (v : W64) : (s.setReg off v).fab = s.fab := rfl
@[simp] theorem State.setReg_chn (s : State) (off : Nat) (v : W64) : (s.setReg off v).chn = s.chn := rfl
@[simp] theorem State.setReg_svc (s : State) (off : Nat) (v : W64) : (s.setReg off v).svc = s.svc := rfl
@[simp] theorem State.setReg_out (s : State) (off : Nat) (v : W64) : (s.setReg off v).out = s.out := rfl
@[simp] theorem State.setReg_freeCtr (s : State) (off : Nat) (v : W64) : (s.setReg off v).freeCtr = s.freeCtr := rfl
@[simp] theorem State.setReg_busData (s : State) (off : Nat) (v : W64) : (s.setReg off v).busData = s.busData := rfl

@[simp] theorem State.setFld_pending (s : State) (f : Fld) (v i j : Nat) : (s.setFld f v i j).pending = s.pending := rfl
@[simp] theorem State.setFld_part (s : State) (f : Fld) (v i j : Nat) : (s.setFld f v i j).part = s.part := rfl
@[simp] theorem State.setFld_cores (s : State) (f : Fld) (v i j : Nat) : (s.setFld f v i j).cores = s.cores := rfl
@[simp] theorem State.setFld_p2base (s : State) (f : Fld) (v i j : Nat) : (s.setFld f v i j).p2base = s.p2base := rfl
@[simp] theorem State.setFld_mem (s : State) (f : Fld) (v i j : Nat) : (s.setFld f v i j).mem = s.mem := rfl
@[simp] theorem State.setFld_fab (s : State) (f : Fld) (v i j : Nat) : (s.setFld f v i j).fab = s.fab := rfl
@[simp] theorem State.setFld_chn (s : State) (f : Fld) (v i j : Nat) : (s.setFld f v i j).chn = s.chn := rfl
@[simp] theorem State.setFld_svc (s : State) (f : Fld) (v i j : Nat) : (s.setFld f v i j).svc = s.svc := rfl
@[simp] theorem State.setFld_out (s : State) (f : Fld) (v i j : Nat) : (s.setFld f v i j).out = s.out := rfl
@[simp] theorem State.setFld_freeCtr (s : State) (f : Fld) (v i j : Nat) : (s.setFld f v i j).freeCtr = s.freeCtr := rfl
@[simp] theorem State.setFld_busData (s : State) (f : Fld) (v i j : Nat) : (s.setFld f v i j).busData = s.busData := rfl

@[simp] theorem State.setFlag_pending (s : State) (f : Fld) (v : Bool) (i j : Nat) : (s.setFlag f v i j).pending = s.pending := rfl
@[simp] theorem State.setFlag_part (s : State) (f : Fld) (v : Bool) (i j : Nat) : (s.setFlag f v i j).part = s.part := rfl
@[simp] theorem State.setFlag_cores (s : State) (f : Fld) (v : Bool) (i j : Nat) : (s.setFlag f v i j).cores = s.cores := rfl
@[simp] theorem State.setFlag_p2base (s : State) (f : Fld) (v : Bool) (i j : Nat) : (s.setFlag f v i j).p2base = s.p2base := rfl
@[simp] theorem State.setFlag_mem (s : State) (f : Fld) (v : Bool) (i j : Nat) : (s.setFlag f v i j).mem = s.mem := rfl
@[simp] theorem State.setFlag_fab (s : State) (f : Fld) (v : Bool) (i j : Nat) : (s.setFlag f v i j).fab = s.fab := rfl
@[simp] theorem State.setFlag_chn (s : State) (f : Fld) (v : Bool) (i j : Nat) : (s.setFlag f v i j).chn = s.chn := rfl
@[simp] theorem State.setFlag_svc (s : State) (f : Fld) (v : Bool) (i j : Nat) : (s.setFlag f v i j).svc = s.svc := rfl
@[simp] theorem State.setFlag_out (s : State) (f : Fld) (v : Bool) (i j : Nat) : (s.setFlag f v i j).out = s.out := rfl
@[simp] theorem State.setFlag_freeCtr (s : State) (f : Fld) (v : Bool) (i j : Nat) : (s.setFlag f v i j).freeCtr = s.freeCtr := rfl
@[simp] theorem State.setFlag_busData (s : State) (f : Fld) (v : Bool) (i j : Nat) : (s.setFlag f v i j).busData = s.busData := rfl

@[simp] theorem State.setCore_pending (s : State) (lc : Nat) (c : Core) : (s.setCore lc c).pending = s.pending := rfl
@[simp] theorem State.setCore_part (s : State) (lc : Nat) (c : Core) : (s.setCore lc c).part = s.part := rfl
@[simp] theorem State.setCore_p2base (s : State) (lc : Nat) (c : Core) : (s.setCore lc c).p2base = s.p2base := rfl
@[simp] theorem State.setCore_ctl (s : State) (lc : Nat) (c : Core) : (s.setCore lc c).ctl = s.ctl := rfl
@[simp] theorem State.setCore_mem (s : State) (lc : Nat) (c : Core) : (s.setCore lc c).mem = s.mem := rfl
@[simp] theorem State.setCore_fab (s : State) (lc : Nat) (c : Core) : (s.setCore lc c).fab = s.fab := rfl
@[simp] theorem State.setCore_chn (s : State) (lc : Nat) (c : Core) : (s.setCore lc c).chn = s.chn := rfl
@[simp] theorem State.setCore_svc (s : State) (lc : Nat) (c : Core) : (s.setCore lc c).svc = s.svc := rfl
@[simp] theorem State.setCore_out (s : State) (lc : Nat) (c : Core) : (s.setCore lc c).out = s.out := rfl
@[simp] theorem State.setCore_freeCtr (s : State) (lc : Nat) (c : Core) : (s.setCore lc c).freeCtr = s.freeCtr := rfl
@[simp] theorem State.setCore_busData (s : State) (lc : Nat) (c : Core) : (s.setCore lc c).busData = s.busData := rfl

@[simp] theorem State.updCore_pending (s : State) (lc : Nat) (f : Core → Core) : (s.updCore lc f).pending = s.pending := rfl
@[simp] theorem State.updCore_part (s : State) (lc : Nat) (f : Core → Core) : (s.updCore lc f).part = s.part := rfl
@[simp] theorem State.updCore_p2base (s : State) (lc : Nat) (f : Core → Core) : (s.updCore lc f).p2base = s.p2base := rfl
@[simp] theorem State.updCore_ctl (s : State) (lc : Nat) (f : Core → Core) : (s.updCore lc f).ctl = s.ctl := rfl
@[simp] theorem State.updCore_mem (s : State) (lc : Nat) (f : Core → Core) : (s.updCore lc f).mem = s.mem := rfl
@[simp] theorem State.updCore_fab (s : State) (lc : Nat) (f : Core → Core) : (s.updCore lc f).fab = s.fab := rfl
@[simp] theorem State.updCore_chn (s : State) (lc : Nat) (f : Core → Core) : (s.updCore lc f).chn = s.chn := rfl
@[simp] theorem State.updCore_svc (s : State) (lc : Nat) (f : Core → Core) : (s.updCore lc f).svc = s.svc := rfl
@[simp] theorem State.updCore_out (s : State) (lc : Nat) (f : Core → Core) : (s.updCore lc f).out = s.out := rfl
@[simp] theorem State.updCore_freeCtr (s : State) (lc : Nat) (f : Core → Core) : (s.updCore lc f).freeCtr = s.freeCtr := rfl
@[simp] theorem State.updCore_busData (s : State) (lc : Nat) (f : Core → Core) : (s.updCore lc f).busData = s.busData := rfl

@[simp] theorem State.updArch_pending (s : State) (lc : Nat) (f : Arch → Arch) : (s.updArch lc f).pending = s.pending := rfl
@[simp] theorem State.updArch_part (s : State) (lc : Nat) (f : Arch → Arch) : (s.updArch lc f).part = s.part := rfl
@[simp] theorem State.updArch_p2base (s : State) (lc : Nat) (f : Arch → Arch) : (s.updArch lc f).p2base = s.p2base := rfl
@[simp] theorem State.updArch_ctl (s : State) (lc : Nat) (f : Arch → Arch) : (s.updArch lc f).ctl = s.ctl := rfl
@[simp] theorem State.updArch_mem (s : State) (lc : Nat) (f : Arch → Arch) : (s.updArch lc f).mem = s.mem := rfl
@[simp] theorem State.updArch_fab (s : State) (lc : Nat) (f : Arch → Arch) : (s.updArch lc f).fab = s.fab := rfl
@[simp] theorem State.updArch_chn (s : State) (lc : Nat) (f : Arch → Arch) : (s.updArch lc f).chn = s.chn := rfl
@[simp] theorem State.updArch_svc (s : State) (lc : Nat) (f : Arch → Arch) : (s.updArch lc f).svc = s.svc := rfl
@[simp] theorem State.updArch_out (s : State) (lc : Nat) (f : Arch → Arch) : (s.updArch lc f).out = s.out := rfl
@[simp] theorem State.updArch_freeCtr (s : State) (lc : Nat) (f : Arch → Arch) : (s.updArch lc f).freeCtr = s.freeCtr := rfl
@[simp] theorem State.updArch_busData (s : State) (lc : Nat) (f : Arch → Arch) : (s.updArch lc f).busData = s.busData := rfl

@[simp] theorem State.send_pending (s : State) (ch : Chan) (dst code : Nat) (args : List Nat) : (s.send ch dst code args).pending = s.pending := rfl
@[simp] theorem State.send_part (s : State) (ch : Chan) (dst code : Nat) (args : List Nat) : (s.send ch dst code args).part = s.part := rfl
@[simp] theorem State.send_cores (s : State) (ch : Chan) (dst code : Nat) (args : List Nat) : (s.send ch dst code args).cores = s.cores := rfl
@[simp] theorem State.send_p2base (s : State) (ch : Chan) (dst code : Nat) (args : List Nat) : (s.send ch dst code args).p2base = s.p2base := rfl
@[simp] theorem State.send_ctl (s : State) (ch : Chan) (dst code : Nat) (args : List Nat) : (s.send ch dst code args).ctl = s.ctl := rfl
@[simp] theorem State.send_mem (s : State) (ch : Chan) (dst code : Nat) (args : List Nat) : (s.send ch dst code args).mem = s.mem := rfl
@[simp] theorem State.send_fab (s : State) (ch : Chan) (dst code : Nat) (args : List Nat) : (s.send ch dst code args).fab = s.fab := rfl
@[simp] theorem State.send_chn (s : State) (ch : Chan) (dst code : Nat) (args : List Nat) : (s.send ch dst code args).chn = s.chn := rfl
@[simp] theorem State.send_svc (s : State) (ch : Chan) (dst code : Nat) (args : List Nat) : (s.send ch dst code args).svc = s.svc := rfl
@[simp] theorem State.send_freeCtr (s : State) (ch : Chan) (dst code : Nat) (args : List Nat) : (s.send ch dst code args).freeCtr = s.freeCtr := rfl
@[simp] theorem State.send_busData (s : State) (ch : Chan) (dst code : Nat) (args : List Nat) : (s.send ch dst code args).busData = s.busData := rfl

@[simp] theorem State.updMem_pending (s : State) (f : Mem → Mem) : (s.updMem f).pending = s.pending := rfl
@[simp] theorem State.updMem_part (s : State) (f : Mem → Mem) : (s.updMem f).part = s.part := rfl
@[simp] theorem State.updMem_cores (s : State) (f : Mem → Mem) : (s.updMem f).cores = s.cores := rfl
@[simp] theorem State.updMem_p2base (s : State) (f : Mem → Mem) : (s.updMem f).p2base = s.p2base := rfl
@[simp] theorem State.updMem_ctl (s : State) (f : Mem → Mem) : (s.updMem f).ctl = s.ctl := rfl
@[simp] theorem State.updMem_fab (s : State) (f : Mem → Mem) : (s.updMem f).fab = s.fab := rfl
@[simp] theorem State.updMem_chn (s : State) (f : Mem → Mem) : (s.updMem f).chn = s.chn := rfl
@[simp] theorem State.updMem_svc (s : State) (f : Mem → Mem) : (s.updMem f).svc = s.svc := rfl
@[simp] theorem State.updMem_out (s : State) (f : Mem → Mem) : (s.updMem f).out = s.out := rfl
@[simp] theorem State.updMem_freeCtr (s : State) (f : Mem → Mem) : (s.updMem f).freeCtr = s.freeCtr := rfl
@[simp] theorem State.updMem_busData (s : State) (f : Mem → Mem) : (s.updMem f).busData = s.busData := rfl

@[simp] theorem State.updSvc_pending (s : State) (f : Svc → Svc) : (s.updSvc f).pending = s.pending := rfl
@[simp] theorem State.updSvc_part (s : State) (f : Svc → Svc) : (s.updSvc f).part = s.part := rfl
@[simp] theorem State.updSvc_cores (s : State) (f : Svc → Svc) : (s.updSvc f).cores = s.cores := rfl
@[simp] theorem State.updSvc_p2base (s : State) (f : Svc → Svc) : (s.updSvc f).p2base = s.p2base := rfl
@[simp] theorem State.updSvc_ctl (s : State) (f : Svc → Svc) : (s.updSvc f).ctl = s.ctl := rfl
@[simp] theorem State.updSvc_mem (s : State) (f : Svc → Svc) : (s.updSvc f).mem = s.mem := rfl
@[simp] theorem State.updSvc_fab (s : State) (f : Svc → Svc) : (s.updSvc f).fab = s.fab := rfl
@[simp] theorem State.updSvc_chn (s : State) (f : Svc → Svc) : (s.updSvc f).chn = s.chn := rfl
@[simp] theorem State.updSvc_out (s : State) (f : Svc → Svc) : (s.updSvc f).out = s.out := rfl
@[simp] theorem State.updSvc_freeCtr (s : State) (f : Svc → Svc) : (s.updSvc f).freeCtr = s.freeCtr := rfl
@[simp] theorem State.updSvc_busData (s : State) (f : Svc → Svc) : (s.updSvc f).busData = s.busData := rfl

@[simp] theorem Arch.setCc_g (x : Arch) (cc : BitVec 2) : (x.setCc cc).g = x.g := rfl
@[simp] theorem Arch.setCc_w (x : Arch) (cc : BitVec 2) : (x.setCc cc).w = x.w := rfl
@[simp] theorem Arch.setCc_f (x : Arch) (cc : BitVec 2) : (x.setCc cc).f = x.f := rfl
@[simp] theorem Arch.setCc_wsp (x : Arch) (cc : BitVec 2) : (x.setCc cc).wsp = x.wsp := rfl
@[simp] theorem Arch.setCc_wst (x : Arch) (cc : BitVec 2) : (x.setCc cc).wst = x.wst := rfl
@[simp] theorem Arch.setCc_sr (x : Arch) (cc : BitVec 2) : (x.setCc cc).sr = x.sr := rfl
@[simp] theorem Arch.setCc_tbc (x : Arch) (cc : BitVec 2) : (x.setCc cc).tbc = x.tbc := rfl
@[simp] theorem Arch.setCc_bp (x : Arch) (cc : BitVec 2) : (x.setCc cc).bp = x.bp := rfl

@[simp] theorem Arch.setIa_g (x : Arch) (ia : W64) : (x.setIa ia).g = x.g := rfl
@[simp] theorem Arch.setIa_w (x : Arch) (ia : W64) : (x.setIa ia).w = x.w := rfl
@[simp] theorem Arch.setIa_f (x : Arch) (ia : W64) : (x.setIa ia).f = x.f := rfl
@[simp] theorem Arch.setIa_wsp (x : Arch) (ia : W64) : (x.setIa ia).wsp = x.wsp := rfl
@[simp] theorem Arch.setIa_wst (x : Arch) (ia : W64) : (x.setIa ia).wst = x.wst := rfl
@[simp] theorem Arch.setIa_sr (x : Arch) (ia : W64) : (x.setIa ia).sr = x.sr := rfl
@[simp] theorem Arch.setIa_tbc (x : Arch) (ia : W64) : (x.setIa ia).tbc = x.tbc := rfl
@[simp] theorem Arch.setIa_bp (x : Arch) (ia : W64) : (x.setIa ia).bp = x.bp := rfl

@[simp] theorem Arch.setF_psw (x : Arch) (r : BitVec 5) (v : W64) : (x.setF r v).psw = x.psw := rfl
@[simp] theorem Arch.setF_g (x : Arch) (r : BitVec 5) (v : W64) : (x.setF r v).g = x.g := rfl
@[simp] theorem Arch.setF_w (x : Arch) (r : BitVec 5) (v : W64) : (x.setF r v).w = x.w := rfl
@[simp] theorem Arch.setF_wsp (x : Arch) (r : BitVec 5) (v : W64) : (x.setF r v).wsp = x.wsp := rfl
@[simp] theorem Arch.setF_wst (x : Arch) (r : BitVec 5) (v : W64) : (x.setF r v).wst = x.wst := rfl
@[simp] theorem Arch.setF_sr (x : Arch) (r : BitVec 5) (v : W64) : (x.setF r v).sr = x.sr := rfl
@[simp] theorem Arch.setF_tbc (x : Arch) (r : BitVec 5) (v : W64) : (x.setF r v).tbc = x.tbc := rfl
@[simp] theorem Arch.setF_bp (x : Arch) (r : BitVec 5) (v : W64) : (x.setF r v).bp = x.bp := rfl

@[simp] theorem Arch.setSr_psw (x : Arch) (n : Nat) (v : W64) : (x.setSr n v).psw = x.psw := rfl
@[simp] theorem Arch.setSr_g (x : Arch) (n : Nat) (v : W64) : (x.setSr n v).g = x.g := rfl
@[simp] theorem Arch.setSr_w (x : Arch) (n : Nat) (v : W64) : (x.setSr n v).w = x.w := rfl
@[simp] theorem Arch.setSr_f (x : Arch) (n : Nat) (v : W64) : (x.setSr n v).f = x.f := rfl
@[simp] theorem Arch.setSr_wsp (x : Arch) (n : Nat) (v : W64) : (x.setSr n v).wsp = x.wsp := rfl
@[simp] theorem Arch.setSr_wst (x : Arch) (n : Nat) (v : W64) : (x.setSr n v).wst = x.wst := rfl
@[simp] theorem Arch.setSr_tbc (x : Arch) (n : Nat) (v : W64) : (x.setSr n v).tbc = x.tbc := rfl
@[simp] theorem Arch.setSr_bp (x : Arch) (n : Nat) (v : W64) : (x.setSr n v).bp = x.bp := rfl

@[simp] theorem Arch.setWst_psw (x : Arch) (bank : Nat) (w : W64) : (x.setWst bank w).psw = x.psw := rfl
@[simp] theorem Arch.setWst_g (x : Arch) (bank : Nat) (w : W64) : (x.setWst bank w).g = x.g := rfl
@[simp] theorem Arch.setWst_w (x : Arch) (bank : Nat) (w : W64) : (x.setWst bank w).w = x.w := rfl
@[simp] theorem Arch.setWst_f (x : Arch) (bank : Nat) (w : W64) : (x.setWst bank w).f = x.f := rfl
@[simp] theorem Arch.setWst_wsp (x : Arch) (bank : Nat) (w : W64) : (x.setWst bank w).wsp = x.wsp := rfl
@[simp] theorem Arch.setWst_sr (x : Arch) (bank : Nat) (w : W64) : (x.setWst bank w).sr = x.sr := rfl
@[simp] theorem Arch.setWst_tbc (x : Arch) (bank : Nat) (w : W64) : (x.setWst bank w).tbc = x.tbc := rfl
@[simp] theorem Arch.setWst_bp (x : Arch) (bank : Nat) (w : W64) : (x.setWst bank w).bp = x.bp := rfl

@[simp] theorem Arch.setWin_psw (x : Arch) (bank cwp nres : Nat) : (x.setWin bank cwp nres).psw = x.psw := rfl
@[simp] theorem Arch.setWin_g (x : Arch) (bank cwp nres : Nat) : (x.setWin bank cwp nres).g = x.g := rfl
@[simp] theorem Arch.setWin_w (x : Arch) (bank cwp nres : Nat) : (x.setWin bank cwp nres).w = x.w := rfl
@[simp] theorem Arch.setWin_f (x : Arch) (bank cwp nres : Nat) : (x.setWin bank cwp nres).f = x.f := rfl
@[simp] theorem Arch.setWin_wsp (x : Arch) (bank cwp nres : Nat) : (x.setWin bank cwp nres).wsp = x.wsp := rfl
@[simp] theorem Arch.setWin_sr (x : Arch) (bank cwp nres : Nat) : (x.setWin bank cwp nres).sr = x.sr := rfl
@[simp] theorem Arch.setWin_tbc (x : Arch) (bank cwp nres : Nat) : (x.setWin bank cwp nres).tbc = x.tbc := rfl
@[simp] theorem Arch.setWin_bp (x : Arch) (bank cwp nres : Nat) : (x.setWin bank cwp nres).bp = x.bp := rfl

@[simp] theorem Arch.setGB_psw (x : Arch) (bank r : Nat) (v : W64) : (x.setGB bank r v).psw = x.psw := by unfold Arch.setGB; split <;> rfl
@[simp] theorem Arch.setGB_f (x : Arch) (bank r : Nat) (v : W64) : (x.setGB bank r v).f = x.f := by unfold Arch.setGB; split <;> rfl
@[simp] theorem Arch.setGB_wsp (x : Arch) (bank r : Nat) (v : W64) : (x.setGB bank r v).wsp = x.wsp := by unfold Arch.setGB; split <;> rfl
@[simp] theorem Arch.setGB_wst (x : Arch) (bank r : Nat) (v : W64) : (x.setGB bank r v).wst = x.wst := by unfold Arch.setGB; split <;> rfl
@[simp] theorem Arch.setGB_sr (x : Arch) (bank r : Nat) (v : W64) : (x.setGB bank r v).sr = x.sr := by unfold Arch.setGB; split <;> rfl
@[simp] theorem Arch.setGB_tbc (x : Arch) (bank r : Nat) (v : W64) : (x.setGB bank r v).tbc = x.tbc := by unfold Arch.setGB; split <;> rfl
@[simp] theorem Arch.setGB_bp (x : Arch) (bank r : Nat) (v : W64) : (x.setGB bank r v).bp = x.bp := by unfold Arch.setGB; split <;> rfl
@[simp] theorem Arch.setG_psw (x : Arch) (r : BitVec 5) (v : W64) : (x.setG r v).psw = x.psw := by simp [Arch.setG]
@[simp] theorem Arch.setG_f (x : Arch) (r : BitVec 5) (v : W64) : (x.setG r v).f = x.f := by simp [Arch.setG]
@[simp] theorem Arch.setG_wsp (x : Arch) (r : BitVec 5) (v : W64) : (x.setG r v).wsp = x.wsp := by simp [Arch.setG]
@[simp] theorem Arch.setG_wst (x : Arch) (r : BitVec 5) (v : W64) : (x.setG r v).wst = x.wst := by simp [Arch.setG]
@[simp] theorem Arch.setG_sr (x : Arch) (r : BitVec 5) (v : W64) : (x.setG r v).sr = x.sr := by simp [Arch.setG]
@[simp] theorem Arch.setG_tbc (x : Arch) (r : BitVec 5) (v : W64) : (x.setG r v).tbc = x.tbc := by simp [Arch.setG]
@[simp] theorem Arch.setG_bp (x : Arch) (r : BitVec 5) (v : W64) : (x.setG r v).bp = x.bp := by simp [Arch.setG]

/-! Registers of control space -/

@[simp] theorem State.reg_setReg (s : State) (off : Nat) (v : W64) : (s.setReg off v).reg off = v := by
  simp [State.reg, State.setReg]

theorem State.reg_setReg_ne (s : State) (off n : Nat) (v : W64) (h : n ≠ off) : (s.setReg off v).reg n = s.reg n := by
  simp [State.reg, State.setReg, Tab.find_put_ne _ _ _ _ h]

theorem State.reg_congr (s t : State) (h : t.ctl = s.ctl) (off : Nat) : t.reg off = s.reg off := by simp [State.reg, h]

theorem State.fld_congr (s t : State) (h : t.ctl = s.ctl) (f : Fld) (i j : Nat) : t.fld f i j = s.fld f i j := by
  simp [State.fld, State.reg_congr s t h]

theorem State.flag_congr (s t : State) (h : t.ctl = s.ctl) (f : Fld) (i j : Nat) : t.flag f i j = s.flag f i j := by
  simp [State.flag, State.fld_congr s t h]

/-! Cores -/

@[simp] theorem State.core_setCore (s : State) (lc : Nat) (c : Core) : (s.setCore lc c).core lc = c := by
  simp [State.core, State.setCore]

theorem State.core_setCore_ne (s : State) (lc n : Nat) (c : Core) (h : n ≠ lc) : (s.setCore lc c).core n = s.core n := by
  simp [State.core, State.setCore, Tab.get_put_ne _ _ _ _ _ h]

@[simp] theorem State.core_updCore (s : State) (lc : Nat) (f : Core → Core) : (s.updCore lc f).core lc = f (s.core lc) := by
  simp [State.updCore]

theorem State.core_updCore_ne (s : State) (lc n : Nat) (f : Core → Core) (h : n ≠ lc) : (s.updCore lc f).core n = s.core n := by
  simp [State.updCore, State.core_setCore_ne _ _ _ _ h]

@[simp] theorem State.core_updArch (s : State) (lc : Nat) (f : Arch → Arch) :
    (s.updArch lc f).core lc = { s.core lc with arch := f (s.core lc).arch } := by
  simp [State.updArch]

theorem State.core_updArch_ne (s : State) (lc n : Nat) (f : Arch → Arch) (h : n ≠ lc) : (s.updArch lc f).core n = s.core n := by
  simp [State.updArch, State.core_updCore_ne _ _ _ _ h]

theorem State.core_congr (s t : State) (h : t.cores = s.cores) (lc : Nat) : t.core lc = s.core lc := by simp [State.core, h]

/-! Register files -/

@[simp] theorem Arch.getSr_setSr (x : Arch) (n : Nat) (v : W64) : (x.setSr n v).getSr n = v := by simp [Arch.getSr, Arch.setSr]

theorem Arch.getSr_setSr_ne (x : Arch) (n m : Nat) (v : W64) (h : m ≠ n) : (x.setSr n v).getSr m = x.getSr m := by
  simp [Arch.getSr, Arch.setSr, Tab.find_put_ne _ _ _ _ h]

@[simp] theorem Arch.getF_setF (x : Arch) (r : BitVec 5) (v : W64) : (x.setF r v).getF r = v := by simp [Arch.getF, Arch.setF]

/-! ERR_N -/

theorem State.errWord_hold (s : State) : (fieldOf s.errWord 63 63 != 0) = s.flag F.FLT_ERRPIN_HOLD := by
  simp only [State.errWord]
  cases s.flag F.FLT_ERRPIN_HOLD <;> cases s.svc.pulse <;> cases s.flag F.FLT_FENCE_CXF <;> cases s.flag F.FLT_LOGSTAT_SDROP <;> decide

/-- Writing ERR_N's register moves none of its causes. -/
theorem State.errWord_setPin (s : State) : (s.setReg F.FLT_ERRPIN_PIN.base s.errWord).errWord = s.errWord := by
  have h1 : (s.setReg F.FLT_ERRPIN_PIN.base s.errWord).flag F.FLT_ERRPIN_HOLD = s.flag F.FLT_ERRPIN_HOLD := by
    rw [← State.errWord_hold s]
    have : F.FLT_ERRPIN_HOLD.off 0 0 = F.FLT_ERRPIN_PIN.base := by decide
    simp only [State.flag, State.fld, this, State.reg_setReg]
    rfl
  have h2 : (s.setReg F.FLT_ERRPIN_PIN.base s.errWord).flag F.FLT_FENCE_CXF = s.flag F.FLT_FENCE_CXF := by
    simp only [State.flag, State.fld]
    rw [State.reg_setReg_ne _ _ _ _ (by decide)]
  have h3 : (s.setReg F.FLT_ERRPIN_PIN.base s.errWord).flag F.FLT_LOGSTAT_SDROP = s.flag F.FLT_LOGSTAT_SDROP := by
    simp only [State.flag, State.fld]
    rw [State.reg_setReg_ne _ _ _ _ (by decide)]
  unfold State.errWord at h1 h2 h3 ⊢
  simp only [h1, h2, h3, State.setReg_svc]

end Sys2Proof.Machine
end

