-- ==== Sys2Proof/Laws/Run.lean ====
section
/-! SUPPORT. What every command ends with (`settled`), and how a core that is ready runs an instruction. -/

namespace Sys2Proof.Machine

/-! ERR_N and the end of a command -/

@[simp] theorem State.errPin_pending (s : State) : s.errPin.pending = s.pending := by unfold State.errPin; split <;> rfl
@[simp] theorem State.errPin_part (s : State) : s.errPin.part = s.part := by unfold State.errPin; split <;> rfl
@[simp] theorem State.errPin_cores (s : State) : s.errPin.cores = s.cores := by unfold State.errPin; split <;> rfl
@[simp] theorem State.errPin_p2base (s : State) : s.errPin.p2base = s.p2base := by unfold State.errPin; split <;> rfl
@[simp] theorem State.errPin_mem (s : State) : s.errPin.mem = s.mem := by unfold State.errPin; split <;> rfl
@[simp] theorem State.errPin_fab (s : State) : s.errPin.fab = s.fab := by unfold State.errPin; split <;> rfl
@[simp] theorem State.errPin_chn (s : State) : s.errPin.chn = s.chn := by unfold State.errPin; split <;> rfl
@[simp] theorem State.errPin_svc (s : State) : s.errPin.svc = s.svc := by unfold State.errPin; split <;> rfl
@[simp] theorem State.errPin_out (s : State) : s.errPin.out = s.out := by unfold State.errPin; split <;> rfl
@[simp] theorem State.errPin_freeCtr (s : State) : s.errPin.freeCtr = s.freeCtr := by unfold State.errPin; split <;> rfl
@[simp] theorem State.errPin_busData (s : State) : s.errPin.busData = s.busData := by unfold State.errPin; split <;> rfl

theorem State.errPin_reg_ne (s : State) (off : Nat) (h : off ≠ F.FLT_ERRPIN_PIN.base) : s.errPin.reg off = s.reg off := by
  unfold State.errPin; split
  · rfl
  · exact State.reg_setReg_ne _ _ _ _ h

@[simp] theorem State.errPin_core (s : State) (n : Nat) : s.errPin.core n = s.core n := State.core_congr _ _ (by simp) n

/-- After ERR_N has followed its causes, its register shows them. -/
theorem State.errPin_ok (s : State) : PinOk s.errPin := by
  unfold State.errPin PinOk; split
  · assumption
  · rw [State.errWord_setPin, State.reg_setReg]

theorem settled_next (s t : State) : settled s (.next t) = .next (left s t) := rfl

theorem settled_eq_next {s t : State} {o : Out} (h : settled s o = .next t) : ∃ u, o = .next u ∧ t = left s u := by
  cases o with
  | next u => exact ⟨u, rfl, by simpa [settled, left] using h.symm⟩
  | fault r => cases h
  | refused r => cases h

@[simp] theorem left_pending (s t : State) : (left s t).pending = s.pending := by simp [left]
@[simp] theorem left_part (s t : State) : (left s t).part = t.part := by simp [left]
@[simp] theorem left_cores (s t : State) : (left s t).cores = t.cores := by simp [left]
@[simp] theorem left_p2base (s t : State) : (left s t).p2base = t.p2base := by simp [left]
@[simp] theorem left_mem (s t : State) : (left s t).mem = t.mem := by simp [left]
@[simp] theorem left_fab (s t : State) : (left s t).fab = t.fab := by simp [left]
@[simp] theorem left_chn (s t : State) : (left s t).chn = t.chn := by simp [left]
@[simp] theorem left_svc (s t : State) : (left s t).svc = t.svc := by simp [left]
@[simp] theorem left_out (s t : State) : (left s t).out = t.out := by simp [left]
@[simp] theorem left_freeCtr (s t : State) : (left s t).freeCtr = t.freeCtr := by simp [left]
@[simp] theorem left_busData (s t : State) : (left s t).busData = t.busData := by simp [left]
@[simp] theorem left_core (s t : State) (n : Nat) : (left s t).core n = t.core n := State.core_congr _ _ (by simp) n

theorem left_reg (s t : State) (off : Nat) (h : off ≠ F.FLT_ERRPIN_PIN.base) : (left s t).reg off = t.reg off := by
  rw [left, State.errPin_reg_ne _ _ h]; rfl

theorem left_pinOk (s t : State) : PinOk (left s t) := State.errPin_ok _

theorem settled_pinOk {s t : State} {o : Out} (h : settled s o = .next t) : PinOk t := by
  obtain ⟨u, -, rfl⟩ := settled_eq_next h; exact left_pinOk s u

theorem settled_pending {s t : State} {o : Out} (h : settled s o = .next t) : t.pending = s.pending := by
  obtain ⟨u, -, rfl⟩ := settled_eq_next h; simp

/-! Running an instruction on a core that is ready -/

/-- What the checks before an operation ask of an instruction: nothing reserved or undefined, the state it needs, no intercept. -/
def Pre.passes (p : Pre) (a : Arch) : Prop :=
  p.op = false ∧ p.pv = false ∧ p.sp = false ∧ p.low ≤ a.psw.state.toNat ∧
    (a.psw.pid = 0 ∨ ∀ b, p.ictl = some b → (a.getSr 0x33).getLsbD b = false)

theorem State.drain_nil (s : State) (lc n : Nat) (h : (s.core lc).stbuf = []) : s.drain lc n = s := by
  cases n with
  | zero => rfl
  | succ n => simp [State.drain, State.drainOne, h]

theorem State.endSync_off (s : State) (lc : Nat) (h : (s.core lc).wait ≠ .sync) : s.endSync lc = s := by simp [State.endSync, h]

theorem State.prologue_ready (s : State) (lc : Nat) (p : Pre) (w : CoreWait) (h : ReadyWith s lc p.ilc w) (hp : p.passes (s.core lc).arch) : s.prologue lc p = .go s := by
  obtain ⟨-, hr, ⟨hb, hret, hent, hst, hlog, hrep, hsp, hpp, -, -⟩, hf, hw, hns⟩ := h
  obtain ⟨h1, h2, h3, h4, h5⟩ := hp
  have hsync : (s.core lc).wait ≠ .sync := by rw [hw]; exact hns
  have hbeg : s.beginIns lc p = s := by
    simp [State.beginIns, State.endSync_off s lc hsync, hb, hret, hent, hlog, hst, Core.begun, State.drainAll, State.drain_nil _ _ _ hst]
  have hlg : (s.core lc).logged = none := by simp [Core.logged, hrep]
  have how : (s.core lc).owed = none := by simp [Core.owed, hsp, hpp]
  have hsb : ((s.core lc).wait == CoreWait.sync) = false := by simpa using hsync
  simp only [State.prologue, hr, hbeg, hst, hf, h1, h2, h3, hlg, how, hsb]
  simp only [Bool.not_true, Bool.false_eq_true, ↓reduceIte, List.isEmpty_nil, Bool.and_false, Bool.or_false, Nat.not_lt.mpr h4, decide_false]
  rw [if_neg]
  rcases h5 with h5 | h5
  · simp [h5]
  · cases hc : p.ictl with
    | none => simp
    | some b => simp [h5 b hc]

/-- How a command of a core answers once its operation has ended. -/
def ended (lc : Nat) (p : Pre) (s : State) (r : IRes) : State :=
  match r with
  | .stay t => t.keep s (128 + lc)
  | r => State.finish lc p (s.core lc) r

theorem runCore_ready (lc : Nat) (p : Pre) (w : CoreWait) (s : State) (body : State → IRes) (h : ReadyWith s lc p.ilc w) (hp : p.passes (s.core lc).arch) :
    runCore lc p s body = .next (left s (ended lc p s (body s))) := by
  have hlc : lc < 48 := h.1
  simp only [runCore, hlc, State.prologue_ready s lc p w h hp]
  cases hb : body s <;> rfl

@[simp] theorem Core.countIns_arch (c : Core) (b : Arch) : (c.countIns b).arch = c.arch := rfl
@[simp] theorem Core.countIns_stbuf (c : Core) (b : Arch) : (c.countIns b).stbuf = c.stbuf := rfl
@[simp] theorem Core.countIns_broken (c : Core) (b : Arch) : (c.countIns b).broken = c.broken := rfl

/-- Retirement of a core in lock-step: the next address, and what the interval counts. -/
theorem State.retire_core (s : State) (lc : Nat) (p : Pre) (b : Arch) (ia : W64) (h : (s.core lc).broken = false) :
    ((s.retire lc p b ia).core lc).arch = (s.core lc).arch.setIa ia ∧ ((s.retire lc p b ia).core lc).stbuf = (s.core lc).stbuf := by
  simp [State.retire, h, Core.engine]

theorem State.retire_eq (s : State) (lc : Nat) (p : Pre) (b : Arch) (ia : W64) (h : (s.core lc).broken = false) :
    ∃ c, s.retire lc p b ia = s.setCore lc c ∧ c.arch = (s.core lc).arch.setIa ia ∧ c.stbuf = (s.core lc).stbuf := by
  refine ⟨_, by simp only [State.retire, h]; rfl, ?_, ?_⟩ <;> simp [Core.engine]

/-- A command that changes one core only. -/
theorem onlyCore_left (s t : State) (lc : Nat) (c : Core) (h : t = s.setCore lc c) : OnlyCore s (left s t) lc := by
  subst h
  refine ⟨by simp, by simp, by simp, by simp, by simp, by simp, by simp, by simp, ?_, ?_⟩
  · intro n hn; simp [State.core_setCore_ne _ _ _ _ hn]
  · intro off ho; rw [left_reg _ _ _ ho]; rfl

theorem State.setCore_setCore (s : State) (lc : Nat) (c d : Core) : (s.setCore lc c).setCore lc d = s.setCore lc d := by
  have : ∀ (t : Tab Core), (t.put lc c).put lc d = t.put lc d := by
    intro t
    induction t with
    | nil => simp [Tab.put]
    | cons q r ih =>
      obtain ⟨k, v⟩ := q
      simp only [Tab.put]
      split
      · simp [Tab.put]
      · split
        · simp [Tab.put]
        · rename_i h1 h2; simp [Tab.put, h1, h2, ih]
  simp [State.setCore, this]

/-- An instruction whose operation leaves its core as `c` and ends completes with what `c` holds. -/
theorem completes_of_done {i : Instr} {lc : Nat} {p : Pre} {w : CoreWait} {s : State} {body : State → IRes} {c : Core} (hi : exec i s = runCore lc p s body)
    (h : ReadyWith s lc p.ilc w) (hp : p.passes (s.core lc).arch) (hb : body s = .done (s.setCore lc c)) (hk : c.broken = false) :
    CompletesBuf i s lc p.ilc c.arch c.stbuf := by
  obtain ⟨d, hd, ha, hst⟩ := State.retire_eq (s.setCore lc c) lc p (s.core lc).arch ((s.core lc).arch.psw.ia + BitVec.ofNat 64 p.ilc) (by simpa using hk)
  refine ⟨_, by rw [hi, runCore_ready lc p w s body h hp, hb], ?_, ?_, ?_⟩
  · simp only [left_core, ended, State.finish, hd]; simpa using ha
  · simp only [left_core, ended, State.finish, hd]; simpa using hst
  · simp only [ended, State.finish, hd]
    exact onlyCore_left s _ lc d (State.setCore_setCore _ _ _ _)

/-- The same for an instruction that sets the next address itself. -/
theorem goes_of_jump {i : Instr} {lc : Nat} {p : Pre} {w : CoreWait} {s : State} {body : State → IRes} {c : Core} {ia : W64} (hi : exec i s = runCore lc p s body)
    (h : ReadyWith s lc p.ilc w) (hp : p.passes (s.core lc).arch) (hb : body s = .jump (s.setCore lc c) ia) (hs : c.stbuf = (s.core lc).stbuf) (hk : c.broken = false) :
    Goes i s lc (c.arch.setIa ia) := by
  obtain ⟨d, hd, ha, hst⟩ := State.retire_eq (s.setCore lc c) lc p (s.core lc).arch ia (by simpa using hk)
  refine ⟨_, by rw [hi, runCore_ready lc p w s body h hp, hb], ?_, ?_, ?_⟩
  · simp only [left_core, ended, State.finish, hd]; simpa using ha
  · simp only [left_core, ended, State.finish, hd]; simpa [hs] using hst
  · simp only [ended, State.finish, hd]
    exact onlyCore_left s _ lc d (State.setCore_setCore _ _ _ _)

/-- An instruction whose operation ends in `u` retires from it. -/
theorem retires_of_done {i : Instr} {lc : Nat} {p : Pre} {w : CoreWait} {s u : State} {body : State → IRes} (hi : exec i s = runCore lc p s body)
    (h : ReadyWith s lc p.ilc w) (hp : p.passes (s.core lc).arch) (hb : body s = .done u) : Retires i s lc p.ilc u :=
  ⟨p, rfl, by rw [Leaves, hi, runCore_ready lc p w s body h hp, hb]; rfl⟩

/-- An instruction whose operation raises an exception before it has changed anything traps. -/
theorem traps_of_exc {i : Instr} {lc : Nat} {p : Pre} {w : CoreWait} {s : State} {body : State → IRes} {code : Nat} (hi : exec i s = runCore lc p s body)
    (h : ReadyWith s lc p.ilc w) (hp : p.passes (s.core lc).arch) (hb : body s = .exc s code) : Traps i s lc p.ilc code :=
  ⟨p.words, by rw [hi, runCore_ready lc p w s body h hp, hb]; rfl⟩

/-- With nothing to replay, an operation on the outside world is made. -/
theorem State.once_nil (s : State) (lc : Nat) (k : LogKind) (f : State → LogEnt → IRes) (g : State → IRes) (h : (s.core lc).replay = []) : s.once lc k f g = g s := by
  simp [State.once, State.replayed, h]

/-- A command within a command ends once. -/
theorem settled_settled (s u : State) : settled s (.next (left s u)) = .next (left s u) := by
  rw [settled_next]
  have : left s (left s u) = left s u := by
    have h := left_pinOk s u
    generalize hv : left s u = v at h ⊢
    have hp : v.pending = s.pending := by rw [← hv]; simp
    unfold left
    have : ({ v with pending := s.pending } : State) = v := by rw [← hp]
    rw [this]
    unfold State.errPin
    rw [if_pos]; exact h
  rw [this]

/-- A command answers a next state when its effect does. -/
theorem settled_runs (s : State) (o : Out) (h : ∃ u, o = .next u) : ∃ u, settled s o = .next (left s u) := by obtain ⟨u, rfl⟩ := h; exact ⟨u, rfl⟩

/-- An instruction of an existing logical core answers a next state, whatever it does. -/
theorem runCore_runs (lc : Nat) (p : Pre) (s : State) (body : State → IRes) (h : lc < 48) : ∃ u, runCore lc p s body = .next (left s u) := by
  unfold runCore
  simp only [h, decide_true, Bool.not_true, Bool.false_eq_true, ↓reduceIte]
  apply settled_runs
  repeat (first | exact ⟨_, rfl⟩ | split)

end Sys2Proof.Machine
end

