-- ==== Sys2Proof/Laws/Engine.lean ====
section
/-! SUPPORT. How a context of a Velex engine that is ready runs an instruction. -/

namespace Sys2Proof.Machine

/-- A context without posted stores has none to settle and none open. -/
theorem State.veSettle_ready (s : State) (k : Nat) (h : ∀ p ∈ s.mem.reqs, veKey k p.1 = true → p.2.req.kind ≠ .wrpl) : s.veSettle k = (s, none) ∧ s.veOpen k = false := by
  have h1 : s.mem.reqs.filter (fun p => veKey k p.1 && p.2.req.kind == .wrpl && !p.2.st.open) = [] := by
    rw [List.filter_eq_nil_iff]; intro p hp; simp; intro a b; exact absurd b (h p hp a)
  have h2 : s.mem.reqs.filter (fun p => !(veKey k p.1 && p.2.req.kind == .wrpl && !p.2.st.open)) = s.mem.reqs := by
    rw [List.filter_eq_self]; intro p hp; by_cases a : veKey k p.1 = true
    · have := h p hp a; simp [this]
    · simp at a; simp [a]
  constructor
  · simp only [State.veSettle, h1, h2, State.updMem]; rfl
  · simp only [State.veOpen, List.any_eq_false]; intro p hp; simp; intro a b; exact absurd b (h p hp a)

/-- How a ready context runs an instruction: the operation, then the next address. -/
theorem runVe_ready (s : State) (e ctx : Nat) (body : State → VeCtx → VeRes) (h : VeReady s e ctx) : runVe e ctx false s body = .next (left s
  (match body s (s.veCtx (e * 16 + ctx)) with
  | .ok s => s.updVe (e * 16 + ctx) (fun c => { c with pc := c.pc + 1, st := if c.st = .waitJack then .running else c.st })
  | .jump s pc => s.updVe (e * 16 + ctx) (fun c => { c with pc := pc })
  | .trap c => s.veTrap e ctx c
  | .stay t => t.keep s (256 + (e * 16 + ctx))
  | .bad s f => s.veBad e ctx f)) := by
  obtain ⟨h1, h2, h3, h4, h5⟩ := h
  obtain ⟨a, b⟩ := State.veSettle_ready s _ h5
  simp only [runVe, runVeIn, h3, h4, a, b, settled_next]
  have : ¬ (68 ≤ e) := by omega
  have : ¬ (16 ≤ ctx) := by omega
  simp [*] <;> rfl

/-- An instruction with a reserved field traps with cause 1. -/
theorem runVe_ill (s : State) (e ctx : Nat) (body : State → VeCtx → VeRes) (h : VeReady s e ctx) : runVe e ctx true s body = .next (left s (s.veTrap e ctx 1)) := by
  obtain ⟨h1, h2, h3, h4, h5⟩ := h
  obtain ⟨a, b⟩ := State.veSettle_ready s _ h5
  simp only [runVe, runVeIn, h3, h4, a, b, settled_next]
  have : ¬ (68 ≤ e) := by omega
  have : ¬ (16 ≤ ctx) := by omega
  simp [*]

@[simp] theorem State.veCtx_setVe (s : State) (k : Nat) (c : VeCtx) : (s.setVe k c).veCtx k = c := by simp [State.setVe, State.veCtx]

theorem State.setVe_setVe (s : State) (k : Nat) (c d : VeCtx) : (s.setVe k c).setVe k d = s.setVe k d := by
  have : ∀ (t : Tab VeCtx), (t.put k c).put k d = t.put k d := by
    intro t
    induction t with
    | nil => simp [Tab.put]
    | cons q r ih =>
      obtain ⟨j, v⟩ := q
      simp only [Tab.put]
      split
      · simp [Tab.put]
      · split
        · simp [Tab.put]
        · rename_i h1 h2; simp [Tab.put, h1, h2, ih]
  simp [State.setVe, this]

/-- An instruction of an existing context answers a next state. -/
theorem runVeIn_runs (f : VeSt → Bool) (e ctx : Nat) (ill : Bool) (s : State) (body : State → VeCtx → VeRes) (h : e < 68) (h' : ctx < 16) :
    ∃ u, runVeIn f e ctx ill s body = .next (left s u) := by
  unfold runVeIn
  rw [if_neg (by simp; omega)]
  exact ⟨_, rfl⟩

end Sys2Proof.Machine
end

