-- ==== Sys2Proof/Laws/Memory.lean ====
section
/-! SUPPORT. Memory: every operation keeps the canonical form, and what is written reads back. -/

namespace Sys2Proof.Machine

theorem Mem.byte_set (m : Mem) (a k : Nat) (b : Byte) (h : m.wf = true) : ({ m with bytes := m.bytes.set 0 a b } : Mem).byte k = if k = a then b else m.byte k :=
  Tab.get_set 0 m.bytes a k b h

/-- Writing bytes keeps the canonical form. -/
theorem Mem.putBytes_wf (m : Mem) (a : Nat) (l : List Byte) (h : m.wf = true) : (m.putBytes a l).wf = true := by
  induction l generalizing m a with
  | nil => exact h
  | cons b r ih => exact ih _ _ (Tab.set_wf 0 m.bytes a b h)

/-- Read after write: a byte that was written is the one written, any other is as before. -/
theorem Mem.byte_putBytes (m : Mem) (a k : Nat) (l : List Byte) (h : m.wf = true) :
    (m.putBytes a l).byte k = if a ≤ k ∧ k < a + l.length then l.getD (k - a) 0 else m.byte k := by
  induction l generalizing m a with
  | nil => rw [if_neg (by rw [List.length_nil]; omega)]; rfl
  | cons b r ih =>
    have hw : ({ m with bytes := m.bytes.set 0 a b } : Mem).wf = true := Tab.set_wf 0 m.bytes a b h
    rw [Mem.putBytes, ih _ _ hw, Mem.byte_set m a k b h]
    by_cases hk : k = a
    · subst hk; simp
    · by_cases h1 : a + 1 ≤ k ∧ k < a + 1 + r.length
      · have h2 : a ≤ k ∧ k < a + (b :: r).length := by simp; omega
        obtain ⟨n, hn⟩ : ∃ n, k - a = n + 1 := ⟨k - a - 1, by omega⟩
        rw [if_pos h1, if_pos h2, hn, show k - (a + 1) = n by omega]; simp
      · have h2 : ¬(a ≤ k ∧ k < a + (b :: r).length) := by simp; omega
        rw [if_neg h1, if_neg h2, if_neg hk]

/-- Writing bytes changes nothing but bytes. -/
theorem Mem.putBytes_eq (m : Mem) (a : Nat) (l : List Byte) : m.putBytes a l = { m with bytes := (m.putBytes a l).bytes } := by
  induction l generalizing m a with
  | nil => rfl
  | cons b r ih => rw [Mem.putBytes, ih]

/-- Writing a line keeps the canonical form: it writes the line's bytes. -/
theorem Mem.putLine_wf (m : Mem) (l : Nat) (d : Line) (p : Nat) (h : m.wf = true) : (m.putLine l d p).wf = true := by
  unfold Mem.putLine
  generalize (List.range 256).map (lineByte d) = bs
  exact Mem.putBytes_wf m _ _ h

end Sys2Proof.Machine
end

