-- ==== Sys2Proof/Laws/Views.lean ====
section
/-! SUPPORT. The tables of the complex as their readers see them: a write of a control register leaves each of them, and what is put into one is read back from it. -/

namespace Sys2Proof.Machine

@[simp] theorem State.setReg_fport (s : State) (off : Nat) (x : W64) (p : Nat) : (s.setReg off x).fport p = s.fport p := rfl
@[simp] theorem State.setReg_vport (s : State) (off : Nat) (x : W64) (v : Nat) : (s.setReg off x).vport v = s.vport v := rfl
@[simp] theorem State.setReg_veCtx (s : State) (off : Nat) (x : W64) (k : Nat) : (s.setReg off x).veCtx k = s.veCtx k := rfl
@[simp] theorem State.setReg_sch (s : State) (off : Nat) (x : W64) (n : Nat) : (s.setReg off x).sch n = s.sch n := rfl
@[simp] theorem State.setReg_jent (s : State) (off : Nat) (x : W64) (m : Bool) (n : Nat) : (s.setReg off x).jent m n = s.jent m n := rfl
@[simp] theorem State.setReg_keySlot (s : State) (off : Nat) (x : W64) (n : Nat) : (s.setReg off x).keySlot n = s.keySlot n := rfl
@[simp] theorem State.setReg_wall (s : State) (off : Nat) (x : W64) (w : Nat) : (s.setReg off x).wall w = s.wall w := rfl
@[simp] theorem State.setReg_mon (s : State) (off : Nat) (x : W64) (k n : Nat) : (s.setReg off x).mon k n = s.mon k n := rfl
@[simp] theorem State.setReg_mc (s : State) (off : Nat) (x : W64) (m : Nat) : (s.setReg off x).mc m = s.mc m := rfl
@[simp] theorem State.setReg_held (s : State) (off : Nat) (x : W64) (line : Nat) : (s.setReg off x).held line = s.held line := rfl
@[simp] theorem State.setReg_adEx (s : State) (off : Nat) (x : W64) (y : BitVec 24) : (s.setReg off x).adEx y = s.adEx y := rfl

@[simp] theorem State.setFld_fport (s : State) (f : Fld) (x i j : Nat) (p : Nat) : (s.setFld f x i j).fport p = s.fport p := rfl
@[simp] theorem State.setFld_vport (s : State) (f : Fld) (x i j : Nat) (v : Nat) : (s.setFld f x i j).vport v = s.vport v := rfl
@[simp] theorem State.setFld_veCtx (s : State) (f : Fld) (x i j : Nat) (k : Nat) : (s.setFld f x i j).veCtx k = s.veCtx k := rfl
@[simp] theorem State.setFld_sch (s : State) (f : Fld) (x i j : Nat) (n : Nat) : (s.setFld f x i j).sch n = s.sch n := rfl
@[simp] theorem State.setFld_jent (s : State) (f : Fld) (x i j : Nat) (m : Bool) (n : Nat) : (s.setFld f x i j).jent m n = s.jent m n := rfl
@[simp] theorem State.setFld_keySlot (s : State) (f : Fld) (x i j : Nat) (n : Nat) : (s.setFld f x i j).keySlot n = s.keySlot n := rfl
@[simp] theorem State.setFld_wall (s : State) (f : Fld) (x i j : Nat) (w : Nat) : (s.setFld f x i j).wall w = s.wall w := rfl
@[simp] theorem State.setFld_mon (s : State) (f : Fld) (x i j : Nat) (k n : Nat) : (s.setFld f x i j).mon k n = s.mon k n := rfl
@[simp] theorem State.setFld_mc (s : State) (f : Fld) (x i j : Nat) (m : Nat) : (s.setFld f x i j).mc m = s.mc m := rfl
@[simp] theorem State.setFld_held (s : State) (f : Fld) (x i j : Nat) (line : Nat) : (s.setFld f x i j).held line = s.held line := rfl
@[simp] theorem State.setFld_adEx (s : State) (f : Fld) (x i j : Nat) (y : BitVec 24) : (s.setFld f x i j).adEx y = s.adEx y := rfl

@[simp] theorem State.setFlag_fport (s : State) (f : Fld) (x : Bool) (i j : Nat) (p : Nat) : (s.setFlag f x i j).fport p = s.fport p := rfl
@[simp] theorem State.setFlag_vport (s : State) (f : Fld) (x : Bool) (i j : Nat) (v : Nat) : (s.setFlag f x i j).vport v = s.vport v := rfl
@[simp] theorem State.setFlag_veCtx (s : State) (f : Fld) (x : Bool) (i j : Nat) (k : Nat) : (s.setFlag f x i j).veCtx k = s.veCtx k := rfl
@[simp] theorem State.setFlag_sch (s : State) (f : Fld) (x : Bool) (i j : Nat) (n : Nat) : (s.setFlag f x i j).sch n = s.sch n := rfl
@[simp] theorem State.setFlag_jent (s : State) (f : Fld) (x : Bool) (i j : Nat) (m : Bool) (n : Nat) : (s.setFlag f x i j).jent m n = s.jent m n := rfl
@[simp] theorem State.setFlag_keySlot (s : State) (f : Fld) (x : Bool) (i j : Nat) (n : Nat) : (s.setFlag f x i j).keySlot n = s.keySlot n := rfl
@[simp] theorem State.setFlag_wall (s : State) (f : Fld) (x : Bool) (i j : Nat) (w : Nat) : (s.setFlag f x i j).wall w = s.wall w := rfl
@[simp] theorem State.setFlag_mon (s : State) (f : Fld) (x : Bool) (i j : Nat) (k n : Nat) : (s.setFlag f x i j).mon k n = s.mon k n := rfl
@[simp] theorem State.setFlag_mc (s : State) (f : Fld) (x : Bool) (i j : Nat) (m : Nat) : (s.setFlag f x i j).mc m = s.mc m := rfl
@[simp] theorem State.setFlag_held (s : State) (f : Fld) (x : Bool) (i j : Nat) (line : Nat) : (s.setFlag f x i j).held line = s.held line := rfl
@[simp] theorem State.setFlag_adEx (s : State) (f : Fld) (x : Bool) (i j : Nat) (y : BitVec 24) : (s.setFlag f x i j).adEx y = s.adEx y := rfl

@[simp] theorem State.fport_setFport (s : State) (p : Nat) (x : FPort) : (s.setFport p x).fport p = x := by simp [State.setFport, State.fport]
theorem State.fport_setFport_ne (s : State) (p q : Nat) (x : FPort) (h : q ≠ p) : (s.setFport p x).fport q = s.fport q := by simp [State.setFport, State.fport, Tab.get_put_ne _ _ _ _ _ h]
@[simp] theorem State.setFport_ctl (s : State) (p : Nat) (x : FPort) : (s.setFport p x).ctl = s.ctl := rfl
@[simp] theorem State.setFport_cores (s : State) (p : Nat) (x : FPort) : (s.setFport p x).cores = s.cores := rfl
@[simp] theorem State.setFport_svc (s : State) (p : Nat) (x : FPort) : (s.setFport p x).svc = s.svc := rfl
@[simp] theorem State.setFport_out (s : State) (p : Nat) (x : FPort) : (s.setFport p x).out = s.out := rfl
@[simp] theorem State.setFport_pending (s : State) (p : Nat) (x : FPort) : (s.setFport p x).pending = s.pending := rfl
@[simp] theorem State.setFport_mem (s : State) (p : Nat) (x : FPort) : (s.setFport p x).mem = s.mem := rfl
@[simp] theorem State.setFport_chn (s : State) (p : Nat) (x : FPort) : (s.setFport p x).chn = s.chn := rfl

@[simp] theorem State.vport_setVport (s : State) (p : Nat) (x : VPort) : (s.setVport p x).vport p = x := by simp [State.setVport, State.vport]
theorem State.vport_setVport_ne (s : State) (p q : Nat) (x : VPort) (h : q ≠ p) : (s.setVport p x).vport q = s.vport q := by simp [State.setVport, State.vport, Tab.get_put_ne _ _ _ _ _ h]
@[simp] theorem State.setVport_ctl (s : State) (p : Nat) (x : VPort) : (s.setVport p x).ctl = s.ctl := rfl
@[simp] theorem State.setVport_cores (s : State) (p : Nat) (x : VPort) : (s.setVport p x).cores = s.cores := rfl
@[simp] theorem State.setVport_svc (s : State) (p : Nat) (x : VPort) : (s.setVport p x).svc = s.svc := rfl
@[simp] theorem State.setVport_out (s : State) (p : Nat) (x : VPort) : (s.setVport p x).out = s.out := rfl
@[simp] theorem State.setVport_pending (s : State) (p : Nat) (x : VPort) : (s.setVport p x).pending = s.pending := rfl
@[simp] theorem State.setVport_mem (s : State) (p : Nat) (x : VPort) : (s.setVport p x).mem = s.mem := rfl
@[simp] theorem State.setVport_fab (s : State) (p : Nat) (x : VPort) : (s.setVport p x).fab = s.fab := rfl

@[simp] theorem State.sch_setSch (s : State) (p : Nat) (x : Subch) : (s.setSch p x).sch p = x := by simp [State.setSch, State.sch]
theorem State.sch_setSch_ne (s : State) (p q : Nat) (x : Subch) (h : q ≠ p) : (s.setSch p x).sch q = s.sch q := by simp [State.setSch, State.sch, Tab.get_put_ne _ _ _ _ _ h]
@[simp] theorem State.setSch_ctl (s : State) (p : Nat) (x : Subch) : (s.setSch p x).ctl = s.ctl := rfl
@[simp] theorem State.setSch_cores (s : State) (p : Nat) (x : Subch) : (s.setSch p x).cores = s.cores := rfl
@[simp] theorem State.setSch_svc (s : State) (p : Nat) (x : Subch) : (s.setSch p x).svc = s.svc := rfl
@[simp] theorem State.setSch_out (s : State) (p : Nat) (x : Subch) : (s.setSch p x).out = s.out := rfl
@[simp] theorem State.setSch_pending (s : State) (p : Nat) (x : Subch) : (s.setSch p x).pending = s.pending := rfl
@[simp] theorem State.setSch_mem (s : State) (p : Nat) (x : Subch) : (s.setSch p x).mem = s.mem := rfl
@[simp] theorem State.setSch_fab (s : State) (p : Nat) (x : Subch) : (s.setSch p x).fab = s.fab := rfl

@[simp] theorem State.keySlot_setSlot (s : State) (p : Nat) (x : KSlot) : (s.setSlot p x).keySlot p = x := by simp [State.setSlot, State.keySlot]
theorem State.keySlot_setSlot_ne (s : State) (p q : Nat) (x : KSlot) (h : q ≠ p) : (s.setSlot p x).keySlot q = s.keySlot q := by simp [State.setSlot, State.keySlot, Tab.get_put_ne _ _ _ _ _ h]
@[simp] theorem State.setSlot_ctl (s : State) (p : Nat) (x : KSlot) : (s.setSlot p x).ctl = s.ctl := rfl
@[simp] theorem State.setSlot_cores (s : State) (p : Nat) (x : KSlot) : (s.setSlot p x).cores = s.cores := rfl
@[simp] theorem State.setSlot_svc (s : State) (p : Nat) (x : KSlot) : (s.setSlot p x).svc = s.svc := rfl
@[simp] theorem State.setSlot_out (s : State) (p : Nat) (x : KSlot) : (s.setSlot p x).out = s.out := rfl
@[simp] theorem State.setSlot_pending (s : State) (p : Nat) (x : KSlot) : (s.setSlot p x).pending = s.pending := rfl
@[simp] theorem State.setSlot_mem (s : State) (p : Nat) (x : KSlot) : (s.setSlot p x).mem = s.mem := rfl
@[simp] theorem State.setSlot_fab (s : State) (p : Nat) (x : KSlot) : (s.setSlot p x).fab = s.fab := rfl

@[simp] theorem State.wall_setWall (s : State) (p : Nat) (x : Wall) : (s.setWall p x).wall p = x := by simp [State.setWall, State.wall]
theorem State.wall_setWall_ne (s : State) (p q : Nat) (x : Wall) (h : q ≠ p) : (s.setWall p x).wall q = s.wall q := by simp [State.setWall, State.wall, Tab.get_put_ne _ _ _ _ _ h]
@[simp] theorem State.setWall_ctl (s : State) (p : Nat) (x : Wall) : (s.setWall p x).ctl = s.ctl := rfl
@[simp] theorem State.setWall_cores (s : State) (p : Nat) (x : Wall) : (s.setWall p x).cores = s.cores := rfl
@[simp] theorem State.setWall_svc (s : State) (p : Nat) (x : Wall) : (s.setWall p x).svc = s.svc := rfl
@[simp] theorem State.setWall_out (s : State) (p : Nat) (x : Wall) : (s.setWall p x).out = s.out := rfl
@[simp] theorem State.setWall_pending (s : State) (p : Nat) (x : Wall) : (s.setWall p x).pending = s.pending := rfl
@[simp] theorem State.setWall_mem (s : State) (p : Nat) (x : Wall) : (s.setWall p x).mem = s.mem := rfl
@[simp] theorem State.setWall_fab (s : State) (p : Nat) (x : Wall) : (s.setWall p x).fab = s.fab := rfl

@[simp] theorem State.mc_setMc (s : State) (p : Nat) (x : McSt) : (s.setMc p x).mc p = x := by simp [State.setMc, State.updMem, State.mc]
theorem State.mc_setMc_ne (s : State) (p q : Nat) (x : McSt) (h : q ≠ p) : (s.setMc p x).mc q = s.mc q := by simp [State.setMc, State.updMem, State.mc, Tab.get_put_ne _ _ _ _ _ h]
@[simp] theorem State.setMc_ctl (s : State) (p : Nat) (x : McSt) : (s.setMc p x).ctl = s.ctl := rfl
@[simp] theorem State.setMc_cores (s : State) (p : Nat) (x : McSt) : (s.setMc p x).cores = s.cores := rfl
@[simp] theorem State.setMc_svc (s : State) (p : Nat) (x : McSt) : (s.setMc p x).svc = s.svc := rfl
@[simp] theorem State.setMc_out (s : State) (p : Nat) (x : McSt) : (s.setMc p x).out = s.out := rfl
@[simp] theorem State.setMc_pending (s : State) (p : Nat) (x : McSt) : (s.setMc p x).pending = s.pending := rfl
@[simp] theorem State.setMc_chn (s : State) (p : Nat) (x : McSt) : (s.setMc p x).chn = s.chn := rfl
@[simp] theorem State.setMc_fab (s : State) (p : Nat) (x : McSt) : (s.setMc p x).fab = s.fab := rfl

theorem State.veCtx_setVe_ne (s : State) (p q : Nat) (c : VeCtx) (h : q ≠ p) : (s.setVe p c).veCtx q = s.veCtx q := by simp [State.setVe, State.veCtx, Tab.get_put_ne _ _ _ _ _ h]
@[simp] theorem State.adEx_setAd (s : State) (x : BitVec 24) (a : AdEx) : (s.setAd x a).adEx x = some a := by simp [State.setAd, State.adEx]
@[simp] theorem State.mon_setMon (s : State) (k i : Nat) (m : Mon) : (s.setMon k i m).mon k i = m := by simp [State.setMon, State.updSvc, State.mon]
@[simp] theorem State.find_setEx (s : State) (x : Exch) : (s.setEx x).chn.exch.find x.key = some x := by simp [State.setEx]

end Sys2Proof.Machine
end

