-- ==== Sys2Proof/Tests/Slice0.lean ====
section
/-! SUPPORT. Tests: ill-formed commands are refused, the hypotheses of every obligation can be met, and a few commands on small states whose results the spec gives. -/

open Sys2Proof Sys2Proof.Machine

namespace Sys2Proof.Tests

set_option Elab.async false

/-- A line that the complex may read, write and fetch from, for PID 0. -/
def own (data : Line) : CLine := { st := .m, pid := 0, rights := 7, data := data }

/-- Architected state in monitor state at address 0x100, in bank 3, with the registers `g` of that bank's globals. -/
def base (g : List (Nat × W64)) : Arch :=
  { Arch.reset with psw := { Psw.reset with ia := 0x100, bank := 3 }, g := g.map (fun p => (48 + p.1, p.2)) }

/-- A running logical core on physical core 0. -/
def runs (a : Arch) : Core := { Core.reset with run := .running, phys := 0, arch := a, ckpt := a }

/-- Logical core 0 is `c`; lines 0 to 3 are held. -/
def withCore (c : Core) : State :=
  { State.reset with cores := [(0, c)], mem := { State.reset.mem with lines := [(0, own 0), (1, own 0), (2, own 0), (3, own 0)] } }

/-- A complex whose logical core 0 is ready, with the globals `g` of bank 3. -/
def ready (g : List (Nat × W64)) : State := withCore (runs (base g))

/-- The same with the PSW `p`. -/
def readyP (p : Psw) (g : List (Nat × W64)) : State := withCore (runs { base g with psw := p })

/-- The same, waiting as `w` says. -/
def readyW (w : CoreWait) (g : List (Nat × W64)) : State := withCore { runs (base g) with wait := w }

/-- The PSW of `base`. -/
def psw0 : Psw := (base []).psw

/-- Fields of control space set one after the other. -/
def setf (l : List (Fld × Nat × Nat)) (s : State) : State := l.foldl (fun z p => z.setFld p.1 p.2.1 p.2.2) s

/-- What a command leaves, or the state before it. -/
def after (i : Instr) (s : State) : State := match exec i s with | .next t => t | _ => s

/-- Every ill-formed command below is refused by its own check. -/
theorem test_wf_refuses_cores :
    wf (.add 48 0 0 0 0) = false ∧ wf (.selfCheckSlot 56 true) = false ∧ wf (.pmcOverflow 0 8) = false ∧ wf (.breakpointHit 0 4) = false ∧ wf (.tanModeWrite .core 32 0) = false ∧
    wf (.add 47 0 0 0 0) = true ∧ wf (.selfCheckSlot 55 true) = true ∧ wf (.pmcOverflow 47 7) = true := by decide +kernel

theorem test_wf_refuses_storage :
    wf (.cacheFill 3 0 0 .clean) = false ∧ wf (.cacheFill 224 0 0 .clean) = false ∧ wf (.cacheFill 0x11F (2 ^ 48) 0 .clean) = false ∧ wf (.cacheFill 0x11F 0 256 .clean) = false ∧
    wf (.l3WaySparing 32 0) = false ∧ wf (.l3WaySparing 0 16) = false ∧ wf (.directoryWaySparing 16) = false ∧ wf (.wayGroupTransitionEnd 0 2) = false ∧ wf (.lockReady 4) = false ∧
    wf (.rds ⟨1024, 0, 0, 0, 0, false, false, []⟩) = false ∧ wf (.rds ⟨0, 0, 0, 0, 8, false, false, []⟩) = false ∧ wf (.rds ⟨0, 0, 0, 0, 0, false, false, [1024]⟩) = false ∧ wf (.wrpl ⟨0, 0, 0, 0, 0, false, false, []⟩ 0 0 256 0) = false ∧ wf (.atom ⟨0, 0, 0, 0, 0, false, false, []⟩ 0 16 false 0 0) = false ∧
    wf (.patrolScrub 0 (.corrected 2 0 0)) = false ∧ wf (.deviceSparingCopy 0 0 0 20 .start) = false ∧ wf (.rankPowerDown 0 4) = false ∧
    wf (.regionRegisterWrite .core 0 64 0 0) = false ∧ wf (.regionRegisterWrite .core 0 63 3 0) = false ∧ wf (.cacheFill 0x11F (2 ^ 48 - 1) 255 .clean) = true := by decide +kernel

theorem test_wf_refuses_fabric :
    wf (.inv 1024 ⟨0, false⟩) = false ∧ wf (.packetTransit 16 0 none) = false ∧ wf (.felardLaneSparing 0 5) = false ∧ wf (.velexLaneSparing 0 3) = false ∧ wf (.lsn (.link 0 16 true)) = false ∧
    wf (.discoveryComplete (some 1024)) = false ∧ wf (.sig 0 256 0 0 false) = false ∧ wf (.load (2 ^ 28) [] true) = false ∧ wf (.portPllLoss (some 16)) = false ∧
    wf (.felardLaneSparing 15 4) = true ∧ wf (.velexLaneSparing 15 2) = true := by decide +kernel

theorem test_wf_refuses_units :
    wf (.veNop 68 0 0 0 0 0) = false ∧ wf (.veNop 0 16 0 0 0 0) = false ∧ wf (.jrdr 16384 0) = false ∧ wf (.jdack 65536 true) = false ∧ wf (.zeEngineFailure 22) = false ∧
    wf (.knownAnswerTest 0 272 true) = false ∧ wf (.keyCacheFill 0 16384) = false ∧ wf (.streamContextTimeout (2 ^ 56) 0) = false ∧ wf (.assign 64) = false ∧ wf (.holdRelease 17) = false ∧
    wf (.clockSwitch 64) = false ∧ wf (.gearChange 8) = false ∧ wf (.droopEvent 72) = false ∧ wf (.marginDetectorFire (.zip 22)) = false ∧ wf (.gpioEdge 24 true) = false ∧
    wf (.extest (2 ^ 24)) = false ∧ wf (.faultEvent ⟨512, 0, none, 0⟩) = false ∧ wf (.fltSrcCfgWrite .core 512 0) = false ∧ wf (.servicePortNotice 17) = false ∧
    wf (.registerWrite .core (2 ^ 26) 0) = false ∧ wf (.veNop 67 15 0 0 0 0) = true ∧ wf (.extest (2 ^ 24 - 1)) = true := by decide +kernel

/-- What an access yields, when it does. -/
def got {α : Type} (r : SRes α) : Option (State × α) := match r with | .ok s v => some (s, v) | _ => none
theorem ok_of_got {α : Type} {r : SRes α} {s : State} {v : α} (h : got r = some (s, v)) : r = .ok s v := by
  cases r with
  | ok t w => simp only [got, Option.some.injEq, Prod.mk.injEq] at h; rw [h.1, h.2]
  | _ => simp [got] at h

/-- `ReadyWith`, as a computation. -/
def readyB (s : State) (lc n : Nat) (w : CoreWait) : Bool :=
  let c := s.core lc
  decide (lc < 48) && s.canRun lc && decide (got (s.fetch lc n) = some (s, ())) && decide (c.wait = w ∧ w ≠ .sync) &&
    decide (c.bounded = false ∧ c.retired = 0 ∧ c.entries = 0 ∧ c.stbuf = [] ∧ c.inlog = [] ∧ c.replay = [] ∧ c.pendSpill = [] ∧ c.pendProg = none ∧ c.broken = false ∧ c.retry = 0)
theorem readyWith_of {s : State} {lc n : Nat} {w : CoreWait} (h : readyB s lc n w = true) : ReadyWith s lc n w := by
  simp only [readyB, Bool.and_eq_true, decide_eq_true_eq] at h
  exact ⟨h.1.1.1.1, h.1.1.1.2, h.2, ok_of_got h.1.1.2, h.1.2⟩
theorem ready_of {s : State} {lc n : Nat} (h : readyB s lc n .none = true) : Ready s lc n := readyWith_of h

/-- A ready core, for instructions of four and of eight bytes. -/
theorem test_ready : Ready (ready []) 0 4 ∧ Ready (ready []) 0 8 := ⟨ready_of (by decide +kernel), ready_of (by decide +kernel)⟩

/-- The architected state and the access context of logical core 0. -/
def ar (s : State) : Arch := (s.core 0).arch
def xc (s : State) : XCtx := (s.core 0).xctx 0

/-- The first GiB of storage has its home at complex `cx`. -/
def homedAt (cx : Nat) (s : State) : State := setf [(F.STO_ILV_BASE_EN, 1, 0), (F.STO_ILV_TGT_V0, 1, 0), (F.STO_ILV_TGT_CXID0, cx, 0)] s

/-- Region 0 of controllers 0 to 3 gives PID 0 all rights to the first 16 MiB. -/
def regions (s : State) : State :=
  [0, 1, 2, 3].foldl (fun z m => (((((((z.setFld F.MEM_RGN_LIM_LIMIT 4095 m).setFld F.MEM_RGN_CTL_EN 1 m).setFld F.MEM_RGN_CTL_RD 1 m).setFld F.MEM_RGN_CTL_WR 1 m).setFld F.MEM_RGN_CTL_FX 1 m).setFld F.MEM_RGN_CTL_CR 1 m).setFld F.MEM_RGN_CTL_CW 1 m)) s

/-- Did the operation of an instruction end. -/
def ended (r : IRes) : Bool := match r with | .done _ => true | _ => false
theorem done_of_ended {r : IRes} (h : ended r = true) : ∃ u, r = .done u := by
  cases r with
  | done u => exact ⟨u, rfl⟩
  | _ => simp [ended] at h
theorem ok_some {α : Type} {r : SRes α} (h : (got r).isSome = true) : ∃ u v, r = .ok u v := by
  cases r with
  | ok u v => exact ⟨u, v, rfl⟩
  | _ => simp [got] at h

/-- Largest and smallest integers in G1 and G2 (of 64 and of 32 bits), with FOM = 1. -/
def sWide : State := readyP { psw0 with fom := true } [(1, 0x7FFFFFFFFFFFFFFF), (2, 0x8000000000000000), (3, 1), (4, -1), (5, 0x7FFFFFFF), (6, 0x80000000)]

/-- Integer arithmetic: FOM = 0 with any operands, FOM = 1 with a result that fits; shifts by 63 and by 64. -/
theorem test_hyp_IntegerRegister :
    Ready (ready []) 0 4 ∧ Ready sWide 0 4 ∧ (ar (ready [])).psw.fom = false ∧
    (fitsSigned 64 (((ar sWide).getG 1).toInt + ((ar sWide).getG 4).toInt) = true ∧ fitsSigned 32 ((((ar sWide).getG 5).setWidth 32).toInt - (((ar sWide).getG 3).setWidth 32).toInt) = true) ∧
    (((ar (ready [(1, 63)])).getG 1).toNat < 64 ∧ 64 ≤ ((ar (ready [(1, 64)])).getG 1).toNat ∧ (ar (ready [(1, 64)])).getG 2 = 0) :=
  ⟨ready_of (by decide +kernel), ready_of (by decide +kernel), by decide +kernel⟩

/-- Divides: a divisor that is not zero and a quotient that fits; a zero divisor; the smallest number divided by −1. -/
theorem test_hyp_Divides :
    Ready sWide 0 4 ∧ ((ar sWide).getG 3 ≠ 0 ∧ ¬((ar sWide).getG 2 = BitVec.intMin 64 ∧ (ar sWide).getG 3 = -1)) ∧ ¬((ar sWide).getG 7 ≠ 0) ∧
    ¬((ar sWide).getG 4 ≠ 0 ∧ ¬((ar sWide).getG 2 = BitVec.intMin 64 ∧ (ar sWide).getG 4 = -1)) ∧ ((ar sWide).getG 3).setWidth 32 ≠ (0 : W32) ∧
    ¬(((ar sWide).getG 4).setWidth 32 ≠ (0 : W32) ∧ ¬(((ar sWide).getG 6).setWidth 32 = BitVec.intMin 32 ∧ ((ar sWide).getG 4).setWidth 32 = (-1 : W32))) :=
  ⟨ready_of (by decide +kernel), by decide +kernel⟩

theorem test_hyp_ImmediatesAndBits :
    Ready (ready []) 0 4 ∧ Ready (ready []) 0 8 ∧ (63 < 64 ∧ (63 : BitVec 16) = BitVec.ofNat 16 63) ∧ (15 : BitVec 5).getLsbD 4 = false ∧
    fitsSigned 64 (((ar sWide).getG 1).toInt * (1 : BitVec 16).toInt) = true := ⟨ready_of (by decide +kernel), ready_of (by decide +kernel), by decide +kernel⟩

/-- Operands whose sum, difference, product and negative overflow, in 64 and in 32 bits. -/
theorem test_hyp_OverflowTraps :
    Ready sWide 0 4 ∧ (ar sWide).psw.fom = true ∧
    (let r := ar sWide
     let x := fun (n : BitVec 5) => (r.getG n).toInt
     let w := fun (n : BitVec 5) => ((r.getG n).setWidth 32 : W32).toInt
     fitsSigned 64 (x 1 + x 3) = false ∧ fitsSigned 64 (x 2 - x 3) = false ∧ fitsSigned 64 (x 1 * x 1) = false ∧ fitsSigned 64 (x 1 + (1 : BitVec 16).toInt) = false ∧
     fitsSigned 64 (x 1 + (1 : BitVec 16).toInt * 2 ^ 16) = false ∧ fitsSigned 64 (x 1 * (2 : BitVec 16).toInt) = false ∧ fitsSigned 64 (-x 2) = false ∧
     fitsSigned 32 (w 5 + w 3) = false ∧ fitsSigned 32 (w 6 - w 3) = false ∧ fitsSigned 32 (w 5 * w 5) = false ∧ fitsSigned 32 (w 5 + (1 : BitVec 16).toInt) = false ∧ fitsSigned 32 (-w 6) = false) :=
  ⟨ready_of (by decide +kernel), by decide +kernel⟩

/-- Loads of every size that end with the last byte of a line, and a pair. -/
theorem test_hyp_Loads :
    Ready (ready []) 0 4 ∧
    (let s := ready []
     (∃ v, s.loadNat (xc s) 0xF8 8 = .ok s v) ∧ (∃ v, s.loadNat (xc s) 0xFC 4 = .ok s v) ∧ (∃ v, s.loadNat (xc s) 0xFE 2 = .ok s v) ∧ (∃ v, s.loadNat (xc s) 0xFF 1 = .ok s v) ∧
     (∃ v, s.loadNat (xc s) 0xF0 16 = .ok s v) ∧ ((ar s).getG 0 + (0xF0 : BitVec 16).signExtend 64).toNat % 16 = 0 ∧ (30 : BitVec 5).getLsbD 0 = false) :=
  ⟨ready_of (by decide +kernel), ⟨0, ok_of_got (by decide +kernel)⟩, ⟨0, ok_of_got (by decide +kernel)⟩, ⟨0, ok_of_got (by decide +kernel)⟩, ⟨0, ok_of_got (by decide +kernel)⟩,
    ⟨0, ok_of_got (by decide +kernel)⟩, by decide +kernel⟩

/-- The places of `n` bytes at address `a` of a line that is held. -/
def places (a n : Nat) : List (Nat × Nat) := match (ready []).checkStore (xc (ready [])) .wr 2 (BitVec.ofNat 64 a) n with | .ok _ p => p | _ => []

theorem test_hyp_Stores :
    let s := ready []
    Ready s 0 4 ∧ s.checkStore (xc s) .wr 2 0xF8 8 = .ok s (places 0xF8 8) ∧ s.checkStore (xc s) .wr 2 0xFC 4 = .ok s (places 0xFC 4) ∧
    s.checkStore (xc s) .wr 2 0xFE 2 = .ok s (places 0xFE 2) ∧ s.checkStore (xc s) .wr 2 0xFF 1 = .ok s (places 0xFF 1) ∧ s.checkStore (xc s) .wr 2 0xF0 16 = .ok s (places 0xF0 16) ∧
    (holdBytes (s.core 0).stbuf 0 (places 0xF0 16) ((List.range 16).map (fun _ => (0 : Byte)))).length ≤ 80 :=
  ⟨ready_of (by decide +kernel), ok_of_got (by decide +kernel), ok_of_got (by decide +kernel), ok_of_got (by decide +kernel), ok_of_got (by decide +kernel), ok_of_got (by decide +kernel), by decide +kernel⟩

theorem test_hyp_LoadSeesBytes :
    let s := readyP { psw0 with asm := 0 } []
    (ar s).psw.asm = 0 ∧ (ar s).psw.pid = 0 ∧ (0xF8 : W64).toNat < 2 ^ 56 ∧ 0 < 8 ∧ (0xF8 : W64).toNat % 256 + 8 ≤ 256 ∧ s.held ((0xF8 : W64).toNat / 256) = some (own 0) ∧ (own 0).serves 0 .rd = true := by
  decide +kernel

/-- A buffer with a confirmed entry and one that is not. -/
def buf2 : List StEnt := [⟨0x40, 1, 0, 0, true⟩, ⟨0x80, 1, 0, 0, false⟩]
theorem test_hyp_HeldByteForwards : (∀ e ∈ buf2, e.addr % 64 = 0) ∧ buf2.Pairwise (fun e f => f.conf = true → e.conf = true) := by decide +kernel

theorem test_hyp_PrefetchAndAtomics :
    let s := readyW (.atomGot 0 5 1) [(2, 0x20)]
    Ready (ready []) 0 4 ∧ ReadyWith s 0 4 (.atomGot 0 5 1) ∧ (∃ p, (ready []).access (xc (ready [])) 0 .fx = .ok (ready []) p) ∧ (∃ u f, (ready []).access (xc (ready [])) (2 ^ 56) .rd = .fail u f) ∧
    (2 : BitVec 5).toNat ≤ 2 ∧ (1 : BitVec 5).toNat ≤ 1 ∧ ((ar s).getG 2).toNat % 16 = 0 ∧ ((ar s).getG 2).toNat % 8 = 0 ∧ (30 : BitVec 5).getLsbD 0 = false :=
  ⟨ready_of (by decide +kernel), readyWith_of (by decide +kernel), ⟨_, ok_of_got (v := (0, own 0)) (by decide +kernel)⟩, ⟨_, _, rfl⟩, by decide +kernel⟩

/-- Floating point: every condition disabled; enabled with an operation that meets it. F1 = 1.0, F2 = 0, F3 = 2^-60, F4 = the largest number. -/
def fpState (ena : Nat) : State :=
  withCore (runs { base [] with f := [(97, 0x3FF0000000000000), (99, 0x3C30000000000000), (100, 0x7FEFFFFFFFFFFFFF)], sr := [(0x0C, BitVec.ofNat 64 (ena * 2 ^ 27))] })

theorem test_hyp_FloatingPoint :
    Ready (fpState 0) 0 4 ∧ (fmt64.div (ar (fpState 0)).fpRm (fmt64.unpack ((ar (fpState 0)).getF 1).toNat) (fmt64.unpack ((ar (fpState 0)).getF 2).toNat)).2 &&& (ar (fpState 0)).fpEna = 0 ∧
    (fmt64.add 0 (fmt64.unpack ((ar (fpState 31)).getF 1).toNat) (fmt64.unpack ((ar (fpState 31)).getF 1).toNat)).2 &&& (ar (fpState 31)).fpEna = 0 := ⟨ready_of (by decide +kernel), by decide +kernel⟩

theorem test_hyp_FloatingPointTraps :
    let r := ar (fpState 31)
    let f := fun (n : BitVec 5) => fmt64.unpack (r.getF n).toNat
    let on := fun (v : Nat × Nat) => v.2 &&& r.fpEna
    Ready (fpState 31) 0 4 ∧ on (fmt64.div r.fpRm (f 1) (f 2)) &&& 24 ≠ 0 ∧ (on (fmt64.add r.fpRm (f 1) (f 3)) ≠ 0 ∧ on (fmt64.add r.fpRm (f 1) (f 3)) &&& 24 = 0) ∧
    on (fmt64.mul r.fpRm (f 4) (f 4)) ≠ 0 ∧ (0 < 1 ∧ ∀ q k, Fp.inf true ≠ .nan q k) := ⟨ready_of (by decide +kernel), by decide +kernel, by decide +kernel, by decide +kernel, by decide, by simp⟩

/-- The smallest subnormal and the largest finite number of both formats. -/
theorem test_hyp_ExactResults :
    1 < 2 ^ (fmt64.fb + fmt64.eb + 1) ∧ (∃ n m e, fmt64.unpack 1 = .fin n m e) ∧ (∃ n m e, fmt64.unpack 0x7FEFFFFFFFFFFFFF = .fin n m e) ∧ 0x7F7FFFFF < 2 ^ (fmt32.fb + fmt32.eb + 1) ∧
    (∃ n m e, fmt32.unpack 0x7F7FFFFF = .fin n m e) := ⟨by decide, ⟨_, _, _, rfl⟩, ⟨_, _, _, rfl⟩, by decide, ⟨_, _, _, rfl⟩⟩

/-- Masks that hold the condition code and that do not, counts of one and above, aligned and unaligned targets. -/
theorem test_hyp_BranchesAndHints :
    let s := ready [(1, 1), (2, 2), (3, 0x104), (4, 0x102)]
    let r := ar s
    Ready s 0 4 ∧ r.psw.ia.extractLsb' 0 2 = 0 ∧ (15 : BitVec 5).getLsbD 4 = false ∧ (1 : BitVec 5).getLsbD r.psw.cc.toNat = true ∧ (14 : BitVec 5).getLsbD r.psw.cc.toNat = false ∧
    r.getG 2 ≠ 1 ∧ r.getG 1 = 1 ∧ (r.getG 3).extractLsb' 0 2 = 0 ∧ (r.getG 4).extractLsb' 0 2 ≠ 0 := ⟨ready_of (by decide +kernel), by decide +kernel⟩

/-- A bank with `n` resident windows and the current one at `cwp`. -/
def winState (bank : BitVec 3) (cwp n : Nat) : State := withCore (runs ({ base [] with psw := { psw0 with bank := bank } }.setWin bank.toNat cwp n))

theorem test_hyp_WindowCalls :
    Ready (winState 3 7 6) 0 4 ∧ Ready (winState 7 2 3) 0 4 ∧ (ar (winState 3 7 6)).psw.ia.extractLsb' 0 2 = 0 ∧
    ((ar (winState 3 7 5)).nres 3 < 6 ∧ (ar (winState 3 7 6)).nres 3 = 6 ∧ ((winState 3 7 6).core 0).xfer ≠ some (3, false) ∧ (ar (winState 7 2 3)).nres 7 < 4 ∧ (ar (winState 7 2 3)).cwp 7 < 3) ∧
    ((ar (winState 3 0 2)).getG 23).extractLsb' 0 2 = 0 ∧ 2 ≤ (ar (winState 3 0 2)).nres 3 ∧ 1 ≤ (ar (winState 7 1 2)).cwp 7 ∧ (ar (winState 7 3 4)).nres 7 = 4 ∧ (ar (winState 7 0 1)).nres 7 = 1 ∧
    Ready (winState 7 3 4) 0 4 ∧ Ready (winState 7 0 1) 0 4 :=
  ⟨ready_of (by decide +kernel), ready_of (by decide +kernel), by decide +kernel, by decide +kernel, by decide +kernel, by decide +kernel, by decide +kernel, by decide +kernel, by decide +kernel,
    ready_of (by decide +kernel), ready_of (by decide +kernel)⟩

/-- A core in state `st` (0 problem, 1 supervisor, 2 monitor) of bank 3, with special registers `sr`. -/
def srState (st : BitVec 2) (sr : List (Nat × W64)) : State := withCore (runs { base [] with psw := { psw0 with state := st }, sr := sr })

theorem test_hyp_SystemRegisters :
    let s := srState 2 []
    let p := srState 0 [(0x0B, 1)]
    let r := ar s
    (Ready s 0 4 ∧ Ready p 0 4 ∧ s.loadNat (xc s) 0 16 = .ok s 0) ∧
    (1 ≤ r.psw.state.toNat ∧ pswBad 0 0 = false ∧ r.psw.bank ≠ 7 ∧ (Psw.ofDws 0 0).bank ≠ 7) ∧ ((6 : BitVec 3) ≠ 7 ∧ r.psw.state.toNat ≠ 0 ∧ ((ar p).getSr 0x0B).getLsbD 0 = true ∧ ((ar p).getSr 0x0B).getLsbD 6 = false ∧ (ar p).psw.state.toNat = 0) ∧
    ((0x3F : BitVec 10).extractLsb' 6 4 = 0 ∧ r.srLow 2 false = some 2 ∧ (ar p).srLow 1 false = some 1 ∧ r.srLow 0 false = none) ∧
    (r.psw.pid = 0 ∧ r.srLow 0x0C true = some 0 ∧ (s.core 0).srBad 0x0C 0 = false ∧ r.srLow 8 true = some 1 ∧ (s.core 0).srBad 8 64 = false ∧ r.srLow 0x34 true = some 2 ∧ (s.core 0).srBad 0x34 0 = false ∧ (p.core 0).srBad 1 0 = false) ∧
    (r.bwBad 31 = false ∧ (s.core 0).bwWait = false ∧ r.bwFile ≠ 2) :=
  ⟨⟨ready_of (by decide +kernel), ready_of (by decide +kernel), ok_of_got (by decide +kernel)⟩, by decide +kernel⟩

theorem test_hyp_BankWindow : ((srState 2 []).core 0).arch.bwFile = 0 ∧ ((srState 2 [(0x0A, 0x100)]).core 0).arch.bwFile = 1 := by decide +kernel

/-- What an entry's accesses and the entry yield, when they do. -/
def areaGot (r : AreaRes) : Option (State × W64 × W64) := match r with | .ok s _ d0 d1 => some (s, d0, d1) | _ => none
theorem area_of_got {r : AreaRes} {s : State} {d0 d1 : W64} (h : areaGot r = some (s, d0, d1)) : ∃ pl, r = .ok s pl d0 d1 := by
  cases r with
  | ok t pl a b => simp only [areaGot, Option.some.injEq, Prod.mk.injEq] at h; exact ⟨pl, by rw [h.1, h.2.1, h.2.2]⟩
  | _ => simp [areaGot] at h
def entered (r : Entry) : Bool := match r with | .ok _ => true | _ => false
theorem entry_of_entered {r : Entry} (h : entered r = true) : ∃ u, r = .ok u := by
  cases r with
  | ok u => exact ⟨u, rfl⟩
  | _ => simp [entered] at h

/-- An entry of the monitor, whose area in lines 0 and 1 is held and holds a new PSW of zeros. -/
theorem test_hyp_InterruptionEntry :
    (∃ pl, (srState 2 []).entryArea 0 (.svc 5) 0x104 true = .ok (srState 2 []) pl 0 0) ∧ ∃ u, (srState 2 []).enterAt 0 (.svc 5) 0x104 true = .ok u :=
  ⟨area_of_got (by decide +kernel), entry_of_entered (by decide +kernel)⟩

/-- An external interruption that is pending and open: the comparator of a core whose time has come. -/
def sDue : State := withCore { runs { base [] with psw := { psw0 with exm := true }, tbc := 0 } with retired := 0 }
/-- A stopped core with a pending restart. -/
def sRestart : State := withCore { runs (base []) with run := .stopped, pendRestart := true }

theorem test_hyp_CallsAndEntries :
    Ready (srState 2 []) 0 4 ∧ (1 : BitVec 5).extractLsb' 1 4 = 0 ∧ (coreIlc 0xFC000000 = 4 ∧ coreDefined 0xFC000000 = false) ∧
    (sDue.canRun 0 = true ∧ sDue.pickInt 0 = some (.external 0x1001) ∧ (sDue.core 0).mayTake = true) ∧ ((ready []).pickInt 0 = none ∧ ((ready []).core 0).wait ≠ .sync ∧ ((ready []).core 0).replay = []) ∧
    (sRestart.lcExists 0 = true ∧ (sRestart.core 0).pendRestart = true ∧ sRestart.flag F.FLT_FENCE_CXF = false ∧ sRestart.svc.resetHold = false ∧ (sRestart.core 0).run = .stopped) ∧
    ((ready []).core 0).pendRestart = false := ⟨ready_of (by decide +kernel), by decide +kernel⟩

theorem test_hyp_InterruptionPriority :
    let mc : HeldMc := ⟨2, 0, 0⟩
    let m := fun (c : Core) => { withCore c with svc := { State.reset.svc with mcs := [mc] } }
    let q := IntReq.program 1 4 0 0 0
    let t := fun (f : Core → Core) => withCore (f (runs (base [])))
    let m0 := m (runs { base [] with psw := { psw0 with mcm := true } })
    (m0.svc.mcs = [mc] ∧ m0.lowestCore = some 0 ∧ (m0.core 0).arch.psw.mcm = true ∧ (m0.core 0).pendSpill = []) ∧
    ((t id).svc.mcs = [] ∧ ((t (fun c => { c with pendSpill := [(3, .machine 5 none)] })).core 0).pendSpill = [(3, .machine 5 none)]) ∧
    (((t (fun c => { c with pendSpill := [(3, q)] })).core 0).pendSpill = [(3, q)] ∧ (∀ i a, q ≠ .machine i a) ∧ ((t id).core 0).kept ≠ some (.spill 3)) ∧
    (((t (fun c => { c with pendProg := some (q, 0) })).core 0).pendSpill = [] ∧ ((t (fun c => { c with pendProg := some (q, 0) })).core 0).pendProg = some (q, 0)) ∧
    ((sDue.core 0).pendProg = none ∧ (sDue.core 0).arch.psw.exm = true ∧ (sDue.core 0).arch.tbc.toNat ≤ sDue.fab.tb.toNat ∧ (sDue.core 0).kept ≠ some (.external 0x1001)) ∧
    ((sRestart.core 0).arch.psw.exm = false ∧ (sRestart.core 0).arch.psw.iom = false ∧ (sRestart.core 0).pendProg = none) := by
  refine ⟨by decide +kernel, by decide +kernel, ⟨by decide +kernel, ?_, by decide +kernel⟩, by decide +kernel, by decide +kernel, by decide +kernel⟩
  intro i a h; cases h

/-- A core whose engine spills (or fills) a frame of bank 3; the stack is in line 3. -/
def sEngine (out : Bool) : State :=
  withCore { runs ({ base [] with wsp := [(3, 0x340)], wst := [(3, putField 0 63 32 1)] }.setWin 3 6 (if out then 6 else 2)) with xfer := some (3, out) }

theorem test_hyp_SpillAndFill :
    (∃ p, (sEngine true).checkStore (xc (sEngine true)) .wr 2 0x340 64 = .ok (sEngine true) p) ∧ (∃ bs, (sEngine false).loadBytes (xc (sEngine false)) 2 (0x340 - 64) 64 = .ok (sEngine false) bs ∧ bs.length = 64) ∧
    (sEngine true).engineRuns 0 (3, true) = true ∧ (ar (sEngine true)).spdepth 3 < 2 ^ 32 - 1 ∧ (ar (sEngine true)).wsp.get 0 3 = 0x340 ∧ (ar (sEngine true)).psw.state.toNat = 2 ∧
    (sEngine false).engineRuns 0 (3, false) = true ∧ (ar (sEngine false)).nres 3 < 7 :=
  ⟨⟨(match (sEngine true).checkStore (xc (sEngine true)) .wr 2 0x340 64 with | .ok _ p => p | _ => []), ok_of_got (by decide +kernel)⟩, ⟨List.replicate 64 0, ok_of_got (by decide +kernel), by decide +kernel⟩, by decide +kernel⟩

/-- A core whose interval has ended, and one in its first attempt again. -/
def sBounded (retry : Nat) : State := withCore { runs (base []) with bounded := true, retired := 5, retry := retry, retryStart := if retry = 0 then none else some 7 }
theorem test_hyp_CheckpointsAndRetry :
    ((sBounded 0).canRun 0 = true ∧ ((sBounded 0).core 0).bounded = true ∧ ((sBounded 0).core 0).broken = false ∧ ((sBounded 0).core 0).retry = 0 ∧ ((sBounded 0).core 0).retryStart = none) ∧
    ((sBounded 1).canRun 0 = true ∧ ((sBounded 1).core 0).retryStart = some 7 ∧ ((sBounded 1).core 0).retry ≠ 0) ∧ ((sBounded 3).core 0).retry = 3 ∧ (sBounded 0).mem.tlbWaits = [] ∧
    ((withCore { runs (base []) with retired := 1 }).core 0).begun = true ∧ ((withCore { runs (base []) with broken := true }).core 0).broken = true := by decide +kernel
theorem test_hyp_Confirmation : ((sBounded 0).core 0).retry = 0 ∧ ((sBounded 0).core 0).trbuf = [] := by decide +kernel

/-- A core whose oldest held store is confirmed. -/
def sStore : State := withCore { runs (base []) with stbuf := [⟨0x140, 3, 0, 0, true⟩, ⟨0x180, 1, 0, 0, false⟩] }
theorem test_hyp_Drain :
    sStore.lcExists 0 = true ∧ sStore.flag F.FLT_FENCE_CXF = false ∧ (sStore.core 0).stbuf = [⟨0x140, 3, 0, 0, true⟩, ⟨0x180, 1, 0, 0, false⟩] ∧ 0x140 % 64 = 0 ∧
    (sStore.core 0).wait ≠ .sync ∧ sStore.mem.tlbWaits = [] ∧ sStore.held (0x140 / 256) = some (own 0) ∧ (own 0).serves 0 .wr = true := by decide +kernel

/-- A core that waits for its move, with a spare and without. -/
def sMove (spare : Bool) : State :=
  setf (if spare then [(F.TAN_PCSTAT_ROLE, 1, 6)] else []) (withCore { runs (base []) with run := .held, spareReq := true })
theorem test_hyp_CoreEvents :
    let pm := withCore (runs { base [] with sr := [(0x10, 5), (0x18, 0x70001)] })
    let r := pm.core 0
    ((0 : Nat) < 48 ∧ r.run = .running ∧ r.arch.pmcOn 0 (fieldOf (r.arch.getSr 0x18) 15 0) = true ∧ fieldOf (r.arch.getSr 0x10) 16 16 = 0 ∧ fieldOf (r.arch.getSr 0x10) 2 2 = 1) ∧
    ((ready []).lcOf 0 = some 0 ∧ (ready []).svc.ckptCount.get 0 0 / 2 ^ 20 ≤ (ready []).svc.selfSlot.get 0 0 ∧
      ((ready []).updSvc (fun z => { z with ckptCount := [(0, 2 ^ 20)] })).svc.selfSlot.get 0 0 < ((ready []).updSvc (fun z => { z with ckptCount := [(0, 2 ^ 20)] })).svc.ckptCount.get 0 0 / 2 ^ 20) ∧
    ((sMove true).moveNow = some 0 ∧ (sMove true).flag F.FLT_FENCE_CXF = false) := by decide +kernel
theorem test_hyp_CoreEvents2 :
    let z := fun (y : State) => (((y.setMoving (some 0)).discardCore 0).accessGone 0).drainAll 0
    let u := fun b => ((z (sMove b)).cleanBad ((z (sMove b)).pcOf 0) []).setMoving none
    let b := regions (homedAt 0 <| withCore { runs (base []) with run := .held, spareReq := true, stbuf := [⟨0x4000, 1, 0, 0, true⟩] })
    let held := { b with mem := { b.mem with txns := [(64, ⟨none, [], none, none, false, none, false, false, false, none, false, false, false⟩)] } }
    ((z (sMove true)).core 0).stbuf = [] ∧ (held.moveNow = some 0 ∧ ((z held).core 0).stbuf ≠ []) ∧
    (((u true).chooseSpare [] ((u true).spareList ((u true).pcOf 0))).2 = some 6) ∧ ((u false).chooseSpare [] ((u false).spareList ((u false).pcOf 0))).2 = none ∧
    ((u true).chooseSpare [6] ((u true).spareList ((u true).pcOf 0))).2 = none ∧
    (fieldOf (0x8000000000000000 : W64) 63 63 = 1 ∧ (ready []).lcExists (fieldOf (0x8000000000000000 : W64) 5 0) = true ∧ ((ready []).core 0).run ≠ .lost ∧ ((ready []).core 0).run ≠ .checkStop) ∧
    (((withCore { runs (base []) with run := .lost }).core 0).run = .lost) ∧
    (let z := setf [(F.TAN_CKSEL_LC, 0, 0), (F.TAN_CKSEL_INDEX, 0x140, 0)] (withCore { runs (base []) with run := .checkStop })
     z.fld F.TAN_CKSEL_LC = 0 ∧ (z.core 0).run = .checkStop ∧ itemOf (z.fld F.TAN_CKSEL_INDEX) = some .dw0) := by decide +kernel
theorem test_hyp_CoreSignals :
    let s := ready [(1, 0), (2, 0x500100)]
    let w := readyW (.ccGot 1) [(1, 5)]
    Ready s 0 4 ∧ ReadyWith w 0 4 (.ccGot 1) ∧
    ((ar s).psw.state = 2 ∧ (ar s).psw.pid = 0 ∧ (ar s).getG 1 = BitVec.ofNat 64 (s.cxid * 256 + 0) ∧ s.cxid < 1024 ∧ ((ar s).getG 2).toNat < 0x4000000 ∧ ((ar s).getG 2).toNat % 8 = 0 ∧
      ((((s.logInput 0 .storec 0 0).ctlWrite .core 0x500100 0).core 0).run = .running) ∧ ((ar w).getG 1).toNat < 2 ^ 18 ∧ s.lcExists 0 = true ∧ (s.core 0).run = .running ∧ (s.core 0).arch.psw.pid = (ar s).psw.pid) ∧
    (let o := withCore (runs { base [] with psw := { psw0 with pid := 9 } })
     (o.core 0).run = .running ∧ (o.core 0).arch.psw.pid ≠ (ar s).psw.pid) :=
  ⟨ready_of (by decide +kernel), readyWith_of (by decide +kernel), by decide +kernel⟩

/-- Did a maintenance operation end. -/
def cmoEnded (r : CmoRes) : Bool := match r with | .done _ => true | _ => false
theorem cmo_of_ended {r : CmoRes} (h : cmoEnded r = true) : ∃ u, r = .done u := by
  cases r with
  | done u => exact ⟨u, rfl⟩
  | _ => simp [cmoEnded] at h

/-- A core alone in its complex, with the operands of every maintenance instruction in its globals. -/
def sMaint : State := regions (homedAt 0 (ready [(1, 0x100), (2, 0x100), (3, 0x4000000000000000), (4, 0xFF)]))
theorem test_hyp_Maintenance :
    let s := sMaint
    Ready s 0 4 ∧ (∃ u, s.cmoAddr 0 0x100 .clean = .done u) ∧ (∃ u, s.cmoAddr 0 0x100 .clinv = .done u) ∧ (∃ u, s.cmoAddr 0 0x100 .inval = .done u) ∧ (s.others = [] ∧ s.mem.tlbWaits = []) ∧
    ((ar s).psw.state = 2 ∧ (ar s).opened ∧ setWayBad ((ar s).getG 3) false = false ∧ setWayBad ((ar s).getG 0) true = false ∧ ((ar s).getG 4).toNat < 256) ∧
    (∃ u, s.setWay 0 ((ar s).getG 3) .clean = .done u) ∧ (∃ u, s.setWay 0 ((ar s).getG 3) .clinv = .done u) ∧ (∃ u, s.setWay 0 ((ar s).getG 0) .inval = .done u) ∧
    (s.tlbLeft .va 0 = ([], []) ∧ s.tlbLeft .pidAll 0 = ([], []) ∧ s.tlbLeft .pidAll 0xFF = ([], []) ∧ s.tlbLeft .everything 0 = ([], [])) ∧
    (ReadyWith (readyW (.tlbAcks []) []) 0 4 (.tlbAcks []) ∧ (readyW (.tlbAcks []) []).tlbBusy 0 0 = false) :=
  ⟨ready_of (by decide +kernel), done_of_ended (by decide +kernel), done_of_ended (by decide +kernel), done_of_ended (by decide +kernel), by decide +kernel,
    ⟨by decide +kernel, .inl (by decide +kernel), by decide +kernel, by decide +kernel, by decide +kernel⟩,
    cmo_of_ended (r := sMaint.setWay 0 ((ar sMaint).getG 3) .clean) (by decide +kernel), cmo_of_ended (r := sMaint.setWay 0 ((ar sMaint).getG 3) .clinv) (by decide +kernel),
    cmo_of_ended (r := sMaint.setWay 0 ((ar sMaint).getG 0) .inval) (by decide +kernel), by decide +kernel, readyWith_of (by decide +kernel), by decide +kernel⟩


/-- Operands of eight bytes in lines 1 and 2, the second different from its byte `k` on. -/
def sLong (d : Nat) : State :=
  let s := ready [(1, 0x100), (2, 0x200), (3, 8)]
  { s with mem := { s.mem with lines := [(0, own 0), (1, own 0), (2, own (BitVec.ofNat 2048 (d * 2 ^ 1984))), (3, own 0)] } }

theorem test_hyp_LongInstructions :
    let s := sLong 0
    Ready s 0 4 ∧ ((1 : BitVec 5) ≠ 2 ∧ (1 : BitVec 5) ≠ 3 ∧ (2 : BitVec 5) ≠ 3) ∧
    (unitLen false 32 (movPer 0x100 0x200) 256 (fun k => 4 * (crossings 0x100 k + crossings 0x200 k)) 8 = 8 ∧ (∃ p, s.checkStore (xc s) .wr 2 0x100 8 = .ok s p) ∧ (∃ bs, s.loadBytes (xc s) 2 0x200 8 = .ok s bs) ∧
      (∃ u v, s.copyBytes (xc s) 8 0x100 0x200 = .ok u v)) ∧
    ((ar s).psw.ct = false ∧ (∃ k, s.compareBytes (xc s) 0 8 0x100 0x200 = .ok s (k, none)) ∧ (∃ k p q, (sLong 1).compareBytes (xc (sLong 1)) 0 8 0x100 0x200 = .ok (sLong 1) (k, some (p, q)))) ∧
    (unitLen false (24 + 4 * crossings 0x200 256) 64 64 (fun k => 4 * crossings 0x100 k) 8 = 8 ∧ (∃ t, s.loadBytes (xc s) 3 0x200 256 = .ok s t ∧ ∃ u v, s.storeBytes (xc s) 0x100 ((List.replicate 8 (0 : Byte)).map (fun i => t.getD i.toNat 0)) = .ok u v)) ∧
    unitLen false 24 16 256 (fun k => 4 * crossings 0x200 k) 8 = 8 :=
  ⟨ready_of (by decide +kernel), by decide, ⟨by decide +kernel, ⟨(match (sLong 0).checkStore (xc (sLong 0)) .wr 2 0x100 8 with | .ok _ p => p | _ => []), ok_of_got (by decide +kernel)⟩,
      ⟨List.replicate 8 0, ok_of_got (by decide +kernel)⟩, ok_some (by decide +kernel)⟩,
    ⟨by decide +kernel, ⟨8, ok_of_got (by decide +kernel)⟩, ⟨7, 0, 1, ok_of_got (by decide +kernel)⟩⟩,
    ⟨by decide +kernel, ⟨List.replicate 256 0, ok_of_got (by decide +kernel), ok_some (by decide +kernel)⟩⟩, by decide +kernel⟩

/-- Packed operands `p` of `n` bytes in line 1 and `q` of one byte in line 2. -/
def sDec (p n q : Nat) : State :=
  let s := ready [(1, 0x100), (2, 0x200), (3, 25)]
  { s with mem := { s.mem with lines := [(0, own 0), (1, own (BitVec.ofNat 2048 (p * 2 ^ (2048 - 8 * n)))), (2, own (BitVec.ofNat 2048 (q * 2 ^ 2040))), (3, own 0)] } }

theorem test_hyp_Decimal :
    let s := sDec 0x9C 1 0x9C
    Ready s 0 8 ∧ decOverlap 0x100 0x200 1 1 = false ∧ s.loadBytes (xc s) 2 0x100 1 = .ok s [0x9C] ∧ s.loadBytes (xc s) 2 0x200 1 = .ok s [0x9C] ∧ (∃ p, s.checkStore (xc s) .wr 2 0x100 1 = .ok s p) ∧
    (packedVal [0x9C] = some 9 ∧ packedVal [0x00] = none ∧ packedVal [0x1C] = some 1 ∧ packedVal [0x0D] = some 0) ∧ (∃ u v, s.storeBytes (xc s) 0x100 (packedBytes 1 false 18) = .ok u v) ∧
    (10 ^ (2 * 1 - 1) ≤ (9 + 9 : Int).natAbs ∧ (9 - 1 : Int).natAbs < 10 ^ (2 * 1 - 1)) ∧ (∃ u v, (s.storeBytes (xc s) 0x100 (packedBytes 1 false 18)) = .ok u v ∧ (u.core 0).arch.psw.dom = false) :=
  ⟨ready_of (by decide +kernel), by decide +kernel, ok_of_got (by decide +kernel), ok_of_got (by decide +kernel),
    ⟨(match (sDec 0x9C 1 0x9C).checkStore (xc (sDec 0x9C 1 0x9C)) .wr 2 0x100 1 with | .ok _ p => p | _ => []), ok_of_got (by decide +kernel)⟩, by decide +kernel, ok_some (by decide +kernel), by decide,
    ⟨_, _, rfl, by decide +kernel⟩⟩

/-- A two-byte first operand with a one-byte second one: l2 below l1. -/
theorem test_hyp_DecimalWide :
    let s := sDec 0x012C 2 0x3C
    (0 : BitVec 4).toNat < (1 : BitVec 4).toNat ∧ s.loadBytes (xc s) 2 0x100 2 = .ok s [0x01, 0x2C] ∧ packedVal [0x01, 0x2C] = some 12 ∧ (3 : Int) ≠ 0 ∧
    (Ready s 0 4 ∧ ∃ b, (sDec 0x5C 16 0).loadBytes (xc (sDec 0x5C 16 0)) 2 0x100 16 = .ok (sDec 0x5C 16 0) b ∧ packedVal b = some 5) ∧ ((ar s).psw.fom = false ∧ ∃ u v, s.storeBytes (xc s) 0x100 (packedBytes 16 false 25) = .ok u v) :=
  ⟨by decide, ok_of_got (by decide +kernel), by decide +kernel, by decide, ⟨ready_of (by decide +kernel), ⟨List.replicate 15 0 ++ [0x5C], ok_of_got (by decide +kernel), by decide +kernel⟩⟩, by decide +kernel, ok_some (by decide +kernel)⟩

theorem test_hyp_PackedReadsBack : 0 < 16 ∧ 16 ≤ 16 ∧ 10 ^ 31 - 1 < 10 ^ (2 * 16 - 1) := by decide

theorem test_hyp_EngineInstructions :
    let s := ready [(1, 0x100)]
    ReadyWith s 0 4 .none ∧ ((ar s).getG 1).toNat % 64 = 0 ∧ (∃ u, zExec false 0 2 s 0x100 = .done u) ∧ (∃ u, zExec true 0 2 s 0x100 = .done u) ∧ (∃ u, cExec 0 2 s 0x100 = .done u) ∧
    ((readyW (.unit 0 0x10000) []).core 0).wait = .unit 0 0x10000 :=
  ⟨readyWith_of (by decide +kernel), by decide +kernel, done_of_ended (by decide +kernel), done_of_ended (by decide +kernel), done_of_ended (by decide +kernel), by decide +kernel⟩

/-- A core whose unit of one byte the engine has taken, with the stream and the cipher context of its request block in line 1 (doublewords `l`); line 2 begins with the byte `src`. -/
def sEng (l : List Nat) (src : Nat) (c : CCtx) : State :=
  let s := regions (homedAt 0 (setf [(F.ZIP_ENG_POOL, 1, 0)] (readyW (.unitGot 1) [(1, 0x100)])))
  { s with chn := { s.chn with zctx := [(0x10000, ⟨0, 0, 0, [], [], false⟩)], cctx := [(0x10000, c)] },
           mem := { s.mem with lines := [(0, own 0), (1, own (BitVec.ofNat 2048 (l.foldl (fun a d => a * 2 ^ 64 + d) 0 * 2 ^ 1536))), (2, own (BitVec.ofNat 2048 (src * 2 ^ 2040))), (3, own 0)] } }

/-- What a request block's unit needs beside its engine: the block read, and its places in storage written one after the other. -/
def unitGo (s : State) (a : Agent) (b : Nat) (src n : Nat) (data : List Byte) (p q : W64 × List Byte) : Bool :=
  readyB s 0 4 (.unitGot 1) && decide (got (s.loadNat (xc s) 0x100 64) = some (s, b)) && decide (got (s.translate (xc s) 0x100 .rd) = some (s, 0x100)) &&
    decide (got (s.engLoad (xc s) a (BitVec.ofNat 64 src) n) = some (s, data)) &&
    (match s.placesOf (xc s) .wr p.1 p.2.length, s.placesOf (xc s) .wr q.1 q.2.length with
     | .ok s1 x, .ok s2 y => decide (s1 = s ∧ s2 = s) && (match s.engWrite a x p.2 with | .ok u _ => (got (u.engWrite a y q.2)).isSome | _ => false)
     | _, _ => false) &&
    (match s.engStore (xc s) a p.1 p.2 with | .ok u _ => (got (u.engStore (xc s) a q.1 q.2)).isSome | _ => false)

/-- A unit of CMPRS and one of XPAND, of one byte of a source of 100 bytes. -/
theorem test_hyp_EngineUnits :
    let z : ZCtx := ⟨0, 0, 0, [], [], false⟩
    let l := fun op => [op * 2 ^ 56, 0x200, 100, 0x300, 4096, 0, 0, 0]
    let s := fun op => sEng (l op) 0x1F ⟨0, 0, 0, none, [], false⟩
    let b := fun op => (l op).foldl (fun a d => a * 2 ^ 64 + d) 0
    let o := fun op => zUnit (op == 2) (b op) z [0x1F] false
    ∀ op ∈ [1, 2], unitGo (s op) ⟨128, 0, 4⟩ (b op) 0x200 1 [0x1F] (0x300, (o op).out) (0x128, toBytes 8 (o op).z.inDone ++ toBytes 8 (o op).z.outDone) = true ∧
      zRefusal (s op) (op == 2) (b op) = none ∧ (s op).chn.zctx.find (0x100 * 256) = some z ∧ (o op).code = 0 ∧ (o op).raw = 0 := by decide +kernel

/-- A unit of CIPH that encrypts, and one that stores plaintext. -/
theorem test_hyp_CipherUnits :
    let l := fun op => [op * 2 ^ 56 + 3 * 2 ^ 53, 0x200, 16, 0x300, 0, 0, 0, 0]
    let b := fun op => (l op).foldl (fun a d => a * 2 ^ 64 + d) 0
    let c : CCtx := ⟨0, 0, 0, some 0, [], false⟩
    let s := sEng (l 1) 0 c
    let d : CCtx := { c with tagOk := true }
    let t := sEng (l 2) 0 d
    (unitGo s ⟨128, 0, 5⟩ (b 1) 0x200 1 [0] (0x300, []) (0x138, toBytes 8 1) = true ∧ cRefusal s (b 1) = none ∧ s.chn.cctx.find 0x10000 = some c ∧ s.ctxKey 0x10000 c 0 0 3 false = some 0 ∧
      cCrypt 3 false false 0 0 [0] = []) ∧
    (unitGo t ⟨128, 0, 5⟩ (b 2) 0x200 1 [0] (0x300, []) (0x138, []) = true ∧ cRefusal t (b 2) = none ∧ t.chn.cctx.find 0x10000 = some d ∧ cCrypt 3 true false 0 0 [] = []) := by decide +kernel

/-- A subchannel that is valid for PID 0, idle, with or without status to fetch. -/
def sSch (inter : Bool) : State :=
  let s := setf [(F.VLX_BUDDY_BV, 1, 0), (F.VLX_CTL_SOLO, 1, 0), (F.VPT_STAT_STATE, 2, 0)] (ready [(1, 0), (2, 0x100)])
  { s with chn := { s.chn with sch := [(0, { Subch.reset with valid := true, def_ := BitVec.ofNat 256 (2 ^ 255 + 2 ^ 191), inter := inter })] } }
theorem test_hyp_Subchannel :
    let s := sSch true
    ReadyWith (readyW (.ccGot 2) [(1, 0), (2, 0x100)]) 0 4 (.ccGot 2) ∧ Ready s 0 4 ∧ 1 ≤ (ar s).psw.state.toNat ∧ ((ar s).getG 1 = BitVec.ofNat 64 0 ∧ ((ar s).getG 2).toNat % 64 = 0) ∧
    (s.loadNat (xc s) 0x100 64 = .ok s 0 ∧ orbBad 0 0 = false) ∧ ((ready []).sschCond 0 0 = some (3, none)) ∧ ((s.sch 0).valid = true ∧ fieldOf (s.sch 0).def_ 247 240 = 0 ∧ (s.sch 0).final = false ∧ (s.sch 0).inter = true) ∧
    (s.sschCond 0 0 = none ∧ (s.allocEntry.map (·.1)) = some 0 ∧ (s.allocEntry.bind (fun p => p.2.buddy)) = none) ∧
    (∃ p, s.checkStore (xc s) .wr 2 0x100 32 = .ok s p) ∧ (∃ u v, s.storeBytes (xc s) 0x100 (toBytes 32 (s.sch 0).scsw.toNat) = .ok u v) ∧ ((ready []).sch 0).valid = false :=
  ⟨readyWith_of (by decide +kernel), ready_of (by decide +kernel), by decide +kernel, by decide +kernel, ⟨ok_of_got (by decide +kernel), by decide +kernel⟩, by decide +kernel, by decide +kernel, by decide +kernel,
    ⟨(match (sSch true).checkStore (xc (sSch true)) .wr 2 0x100 32 with | .ok _ p => p | _ => []), ok_of_got (by decide +kernel)⟩, ok_some (by decide +kernel), by decide +kernel⟩

/-! Caches, coherence, fabric, memory -/

/-- The state of a complex with other storage. -/
def withMem (f : Mem → Mem) : State := { State.reset with mem := f State.reset.mem }

/-- Line 1 held in state `st`. -/
def holds (st : Moesi) : State := withMem (fun m => { m with lines := [(1, { own 0 with st := st })] })

/-- A range operation on line 1 up to address `last`. -/
def rop (next last : W64) : RangeOp := { lc := 0, kind := .clean, next := next, last := last, pid := 0, asm := 0, state := 2, pasce := 0, sasce := 0, psce := 0, submitted := true, page := none, counted := false }
def sRange (next last : W64) : State := regions (homedAt 0 (withMem (fun m => { m with range := [(0, [rop next last])] })))

def lockF : List (Fld × Nat × Nat) := [(F.CAC_LOCKCTL_EN, 1, 0), (F.CAC_LOCKCTL_SLICES, 1, 0)]

theorem test_hyp_CacheFill :
    let s := holds .m
    s.flag F.FLT_FENCE_CXF = false ∧ s.held 1 = some (own 0) ∧ (own 0).pid.toNat = 0 ∧ sliceOf (1 * 256) = 1 ∧ (222 < 224 ∧ 222 % 4 = 2) ∧ (0 < 224 ∧ 0 % 4 < 2) ∧
    ((withMem (fun m => { m with tags := [(tagKey 2 1 0, ⟨1, 0⟩)] })).mem.wayOf 2 (setOf 2 1) 1 16).isSome = true ∧ (s.mem.wayOf 2 (setOf 2 1) 1 16).isSome = false := by decide +kernel

/-- The range engine's translation of its next line, with what then becomes of the line. -/
def rangeGo (s : State) (o : RangeOp) : Bool :=
  match s.rangeTrans 0 o (cmoNeed o.kind) with
  | .ok z abs => let o' := (z.mem.range.get [] 0).headD o; cmoEnded (z.cmoCore o'.lc 64 o'.pid.toNat 0 (abs / 256) o'.kind)
  | _ => false
theorem test_hyp_CacheRange :
    let s := sRange 0x100 0x1FF
    let y := sRange (2 ^ 56) (2 ^ 56)
    (s.flag F.FLT_FENCE_CXF = false ∧ s.mem.range.get [] 0 = [rop 0x100 0x1FF] ∧ (rop 0x100 0x1FF).submitted = true) ∧
    rangeGo s (rop 0x100 0x1FF) = true ∧ ((0x100 : W64).toNat / 256 = (0x1FF : W64).toNat / 256 ∧ (0x100 : W64).toNat / 256 ≠ (0x200 : W64).toNat / 256) ∧
    (∃ u f, y.rangeTrans 0 (rop (2 ^ 56) (2 ^ 56)) (cmoNeed .clean) = .fail u f) ∧ State.reset.mem.range.get [] 3 = [] :=
  ⟨by decide +kernel, by decide +kernel, by decide +kernel, ⟨_, _, rfl⟩, by decide +kernel⟩

theorem test_hyp_CacheWays :
    let s := State.reset
    (s.lockBad 3 0x800000 = false ∧ s.flag F.CAC_LOCKCTL_EN 3 = false ∧ s.lockBad 3 0xFF800000 = true) ∧ ((setf lockF s).flag F.CAC_LOCKCTL_EN 0 = true ∧ (setf lockF s).flag F.CAC_LOCKCTL_READY 0 = false) ∧
    ((s.reg 0x600000 ^^^ 1) &&& s.reg 0x600008 = 0) ∧
    (((s.setReg 0x600008 0x8000000000000000).reg 0x600008).getLsbD 63 = true ∧ (s.reg 0x600000).getLsbD 63 = false ∧ ((s.setReg 0x600000 0x8000000000000000).reg 0x600000).getLsbD 63 = true) ∧
    (s.wayRetired 31 15 = false ∧ ((s.sparedUnit 0x31 (17 * 31 + s.physWay 31 15)).dropWays 31 (fun k => k == 15)).flag F.CAC_SLC_SPUSED 31 = false) ∧
    (let z := s.setFlag F.CAC_SLC_SPUSED true 31
     let w := (z.sparedUnit 0x31 (17 * 31 + z.physWay 31 15)).dropWays 31 (fun k => k == 15)
     w.flag F.CAC_SLC_SPUSED 31 = true ∧ w.locks 31 = []) ∧
    (bits (s.fld F.COH_DIRSTAT_RETIRED) 15 15 ≠ 1 ∧ (s.evictWay 15).mem.dir.any (fun p => p.2.way == 15) = false ∧ (s.evictWay 15).flag F.COH_DIRSTAT_SPUSED = false ∧
      ((setf [(F.COH_DIRSTAT_SPUSED, 1, 0)] s).evictWay 15).flag F.COH_DIRSTAT_SPUSED = true) ∧
    (let d := withMem (fun m => { m with dir := [(1, { st := .s, busy := true, owner := 0, coarse := false, ptrs := [3], gvec := 0, way := 15 })] })
     (d.evictWay 15).mem.dir.any (fun p => p.2.way == 15) = true ∧ (d.evictWay 15).svc.sparePend.contains (0x40, d.dirPhys 15) = false) := by
  decide +kernel

/-- A transaction of the home for line 1. -/
def txn (req : Option Req) (fwd : Option Nat) : Txn :=
  { req := req, acks := [3], owner := none, fwd := fwd, dataWait := false, answer := none, sent := false, unblk := true, wbSeen := false, victimFor := none, remote := false, held := false, lock := false }
def sTxn : State := homedAt 0 (withMem (fun m => { m with txns := [(1, txn (some (Req.mk0 .rds 3 0 1 0 0)) (some 3))] }))
def ent (st : DirSt) : DirEnt := { st := st, busy := false, owner := 3, coarse := false, ptrs := [], gvec := 0 }
def sDir (l : Tab DirEnt) : State := regions (homedAt 0 (withMem (fun m => { m with dir := l })))

theorem test_hyp_HomeRequests :
    let s := homedAt 0 State.reset
    (3 < 1024 ∧ 3 ≠ s.cxid ∧ s.flag F.FLT_FENCE_CXF = false ∧ s.homeOf (1 * 256) = some s.cxid ∧ (s.setFlag F.FLT_FENCE_CXF true).flag F.FLT_FENCE_CXF = true) ∧ (255 ≤ 255 ∧ 255 < 256 ∧ 240 % 16 = 0 ∧ 248 % 8 = 0 ∧ 4 % 8 ≠ 0 ∧ 1 ≤ 11 ∧ 11 ≤ 11) ∧
    (sTxn.mem.txns.find 1 = some (txn (some (Req.mk0 .rds 3 0 1 0 0)) (some 3)) ∧ (txn none (some 3)).fwd = some 3 ∧ (Req.mk0 .rds 3 0 1 0 0).hdr.src = 3 ∧ (Req.mk0 .rds 3 0 1 0 0).kind = .rds) ∧
    (let d := sDir [(1, ent .x)]
     d.mem.wbQ = [] ∧ d.mem.wbUsed < 256 ∧ d.mem.txns.find 1 = none ∧ d.mem.late = [] ∧ d.homeOf 256 = some d.cxid ∧ d.mem.dir.find 1 = some (ent .x) ∧ (ent .x).st ≠ .s ∧ (ent .x).owner = 3 ∧
       (d.updMem (fun z => { z with wbUsed := z.wbUsed + 1 })).admits 256 0 (wbNeed 0) ((0 : Nat) == 6) = true) ∧ (sDir []).mem.dir.find 1 = none ∧
    (let d := homedAt 0 (withMem (fun m => { m with wbUsed := 256 }))
     d.homeOf 256 = some d.cxid ∧ 256 ≤ d.mem.wbUsed) ∧ ((txn none (some 3)).wbSeen = false ∧ (Req.mk0 (.cmo .clean) 3 0 1 0 0).kind = .cmo .clean) ∧
    ((withMem (fun m => { m with kept := [5] })).mem.kept = 5 :: [] ∧ State.reset.mem.kept = []) := by decide +kernel

def wbuf1 : WbEnt := { data := 0, poison := false, pid := 0, stype := 0, fromM := true }
theorem test_hyp_Snoops :
    let s := homedAt 3 (holds .m)
    (3 < 1024 ∧ 3 ≠ s.cxid ∧ s.flag F.FLT_FENCE_CXF = false ∧ s.homeOf (1 * 256) = some 3) ∧
    ((holds .m).held 1 = some (own 0) ∧ (own 0).st ≠ .s ∧ (own 0).st.dirty = true ∧ (own 0).st = .m) ∧ ((holds .e).held 1 = some { own 0 with st := .e } ∧ (holds .o).held 1 = some { own 0 with st := .o } ∧ (holds .s).held 1 = some { own 0 with st := .s }) ∧
    (let w := withMem (fun m => { m with wbuf := [(1, wbuf1)] })
     w.held 1 = none ∧ w.mem.wbuf.find 1 = some wbuf1) ∧ (State.reset.held 1 = none ∧ State.reset.mem.wbuf.find 1 = none ∧ State.reset.mem.wbuf.has 1 = false) ∧ Moesi.e.dirty = false := by decide +kernel

/-- An outstanding request of this complex for line 1. -/
def req1 (k : ReqKind) (st : Transient) (backoff stopped : Bool) : ReqEnt :=
  { req := { Req.mk0 k 0 0 1 0 0 with hdr := { src := 0, tag := 0, line := 1, pid := 0, stype := 0, starve := stopped } }, st := st, sends := 8, backoff := backoff, stopped := stopped, born := 0, due := 0 }
def sReq (q : ReqEnt) : State := homedAt 3 (withMem (fun m => { m with reqs := [(1, q)], lines := [(1, { own 0 with st := .o })] }))
theorem test_hyp_Answers :
    let d : DataRsp := { data := 0, poison := false, rights := 7 }
    let f := fun (k : ReqKind) (st : Transient) => sReq (req1 k st false false)
    (3 ≠ (f .rds .isD).cxid ∧ (f .rds .isD).mem.txns.find 1 = none ∧ (f .rds .isD).mem.reqs.find 1 = some (req1 .rds .isD false false) ∧ d.poison = false) ∧
    ((req1 .rdo .imD false false).st = .imD ∧ (req1 .upg .smG false false).req.hdr.pid = 0 ∧ (f .upg .smG).held 1 = some { own 0 with st := .o }) ∧ ((f .rdsnap .snap).outst 1 = some (1, req1 .rdsnap .snap false false)) ∧
    ((withCore { runs (base []) with wait := .atom 1 }).core 0).wait = .atom 1 ∧ ((f .wrpl .wait).outst 1 = some (1, req1 .wrpl .wait false false) ∧ (31 : Nat) < 32) ∧
    ((sReq (req1 .rds .isD true false)).outst 1 = some (1, req1 .rds .isD true false) ∧ (sReq (req1 .rds .isD true false)).homeOf 256 = some 3) ∧
    (let q := req1 .rds .isD true true
     (sReq q).mem.reqs = [(1, q)] ∧ q.st.open = true ∧ q.stopped = true ∧ q.req.hdr.starve = true ∧ (sReq q).homeOf (q.req.hdr.line * 256) = some 3) := by decide +kernel

/-- Table COH-2, Table COH-1: GNT on an O copy; the store that asked for it makes the copy M with its byte, and UNBLK follows. -/
theorem test_gnt_store :
    let s := (sReq (req1 .upg .smG false false)).updCore 0 (fun c => { c with stbuf := [{ addr := 256, data := BitVec.ofNat 512 (0x5A * 2 ^ 504), mask := 1, pid := 0, conf := true }] })
    (match execGnt 3 1 0 7 s with
      | .next t => (match t.held 1 with | some c => c.st == .m && lineByte c.data 0 == 0x5A | none => false) && (t.core 0).stbuf.isEmpty && t.mem.reqs.isEmpty
      | _ => false) = true := by decide +kernel

/-- A Felard port that is up, with link state `x`. -/
def felard (x : FPort) : State := (setf [(F.FAB_PSTAT_STATE, 2, 0)] State.reset).setFport 0 x
/-- A header of type `t` for complex `dst` with link sequence number `seq`, sealed. -/
def hdr1 (t dst seq : Nat) : BitVec 256 :=
  let h := putField (putField (putField (0 : BitVec 256) 255 248 t) 239 230 dst) 143 136 seq
  putField h 31 0 (pktCrc h none)

theorem test_hyp_Packets :
    let s := felard FPort.reset
    let h := hdr1 1 0 0
    let ok := fun (h : BitVec 256) => let t := s.flack 0 (BitVec.ofNat 8 (fieldOf h 135 128)); (t.setFport 0 { t.fport 0 with rxSeq := (t.fport 0).rxSeq + 1, freed := (t.fport 0).freed.upd 0 (laneOf h) (fun n => n + 1) }).ctlFlit 0 1 (t.fport 0).rxSeq.toNat
    (s.flag F.FLT_FENCE_CXF = false ∧ s.portUp 0 = true ∧ (fieldOf h 242 242 == 1) = (none : Option Line).isSome) ∧ (fieldOf (h ^^^ 1) 31 0 ≠ pktCrc (h ^^^ 1) none ∧ fieldOf h 31 0 = pktCrc h none) ∧
    (BitVec.ofNat 8 (fieldOf h 143 136) = (s.fport 0).rxSeq ∧ hdrDst h = (ok h).cxid ∧ typeOk (hdrType h) = true ∧ hdrDst (hdr1 1 5 0) ≠ (ok (hdr1 1 5 0)).cxid ∧ typeOk (hdrType (hdr1 0x7F 0 0)) = false) ∧
    (hdrType (hdr1 0x35 0 0) = 0x35 ∧ (match exec (.invack (hdrSrc (hdr1 0x35 0 0)) 0) (ok (hdr1 0x35 0 0)) with | .next _ => true | _ => false) = true) ∧
    ((127 : BitVec 8) ≠ (s.fport 0).rxSeq ∧ ((127 : BitVec 8) - (s.fport 0).rxSeq).toNat < 128 ∧ 128 ≤ ((128 : BitVec 8) - (s.fport 0).rxSeq).toNat) := by decide +kernel

/-- A control flit of the code, sealed. -/
def flit1 (code : Nat) : BitVec 256 :=
  let f := putField (0 : BitVec 256) 255 248 code
  putField f 31 0 (crcIscsi ((toBytes 32 f.toNat).take 28)).toNat
theorem test_hyp_Links :
    let good := fun (f : BitVec 256) => fieldOf f 31 0 = (crcIscsi ((toBytes 32 f.toNat).take 28)).toNat
    let s := felard FPort.reset
    (good (flit1 1) ∧ good (flit1 2) ∧ good (flit1 3) ∧ good (flit1 4) ∧ ¬good (flit1 1 ^^^ 1) ∧ fieldOf (flit1 4) 255 248 = 4) ∧
    (let r : FPort := { FPort.reset with resends := 8, replay := [⟨0, 0, none⟩], retrainFails := 2 }
     (felard r).portUp 0 = true ∧ 8 ≤ ((felard r).fport 0).resends ∧ ((felard r).fport 0).replay = [⟨0, 0, none⟩] ∧ 2 ≤ ((felard r).fport 0).retrainFails) ∧
    ((s.fport 0).retrainFails < 2 ∧ (s.fport 0).badLanes = [] ∧ (s.fport 0).replay = [] ∧ (s.fport 0).waitq = []) ∧
    (let b : FPort := { FPort.reset with badLanes := [0, 1, 2] }
     b.badLanes.contains 2 = true ∧ b.badLanes.contains 3 = false ∧ b.badLanes.length = 3) ∧
    (let u := (((setf [(F.FAB_PSTAT_STATE, 1, 0)] State.reset).setFld F.FAB_PSTAT_RCX 1 0).setFld F.FAB_PSTAT_RPORT 6 0)
     (setf [(F.FAB_PSTAT_STATE, 1, 0)] State.reset).fld F.FAB_PSTAT_STATE 0 = 1 ∧ u.wire u.cxid 0 = some (1, 6) ∧ u.wire u.cxid 0 ≠ some (2, 6) ∧ (0 : BitVec 32).toNat = u.fld F.FAB_DIGEST_DIGEST ∧ State.reset.fab.discovered = false) := by
  decide +kernel
theorem test_hyp_LaneSpare :
    let spare := fun (x : FPort) => let s := felard x
      ((((((s.setFport 0 { s.fport 0 with badLanes := [3], paused := false }).ctlFlit 0 4 0).setFlag F.FAB_PSTAT_SPUSED true 0).setFld F.FAB_PSTAT_SPLANE 3 0).consume 5).flt 5 2 (0 * 8 + 3))
    let lost := fun (l : List Nat) => let s := felard { FPort.reset with badLanes := l }
      ((s.setFport 0 { s.fport 0 with badLanes := l ++ [4], paused := false }).setFld F.FAB_PSTAT_STATE 3 0).flt 5 3
    ((spare FPort.reset).fport 0).replay = [] ∧ ((spare { FPort.reset with replay := [⟨0, 0, none⟩] }).fport 0).replay = [⟨0, 0, none⟩] ∧
    (∀ l ∈ [[0], [0, 1]], ((felard { FPort.reset with badLanes := l }).fport 0).badLanes.contains 4 = false ∧ (l.length = 1 ∨ l.length = 2) ∧ (felard { FPort.reset with badLanes := l }).fld F.FAB_PSTAT_STATE 0 = 2 ∧
      ((lost l).fport 0).replay = []) := by decide +kernel
theorem test_hyp_Credits :
    let x : FPort := { FPort.reset with granted := [(44, 15)] }
    FPort.reset.granted.wf 0 = true ∧ x.granted.wf 0 = true ∧ x.granted.get 0 44 < 16 ∧ x.granted.get 0 0 < 16 := by decide +kernel
theorem test_hyp_Disc :
    let s := setf [(F.FAB_PSTAT_STATE, 1, 0)] State.reset
    let v := fun (b : Bool) => let s : State := { s with fab := { s.fab with discovered := b } }
      let u := (s.setFld F.FAB_PSTAT_RCX 1 0).setFld F.FAB_PSTAT_RPORT 6 0
      let w := (u.setFport 0 { u.fport 0 with loadOnly := false }).setFld F.FAB_PSTAT_STATE 2 0
      w.ctlFlit 0 1 ((w.fport 0).rxSeq - 1).toNat
    (s.fport 0).loadOnly = false ∧ (v true).fab.discovered = true ∧ (v false).fab.discovered = false ∧ (1 : BitVec 32).toNat ≠ s.fld F.FAB_DIGEST_DIGEST := by decide +kernel

theorem test_hyp_Wiring :
    let s := setf [(F.FAB_SYS_WALLS, 1, 0), (F.FAB_SYS_COURSES, 255, 0), (F.FAB_SYS_POSNS, 255, 0), (F.FAB_PSTAT_STATE, 2, 0), (F.FAB_PSTAT_STATE, 2, 7)] State.reset
    (1023 < 1024 ∧ 13 < 14) ∧ (1 ≠ s.cxid ∧ cxWall 1 = cxWall s.cxid ∧ cxCourse 1 = cxCourse s.cxid ∧ s.linkUp (mkCx (cxWall s.cxid) (cxCourse s.cxid) (cxPos s.cxid)) (coursePort (cxPos s.cxid) (cxPos 1)) = true) ∧
    (cxWall 8 = cxWall s.cxid ∧ cxCourse 8 ≠ cxCourse s.cxid ∧ cxPos 8 = cxPos s.cxid ∧ s.linkUp (mkCx (cxWall s.cxid) (cxCourse s.cxid) (cxPos s.cxid)) (wallPort (cxCourse s.cxid) (cxCourse 8)) = true) := by decide +kernel

theorem test_hyp_Fabric :
    let s := State.reset
    let m : State := { s with fab := { s.fab with master := some 0 } }
    let far : State := { setf [(F.FAB_SYS_WALLS, 1, 0), (F.FAB_SYS_COURSES, 255, 0), (F.FAB_SYS_POSNS, 255, 0), (F.FAB_PSTAT_STATE, 2, 0)] s with fab := { s.fab with master := some 1, missed := 4 } }
    (3 ≠ s.cxid ∧ cxWall 1 = cxWall s.cxid ∧ 1 ≠ s.cxid ∧ s.fab.discovered = false) ∧ (s.isMaster = false ∧ s.fld F.FAB_TBSTAT_PARENT = 0 ∧ (setf [(F.FAB_TBSTAT_PARENT, 3, 0)] s).fld F.FAB_TBSTAT_PARENT = 3) ∧
    (((withCore { runs (base []) with wait := .signal 0 }).core 0).wait = .signal 0 ∧ ((ready []).core 0).wait = .none ∧ ((withCore { runs (base []) with wait := .tlbAcks [3] }).core 0).wait = .tlbAcks [3]) ∧
    (s.mem.tlbWaits = [] ∧ s.tlbLeft .everything 0 = ([], []) ∧ ((withCore { runs (base []) with stbuf := [⟨0x140, 3, 0, 0, true⟩] }).tlbLeft .everything 0).1 ≠ []) ∧ (let z := setf [(F.FAB_SYS_WALLS, 3, 0), (F.FAB_SYS_COURSES, 1, 0), (F.FAB_SYS_POSNS, 3, 0)] s
     z.cxExists 1 = true ∧ cxWall 64 ≠ cxWall s.cxid ∧ z.cxExists 64 = true) ∧
    (m.fab.master = some m.cxid ∧ m.isMaster = true) ∧ (far.fab.master = some 1 ∧ 1 ≠ far.cxid ∧ far.route 1 = some 0 ∧ 4 ≤ far.fab.missed ∧ far.flag F.FAB_TBSTAT_HOLD = false) ∧
    (let z : State := { setf [(F.VLX_BUDDY_BV, 1, 0), (F.VLX_BUDDY_BCX, 5, 0), (F.FAB_PSTAT_STATE, 2, 0)] s with fab := s.fab }
     let u : State := { z.seen z.cxid with fab := { (z.seen z.cxid).fab with discovered := true } }
     u.fld F.BOO_STAT_STEP ≠ 11 ∧ u.minority = false ∧ u.flag F.VLX_BUDDY_BV = true ∧ u.present (u.fld F.VLX_BUDDY_BCX) = false) ∧
    (let z : State := setf [(F.VLX_BUDDY_BV, 1, 0), (F.VLX_BUDDY_BCX, 0, 0)] s
     let u : State := { z.seen z.cxid with fab := { (z.seen z.cxid).fab with discovered := true } }
     u.minority = false ∧ u.present (u.fld F.VLX_BUDDY_BCX) = true ∧ 0 = u.cxid ∧ 7 ≠ u.cxid ∧ u.fab.discovered = true) := by decide +kernel

theorem test_hyp_Memory :
    let s := State.reset
    let unit := devUnit 15 1 1 19
    let p : State := { s with svc := { s.svc with sparePend := [(0x60, unit)] } }
    let busy := setf [(F.MEM_CHSTAT_SPBUSY, 1, 15), (F.MEM_CHSTAT_SPDEV, 19, 15)]
    (15 < 16 ∧ s.populated 15 = true ∧ s.fld F.MEM_CHSTAT_PWR 15 ≠ 3 ∧ (s.mc 15).selfRef = [] ∧ (∀ l, s.absLine (s.chanOff 15 (s.fld F.MEM_CHSTAT_SCRPTR 15)) = some l → s.mem.txns.has l = false)) ∧
    ((setf [(F.MEM_CHSTAT_PWR, 3, 15)] s).fld F.MEM_CHSTAT_PWR 15 = 3 ∧ s.fld F.MEM_CHSTAT_PWR 15 ≠ 3) ∧
    (p.svc.sparePend.contains (0x60, unit) = true ∧ p.flag F.MEM_CHSTAT_SPBUSY 15 = false ∧ bits (p.fld F.MEM_CHSTAT_SPUSED 15) 3 3 ≠ 1 ∧ bits ((setf [(F.MEM_CHSTAT_SPUSED, 8, 15)] p).fld F.MEM_CHSTAT_SPUSED 15) 3 3 = 1 ∧
      (p.mc 15).spares.get 32 3 ≠ 19 ∧ ((p.setMc 15 { McSt.reset with spares := [(3, 19)] }).mc 15).spares.get 32 3 = 19) ∧
    (let c := (busy p).setMc 15 { McSt.reset with copyRank := some 3 }
     (c.mc 15).copyRank = some 3 ∧ c.flag F.MEM_CHSTAT_SPBUSY 15 = true ∧ c.fld F.MEM_CHSTAT_SPDEV 15 = 19 ∧ c.fld F.MEM_CHSTAT_SPDEV 15 ≠ 18) ∧
    (let g := setf [(F.MEM_POP_GIB, 512, 0)] s
     let c := fun n => (busy g).setMc 15 { McSt.reset with copyRank := some 3, copyPtr := n }
     ((c 0).mc 15).copyPtr < (c 0).rankLines ∧ (c g.rankLines).rankLines ≤ ((c g.rankLines).mc 15).copyPtr) ∧
    (let y := setf [(F.MEM_SCRUB_PDIDLE, 1, 0)] s
     y.fld F.MEM_SCRUB_PDIDLE ≠ 0 ∧ y.ranks.contains 0 = true ∧ (y.mc 15).selfRef.contains 0 = false ∧ (setf [(F.MEM_SCRUB_PDIDLE, 0, 0)] s).fld F.MEM_SCRUB_PDIDLE = 0) ∧
    (s.rgnRefused 15 62 2 0x40 = true ∧ s.rgnRefused 15 62 2 0x80 = false ∧ (∀ k, k < 16 → s.populated k = true → s.rgnRefused k 62 2 0x80 = false)) :=
  ⟨⟨by decide, by decide +kernel, by decide +kernel, by decide +kernel, by intro l _; rfl⟩, by decide +kernel, by decide +kernel, by decide +kernel, by decide +kernel, by decide +kernel, by decide +kernel⟩

/-! Velex engines, subchannels, the journal, ports -/

/-- What an access of an engine yields, when it does. -/
def veGot {α : Type} (r : VeAcc α) : Option (State × α) := match r with | .ok s v => some (s, v) | _ => none
theorem ve_of_got {α : Type} {r : VeAcc α} {s : State} {v : α} (h : veGot r = some (s, v)) : r = .ok s v := by
  cases r with
  | ok t w => simp only [veGot, Option.some.injEq, Prod.mk.injEq] at h; rw [h.1, h.2]
  | _ => simp [veGot] at h

/-- Context 15 of engine 67 runs, with registers `e` and the rest as in `c`; other channel state as `f` says. -/
def sVe (e : List (Nat × W32)) (c : VeCtx) (f : Chn → Chn := fun x => x) : State :=
  let s := setf [(F.VEN_ENG_BUSY, 1, 67)] State.reset
  { s with chn := f { s.chn with ctx := [(1087, { c with st := .running, e := e })] } }
def sV : State := sVe [(1, 5), (2, 0xFFFC)] VeCtx.reset

theorem veReady_sVe (e : List (Nat × W32)) (c : VeCtx) : VeReady (sVe e c) 67 15 := ⟨by decide, by decide, rfl, by simp [sVe, State.flag, State.fld, State.reg]; decide +kernel, by simp [sVe, setf, State.setFld, State.setReg, State.reset]⟩

theorem test_hyp_EngineArithmetic :
    VeReady (sVe [] { VeCtx.reset with prods := [7, 9] }) 67 15 ∧ ((sVe [] { VeCtx.reset with prods := [7, 9] }).veCtx 1087).prods = [7, 9] ∧ (31 : BitVec 16).toNat < 32 ∧ 32 ≤ (32 : BitVec 16).toNat ∧ (1 : BitVec 8) ≠ 0 :=
  ⟨veReady_sVe _ _, by decide +kernel⟩
theorem test_hyp_EngineAccesses :
    let c := sV.veCtx 1087
    VeReady sV 67 15 ∧ (sV.veRead 67 15 c 0 0xFFFC 4 4 = .ok sV [0, 0, 0, 0] ∧ sV.veRead 67 15 c 0 0xFFFE 2 2 = .ok sV [0, 0] ∧ sV.veRead 67 15 c 0 0xFFFF 1 1 = .ok sV [0]) ∧
    (∃ u, sV.veWrite 67 15 c 0 0xFFFC 4 (toBytes 4 7) = .ok u () ∧ (u.veCtx 1087).st = .running) ∧ ((12 : BitVec 4).toNat + (3 : BitVec 3).toNat ≤ 15 ∧ 15 < (13 : BitVec 4).toNat + (3 : BitVec 3).toNat) ∧
    ((((c.e.get 0 2).setWidth 20 + (0 : BitVec 16).signExtend 20 : BitVec 20).toNat % 4 = 0 ∧ ((c.e.get 0 2).setWidth 20 + (0 : BitVec 16).signExtend 20 : BitVec 20).toNat < 65536)) ∧
    ((0xFFFF : BitVec 20).toNat % 4 ≠ 0 ∧ 65536 ≤ (0x10000 : BitVec 20).toNat ∧ (1 : BitVec 2) ≠ 0) :=
  ⟨veReady_sVe _ _, ⟨ve_of_got (by decide +kernel), ve_of_got (by decide +kernel), ve_of_got (by decide +kernel)⟩, ⟨_, ve_of_got rfl, by decide +kernel⟩, by decide +kernel⟩
theorem test_hyp_SramReadsBack : 0xFFFC + ([1, 2, 3, 4] : List Byte).length ≤ 65536 := by decide

/-- The image of a journal entry in state `st` for exchange `exid` at step `step`, sealed. -/
def img1 (st exid step : Nat) : BitVec 512 := jseal (jput (jput (jput 0 0 63 60 st) 0 23 0 exid) 1 63 48 step)
/-- Exchange 7 of this complex, on port 0. -/
def ex7 : Exch := { Exch.reset with idx := 7, eng := 67, vp := 0 }
def jst (st : Nat) : JEnt := { img := img1 st 7 3, quar := false, outst := false, tries := 0, fin := none }
/-- Channel state with exchange `x` under key 7 and its entry in state `st`. -/
def withEx (x : Exch) (j : JEnt) (c : Chn) : Chn := { c with exch := [(7, x)], jrn := [(7, j)] }
def sCop (f : Chn → Chn) : State := sVe [(1, 5), (2, 1), (3, 4096), (4, 0xFFC0), (5, 61440), (6, 61441), (7, 4097)] { VeCtx.reset with exid := 7 } (fun c => f (withEx ex7 (jst 1) c))
theorem test_hyp_EngineControl :
    VeReady sV 67 15 ∧ (13 : BitVec 4).toNat < 14 ∧ 14 ≤ (14 : BitVec 4).toNat ∧ (1 : BitVec 4) ≠ 0 ∧ (1 ≤ (3 : BitVec 4).toNat ∧ (3 : BitVec 4).toNat ≤ 3) ∧ 3 < (4 : BitVec 4).toNat ∧ sV.chn.veMoving.contains 67 = false ∧
    ([(0, 1), (0, 13), (0, 18), (1, 0), (0x10, 0), (0x17, 0), (0x18, 0), (0x1C, 0), (0x20, 0), (0x23, 0), (0x26, 2), (0x38, 1), (0x3B, 1), (0x3F, 0), (0, 0), (0x39, 4)].all (fun p =>
      let w : W32 := BitVec.ofNat 32 (p.1 * 2 ^ 26 + p.2)
      let s := sVe [] VeCtx.reset (fun c => { c with iram := [(0, w)] })
      s.chn.iram.get 0 (s.veCtx 1087).pc.toNat == w && w.extractLsb' 26 6 == BitVec.ofNat 6 p.1 && w.extractLsb' 0 6 == BitVec.ofNat 6 p.2)) = true ∧
    (let s := sCop (fun c => c); s.exOf (s.veCtx 1087).exid = some ex7 ∧ s.chn.veMoving.contains 67 = false) :=
  ⟨veReady_sVe _ _, by decide +kernel⟩
def hStream : Handle := { exid := 7, kind := 0, state := 0, zlib := false, slot := 21, mode := 0 }

theorem test_hyp_EngineCoprocessor :
    let s := setf [(F.ZIP_ENG_PORT, 0, 0)] (sCop (fun c => { c with handles := [(5, hStream), (6, { hStream with kind := 1 })], keys := [(5, { KSlot.reset with v := true, modes := 1, enc := true })] }))
    let c := s.veCtx 1087
    (c.st = .running ∧ s.flag F.FLT_FENCE_CXF = false ∧ s.exOf c.exid = some ex7 ∧ s.portEngine ex7.vp = some 0 ∧ s.fld F.ZIP_ENG_STREAMS 0 < 64) ∧
    (s.chn.handles.find (c.get 1) = some hStream ∧ hStream.exid = c.exid ∧ hStream.kind = 0 ∧ hStream.slot < 22 ∧ s.chn.handles.find 6 = some { hStream with kind := 1 } ∧ s.chn.handles.find (c.get 2) = none) ∧
    (let q := s.chn.keys.get KSlot.reset (c.get 1 % 16384)
     1 ≤ c.get 2 % 8 ∧ q.v = true ∧ q.pid = c.pid ∧ q.modes.getLsbD (c.get 2 % 8 - 1) = true ∧ q.enc = true) ∧
    (sV.chn.keys.get KSlot.reset 5).v = false ∧ sV.exOf (sV.veCtx 1087).exid = none ∧
    (c.get 3 ≤ 4096 ∧ c.get 5 % 2 ^ 20 + c.get 3 ≤ 65536 ∧ c.get 3 % 2 = 0 ∧ 4096 < c.get 7 ∧ 65536 < c.get 6 % 2 ^ 20 + c.get 3) ∧ (c.get 4 % 2 ^ 20 + 64 ≤ 65536) := by decide +kernel

/-- JSTEP: images of state 4 and of state 2 in the SRAM, an entry of state 1, a step that a buddy must confirm. -/
def sStep (st : Nat) : State := setf [(F.VLX_BUDDY_BV, 1, 0), (F.VLX_STAT_BST, 1, 0), (F.VLX_BUDDY_BCX, 5, 0)] (sCop (fun c => { c with sram := [(67 * 65536 + 0xFFC0, BitVec.ofNat 8 (16 * st))] }))
theorem test_hyp_Jstep :
    let i := fun (s : State) => (BitVec.ofNat 512 (packBytes (s.sramRead 67 0xFFC0 64)) : Img)
    let s := sStep 2
    let u := s.writeStep ex7 (fun j => j)
    jState (i (sStep 4)) = 4 ∧ jState (s.img ex7) = 1 ∧ jState (i s) = 2 ∧ (u.jent ex7.mirror ex7.idx).outst = true ∧ (u.veCtx 1087).st = .running ∧ (s.jent ex7.mirror ex7.idx).outst = false ∧
    (let a := setf [(F.VLX_BUDDY_BV, 0, 0)] s
     (i a) = i s ∧ a.exOf (a.veCtx 1087).exid = some ex7 ∧ jState (a.img ex7) = 1 ∧ (a.jent ex7.mirror ex7.idx).outst = false ∧ ((a.writeStep ex7 (fun j => j)).jent ex7.mirror ex7.idx).outst = false) := by decide +kernel

theorem test_hyp_EngineEvents :
    let x : Exch := { ex7 with ev := 1 }
    let s : State := { State.reset with chn := withEx x (jst 1) State.reset.chn }
    (s.chn.exch.find (exKey false 7) = some x ∧ x.ipl = false ∧ s.flag F.FLT_FENCE_CXF = false ∧ (setf [(F.VEN_ENG_ROLE, 0, 67)] s).veActive x.eng = true ∧ s.chn.veMoving.contains x.eng = false ∧ x.ev ≠ 0 ∧ x.running = false ∧
      (List.range 16).find? (fun n => (s.veCtx (x.eng * 16 + n)).st == .free && !s.veOpen (x.eng * 16 + n)) = some 0) ∧
    ({ s.chn with pdsStop := insertNat 15 s.chn.pdsStop }.pdsStop = [15] ∧ ((s.flt 1 6 0).exOn 0) = [exKey false 7]) ∧
    (let p : State := setf [(F.VEN_CTXSEL_ENG, 67, 0), (F.VEN_CTXSEL_CTX, 15, 0)] { s with chn := { s.chn with ctx := [(1087, { VeCtx.reset with st := .parked })], veMoving := [67] } }
     (p.veCtx 1087).st = .parked ∧ p.chn.veMoving.contains 67 = true ∧ p.fld F.VEN_CTXSEL_ENG = 67 ∧ p.fld F.VEN_CTXSEL_CTX = 15 ∧ p.fld F.VEN_CTXSEL_INDEX < 16 ∧ (s.veCtx 0).st ≠ .parked) ∧
    (let r := fun v => setf [(F.VEN_ENG_ROLE, v, 67)] s
     (r 0).fld F.VEN_ENG_ROLE 67 = 0 ∧ (r 1).fld F.VEN_ENG_ROLE 67 = 1 ∧ (r 2).fld F.VEN_ENG_ROLE 67 = 2 ∧ (setf [(F.VEN_ENG_BUSY, 1, 67)] s).fld F.VEN_ENG_BUSY 67 ≠ 0) := by decide +kernel
theorem test_hyp_Release :
    let p : State := setf [(F.VEN_CTXSEL_ENG, 67, 0), (F.VEN_CTXSEL_CTX, 15, 0)] { State.reset with chn := { State.reset.chn with ctx := [(1087, { VeCtx.reset with st := .parked })] } }
    let v : W64 := BitVec.ofNat 64 (2 ^ 63 + 67 * 2 ^ 13 + 15 * 2 ^ 9)
    let u := p.wrReg .core F.VEN_CTXSEL_ENG.base v
    (0 : W64).getLsbD 63 = false ∧ v.getLsbD 63 = true ∧ fieldOf v 19 13 = u.fld F.VEN_CTXSEL_ENG ∧ u.fld F.VEN_CTXSEL_CTX = 15 ∧ (u.veCtx (67 * 16 + 15)).st = .parked := by decide +kernel

def desc1 : PdsDesc := { exid := 7, cmd := 2, flags := 0, count := 16, daddr := 0x100, zh := 0xFFFF, ch := 0xFFFF, nseq := 0, cmdix := 0, devcmd := 0 }
/-- A context that a full queue has stalled, its descriptor a READ on port 0 without handles. -/
def ctxStalled : VeCtx := { VeCtx.reset with st := .waitPds, exid := 7, desc := [(0, 0x02000000), (4, 0xFFFFFFFF)] }
theorem test_hyp_Commands :
    let x : Exch := { ex7 with cur := some desc1, sent := true }
    let s : State := { State.reset with chn := withEx x (jst 1) State.reset.chn }
    (s.exOf 7 = some x ∧ x.cur = some desc1 ∧ x.ipl = false ∧ x.vp = 0 ∧ x.sent = true ∧ desc1.writes = false) ∧
    (let b : PortBuf := { used := 4194304 - 16, queue := [(7, 16)], granted := [] }
     b.used + 16 ≤ 4194304 ∧ 4194304 < b.used + 17 ∧ ({ s with chn := { s.chn with pbuf := [(0, { used := 4194304, queue := [], granted := [(7, 16)] })] } } : State).exOf 7 = some x) ∧
    (let t : State := { s with chn := { withEx ex7 (jst 1) s.chn with ctx := [(1087, ctxStalled)], sch := [(0, { Subch.reset with valid := true, def_ := BitVec.ofNat 256 (2 ^ 255 + 2 ^ 191) })] } }
     (t.veCtx 1087) = ctxStalled ∧ t.descOk ctxStalled ctxStalled.word = true ∧ t.exOf ctxStalled.exid = some ex7 ∧ (t.chn.pdsq.get [] (bits (ctxStalled.word 0) 3 0)).length < 64 ∧ t.mem.reqs = [] ∧
       ((((t.setVe 1087 { ctxStalled with st := .running, desc := [] }).submitCmd ex7 (mkDesc ctxStalled ctxStalled.word) 0).veCtx 1087).st = .running)) := by decide +kernel

theorem test_hyp_SubchannelCommands :
    let s := State.reset
    let b := setf [(F.VLX_SCCMD_BUSY, 1, 0)] s
    let d := setf [(F.VLX_BUDDY_BV, 1, 0), (F.VLX_STAT_BST, 1, 0), (F.VLX_BUDDY_BCX, 5, 0)] s
    (b.flag F.VLX_SCCMD_BUSY = true ∧ b.defRead = false) ∧ (s.flag F.VLX_SCCMD_BUSY = false ∧ (s.sch 65535).active = none ∧ (s.sch 65535).final = false ∧ ((s.setFld F.VLX_SCCMD_SCH 65535).setFlag F.VLX_SCCMD_BUSY true).flag F.VLX_BUDDY_BV = false) ∧
    (defBad (BitVec.ofNat 256 (2 ^ 128)) = true ∧ defBad 0 = false ∧ d.flag F.VLX_BUDDY_BV = true ∧ d.buddy = some 5) ∧
    (let a : State := { s with chn := { withEx ex7 (jst 1) s.chn with sch := [(65535, { Subch.reset with valid := true, active := some (false, 7) })] } }
     let u := fun (z : State) => ((((z.setFld F.VLX_SCCMD_SCH 65535).setFlag F.VLX_SCCMD_BUSY true).setEx (ex7.raise 6)).abortEx 7 0x22).chn.exch.find 7
     (a.sch 65535).active = some (false, 7) ∧ (a.sch 65535).active.isSome = true ∧ a.chn.exch.find 7 = some ex7 ∧ ((u (setf [(F.VPT_STAT_STATE, 2, 0)] a)).bind (·.aborting)).isSome = true ∧ (u a).bind (·.aborting) = none) := by decide +kernel

theorem test_hyp_Journal :
    let s := setf [(F.VLX_BUDDY_BV, 1, 0), (F.VLX_STAT_BST, 1, 0), (F.VLX_BUDDY_BCX, 5, 0)] State.reset
    let e := img1 1 (5 * 16384 + 7) 4
    (s.flag F.FLT_FENCE_CXF = false ∧ s.flag F.VLX_BUDDY_BV = true ∧ s.fld F.VLX_BUDDY_BCX = 5 ∧ s.chn.frozen = false ∧ State.reset.flag F.VLX_BUDDY_BV = false) ∧
    (jok e = true ∧ stepLater (jStep e) (jStep (s.jent true (jExid e % 16384)).img) = true ∧ stepLater (jStep (img1 1 7 32769)) (jStep (s.jent true 7).img) = false ∧ jok (e ^^^ 1) = false) ∧
    (s.chn.exch.has (16384 + 7) = false ∧ ({ s with chn := { s.chn with exch := [(16384 + 7, ex7)] } } : State).chn.exch.has (16384 + 7) = true) ∧
    (let t : State := { s with chn := { withEx ex7 { jst 1 with outst := true } s.chn with mirr := { Mirr.reset with jhnd := [(7, 0)], jrd := [(7, 0)], jdef := some 9 } } }
     (7 : BitVec 24).toNat / 16384 = t.cxid ∧ (t.jent false 7).outst = true ∧ jStep (t.jent false 7).img = (3 : BitVec 16).toNat ∧ jStep (t.jent false 7).img ≠ (4 : BitVec 16).toNat ∧ t.chn.exch.find 7 = some ex7 ∧ t.chn.mirr.jhnd.has 7 = true ∧
       t.chn.mirr.jdef = some 9 ∧ ex7.ipl = false ∧ jSolo (t.img ex7) = false ∧ jState e = 1 ∧ t.buddy = some 5 ∧ (t.jent false 7).tries < 2 ∧ (t.jent false 7).quar = false ∧
       t.chn.mirr.jrd.has 7 = true ∧ s.chn.mirr.jrd.has 7 = false ∧ jok (img1 1 7 3) = true ∧ jStep (img1 1 7 3) = jStep (t.jent false 7).img ∧ (({ t with chn := { t.chn with jrn := [(7, jst 1)] } } : State).jent false 7).outst = false ∧ jok (img1 3 7 4) = true ∧ jState (img1 3 7 4) = 3 ∧
       (let z : State := { t with chn := { t.chn with jrn := [(7, { jst 1 with img := jseal (jput (img1 1 7 3) 0 58 58 1) })] } }; jSolo (z.img ex7) = true)) := by decide +kernel
theorem test_hyp_Takeover :
    let s := setf [(F.VLX_BUDDY_BV, 1, 0), (F.VLX_STAT_BST, 2, 0), (F.VLX_BUDDY_BCX, 5, 0)] State.reset
    let u : State := { s.buddyLost.startAll with chn := { s.buddyLost.startAll.chn with frozen := true } }
    (s.flag F.VLX_BUDDY_BV = true ∧ s.fld F.VLX_STAT_BST = 2 ∧ s.present (s.fld F.VLX_BUDDY_BCX) = false ∧ s.chn.frozen = false ∧ s.chn.mir = []) ∧ (u.chn.mir = [] ∧ u.chn.frozen = true ∧ State.reset.buddy = none) ∧
    (s.setJent false 16383 { jst 0 with quar := true }).jent false 16383 = { jst 0 with quar := true } ∧ 2 ≤ ({ jst 1 with tries := 2 }).tries := by decide +kernel

def lh : LinkHdr := { lseq := 0, lack := 0, urgent := false, rest := 0, crc := 0, aborted := false }
/-- The link part of a good frame of a type with the parts `p`. -/
def good (code : Nat) (p : VParts) (h : LinkHdr := lh) : LinkHdr := { h with crc := BitVec.ofNat 32 (velexCrc (h.hdr code p) p.pay) }
def cmd1 : VParts := { exid := 8, xseq := 0, spec := 2 ^ 36, pay := toBytes 32 0 }
def abo1 : VParts := { exid := 7, xseq := 0, spec := 3 * 2 ^ 36, pay := [] }
def sts1 (h : LinkHdr) : VParts := { exid := 7, xseq := 5, spec := 4 * 2 ^ 32, pay := h.stsPay 0 }
def ad1 : AdEx := { AdEx.reset with exp := 3, vp := 15 }
/-- Velex port 15 is up; the adapter knows exchange 7. -/
def sPort (st : Nat) : State := let s := setf [(F.VPT_STAT_STATE, st, 15), (F.VPT_CTL_EN, 1, 15), (F.VPT_STAT_CLAIMA, 1, 15), (F.VPT_STAT_CLAIMB, 0, 15)] State.reset; { s with chn := { s.chn with adEx := [(7, ad1)] } }
theorem test_hyp_PortFrames :
    let s := sPort 2
    let t := s.vlack 15 0
    let p := t.vport 15
    let took := (t.setVport 15 { p with rxSeq := p.rxSeq + 1, returned := p.returned.upd 0 (4 + vcOf false 2) (fun n => (n + 1) % 256) }).sendCredit 15
    (s.adTakes 15 (good 1 cmd1) 1 cmd1 = true ∧ s.adTakes 15 lh 1 cmd1 = false ∧ (let r : VParts := { exid := 7, xseq := 0, spec := 2 * 2 ^ 36, pay := [] }; s.adTakes 15 (good 1 r) 1 r = true ∧ s.adTakes 15 lh 1 r = false) ∧
      s.adTakes 15 (good 1 abo1) 1 abo1 = true ∧ s.adTakes 15 lh 1 abo1 = false ∧ (let d := velexParts 2 [7, 3, 0, 1, 1, 0xAB]; s.adTakes 15 (good 2 d) 2 d = true) ∧ ([3, 4].all (fun k => let a := velexParts 4 [7, 0, 0, k]; s.adTakes 15 (good 4 a) 4 a)) = true ∧
      (let f := velexParts 7 [1]; s.adTakes 15 (good 7 f) 7 f = true ∧ s.adTakes 15 lh 7 f = false) ∧
      ([(5, [0]), (6, [32, 64, 64, 16]), (8, [0]), (4, [7, 0, 0, 1])].all (fun q => let v := velexParts q.1 q.2
        (good q.1 v).crcOk q.1 v && !lh.crcOk q.1 v && (good q.1 v).rsvOk q.1 && !(good q.1 v { lh with rest := 1 <<< 176 }).rsvOk q.1 && (good q.1 v { lh with rest := 1 <<< 176 }).crcOk q.1 v)) = true ∧
      ((good 3 (sts1 lh)).crcOk 3 (sts1 lh) = true ∧ (good 3 (sts1 lh)).rsvOk 3 = true ∧ lh.crcOk 3 (sts1 lh) = false) ∧ lh.aborted = false ∧ fieldOf (0 : BitVec 256) 243 240 = 0 ∧ s.adEx 8 = none ∧ s.adEx 7 = some ad1 ∧ ad1.ended = false ∧ ad1.vp = 15) ∧
    (1 ≤ (List.replicate 4096 (0 : Byte)).length ∧ (3 : BitVec 16) = ad1.exp ∧ (2 : BitVec 16) = ad1.exp - 1 ∧ (4 : BitVec 16) = ad1.exp + 1) ∧ (s.vpUp 15 = true ∧ (s.vport 15).fencing = 0 ∧ State.reset.vpUp 15 = false) ∧
    (lh.lseq = p.rxSeq ∧ (1 : BitVec 8) = p.rxSeq + 1 ∧ took.exOf 7 = none) ∧ (((t.vresend 15 0).vport 15).resends < 8) ∧
    (let r := s.setVport 15 { VPort.reset with resends := 7, replay := [⟨0, 0, ⟨.velex 15, 0, 1, []⟩⟩] }
     8 ≤ (((r.vlack 15 255).vresend 15 0).vport 15).resends) := by decide +kernel
theorem test_hyp_PortStatus :
    let x : Exch := { ex7 with vp := 15, inExp := 5 }
    let s : State := { sPort 2 with chn := withEx x (jst 1) (sPort 2).chn }
    let t := s.vlack 15 0
    let p := t.vport 15
    let u := (t.setVport 15 { p with rxSeq := p.rxSeq + 1, returned := p.returned.upd 0 (4 + vcOf false 2) (fun n => (n + 1) % 256) }).sendCredit 15
    u.exOf 7 = some x ∧ x.vp = 15 ∧ x.ipl = false ∧ (5 : BitVec 16) = x.inExp ∧ (4 : BitVec 16) = x.inExp - 1 ∧ (6 : BitVec 16) = x.inExp + 1 ∧ jState (((u.setEx { x with inExp := x.inExp + 1 }).setEx { x with inExp := x.inExp + 1, owed := true }).img x) = 1 := by decide +kernel
theorem test_hyp_PortEvents :
    let s := sPort 0
    let r := (sPort 1).setVport 15 { VPort.reset with cred := [(0, 1)], retrainFails := 2 }
    ((sPort 4).fld F.VPT_STAT_STATE 15 = 4 ∧ (sPort 3).vpUp 15 = true ∧ (sPort 3).fld F.VPT_STAT_STATE 15 ≠ 4 ∧ s.vpUp 15 = false) ∧ (r.retraining 15 = true ∧ (r.vport 15).replay = [] ∧ (r.vport 15).waitq = [] ∧ 2 ≤ (r.vport 15).retrainFails) ∧
    (s.fld F.VPT_STAT_STATE 15 = 0 ∧ s.flag F.VPT_CTL_EN 15 = true ∧ s.driven 15 = true ∧ (s.vport 15).fencing = 0 ∧ s.vlanes 15 ≠ 0 ∧ s.flag F.FLT_FENCE_CXF = false ∧ (8 ≤ (8 : BitVec 8).toNat ∧ (1 : BitVec 8) ≠ 0) ∧ (setf [(F.VPT_CTL_EN, 0, 15)] s).flag F.VPT_CTL_EN 15 = false) ∧
    (let x : Exch := { ex7 with timer := true }
     let z : State := { s with chn := withEx x (jst 1) s.chn }
     z.exOf 7 = some x ∧ x.ipl = false ∧ x.timer = true ∧ x.aborting = none ∧ ex7.timer = false) ∧
    ((s.vport 15).badLanes = [] ∧ s.flag F.VPT_STAT_SPUSED 15 = false ∧ ({ VPort.reset with badLanes := [2] } : VPort).badLanes.contains 2 = true) ∧
    ((s.setVport 15 { VPort.reset with tie := true }).vport 15).tie = true ∧ (s.vport 15).tie = false ∧ (setf [(F.VPT_STAT_PAIRED, 1, 15)] s).flag F.VPT_STAT_PAIRED 15 = true ∧ (setf [(F.VPT_STAT_PAIRED, 0, 15)] s).flag F.VPT_STAT_PAIRED 15 = false := by decide +kernel

def seg1 : Seg := { port := true, handle := 0, exid := 7, pid := 0, slot := 16383, mode := 1, dec := false, bytes := 4096, assigned := 0, done := 0, redo := 0, checked := false, refused := false, key := 0 }
def sWall (x : Wall) : State := { State.reset with chn := { State.reset.chn with walls := [(15, x)] } }
theorem test_hyp_Walls :
    let s := sWall { Wall.reset with segs := [seg1] }
    let u := s.wallRetire 15
    (s.unitBusy 0 = false ∧ (withCore { runs (base []) with wait := .unit 0 256 }).unitBusy 256 = true) ∧
    (u.wallRuns 15 = true ∧ (u.wall 15).segs = [seg1] ∧ (u.wall 15).pick = some seg1 ∧ (List.range 272).find? (fun b => (u.wall 15).brickOn b && !(u.wall 15).busy.has b) = some 0 ∧ [seg1].all (fun q => q.port) = true ∧ seg1.checked = false ∧ (u.wall 15).cache.contains seg1.slot = false) ∧
    (let c := sWall { Wall.reset with segs := [{ seg1 with checked := true }] }
     ((c.wallRetire 15).wall 15).pick = some { seg1 with checked := true }) ∧ ((setf [(F.CIP_WALL_STATE, 2, 15)] s).wallRuns 15 = false) ∧
    ((s.wall 15).busy.find 271 = none ∧ (s.wall 15).brickOn 255 = true ∧ (s.wall 15).busy.has 255 = false ∧ (s.wall 15).stripes.get 0 255 < 65536 ∧ 65536 ≤ ({ Wall.reset with stripes := [(255, 65536)] } : Wall).stripes.get 0 255) ∧
    ((s.wall 15).segs.any (fun q => q.slot == 16383 && !q.checked) = true ∧ (s.wall 15).cache.length < 16 ∧ ({ Wall.reset with cache := [5] } : Wall).cache.contains 5 = true) ∧
    (let m := { seg1 with port := false, handle := 9 }
     let b := sWall { Wall.reset with segs := [m], busy := [(255, m.mark)] }
     (b.wall 15).busy.find 255 = some m.mark ∧ (b.wall 15).segs.find? (fun q => q.mark == m.mark) = some m ∧ m.port = false) := by decide +kernel
theorem test_hyp_WallFailure :
    let s := State.reset
    let u := ((((s.chn.cctx.filter (fun p => p.2.wall == 15)).map (·.1)).foldl (fun z k => z.cFree k) s).wallScrub 15).setFld F.CIP_WALL_STATE 2 15
    let t := match u.nextWall 15 0 with | some k => u.movePort ((15 + k) % 16) 15 | none => u
    s.fld F.CIP_WALL_STATE 15 = 0 ∧ (t.flt 11 7 15 none (BitVec.ofNat 64 (if (t.portWall 15).isNone then 2 ^ 15 else 0))).exOn 15 = [] ∧ (setf [(F.CIP_WALL_STATE, 2, 15)] s).fld F.CIP_WALL_STATE 15 = 2 := by decide +kernel
theorem test_hyp_EngineFailure :
    let s := setf [(F.ZIP_ENG_ROLE, 0, 0), (F.ZIP_ENG_ROLE, 1, 21)] State.reset
    let q := s.setFld F.ZIP_ENG_ROLE 2 0
    let u : State := { q with svc := { q.svc with sparePend := q.svc.sparePend.filter (fun p => !(p.2 == 0 && p.1 == 0xA0)) } }
    (s.fld F.ZIP_ENG_ROLE 0 = 0 ∧ s.fld F.ZIP_ENG_ROLE 21 = 1 ∧ (setf [(F.ZIP_ENG_ROLE, 2, 21)] s).fld F.ZIP_ENG_ROLE 21 = 2) ∧ (List.range 22).find? (fun y => u.fld F.ZIP_ENG_ROLE y == 1) = some 21 ∧
    (u.flag F.ZIP_ENG_POOL 0 = false ∧ (setf [(F.ZIP_ENG_POOL, 1, 0)] u).flag F.ZIP_ENG_POOL 0 = true) ∧ s.zExchange 0 5 = none := by decide +kernel

/-- A WRITE with compression of 16 bytes that the channel subsystem may read. -/
def descZ : PdsDesc := { desc1 with cmd := 1, flags := 16, count := 16, daddr := 0 }
def exZ : Exch := { ex7 with cur := some descZ, sent := true }
def sZ : State := setf [(F.MEM_RGN_LIM_LIMIT, 4095, 0), (F.MEM_RGN_CTL_EN, 1, 0), (F.MEM_RGN_CTL_CR, 1, 0)] (homedAt 0 { State.reset with chn := withEx exZ (jst 1) State.reset.chn })
theorem test_hyp_ZeRecord :
    sZ.zExchange 0 (65536 + 7) = some (exZ, descZ) ∧ (∃ l, sZ.cmdPlaces exZ descZ = .ok sZ (some [(0, 16)]) ∧ sZ.readAt (sZ.pdsAgent exZ) [(0, 16)] = .ok sZ l ∧ exZ.got = 0 ∧ true = decide (l.length ≤ 65536)) := by
  refine ⟨by decide +kernel, List.replicate 16 0, rfl, ?_, rfl, by decide⟩
  have h : (match sZ.readAt (sZ.pdsAgent exZ) [(0, 16)] with | .ok t l => decide (t = sZ) && decide (l = List.replicate 16 0) | _ => false) = true := by decide +kernel
  generalize hr : sZ.readAt (sZ.pdsAgent exZ) [(0, 16)] = r at h ⊢
  cases r with
  | ok t l => simp at h; rw [h.1, h.2]; rfl
  | _ => simp at h

/-- Request words 0 to 15 of a mailbox. -/
def reqs (mb : Nat) (l : List Nat) (s : State) : State := l.zipIdx.foldl (fun z p => z.setFld F.KEY_REQ_D p.1 mb p.2) s
theorem test_hyp_Mailboxes :
    let s := State.reset
    let mbx := fun (st mb ks : Nat) => setf [(F.KEY_STAT_STATE, ks, 0), (F.KEY_MBSTAT_STATE, st, mb)] s
    (s.dead = false ∧ mbSide .host 63 = true ∧ mbSide .core 55 = true ∧ mbSide .core 56 = false) ∧
    ((mbx 0 63 1).fld F.KEY_MBSTAT_STATE 63 = 0 ∧ (mbx 0 63 1).fld F.KEY_STAT_STATE = 1 ∧ (mbx 0 63 2).fld F.KEY_STAT_STATE = 2 ∧ (mbx 3 63 1).fld F.KEY_MBSTAT_STATE 63 = 3) ∧
    ((mbx 2 63 1).mbActive = some 63 ∧ (mbx 1 63 1).mbActive = none) ∧
    (let z := (mbx 1 63 1).setFld F.KEY_REQ_D (0x10 * 2 ^ 56) 63 0
     let y := (mbx 1 0 1).setFld F.KEY_REQ_D (0x7F * 2 ^ 56) 0 0
     z.svc.blk.get .run 16 = .run ∧ ((List.range 64).map (fun i => (z.svc.krr + 1 + i) % 64)).find? (fun k => z.fld F.KEY_MBSTAT_STATE k == 1) = some 63 ∧ z.mbSvc 63 = 0x10 ∧ y.mbSvc 0 = 0x7F ∧
     ((List.range 64).map (fun i => (y.svc.krr + 1 + i) % 64)).find? (fun k => y.fld F.KEY_MBSTAT_STATE k == 1) = some 0) ∧
    ((mbx 2 63 1).fld F.KEY_HOLD_HOLD = 0 ∧ (List.range 16).all (fun b => !(((mbx 2 63 1).forget 4096).mbEnd 63 0x0A).held? b) = true) ∧
    (let z := setf [(F.KEY_STAT_STATE, 0, 0), (F.BOO_STAT_STEP, 9, 0)] s
     z.fld F.KEY_STAT_STATE = 0 ∧ 9 ≤ z.fld F.BOO_STAT_STEP ∧ z.flag F.KEY_STAT_ENT = false ∧ z.svc.entBad = false ∧ (z.updSvc (fun k => { k with entBad := true })).svc.entBad = true ∧ (z.setFlag F.KEY_STAT_ENT true).flag F.KEY_STAT_ENT = true) ∧
    ((s.setFld F.KEY_HOLD_HOLD 65536).held? 16 = true ∧ s.held? 16 = false) ∧
    (s.setFlag F.KEY_STAT_ENT true).flag F.KEY_STAT_ENT = true ∧ (s.setFlag F.KEY_STAT_ENT false).flag F.KEY_STAT_ENT = false ∧ ((s.setFlag F.KEY_STAT_ENT false).setFld F.KEY_STAT_STATE 1).fld F.KEY_STAT_STATE = 1 := by decide +kernel
/-- Mailbox `mb` is active with the request `l`. -/
def sMb (mb : Nat) (l : List Nat) : State := reqs mb l (setf [(F.KEY_STAT_STATE, 1, 0), (F.KEY_MBSTAT_STATE, 2, mb), (F.KEY_MBCTL_PID, 5, mb), (F.KEY_STAT_ENT, 1, 0)] State.reset)
def svcWord (c : Nat) : Nat := c * 2 ^ 56 + 0x1234
def slot5 : KSlot := { KSlot.reset with v := true, pid := 5, modes := 2, enc := true }
theorem test_hyp_ServiceBase :
    let s := sMb 63 [svcWord 1]
    s.dead = false ∧ s.fld F.KEY_STAT_STATE = 1 ∧ s.fld F.KEY_MBSTAT_STATE 63 = 2 ∧ bits (s.mbReq 63 0) 55 16 = 0 ∧ s.svc.kForced = false ∧ s.mbSvc 63 ≠ 5 := by decide +kernel
theorem test_hyp_Assign :
    let s := sMb 63 [svcWord 1, 0xFE3FFF]
    let r := s.mbReq 63 1
    (s.mbSvc 63 = 1 ∧ s.mbClear 63 2 = true ∧ bits r 63 24 = 0 ∧ bits r 15 14 = 0 ∧ bits r 23 16 ≠ 255) ∧ s.mbPid 63 = 0 ∧ (s.keySlot (s.mbSlot 63)).v = false ∧ ((s.setSlot 16383 slot5).keySlot (s.mbSlot 63)).v = true ∧
    (sMb 0 [svcWord 1, 0xFE3FFF]).mbPid 0 ≠ 0 ∧ bits ((sMb 0 [svcWord 1, 0xFF0000]).mbReq 0 1) 23 16 = 255 := by decide +kernel
theorem test_hyp_Generate :
    let s := sMb 0 [svcWord 2, 0x3FFF, 0x522]
    let z := s.setSlot 16383 { slot5 with v := false }
    (s.mbSvc 0 = 2 ∧ s.mbClear 0 3 = true ∧ bits (s.mbReq 0 1) 63 14 = 0 ∧ attrRsv (s.mbReq 0 2) = false) ∧ s.mbMay 0 = false ∧ z.mbMay 0 = true ∧
    attrKlen (z.keySlot (z.mbSlot 0)) (z.mbReq 0 2) = some 32 ∧ z.flag F.KEY_STAT_ENT = true ∧ (z.setFlag F.KEY_STAT_ENT false).flag F.KEY_STAT_ENT = false ∧
    (let y := (sMb 0 [svcWord 2, 0x3FFF, 0x530]).setSlot 16383 slot5
     y.mbMay 0 = true ∧ attrRsv (y.mbReq 0 2) = false ∧ attrKlen (y.keySlot (y.mbSlot 0)) (y.mbReq 0 2) = none) := by decide +kernel
theorem test_hyp_Import :
    let s := sMb 0 [svcWord 3, 0x13FFF, 1]
    let z := s.setSlot 16383 { slot5 with v := false }
    let y := z.updSvc (fun k => { k with tkey := [(5, 7)] })
    (s.mbSvc 0 = 3 ∧ s.mbClear 0 12 = true ∧ bits (s.mbReq 0 1) 63 17 = 0 ∧ bits (s.mbReq 0 1) 15 14 = 0) ∧ s.mbMay 0 = false ∧ z.mbMay 0 = true ∧ bits (z.mbReq 0 1) 16 16 = 1 ∧ z.svc.tkey.find (z.mbPid 0) = none ∧ y.svc.tkey.find (y.mbPid 0) = some 7 ∧
    (let x := (sMb 0 [svcWord 3, 0x13FFF, 0, 0, 0, 0, 0, 0, 0, 0, 0, 1]).setSlot 16383 { slot5 with v := false }
     [4, 6, 10].filter (fun i => x.mbClear 0 (2 + i)) = [10] ∧ [4, 6, 10].filter (fun i => y.mbClear 0 (2 + i)) = [4, 6, 10]) := by decide +kernel
theorem test_hyp_Setattr :
    let s := sMb 0 [svcWord 4, 0x3FFF, 0x541]
    let z := s.setSlot 16383 slot5
    (s.mbSvc 0 = 4 ∧ s.mbClear 0 3 = true ∧ bits (s.mbReq 0 1) 63 14 = 0 ∧ attrRsv (s.mbReq 0 2) = false) ∧ z.mbMay 0 = true ∧ (z.keySlot (z.mbSlot 0)).v = true ∧ attrKlen (z.keySlot (z.mbSlot 0)) (z.mbReq 0 2) = some 32 ∧ (z.keySlot (z.mbSlot 0)).klen = some 32 ∧
    ((s.setSlot 16383 { slot5 with v := false }).mbMay 0 = true ∧ ((s.setSlot 16383 { slot5 with v := false }).keySlot 16383).v = false) ∧ attrKlen slot5 0x540 = none ∧ attrRsv 0x540 = false := by decide +kernel
theorem test_hyp_Destroy :
    let s := sMb 0 [svcWord 5, 0x3FFF]
    (s.mbSvc 0 = 5 ∧ s.mbClear 0 2 = true ∧ bits (s.mbReq 0 1) 63 14 = 0) ∧ s.mbMay 0 = false ∧ (s.setSlot 16383 slot5).mbMay 0 = true := by decide +kernel
/-- The base point of P-384, as FIPS 186-4 gives it. -/
def baseX : Nat := 0xaa87ca22be8b05378eb1c71ef320ad746e1d3b628ba79b9859f741e082542a385502f25dbf55296c3a545e3872760ab7
def baseY : Nat := 0x3617de4a96262c6f5d9e98bf9292dc29f8f41dbd289a147ce9da3113b5f0b8c00a60b1ce1d7e819d7a431d7c90ea0e5f
def limbs (x : Nat) : List Nat := (List.range 6).map (fun i => x / 2 ^ (320 - 64 * i) % 2 ^ 64)
theorem test_hyp_Tkey :
    let s := sMb 0 (svcWord 6 :: (limbs baseX ++ limbs baseY))
    let z := sMb 0 (svcWord 6 :: (limbs baseX ++ limbs baseX))
    let num := fun (s : State) (i : Nat) => (List.range 6).foldl (fun x j => x * 2 ^ 64 + s.mbReq 0 (i + j)) 0
    (s.mbSvc 0 = 6 ∧ s.mbClear 0 13 = true) ∧ onP384 (num s 1) (num s 7) = true ∧ onP384 (num z 1) (num z 7) = false ∧ s.flag F.KEY_STAT_ENT = true ∧ (s.setFlag F.KEY_STAT_ENT false).flag F.KEY_STAT_ENT = false := by decide +kernel
theorem test_hyp_RandomAndReports :
    let s := sMb 63 [svcWord 0x10, 15]
    let b := fun (c : Nat) => sMb 63 [svcWord c, 0xFFFFFFFFFFFF00]
    (s.mbSvc 63 = 0x10 ∧ s.mbClear 63 2 = true ∧ bits (s.mbReq 63 1) 63 4 = 0 ∧ bits (s.mbReq 63 1) 3 0 ≠ 0 ∧ s.flag F.KEY_STAT_ENT = true) ∧
    ((b 0x20).mbBufOk 63 = true ∧ (b 0x20).mbSvc 63 = 0x20 ∧ (b 0x20).mbClear 63 8 = true) ∧ ((b 0x21).mbBufOk 63 = true ∧ (b 0x21).mbSvc 63 = 0x21 ∧ (b 0x21).mbClear 63 2 = true) ∧ ((b 0x22).mbBufOk 63 = true ∧ (b 0x22).mbSvc 63 = 0x22) := by decide +kernel
theorem test_hyp_Clocks :
    let s := State.reset
    (s.dead = false ∧ (s.setFld F.CLK_SRC_QUAL 8).qual .xa = true ∧ (s.setFld F.CLK_SRC_FAIL 8).failed .xa = true) ∧
    (let z := setf [(F.CLK_SRC_QUAL, 0, 0), (F.CLK_SRC_FAIL, 0, 0)] s
     let q := fun (st : Nat) => ((z.setFld F.BOO_STAT_STEP st).setFld F.CLK_SRC_QUAL (putBits ((z.setFld F.BOO_STAT_STEP st).fld F.CLK_SRC_QUAL) (srcBit .xb) (srcBit .xb) 1)).setRef
     z.qual .xb = false ∧ z.failed .xb = false ∧ (q 10).fld F.BOO_STAT_STEP < 11 ∧ 11 ≤ (q 11).fld F.BOO_STAT_STEP ∧ (q 11).fld F.BOO_STAT_PHASE ≠ 1) ∧
    (let z := fun (r : Nat) => setf [(F.CLK_SRC_QUAL, 63, 0), (F.CLK_SRC_FAIL, 0, 0), (F.CLK_SRC_REF, r, 0)] s
     let u := fun (r : Nat) (c : ClkSrc) => ((z r).setFld F.CLK_SRC_FAIL (putBits ((z r).fld F.CLK_SRC_FAIL) (srcBit c) (srcBit c) 1)).flt 13 0 0 none (BitVec.ofNat 64 (srcBit c))
     (z 0).clkOk .fosc = true ∧ (z 0).clkOk .pcie = true ∧ (setf [(F.CLK_SRC_FAIL, 1, 0)] s).clkOk .pcie = false ∧ (List.range 16).all (fun p => decide ((u 0 .xb).fld F.FAB_PSTAT_STATE p = 0)) = true ∧ (u 2 .fosc).fld F.CLK_SRC_REF = 2 ∧
     (u 0 .fosc).fld F.CLK_SRC_REF ≠ 2 ∧ (u 0 .fosc).clkOk .xa = true ∧ (((z 0).updSvc (fun k => { k with pcieUp := false })).setFld F.CLK_SRC_FAIL 1).svc.pcieUp = false) ∧
    (s.flag F.CLK_GEAR_CHG 7 = false ∧ s.emergency = false ∧ s.svc.avsHeld.contains 7 = false) ∧
    (let g := (setf [(F.CLK_GEAR_CHG, 1, 7), (F.CLK_GEAR_REQ, 13, 7), (F.CLK_GEAR_SWCAP, 15, 7), (F.CLK_GEAR_AGECAP, 15, 7), (F.CLK_GEAR_PWRCAP, 15, 7), (F.CLK_GEAR_THMCAP, 15, 7)] s).updSvc (fun k => { k with gearTo := [(7, 13)] })
     let u := ((g.setFld F.CLK_GEAR_CUR 13 7).setFlag F.CLK_GEAR_CHG false 7).updSvc (fun k => { k with domSel := k.domSel.put 7 0, gearTo := k.gearTo.del 7 })
     g.flag F.CLK_GEAR_CHG 7 = true ∧ g.emergency = false ∧ g.svc.gearTo.find 7 = some 13 ∧ u.gearTarget 7 = u.fld F.CLK_GEAR_CUR 7 ∧ u.flag F.CLK_GEAR_CHG 7 = false) := by decide +kernel
/-- Power limit 400 W, all caps at the top. -/
def sPow : State := setf ([(F.CLK_PWR_PLIM, 400, 0), (F.CLK_PWR_TTHR, 95, 0)] ++ (List.range 8).flatMap (fun c => [(F.CLK_GEAR_PWRCAP, 14, c), (F.CLK_GEAR_THMCAP, 9, c), (F.CLK_GEAR_CUR, c, c)])) State.reset
/-- The thermal monitors of cluster 7 read `t`. -/
def heat (t : Int) (s : State) : State := (List.range 144).foldl (fun z i => z.setMon 0 i { Mon.reset with val := t, seen := true }) s
theorem test_hyp_Power :
    let h := State.reset.updSvc (fun k => { k with resetHold := true })
    let z := sPow
    let q := fun (w : Nat) => z.setFld F.CLK_PWR_EST (min w 1023)
    let u := (q 410).updSvc (fun k => { k with powHigh := 0, powLow := 0, powUnder := 0 })
    (h.svc.resetHold = true ∧ h.svc.powered = true ∧ h.svc.trip = false ∧ State.reset.svc.resetHold = false) ∧ (z.dead = false ∧ z.fld F.CLK_PWR_PLIM = 400) ∧
    (390 ≤ z.fld F.CLK_PWR_PLIM ∧ z.fld F.CLK_PWR_PLIM * 95 ≤ 390 * 100) ∧ (z.fld F.CLK_PWR_PLIM * 105 < 500 * 100 ∧ (z.updSvc (fun k => { k with powHigh := 9 })).svc.powHigh = 9) ∧
    (z.fld F.CLK_PWR_PLIM < 410 ∧ 410 * 100 ≤ z.fld F.CLK_PWR_PLIM * 105 ∧ u.topGear ((List.range 8).filter (fun k => u.fld F.CLK_GEAR_PWRCAP k != 0)) = some 7 ∧ u.fld F.CLK_GEAR_PWRCAP 0 ≠ 15) ∧
    (let p := (z.setFlag F.CLK_PWR_PEMERG true).setFld F.CLK_PWR_EST 399
     p.flag F.CLK_PWR_PEMERG = true ∧ p.fld F.CLK_PWR_EST < p.fld F.CLK_PWR_PLIM ∧ z.flag F.CLK_PWR_PEMERG = false) := by decide +kernel
theorem test_hyp_Heat :
    let a := heat (96 * 16) sPow
    let b := heat (80 * 16) sPow
    let c := (List.range 144).foldl (fun z i => z.setMon 0 i { Mon.reset with retired := true }) sPow
    (a.blind 7 = false ∧ (a.groupTemps 7).any (fun x => decide ((a.fld F.CLK_PWR_TTHR : Int) * 16 ≤ x)) = true ∧ 0 < a.fld F.CLK_GEAR_THMCAP 7 ∧ a.fld F.CLK_GEAR_THMCAP 0 ≠ 15 ∧ (a.setFld F.CLK_GEAR_THMCAP 0 7).fld F.CLK_GEAR_THMCAP 7 = 0) ∧
    (b.blind 7 = false ∧ b.groupTemps 7 ≠ [] ∧ (b.groupTemps 7).all (fun x => decide (x < (b.fld F.CLK_PWR_TTHR : Int) * 16 - 80)) = true ∧ b.fld F.CLK_GEAR_THMCAP 7 < 15 ∧ b.emergency = false) ∧ c.blind 7 = true := by decide +kernel
theorem test_hyp_Requests :
    let s := State.reset
    let put := fun (z : State) (op t : Nat) => (z.setFld F.CLK_REQ_OP op).setFld F.CLK_REQ_TGT t
    let q := fun (st op t : Nat) => setf [(F.CLK_REQ_STATE, st, 0), (F.CLK_REQ_OP, op, 0), (F.CLK_REQ_TGT, t, 0)] s
    ((q 1 1 0).fld F.CLK_REQ_STATE = 1 ∧ (q 2 1 0).fld F.CLK_REQ_STATE = 2 ∧ tgtOk 17 = false ∧ tgtOk 0x50 = false ∧ tgtOk 16 = true ∧ tgtOk 0x35 = true ∧ tgtOk 0x4F = true) ∧
    (s.fld F.CLK_REQ_STATE ≠ 1 ∧ s.fld F.CLK_REQ_STATE ≠ 2) ∧
    (let h := s.setFld F.KEY_HOLD_HOLD 65536
     (put h 1 16).reqReason 1 16 = 0 ∧ (put h 1 16).held? 16 = true ∧ (put h 1 16).emergency = false) ∧
    ((put s 1 16).reqReason 1 16 = 0 ∧ (put s 1 16).held? 16 = false ∧ (put s 2 15).reqReason 2 15 = 0 ∧ (put s 2 15).held? 15 = false ∧ opListed 2 16 = false) ∧
    ((put (s.updSvc (fun k => { k with blk := [(0x35, .gated)] })) 3 0x35).reqReason 3 0x35 = 0 ∧ (put s 3 0x35).reqReason 3 0x35 = 3) ∧
    ((q 1 1 63).fld F.CLK_REQ_TGT < 64 ∧ ((q 1 1 63).setFld F.CLK_REQ_STATE 3).fld F.CLK_REQ_STATE = 3 ∧ (q 1 2 16).fld F.CLK_REQ_OP = 2 ∧ (q 1 3 16).fld F.CLK_REQ_OP = 3) ∧
    (let w := fun (n : Nat) => s.wrReg .core F.CLK_SBLK_TRACE.base (BitVec.ofNat 64 n)
     (w 0).fld F.CLK_SBLK_TRACE ≠ 2 ∧ (w 0).fld F.CLK_SBLK_GPIO ≠ 2 ∧ (w 0).fld F.CLK_SBLK_JTAG ≠ 2 ∧ (w 0x80).fld F.CLK_SBLK_JTAG = 2 ∧ s.fld F.CLK_SBLK_JTAG ≠ 2 ∧ (w 2).fld F.CLK_SBLK_TRACE = 2 ∧ s.fld F.CLK_SBLK_TRACE ≠ 2) := by decide +kernel
def envOk : BootEnv :=
  { part := .b48, straps := 0, stable := true, qualified := [.fosc, .sosc, .xa, .xb, .vref, .pcie], xbsel := 1, fuseOk := true, arraysOk := true, failedPcs := [], failedL3 := [], failedDir := [], failedVe := [], failedZe := [], failedBricks := [], oemFuse := false, oemOnly := false, keystoneOk := true, trainCause := 0 }
def entry (off v : Nat) : List Byte := bytesOf 4 off ++ bytesOf 4 0 ++ bytesOf 8 v
/-- An image for a system of one complex, as Tables BOO-4 and BOO-5 lay it out: one interleave range of 1 GiB, 16 GiB of memory with one DIMM of one rank on each channel, an XB of 156.25 MHz. Its CRCs are worked out from their definition in 10 R259's polynomial. -/
def imgOk : FlashImage :=
  ⟨bytesOf 4 0x4B434647 ++ bytesOf 2 1 ++ bytesOf 1 0 ++ bytesOf 1 1 ++ bytesOf 4 7 ++ bytesOf 4 0 ++ bytesOf 4 256 ++ bytesOf 4 5 ++ bytesOf 4 340 ++ bytesOf 4 4 ++ List.replicate 220 0 ++ bytesOf 4 0xa671357a ++
   entry 0x800008 (2 ^ 48 + 2 ^ 40 + 2 ^ 32) ++ entry 0x800018 0 ++ entry 0x8000 (2 ^ 63) ++ entry 0x8008 0 ++ entry 0xA000 (2 ^ 63) ++ bytesOf 4 0xe7857ec9 ++
   entry 0x908000 (2 ^ 61 + 2 ^ 59 + 16) ++ entry 0x200000 (2 ^ 48) ++ entry 0x908100 (2 ^ 63) ++ entry 0x100108 0 ++ bytesOf 4 0xa93ff20b⟩
/-- At step `st` of start-up. -/
def sBoot (st : Nat) : State := (setf [(F.BOO_STAT_STEP, st, 0)] State.reset).updSvc (fun k => { k with env := some envOk })
def fwOk : FwSet := { headerOk := true, comps := [1, 2, 3, 4, 5].map (fun t => { type := t, sigOk := true, svnOk := true, contentsOk := true, signerOk := true, level := 3 }), stores := { cisPatch := [], nanoPatch := [], cisMatch := [], pdsPatch := [], pdsMatch := [] }, oem := false, version := 1, veWords := [], veSram := [], measure := [] }
theorem test_hyp_PowerOn :
    let s := State.reset
    (s.svc.trip = false ∧ s.svc.aonGood = true ∧ (s.updSvc (fun k => { k with trip := true })).svc.trip = true ∧ (s.updSvc (fun k => { k with aonGood := false })).svc.aonGood = false) ∧
    envOk.qualified = [.fosc, .sosc, .xa, .xb, .vref, .pcie] ∧ ({ envOk with qualified := [] } : BootEnv).qualified = [] := by decide +kernel
set_option maxRecDepth 20000 in
theorem test_hyp_Flash :
    let s := sBoot 4
    let q := s.setFld F.BOO_STAT_STEP 5
    let x := q.checkImage imgOk.bytes false 0 1
    (s.svc.env = some envOk ∧ s.dead = false ∧ s.fld F.BOO_STAT_PHASE = 0 ∧ s.fld F.BOO_STAT_STEP = 4 ∧ (sBoot 5).fld F.BOO_STAT_STEP ≠ 4) ∧ (q.checkImage [] false 0 1).reason = 1 ∧
    (x.reason = 0 ∧ seqLater x.gen x.gen = false ∧ x.crsid * 8 = envOk.straps.toNat) := by decide +kernel
theorem test_hyp_Load :
    let s := setf [(F.BOO_STAT_FWD, 1, 0), (F.FAB_PSTAT_STATE, 2, 6)] (sBoot 6)
    let f := s.setFport 6 { s.fport 6 with loadOnly := true }
    ((setf [(F.BOO_DOOR_OPEN, 1, 0)] s).flag F.BOO_DOOR_OPEN = true ∧ s.flag F.BOO_DOOR_OPEN = false ∧ (sBoot 6).flag F.BOO_STAT_FWD = false) ∧
    (f.flag F.BOO_STAT_FWD = true ∧ f.flag F.BOO_DOOR_BUSY = false ∧ f.flag F.BOO_DOOR_DONE = false ∧ f.fld F.BOO_STAT_PHASE = 0 ∧ (f.fport 6).loadOnly = true ∧ f.portUp 6 = true) ∧ (2 ^ 28 - 2) + ([1, 2] : List Byte).length ≤ 2 ^ 28 := by decide +kernel
theorem test_hyp_FirmwareSet :
    let s := setf [(F.BOO_DOOR_BUSY, 1, 0), (F.BOO_STAT_FWD, 0, 0)] (sBoot 8)
    let f := s.setFlag F.BOO_STAT_FWD true
    let bad := { fwOk with headerOk := false }
    let u := fun (z : State) (r n : Nat) => (z.setFld F.BOO_DOOR_RESULT r).setFld F.BOO_DOOR_COMP n
    let w := (((u f 0 0).setFlag F.BOO_DOOR_DONE true).fwInstall fwOk).doorDone
    (s.svc.env = some envOk ∧ s.flag F.BOO_DOOR_BUSY = true ∧ s.fld F.BOO_STAT_PHASE = 0 ∧ (sBoot 8).flag F.BOO_DOOR_BUSY = false) ∧
    (fwResult false false bad = (1, 0) ∧ (u s 1 0).flag F.BOO_STAT_FWD = false ∧ (((u s 1 0).flt 14 1 0 none (BitVec.ofNat 64 (1 * 256 + 0))).setFld F.BOO_STAT_STEP 7).flag F.BOO_STAT_FWD = false) ∧
    (fwResult envOk.oemFuse envOk.oemOnly fwOk = (0, 0) ∧ w.flag F.BOO_STAT_FWD = true) ∧
    (s.windowPast = false ∧ ({ s with fab := { s.fab with tb := BitVec.ofNat 64 (2 ^ 62) } } : State).windowPast = true) := by decide +kernel
theorem test_hyp_HandOver :
    let s := sBoot 6
    let r := s.reach (s.svc.winStart.toNat + 600 * 1000000 * usec)
    (r.flag F.BOO_DOOR_BUSY = false ∧ r.flag F.BOO_STAT_FWD = false ∧ ((setf [(F.BOO_DOOR_BUSY, 1, 0)] s).reach (s.svc.winStart.toNat + 600 * 1000000 * usec)).flag F.BOO_DOOR_BUSY = true) ∧
    ((setf [(F.BOO_DOOR_DONE, 1, 0)] s).flag F.BOO_DOOR_DONE = true ∧ s.flag F.BOO_DOOR_DONE = false ∧ s.fld F.BOO_STAT_PHASE = 0 ∧ 6 ≤ s.fld F.BOO_STAT_STEP ∧ s.flag F.BOO_STAT_FWD = false) ∧
    (let h := setf [(F.BOO_DOOR_DONE, 1, 0)] (sBoot 11)
     h.flag F.FLT_FENCE_CXF = false ∧ h.fld F.BOO_STAT_PHASE = 0 ∧ h.flag F.BOO_DOOR_DONE = true ∧ h.fld F.BOO_STAT_STEP = 11 ∧ (setf [(F.BOO_STAT_STEP, 12, 0)] h).fld F.BOO_STAT_STEP = 12) ∧
    (fieldOf (0 : W64) 63 63 = 0 ∧ fieldOf (BitVec.ofNat 64 (2 ^ 63)) 63 63 = 1 ∧ fieldOf (BitVec.ofNat 64 (2 ^ 63)) 7 0 ≠ 0xA5 ∧ fieldOf (BitVec.ofNat 64 (2 ^ 63 + 0xA5)) 7 0 = 0xA5) ∧ (setf [(F.BOO_STAT_PHASE, 2, 0)] s).fld F.BOO_STAT_PHASE = 2 := by decide +kernel
def ev1 : FaultEv := { src := 0x114, unit := 0, pid := none, detail := 0 }
theorem test_hyp_FaultEvents :
    let s := setf [(F.FLT_SRC_CFG_RNO, 0, 0x10), (F.FLT_SRC_CFG_N, 5, 0x10)] State.reset
    let e := { ev1 with src := 0x10, unit := 0 }
    s.dead = false ∧ fltUsed e.src = true ∧ e.unit < fltUnits e.src ∧ (s.fltClass e.src e.unit).2 = 0 ∧ s.fld F.FLT_SRC_CFG_RNO e.src = 0 ∧ ({ e with pid := some 255 } : FaultEv).pid = some 255 ∧ fltUsed 511 = false ∧
    ([(0x16, 15), (0x60, 1279), (0x65, 0), (0x7A, 0)].all (fun p => fltUsed p.1 && decide (p.2 < fltUnits p.1))) = true ∧ (homedAt 0 State.reset).homeOf 0 = some (homedAt 0 State.reset).cxid ∧ State.reset.chn.exch.find 16383 = none ∧
    (let z : State := { State.reset with chn := withEx ex7 (jst 1) State.reset.chn }
     let b := setf [(F.VLX_BUDDY_BV, 1, 0), (F.VLX_STAT_BST, 1, 0), (F.VLX_BUDDY_BCX, 5, 0)] z
     z.chn.exch.find 7 = some ex7 ∧ ex7.ipl = false ∧ jSolo (z.img ex7) = false ∧ b.buddy = some 5 ∧ z.buddy = none ∧ jSolo (b.img ex7) = false) := by decide +kernel
theorem test_hyp_FaultLog :
    let s := State.reset
    let m : Summary := { first := 1, last := 2, dropped := 3 }
    let p := s.updSvc (fun k => { k with summ := some m })
    (s.svc.summ = none ∧ p.svc.summ = some m ∧ p.fld F.FLT_LOGSTAT_USED < 3840 ∧ 3840 ≤ (p.setFld F.FLT_LOGSTAT_USED 3840).fld F.FLT_LOGSTAT_USED) ∧
    (s.fld F.FLT_LOGSTAT_USED < (fieldOf (1 : W64) 11 0 + 4096 - s.fld F.FLT_LOGRD_RD) % 4096 ∧ (fieldOf (4095 : W64) 11 0 + 4096 - s.fld F.FLT_LOGRD_RD) % 4096 ≤ (s.setFld F.FLT_LOGSTAT_USED 4096).fld F.FLT_LOGSTAT_USED) ∧
    (fieldOf (0 : W64) 49 49 = 0 ∧ fieldOf (0 : W64) 50 50 = 0 ∧ fieldOf (0x4000000000000 : W64) 50 50 = 1 ∧ fieldOf (0x4000000000000 : W64) 49 49 = 0) ∧
    (let d := s.setFld F.FLT_LOGSTAT_SDROP 1
     d.flag F.FLT_LOGSTAT_SDROP = true ∧ (d.setFld F.FLT_LOGSTAT_USED 4095).fld F.FLT_LOGSTAT_USED < 4096 ∧ 4096 ≤ (d.setFld F.FLT_LOGSTAT_USED 4096).fld F.FLT_LOGSTAT_USED) ∧
    (fieldOf (BitVec.ofNat 64 (2 ^ 63)) 63 63 = 1 ∧ fltExists (s.fld F.FLT_CNTSEL_SRC) (s.fld F.FLT_CNTSEL_UNIT) = true ∧ fltExists ((s.setFld F.FLT_CNTSEL_SRC 511).fld F.FLT_CNTSEL_SRC) 0 = false) := by decide +kernel
theorem test_hyp_FaultConfig :
    let s := State.reset
    let old := s.reg (F.FLT_SRC_CFG_N.off 16)
    let p := fun (v : W64) => writeFlds R.FLT_SRC_CFG.flds s.svc.locked old (srcCfgWanted 16 old v).1
    let v : W64 := putField old 7 0 9
    (fltUsed 16 = true ∧ (srcCfgWanted 16 old old).2 = false ∧ (p old).2 = false ∧ (p old).1 = old) ∧ ((srcCfgWanted 16 old v).2 = false ∧ (p v).2 = false ∧ fieldOf (p v).1 7 0 ≠ fieldOf old 7 0) := by decide +kernel
theorem test_hyp_Notices :
    let x : NoteCnt := { NoteCnt.reset with noted := 2 ^ 20 - 1, due := true }
    let s := (State.reset.updSvc (fun k => { k with notes := [(16, x)], fnote := [(0, x), (1, x)] }))
    (s.svc.notes.get NoteCnt.reset 16 = x ∧ x.due = true ∧ x.noted < 2 ^ 20 ∧ x.recur < 2 ^ 20 ∧ x.severe < 2 ^ 20 ∧ NoteCnt.reset.due = false) ∧
    (let w : NoteCnt := { x with last := some 0 }
     x.last = none ∧ w.last = some 0 ∧ s.fab.tb.toNat < (0 : W64).toNat + 100 * usec ∧ (0 : W64).toNat + 1000 * usec ≤ ({ s with fab := { s.fab with tb := 2 ^ 60 } } : State).fab.tb.toNat) ∧
    (s.svc.fnote.get NoteCnt.reset 1 = x ∧ s.flag F.FLT_FENCE_CXF = false ∧ (s.setFlag F.FAB_FNDEST_EN0 true).flag F.FAB_FNDEST_EN0 = true ∧ (s.setFlag F.FAB_FNDEST_EN1 true).flag F.FAB_FNDEST_EN1 = true) := by decide +kernel
theorem test_hyp_FaultClassification :
    let x : FltInst := { FltInst.reset with open_ := true, wstart := 100, wcnt := 3, escc := 1 }
    (1 < 5 ∧ FltInst.reset.open_ = false ∧ 90 < 2 ^ 64) ∧ (x.open_ = true ∧ x.wstart.toNat + 50 ≤ 150) ∧ (0 < 50 ∧ 149 < x.wstart.toNat + 50 ∧ x.wcnt + 1 < 5 ∧ 4 ≤ x.wcnt + 1) ∧ (2 ≠ 0 ∧ 2 ≤ x.escc + 1 ∧ x.escc + 1 < 3) := by decide +kernel
/-- What a thermal reading leaves before its emergencies. -/
def thermals (s : State) (l : List Int) : State := (List.range 144).foldl (fun z i => z.thmCheck i) ((l.take 144).zipIdx.foldl (fun z p => z.setMon 0 p.2 ((z.mon 0 p.2).read false p.1)) s)
/-- Only the sensors `l` work, and read v. -/
def onlyHot (v : Int) (l : List Nat) : State := State.reset.updSvc (fun k => { k with mons := (List.range 144).map (fun i => (i, if l.contains i then { Mon.reset with val := v } else { Mon.reset with retired := true })) })
def allTemps (s : State) : List Int := (List.range 10).flatMap (fun g => s.groupTemps g)
theorem check_all {s : State} {l : List Nat} (h : ∀ i ∈ l, s.thmCheck i = s) : l.foldl (fun z i => z.thmCheck i) s = s := by
  induction l with
  | nil => rfl
  | cons i r ih => rw [List.foldl_cons, h i (by simp)]; exact ih (fun j hj => h j (by simp [hj]))
theorem check_retired {s : State} {i : Nat} (h : (s.mon 0 i).retired = true) : s.thmCheck i = s := by simp [State.thmCheck, h]
theorem thermals_same {s : State} (h : (List.range 144).all (fun i => (s.mon 0 i).retired || decide (s.thmCheck i = s)) = true) : thermals s [] = s := by
  refine check_all (l := List.range 144) (s := s) (fun i hi => ?_)
  have q := List.all_eq_true.1 h i hi
  cases hr : (s.mon 0 i).retired with
  | true => exact check_retired hr
  | false => simpa [hr] using q
theorem test_hyp_ThermalHot : let s := onlyHot 1680 [1]; thermals s [] = s ∧ (allTemps s).any (fun t => decide (1680 ≤ t)) = true := ⟨thermals_same (by decide +kernel), by decide +kernel⟩
theorem test_hyp_ThermalWarm : let s := onlyHot 1679 [1]; thermals s [] = s ∧ (allTemps s).all (fun t => decide (t < 1680)) = true ∧ s.flag F.CLK_PWR_TEMERG = false := ⟨thermals_same (by decide +kernel), by decide +kernel⟩
theorem test_hyp_ThermalCool :
    let s := (onlyHot 1599 [112, 120, 128, 136]).setFlag F.CLK_PWR_TEMERG true
    thermals s [] = s ∧ (allTemps s).all (fun t => decide (t < 1600)) = true ∧ s.flag F.CLK_PWR_TEMERG = true ∧ s.blind 8 = false ∧ s.blind 9 = false := ⟨thermals_same (by decide +kernel), by decide +kernel⟩
theorem test_hyp_Droop :
    let s := State.reset
    let u := (List.range 72).foldl (fun z i => z.droopCheck i) ((([700, 710] : List Int).take 72).zipIdx.foldl (fun z p => z.setMon 1 p.2 ((z.mon 1 p.2).read true p.1)) s)
    (List.range 14).all (fun q => !u.disagree q) = true ∧ (s.mon 1 71).retired = false ∧ ((s.setMon 1 71 { Mon.reset with retired := true }).mon 1 71).retired = true := by decide +kernel
theorem test_hyp_Detectors :
    let s := (State.reset.setMon 2 87 { Mon.reset with armed := true }).setMon 2 64 { Mon.reset with armed := true }
    ((s.mon 2 87).armed = true ∧ (State.reset.mon 2 87).armed = false ∧ (s.mon 2 64).armed = true) ∧ (let z := (s.setMon 2 86 { Mon.reset with armed := true }).setFld F.ZIP_ENG_ROLE 2 20
     (z.mon 2 86).armed = true ∧ z.fld F.ZIP_ENG_ROLE 20 = 2) ∧
    (monCount ((s.setFld F.LIF_SNSEL_KIND 3).fld F.LIF_SNSEL_KIND) ≤ s.fld F.LIF_SNSEL_INDEX) ∧
    (let w := setf [(F.LIF_SNSEL_KIND, 1, 0), (F.LIF_SNSEL_INDEX, 71, 0)] s
     w.fld F.LIF_SNSEL_KIND = 1 ∧ w.fld F.LIF_SNSEL_INDEX = 71 ∧ (w.mon 1 71).retired = false) := by decide +kernel
theorem test_hyp_Odometer :
    let u := fun (s : State) (volts : List Int) => (List.range 8).foldl (fun z c => z.odoAdd (280 + 16 * c + z.fld F.CLK_GEAR_CUR c)) ((volts.take 14).zipIdx.foldl (fun z p => z.odoAdd (168 + 8 * p.2 + voltBin p.1))
       ((List.range 10).foldl (fun z g => match hottest (z.groupTemps g) with | some t => z.odoAdd (8 + 16 * g + tempBin t) | none => z) s))
    let z := heat (20 * 16) State.reset
    let y := z.updOdo (fun o => { o with hotSince := 960 })
    let hot := fun (s : State) => (hottest ((List.range 10).flatMap (fun g => s.groupTemps g))).getD 0
    let w := State.reset.updOdo (fun o => { o with writing := some 1023, cnt := [(1, 0x10003)] })
    (((u z [0]).svc.odo.minutes + 1) % 60 ≠ 0 ∧ (u z [0]).svc.odo.hotSince < hot (u z [0]) + 640 ∧ hot (u y [0]) + 640 ≤ (u y [0]).svc.odo.hotSince) ∧
    (State.reset.svc.odo.writing = none ∧ w.svc.odo.writing = some 1023 ∧ w.svc.odo.pendReason = none ∧ w.odo 1 % 65536 = 3 ∧ (w.updOdo (fun o => { o with cnt := [] })).odo 1 % 65536 ≠ 3 ∧ w.svc.odo.tries < 2) := by decide +kernel
theorem test_hyp_ServiceLink :
    let s := State.reset
    (s.updSvc (fun k => { k with pcieUp := true })).svc.pcieUp = true ∧ (s.updSvc (fun k => { k with pcieUp := false })).svc.pcieUp = false ∧ regAt 0x3FFFFF8 = none ∧ (4 ≠ 8 ∧ 12 % 8 ≠ 0 ∧ 16 % 8 = 0) ∧ s.part = .b48 := by decide +kernel
def sRun (r : RunSt) : State := withCore { runs (base []) with run := r }
theorem test_hyp_Debug :
    let s := ready []
    ((s.core 0).run = .running ∧ (s.core 0).wait = .none ∧ (s.core 0).begun = false ∧ (s.core 0).broken = false) ∧ (State.reset.core 47).run = .stopped ∧ ((sRun .checkStop).core 0).run = .checkStop ∧ (s.core 0).run ≠ .halted ∧
    (((sRun .halted).core 0).run = .halted ∧ ((sRun .halted).core 0).spareReq = false) := by decide +kernel
theorem test_hyp_Breakpoint :
    let b := fun (e : Nat) => withCore { runs { base [] with bp := [(3, BitVec.ofNat 64 (0x100 + e))] } with broken := true }
    let c := (b 1).core 0
    ((b 1).canRun 0 = true ∧ c.wait = .none ∧ c.begun = false ∧ c.broken = true ∧ fieldOf (c.arch.bp.get 0 3) 0 0 = 1 ∧ fieldOf (c.arch.bp.get 0 3) 63 2 = fieldOf c.arch.psw.ia 63 2 ∧
      fieldOf (c.arch.bp.get 0 4) (63 - 8 * 3) (56 - 8 * 3) = c.arch.psw.pid.toNat) ∧ fieldOf (((b 0).core 0).arch.bp.get 0 3) 0 0 = 0 := by decide +kernel
theorem test_hyp_DebugData :
    let sel := fun (n : Nat) => (sRun .halted).setFld F.SVC_DBGIDX_INDEX n
    State.reset.dbgItem = none ∧ (sel 3).dbgItem = some (0, .g 3) ∧ (List.range 4096).any (fun n => decide (itemOf n = some Item.dw0)) = true ∧ pswBad (BitVec.allOnes 64) 0 = true := by decide +kernel
theorem test_hyp_Trace :
    let s := State.reset
    let w := fun (v : W64) => (s.setFld F.CLK_SBLK_TRACE 0).wrReg .core (F.SVC_TRCTL_EN.off 7) v
    (s.setFld F.CLK_SBLK_TRACE 2).fld F.CLK_SBLK_TRACE = 2 ∧ s.fld F.CLK_SBLK_TRACE ≠ 2 ∧ s.flag F.SVC_TRCTL_EN 7 = false ∧ (s.setFld F.CLK_SBLK_TRACE 0).flag F.SVC_TRCTL_EN 7 = false ∧
    (w 0).flag F.SVC_TRCTL_EN 7 = false ∧ (w (BitVec.ofNat 64 (2 ^ 63))).flag F.SVC_TRCTL_EN 7 = true := by decide +kernel
theorem test_hyp_Scan :
    let s := State.reset
    let p := setf [(F.BOO_STAT_PHASE, 1, 0)] s
    let tap := fun (z : State) (code : Nat) => (z.setFld F.CLK_SBLK_JTAG 0).updSvc (fun k => { k with tapReg := code })
    ((s.setFld F.CLK_SBLK_JTAG 2).fld F.CLK_SBLK_JTAG = 2 ∧ (s.updSvc (fun k => { k with porst := true })).dead = true) ∧ (s.dead = false ∧ s.fld F.CLK_SBLK_JTAG ≠ 2 ∧ s.scanOk = false ∧ (tap s 0).scanOk = false) ∧
    (p.scanOk = true ∧ (tap p 3).scanOk = true ∧ (tap p 4).scanOk = true ∧ (tap p 5).scanOk = true ∧ p.dead = false ∧ p.fld F.CLK_SBLK_JTAG ≠ 2) := by decide +kernel
theorem test_hyp_Package :
    let s := State.reset
    let g := setf [(F.CLK_SBLK_GPIO, 0, 0), (F.PKG_GPIO_IE, 1, 23), (F.PKG_GPIO_EDGE, 2, 23)] s
    (g.dead = false ∧ g.fld F.CLK_SBLK_GPIO = 0 ∧ g.svc.gpioLevel.getLsbD 23 ≠ true ∧ g.flag F.PKG_GPIO_IE 23 = true ∧ edgeWanted (g.fld F.PKG_GPIO_EDGE 23) true = true) ∧
    ((g.setFlag F.PKG_GPIO_IE false 23).flag F.PKG_GPIO_IE 23 = false ∧ edgeWanted 1 true = false ∧ g.svc.gpioLevel.getLsbD 0 = false) ∧
    (s.svc.aonGood = true ∧ s.svc.trip = false ∧ (s.updSvc (fun k => { k with trip := true })).svc.trip = true) ∧ (s.svc.avsHeld.contains 7 = false ∧ (s.updSvc (fun k => { k with avsHeld := [7] })).svc.avsHeld.contains 7 = true) := by decide +kernel
theorem test_hyp_RegisterWrites :
    let s := State.reset
    let off := 0xC00F00
    (s.dead = false ∧ regAt off = some R.VPT_CTL ∧ 12 ≤ off / 0x100000 ∧ off / 0x100000 ≤ 14 ∧ off % 0x100000 ≠ 0xFFFF8) ∧ (regAt 0xE000F0 = some R.CIP_WALL ∧ 0xE000F0 / 0x100000 = 14) ∧
    R.VPT_CTL.flds.any (fun f => decide (f.ty = .rw) && f.reserved 0 && !f.reserved 60000) = true ∧ R.VPT_CTL.flds.any (fun f => decide (f.ty = .rwl) && !f.reserved 1) = true ∧ R.CIP_WALL.flds.any (fun f => decide (f.ty = .ro)) = true ∧
    s.svc.locked = false ∧ (s.updSvc (fun k => { k with locked := true })).svc.locked = true ∧ fieldOf (BitVec.ofNat 64 (2 ^ 63)) 63 63 ≠ fieldOf (s.reg off) 63 63 := by decide +kernel
theorem test_hyp_Globals :
    let q := { State.reset with pending := [Instr.pllRelock] }
    (State.reset.pending = [] ∧ QueueOk q ∧ ∃ t, step q = .next t ∧ t.pending = []) ∧ wf .pllRelock = true ∧ (fltUsed ev1.src = false ∨ ev1.unit < fltUnits ev1.src) := by
  refine ⟨⟨rfl, by unfold QueueOk; decide +kernel, ?_⟩, by decide +kernel, by decide +kernel⟩
  exact ⟨_, rfl, rfl⟩
theorem test_hyp_PinOk : PinOk State.reset ∧ step State.reset = .next { State.reset with fab := { State.reset.fab with tb := 1 } } := ⟨by unfold PinOk; decide +kernel, rfl⟩
theorem test_hyp_Lines : let m : Mem := { State.reset.mem with lines := [] }; m.wf = true ∧ (m.putLine 5 7 2).wf = true := by decide +kernel
theorem test_hyp_MajorThreeF : Ready (ready []) 0 4 ∧ (0xFC000000 : BitVec 32).extractLsb' 26 6 = 0x3F ∧ (0xFFFFFFFF : BitVec 32).extractLsb' 26 6 = 0x3F := ⟨test_ready.1, by decide, by decide⟩

/-! Results that the spec gives -/

/-- G3 and the condition code after an instruction on the operands G1 and G2, with FOM = 0. -/
def int3 (i : Instr) (x y : W64) : W64 × BitVec 2 := let s := after i (ready [(1, x), (2, y), (3, 0x55)]); ((ar s).getG 3, (ar s).psw.cc)
/-- 04 Table ARI-1. -/
theorem test_add_overflow : int3 (.add 0 3 1 2 0) 0x7FFFFFFFFFFFFFFF 1 = (0x8000000000000000, 3) := by decide +kernel
theorem test_sub_overflow : int3 (.sub 0 3 1 2 0) 0x8000000000000000 1 = (0x7FFFFFFFFFFFFFFF, 3) := by decide +kernel
theorem test_addw_overflow : int3 (.addw 0 3 1 2 0) 0x7FFFFFFF 1 = (0xFFFFFFFF80000000, 3) := by decide +kernel
theorem test_addw_zero : int3 (.addw 0 3 1 2 0) 0x1234567800000001 0xFFFFFFFFFFFFFFFF = (0, 0) := by decide +kernel
theorem test_neg_smallest : int3 (.neg 0 3 1 0 0) 0x8000000000000000 0 = (0x8000000000000000, 3) := by decide +kernel
theorem test_mul_overflow : int3 (.mul 0 3 1 2 0) 0xFFFFFFFFFFFFFFFF 0x8000000000000000 = (0x8000000000000000, 3) := by decide +kernel
theorem test_mulh : (int3 (.mulh 0 3 1 2 0) 0x8000000000000000 0x8000000000000000).1 = 0x4000000000000000 := by decide +kernel
theorem test_mulhu : (int3 (.mulhu 0 3 1 2 0) 0xFFFFFFFFFFFFFFFF 0xFFFFFFFFFFFFFFFF).1 = 0xFFFFFFFFFFFFFFFE := by decide +kernel
theorem test_div_truncates : (int3 (.div 0 3 1 2 0) (-7) 2).1 = -3 := by decide +kernel
theorem test_rem_sign : (int3 (.rem 0 3 1 2 0) (-7) 2).1 = -1 := by decide +kernel
theorem test_rem_smallest : (int3 (.rem 0 3 1 2 0) 0x8000000000000000 (-1)).1 = 0 := by decide +kernel
theorem test_div_smallest_not_written : (int3 (.div 0 3 1 2 0) 0x8000000000000000 (-1)).1 = 0 ∧ (ar (after (.div 0 3 1 2 0) (ready [(1, 0x8000000000000000), (2, -1), (3, 0x55)]))).g.get 0 51 = 0x55 := by decide +kernel
theorem test_remw : (int3 (.remw 0 3 1 2 0) 0x80000000 0xFFFFFFFF).1 = 0 := by decide +kernel
theorem test_sll_64 : (int3 (.sll 0 3 1 2 0) 5 64).1 = 0 := by decide +kernel
theorem test_sra_all : int3 (.sra 0 3 1 2 0) 0x8000000000000000 0xFFFFFFFFFFFFFFFF = (0xFFFFFFFFFFFFFFFF, 1) := by decide +kernel
theorem test_sla_64 : int3 (.sla 0 3 1 2 0) 1 64 = (0, 3) := by decide +kernel
theorem test_sla_sign : int3 (.sla 0 3 1 2 0) 0xC000000000000000 1 = (0x8000000000000000, 1) := by decide +kernel
theorem test_rol_65 : (int3 (.rol 0 3 1 2 0) 0x8000000000000001 65).1 = 3 := by decide +kernel

/-- F3 after an instruction on the operands F1 and F2, in rounding mode `rm`. -/
def fp3 (i : Instr) (rm : Nat) (x y : W64) : W64 :=
  let s := after i (withCore (runs ({ base [] with f := [(97, x), (98, y)] }.setSr 0x0C (BitVec.ofNat 64 rm))))
  (ar s).f.get 0 99
/-- 04 Table ARI-5, rows 2, 4, 5, 7, 8, 9 and 10. -/
theorem test_fsub_max : fp3 (.fsub 0 3 1 2 0) 1 0xFFEFFFFFFFFFFFFF 0x7FEFFFFFFFFFFFFF = 0xFFEFFFFFFFFFFFFF := by decide +kernel
theorem test_fsub_max_min : fp3 (.fsub 0 3 1 2 0) 1 0x7FEFFFFFFFFFFFFF 1 = 0x7FEFFFFFFFFFFFFE := by decide +kernel
theorem test_fmul_tie : fp3 (.fmul 0 3 1 2 0) 0 1 0x3FE0000000000000 = 0 ∧ fp3 (.fmul 0 3 1 2 0) 4 1 0x3FE0000000000000 = 1 := by decide +kernel
theorem test_fmul_tiny : fp3 (.fmul 0 3 1 2 0) 3 0x8000000000000001 1 = 0x8000000000000001 := by decide +kernel
theorem test_fadd_min : fp3 (.fadd 0 3 1 2 0) 0 1 1 = 2 := by decide +kernel
theorem test_fadd_max : fp3 (.fadd 0 3 1 2 0) 2 0x7FEFFFFFFFFFFFFF 1 = 0x7FF0000000000000 := by decide +kernel
theorem test_fdiv_overflow : fp3 (.fdiv 0 3 1 2 0) 3 0x3FF0000000000000 1 = 0x7FEFFFFFFFFFFFFF := by decide +kernel

/-- 00: a doubleword in storage, its most significant byte at the lowest address; and its bytes. -/
def sBytes : State := let s := ready []; { s with mem := { s.mem with lines := [(0, own (BitVec.ofNat 2048 0x0123456789ABCDEF)), (1, own 0)] } }
theorem test_ld_big_endian : (ar (after (.ld 0 3 0 0xF8) sBytes)).getG 3 = 0x0123456789ABCDEF := by decide +kernel
theorem test_lb_first_and_last : (ar (after (.lb 0 3 0 0xF8) sBytes)).getG 3 = 0x01 ∧ (ar (after (.lb 0 3 0 0xFF) sBytes)).getG 3 = 0xEF := by decide +kernel
/-- 03 Table INS-18: the 64-bit constant in two halves. -/
theorem test_lih : (ar (after (.lih 0 5 5 0 0x01234567) (ready [(5, 0x89ABCDEF)]))).getG 5 = 0x0123456789ABCDEF := by decide +kernel
theorem test_bal : let a := ar (after (.bal 0 3) (ready [])); a.getG 15 = 0x104 ∧ a.psw.ia = 0x10C := by decide +kernel
theorem test_bc_back : (ar (after (.bc 0 8 0 0xFFFF) (readyP { psw0 with cc := 3 } []))).psw.ia = 0xFC := by decide +kernel
/-- 02 Table COR-4, step 1: CALLW rotates to the next window. -/
theorem test_callw : let a := ar (after (.callw 0 4) (withCore (runs { base [] with psw := { psw0 with bank := 2, state := 0 } }))); a.cwp 2 = 1 ∧ a.nres 2 = 2 ∧ a.getG 23 = 0x104 ∧ a.psw.ia = 0x110 := by decide +kernel

/-- 04, the worked example of ADDP: −99,999 and −1 in 5 digits, with DOM = 0. -/
theorem test_addp_overflow :
    let t := after (.addp 0 1 2 2 1 0 0) { sDec 0 3 0 with mem := { (sDec 0 3 0).mem with lines := [(0, own 0), (1, own (BitVec.ofNat 2048 (0x99999D * 2 ^ 2024))), (2, own (BitVec.ofNat 2048 (0x001D * 2 ^ 2032))), (3, own 0)] } }
    (ar t).psw.cc = 3 ∧ got (t.loadBytes (xc t) 2 0x100 3) = some (t, [0x00, 0x00, 0x0D]) ∧ (ar t).psw.ia = 0x108 := by decide +kernel

/-- 01: wall 2, course 3, position 5 is complex 0x09D. 10 Table FAB-2: the ports of the first three hops of the route to 0x24E. -/
def sAt (cx : Nat) : State :=
  let s := setf ([(F.FAB_ID_CFGCX, cx, 0), (F.FAB_SYS_WALLS, 0xFFFF, 0), (F.FAB_SYS_COURSES, 255, 0), (F.FAB_SYS_POSNS, 255, 0)] ++ (List.range 16).map (fun p => (F.FAB_PSTAT_STATE, 2, p)) ++
    (List.range 8).flatMap (fun c => [(F.FAB_GLT_V, 1, 16 * c + 6), (F.FAB_GLT_RCX, 0x242 + 8 * c, 16 * c + 6)])) State.reset
  s
theorem test_cxid : mkCx 2 3 5 = 0x09D := by decide
theorem test_route_hops : (sAt 0x09D).route 0x24E = some 9 ∧ (sAt 0x0B5).route 0x24E = some 5 ∧ (sAt 0x0B3).route 0x24E = some 14 := by decide +kernel
/-- 11, the worked example after R270: the controller of a line; 08, the worked example after R200: its slice and its sets. -/
theorem test_controller : (setf [(F.STO_ILV_BASE_EN, 1, 0), (F.STO_ILV_CTL_LIMIT, 0x1FFFF, 0), (F.STO_ILV_CTL_WAYS, 5, 0)] State.reset).mcOf 0x123440323456 = 7 := by decide +kernel
theorem test_slice_and_sets : sliceOf 0x123440323456 = 30 ∧ Machine.setOf 0x11E (0x123440323456 / 256) = 401 ∧ Machine.setOf 2 (0x123440323456 / 256) = 564 ∧ Machine.setOf 0 (0x123440323456 / 256) = 52 := by decide +kernel
/-- 20, the worked example after R449: N = 8, T = 1 s, ESCN = 2; eight events in 0.4 s, eight more from 1.5 s on. Time in units of 10 ms. -/
theorem test_fault_classes :
    let r := ((List.range 8).map (fun i => 5 * i) ++ (List.range 8).map (fun i => 150 + 2 * i)).foldl (fun (p : FltInst × List Nat) t => let q := p.1.event false 8 2 100 t; (q.1, p.2 ++ [q.2])) (FltInst.reset, [])
    r.2 = [0, 0, 0, 0, 0, 0, 0, 1, 0, 0, 0, 0, 0, 0, 0, 2] ∧ r.1.count = 16 ∧ r.1.escc = 0 := by decide +kernel
/-- 17, the worked example after R383: an ATTR for AES-256-XTS needs 64 key bytes. -/
theorem test_attr_klen : attrKlen { KSlot.reset with pid := 12 } 0xC83 = some 64 := by decide +kernel

/-- The check value of CRC-32C, the first vector of SHA-384 and the base point of P-384, from the standards that the spec names. -/
theorem test_crc32c : crcIscsi [0x31, 0x32, 0x33, 0x34, 0x35, 0x36, 0x37, 0x38, 0x39] = 0xE3069283 := by decide +kernel
theorem test_sha384 : sha384 [0x61, 0x62, 0x63] = 0xcb00753f45a35e8bb5a03d699ac65007272c32ab0eded1631a8b605a43ff5bed8086072ba1e7cc2358baeca134c825a7 := by decide +kernel

/-- 03 Table INS-18 and the paragraph after its example; R92, 0xF800_0000. -/
theorem test_decode_core :
    decodeCore 7 0x0264C801 0 = .add 7 19 4 25 0 ∧ decodeCore 7 0x0264C841 0 = .add 7 19 4 25 1 ∧ decodeCore 7 0xE0853001 0 = .movl 7 4 5 6 0 ∧ decodeCore 7 0xB100FFFF 0 = .bc 7 8 0 0xFFFF ∧
    decodeCore 7 0xBCA01000 0x89ABCDEF = .liwu 7 5 0 0 0x89ABCDEF ∧ decodeCore 7 0xBCA51800 0x01234567 = .lih 7 5 5 0 0x01234567 ∧
    decodeCore 7 0 0 = .undefinedOpcode 7 0 ∧ decodeCore 7 0xFC123456 0 = .undefinedOpcode 7 0xFC123456 ∧ decodeCore 7 0xF8000000 0 = .nop 7 0 0 := by decide +kernel
end Sys2Proof.Tests
end

section
/-! PROOFS. Bit fields: what a field reads after a write of itself or of another field. -/

namespace Sys2Proof.Machine

theorem testBit_putBits (x hi lo v i : Nat) (h : lo ≤ hi) :
    (putBits x hi lo v).testBit i = if i < lo then x.testBit i else if i ≤ hi then v.testBit (i - lo) else x.testBit i := by
  have hsplit : putBits x hi lo v = 2 ^ lo * (2 ^ (hi + 1 - lo) * (x / 2 ^ (hi + 1)) + v % 2 ^ (hi + 1 - lo)) + x % 2 ^ lo := by
    have hpow : 2 ^ (hi + 1) = 2 ^ lo * 2 ^ (hi + 1 - lo) := by rw [← Nat.pow_add]; congr 1; omega
    rw [putBits]
    generalize x / 2 ^ (hi + 1) = q
    rw [hpow]; ring
  rw [hsplit, Nat.testBit_two_pow_mul_add _ (Nat.mod_lt _ (Nat.two_pow_pos lo))]
  split
  · simp [*]
  · rw [Nat.testBit_two_pow_mul_add _ (Nat.mod_lt _ (Nat.two_pow_pos _))]
    by_cases hi' : i ≤ hi
    · simp [hi', show i - lo < hi + 1 - lo by omega]
    · simp only [hi', show ¬ i - lo < hi + 1 - lo by omega, if_false, Nat.testBit_div_two_pow]
      congr 1; omega

theorem testBit_bits (x hi lo i : Nat) : (bits x hi lo).testBit i = (decide (i < hi + 1 - lo) && x.testBit (lo + i)) := by
  simp [bits, Nat.testBit_mod_two_pow, Nat.testBit_div_two_pow, Nat.add_comm]

theorem testBit_fieldOf {n : Nat} (w : BitVec n) (hi lo i : Nat) : (fieldOf w hi lo).testBit i = (decide (i < hi + 1 - lo) && w.getLsbD (lo + i)) :=
  testBit_bits w.toNat hi lo i

theorem getLsbD_putField (w : W64) (hi lo v i : Nat) (h : lo ≤ hi) (hi64 : hi < 64) :
    (putField w hi lo v).getLsbD i = if lo ≤ i ∧ i ≤ hi then v.testBit (i - lo) else w.getLsbD i := by
  rw [putField, BitVec.getLsbD_ofNat, testBit_putBits _ _ _ _ _ h]
  by_cases hi' : i < 64
  · simp only [hi', decide_true, Bool.true_and]
    split
    · rw [if_neg (by omega)]; rfl
    · split
      · rw [if_pos (by omega)]
      · rw [if_neg (by omega)]; rfl
  · rw [if_neg (by omega), BitVec.getLsbD_of_ge _ _ (by omega)]; simp [show ¬ i ≤ hi by omega, hi']

theorem fieldOf_putField_same (w : W64) (hi lo v : Nat) (h : lo ≤ hi) (hi64 : hi < 64) : fieldOf (putField w hi lo v) hi lo = v % 2 ^ (hi + 1 - lo) := by
  apply Nat.eq_of_testBit_eq
  intro i
  rw [testBit_fieldOf, getLsbD_putField _ _ _ _ _ h hi64, Nat.testBit_mod_two_pow]
  by_cases hi' : i < hi + 1 - lo
  · rw [if_pos (by omega)]; simp
  · simp [hi']

theorem fieldOf_putField_apart (w : W64) (hi lo v hi' lo' : Nat) (h : lo ≤ hi) (hi64 : hi < 64) (ha : hi < lo' ∨ hi' < lo) :
    fieldOf (putField w hi lo v) hi' lo' = fieldOf w hi' lo' := by
  apply Nat.eq_of_testBit_eq
  intro i
  rw [testBit_fieldOf, testBit_fieldOf, getLsbD_putField _ _ _ _ _ h hi64]
  by_cases hi'' : i < hi' + 1 - lo'
  · rw [if_neg (by omega)]
  · simp [hi'']

theorem fieldOf_and (x y : W64) (hi lo : Nat) : fieldOf (x &&& y) hi lo = fieldOf x hi lo &&& fieldOf y hi lo := by
  apply Nat.eq_of_testBit_eq
  intro i
  simp only [testBit_fieldOf, Nat.testBit_and, BitVec.getLsbD_and]
  cases decide (i < hi + 1 - lo) <;> simp

theorem fieldOf_lt {n : Nat} (w : BitVec n) (hi lo : Nat) : fieldOf w hi lo < 2 ^ (hi + 1 - lo) := Nat.mod_lt _ (Nat.two_pow_pos _)

end Sys2Proof.Machine
end

section
/-! PROOFS. Loads (00 R6, 07 R170): the bytes that a core sees in a line it holds. -/

namespace Sys2Proof.Machine

/-! Bytes as a number (00 R6) -/

theorem packBytes_snoc (l : List Byte) (b : Byte) : packBytes (l ++ [b]) = packBytes l * 256 + b.toNat := by
  simp [packBytes]

theorem packBytes_lt (l : List Byte) : packBytes l < 256 ^ l.length := by
  induction l using List.reverseRecOn with
  | nil => simp [packBytes]
  | append_singleton l b ih =>
    have hb := b.isLt
    rw [packBytes_snoc, List.length_append, List.length_singleton, Nat.pow_succ]
    omega

/-- Byte `k` of a packed list stands `k` places below the most significant one. -/
theorem byte_packBytes (l : List Byte) (k : Nat) (h : k < l.length) : BitVec.ofNat 8 (packBytes l / 256 ^ (l.length - 1 - k)) = l[k] := by
  induction l using List.reverseRecOn with
  | nil => cases h
  | append_singleton l b ih =>
    have hb := b.isLt
    rw [packBytes_snoc]
    rw [List.length_append, List.length_singleton] at h ⊢
    by_cases hk : k < l.length
    · have hexp : l.length + 1 - 1 - k = (l.length - 1 - k) + 1 := by omega
      have hdiv : (packBytes l * 256 + b.toNat) / 256 = packBytes l := by omega
      rw [hexp, Nat.pow_succ', ← Nat.div_div_eq_div_mul, hdiv, ih hk, List.getElem_append_left hk]
    · obtain rfl : k = l.length := by omega
      apply BitVec.eq_of_toNat_eq
      simp [Nat.mod_eq_of_lt hb]

theorem lineByte_eq_extractLsb' (d : Line) (i : Nat) : lineByte d i = d.extractLsb' (8 * (255 - i)) 8 := by
  rw [lineByte, BitVec.extractLsb', Nat.shiftRight_eq_div_pow]

/-! Loads (05 R120, 07 R170) -/

/-- In real mode a monitor's address below 2^56 is absolute (05 Table STO-1). -/
theorem State.translate_absolute (s : State) (x : XCtx) (va : W64) (need : Need) (hasm : x.asm = 0) (hpid : x.pid = 0) (hva : va.toNat < 2 ^ 56) :
    s.translate x va need = .ok s va.toNat := by
  have htop : fieldOf va 63 56 = 0 := by rw [fieldOf, bits, Nat.div_eq_of_lt hva, Nat.zero_mod]
  simp [State.translate, State.realVa, hasm, hpid, htop, SRes.bind]

/-- A read of a held line that serves it changes nothing. -/
theorem State.lineFor_held (s : State) (x : XCtx) (va : W64) (abs : Nat) (c : CLine) (hc : s.held (abs / 256) = some c) (hs : c.serves x.pid .rd = true) :
    s.lineFor x va .rd abs = .ok s c := by
  have hown : c.ownedFor x.pid .rd = false := by simp [CLine.ownedFor]
  simp [State.lineFor, hc, hown, State.reach4, State.acquire, hs]

theorem State.access_held (s : State) (x : XCtx) (va : W64) (c : CLine) (hasm : x.asm = 0) (hpid : x.pid = 0) (hva : va.toNat < 2 ^ 56)
    (hc : s.held (va.toNat / 256) = some c) (hs : c.serves 0 .rd = true) : s.access x va .rd = .ok s (va.toNat, c) := by
  rw [State.access, State.translate_absolute s x va .rd hasm hpid hva]
  simp only [SRes.bind]
  rw [State.lineFor_held s x va va.toNat c hc (hpid ▸ hs)]

/-- The bytes that core `lc` sees from an address on in a line: its newest held stores over the line's bytes. -/
def State.bytesSeen (s : State) (lc a : Nat) (c : CLine) (n : Nat) : List Byte :=
  (List.range n).map (fun i => fwdByte (s.core lc).stbuf (a + i) (lineByte c.data (a % 256 + i)))

theorem State.loadBytes_oneLine (s : State) (x : XCtx) (fuel : Nat) (va : W64) (n : Nat) (c : CLine) (hn : 0 < n) (hline : va.toNat % 256 + n ≤ 256)
    (ha : s.access x va .rd = .ok s (va.toNat, c)) : s.loadBytes x (fuel + 2) va n = .ok s (s.bytesSeen x.lc va.toNat c n) := by
  have hk : inLine va n = n := by unfold inLine; omega
  have hn0 : n ≠ 0 := by omega
  simp [State.loadBytes, hn0, hk, ha, SRes.bind, State.bytesSeen]

/-- Settles O7: the address is absolute, the line is held, and the bytes seen in it are packed with the first most significant. -/
theorem loadSeesBytes : Obligations.LoadSeesBytes := by
  intro s lc va n c hasm hpid hva hn hline hc hs
  have ha := State.access_held s ((s.core lc).xctx lc) va c (by simp [Core.xctx, hasm]) (by simp [Core.xctx, hpid]) hva hc hs
  have hlen : (s.bytesSeen lc va.toNat c n).length = n := by simp [State.bytesSeen]
  refine ⟨packBytes (s.bytesSeen lc va.toNat c n), ?_, ?_, fun k hk => ?_⟩
  · rw [State.loadNat, State.loadBytes_oneLine s _ _ va n c hn hline ha]; rfl
  · have hlt := packBytes_lt (s.bytesSeen lc va.toNat c n)
    rwa [hlen, show (256 : Nat) = 2 ^ 8 from rfl, ← Nat.pow_mul] at hlt
  · have hbyte := byte_packBytes (s.bytesSeen lc va.toNat c n) k (by omega)
    simp only [hlen] at hbyte
    rw [hbyte, show (va.toNat + k) % 256 = va.toNat % 256 + k by omega, ← lineByte_eq_extractLsb']
    simp [State.bytesSeen]

end Sys2Proof.Machine
end

section
/-! PROOFS. Register writes (00 R10, R12 to R14; 22 R466 to R469): what a field stores and refuses, by its type, and what a write of its register leaves. -/

namespace Sys2Proof.Machine

/-! Writes field by field (00 R10, R12 to R14) -/

/-- What a field holds after a write of `v` to its register, from what it held (00 Table SCO-4). -/
def FldDesc.stored (f : FldDesc) (locked : Bool) (cur : Nat) (v : W64) : Nat :=
  let new := fieldOf v f.hi f.lo
  match f.ty with
  | .ro | .wo => cur
  | .rw1c => cur &&& fieldOf (~~~v) f.hi f.lo
  | .rw | .rs => if f.reserved new then cur else new
  | .rwl => if locked || f.reserved new then cur else new

/-- Is the write of `v` refused by a field that holds `cur` (22 R469). -/
def FldDesc.refuses (f : FldDesc) (locked : Bool) (cur : Nat) (v : W64) : Bool :=
  let new := fieldOf v f.hi f.lo
  match f.ty with
  | .ro | .wo | .rw1c => false
  | .rw | .rs => f.reserved new
  | .rwl => decide (new ≠ cur) && (locked || f.reserved new)

theorem FldDesc.stored_ro (f : FldDesc) (locked : Bool) (cur : Nat) (v : W64) (h : f.ty = .ro) : f.stored locked cur v = cur := by
  simp [FldDesc.stored, h]

theorem FldDesc.stored_taken (f : FldDesc) (locked : Bool) (cur : Nat) (v : W64) (h : f.ty = .rw ∨ (f.ty = .rwl ∧ locked = false))
    (hr : f.reserved (fieldOf v f.hi f.lo) = false) : f.stored locked cur v = fieldOf v f.hi f.lo := by
  rcases h with h | ⟨h, hl⟩ <;> simp [FldDesc.stored, *]

/-- A field that refuses keeps its value. -/
theorem FldDesc.stored_of_refuses (f : FldDesc) (locked : Bool) (cur : Nat) (v : W64) (h : f.refuses locked cur v = true) : f.stored locked cur v = cur := by
  unfold FldDesc.refuses at h
  unfold FldDesc.stored
  cases hty : f.ty with
  | ro | wo | rw1c => simp [hty] at h
  | rw | rs | rwl => simp_all

/-- A field lies within its register. -/
def FldDesc.fits (f : FldDesc) : Prop := f.lo ≤ f.hi ∧ f.hi < 64

/-- Two fields have no bit in common. -/
def FldDesc.apart (f g : FldDesc) : Prop := f.hi < g.lo ∨ g.hi < f.lo

/-- A field's write is a write of its bits or none. -/
theorem FldDesc.write_eq (f : FldDesc) (locked : Bool) (old v : W64) :
    f.write locked old v = (old, f.refuses locked (fieldOf old f.hi f.lo) v) ∧ f.stored locked (fieldOf old f.hi f.lo) v = fieldOf old f.hi f.lo ∨
    f.write locked old v = (putField old f.hi f.lo (f.stored locked (fieldOf old f.hi f.lo) v), f.refuses locked (fieldOf old f.hi f.lo) v) := by
  unfold FldDesc.write FldDesc.stored FldDesc.refuses
  cases f.ty with
  | ro => simp
  | wo => simp
  | rw1c => simp [fieldOf_and]
  | rw => cases h : f.reserved (fieldOf v f.hi f.lo) <;> simp [h]
  | rs => cases h : f.reserved (fieldOf v f.hi f.lo) <;> simp [h]
  | rwl =>
    by_cases hn : fieldOf v f.hi f.lo = fieldOf old f.hi f.lo
    · simp [hn]
    · cases h : (locked || f.reserved (fieldOf v f.hi f.lo)) <;> simp [hn, h]

theorem FldDesc.stored_lt (f : FldDesc) (locked : Bool) (old v : W64) : f.stored locked (fieldOf old f.hi f.lo) v < 2 ^ (f.hi + 1 - f.lo) := by
  have hold := fieldOf_lt old f.hi f.lo
  have hnew := fieldOf_lt v f.hi f.lo
  unfold FldDesc.stored
  cases f.ty with
  | ro | wo => exact hold
  | rw1c => exact lt_of_le_of_lt Nat.and_le_left hold
  | rw | rs | rwl => dsimp only; split <;> assumption

theorem FldDesc.write_refuses (f : FldDesc) (locked : Bool) (old v : W64) : (f.write locked old v).2 = f.refuses locked (fieldOf old f.hi f.lo) v := by
  rcases f.write_eq locked old v with ⟨h, -⟩ | h <;> rw [h]

theorem FldDesc.fieldOf_write_same (f : FldDesc) (locked : Bool) (old v : W64) (hf : f.fits) :
    fieldOf (f.write locked old v).1 f.hi f.lo = f.stored locked (fieldOf old f.hi f.lo) v := by
  rcases f.write_eq locked old v with ⟨h, hs⟩ | h
  · rw [h, hs]
  · rw [h, fieldOf_putField_same _ _ _ _ hf.1 hf.2, Nat.mod_eq_of_lt (f.stored_lt locked old v)]

theorem FldDesc.fieldOf_write_apart (f g : FldDesc) (locked : Bool) (old v : W64) (hf : f.fits) (ha : f.apart g) :
    fieldOf (f.write locked old v).1 g.hi g.lo = fieldOf old g.hi g.lo := by
  rcases f.write_eq locked old v with ⟨h, -⟩ | h
  · rw [h]
  · rw [h, fieldOf_putField_apart _ _ _ _ _ _ hf.1 hf.2 ha]

/-- A write of fields on top of a write that was refused or not. -/
theorem foldl_write (l : List FldDesc) (locked : Bool) (x v : W64) (b : Bool) :
    l.foldl (fun p f => let q := f.write locked p.1 v; (q.1, p.2 || q.2)) (x, b) = ((writeFlds l locked x v).1, b || (writeFlds l locked x v).2) := by
  induction l generalizing x b with
  | nil => simp [writeFlds]
  | cons f l ih =>
    have hcons : writeFlds (f :: l) locked x v =
        l.foldl (fun p f => let q := f.write locked p.1 v; (q.1, p.2 || q.2)) ((f.write locked x v).1, false || (f.write locked x v).2) := rfl
    rw [List.foldl_cons, ih, hcons, ih]
    simp [Bool.or_assoc]

theorem writeFlds_cons (f : FldDesc) (r : List FldDesc) (locked : Bool) (old v : W64) :
    writeFlds (f :: r) locked old v =
      ((writeFlds r locked (f.write locked old v).1 v).1, (f.write locked old v).2 || (writeFlds r locked (f.write locked old v).1 v).2) := by
  rw [writeFlds, List.foldl_cons, foldl_write, Bool.false_or]

/-- The fields of a register lie within it and have no bit in common. -/
def laidOut (flds : List FldDesc) : Prop := (∀ f ∈ flds, f.fits) ∧ flds.Pairwise FldDesc.apart

/-- Writing the other fields of a register leaves a field. -/
theorem fieldOf_writeFlds_apart (flds : List FldDesc) (g : FldDesc) (locked : Bool) (old v : W64) (hf : ∀ f ∈ flds, f.fits) (ha : ∀ f ∈ flds, f.apart g) :
    fieldOf (writeFlds flds locked old v).1 g.hi g.lo = fieldOf old g.hi g.lo := by
  induction flds generalizing old with
  | nil => rfl
  | cons f r ih =>
    obtain ⟨hff, hfr⟩ := List.forall_mem_cons.mp hf
    obtain ⟨hag, har⟩ := List.forall_mem_cons.mp ha
    rw [writeFlds_cons, ih _ hfr har, FldDesc.fieldOf_write_apart f g locked old v hff hag]

/-- Every field of a written register holds what its own write stores. -/
theorem fieldOf_writeFlds (flds : List FldDesc) (f : FldDesc) (locked : Bool) (old v : W64) (h : laidOut flds) (hm : f ∈ flds) :
    fieldOf (writeFlds flds locked old v).1 f.hi f.lo = f.stored locked (fieldOf old f.hi f.lo) v := by
  induction flds generalizing old with
  | nil => cases hm
  | cons g r ih =>
    obtain ⟨hfits, hap⟩ := h
    obtain ⟨hg, hr⟩ := List.forall_mem_cons.mp hfits
    obtain ⟨hgr, hrr⟩ := List.pairwise_cons.mp hap
    rw [writeFlds_cons]
    rcases List.mem_cons.mp hm with rfl | hm
    · rw [fieldOf_writeFlds_apart r f locked _ v hr (fun g hg => Or.symm (hgr g hg)), FldDesc.fieldOf_write_same f locked old v hg]
    · rw [ih _ ⟨hr, hrr⟩ hm, FldDesc.fieldOf_write_apart g f locked old v hg (hgr f hm)]

/-- Does some field of a register that holds `old` refuse the write of `v`. -/
def refusesOne (flds : List FldDesc) (locked : Bool) (old v : W64) : Bool := flds.any (fun f => f.refuses locked (fieldOf old f.hi f.lo) v)

theorem writeFlds_refuses (flds : List FldDesc) (locked : Bool) (old v : W64) (h : laidOut flds) :
    (writeFlds flds locked old v).2 = refusesOne flds locked old v := by
  induction flds generalizing old with
  | nil => rfl
  | cons g r ih =>
    obtain ⟨hfits, hap⟩ := h
    obtain ⟨hg, hr⟩ := List.forall_mem_cons.mp hfits
    obtain ⟨hgr, hrr⟩ := List.pairwise_cons.mp hap
    rw [writeFlds_cons, refusesOne, List.any_cons, FldDesc.write_refuses, ih _ ⟨hr, hrr⟩, refusesOne]
    have hkeep : ∀ f ∈ r, fieldOf (g.write locked old v).1 f.hi f.lo = fieldOf old f.hi f.lo :=
      fun f hf => FldDesc.fieldOf_write_apart g f locked old v hg (hgr f hf)
    have hany : r.any (fun f => f.refuses locked (fieldOf (g.write locked old v).1 f.hi f.lo) v) = r.any (fun f => f.refuses locked (fieldOf old f.hi f.lo) v) := by
      rw [Bool.eq_iff_iff, List.any_eq_true, List.any_eq_true]
      exact exists_congr fun f => and_congr_right fun hf => by rw [hkeep f hf]
    simp only [hany]

/-! Writes of registers (22 R466 to R469) -/

/-- The offset of SVC_WSTAT in the window of an offset (22 R469). -/
def wstatOff (off : Nat) : Nat := off / 0x100000 * 0x100000 + 0xFFFF8

/-- Recording a refused write sets CFG_ERR of the window and writes no other register. -/
theorem State.cfgErr_eq (s : State) (src : Src) (off : Nat) : ∃ w, s.cfgErr src off = s.setReg (wstatOff off) w ∧ fieldOf w 63 63 = 1 := by
  unfold State.cfgErr wstatOff
  by_cases h : fieldOf (s.reg (off / 0x100000 * 0x100000 + 0xFFFF8)) 63 63 = 1
  · refine ⟨_, if_pos h, ?_⟩
    rw [fieldOf_putField_apart _ _ _ _ _ _ (by decide) (by decide) (by decide), h]
  · refine ⟨_, if_neg h, ?_⟩
    rw [fieldOf_putField_apart _ _ _ _ _ _ (by decide) (by decide) (by decide),
      fieldOf_putField_apart _ _ _ _ _ _ (by decide) (by decide) (by decide), fieldOf_putField_same _ _ _ _ (by decide) (by decide)]
    decide

/-- A plain write of a register above window BOO: its fields by their types, and CFG_ERR where one refuses. -/
theorem State.wrReg_eq (s : State) (src : Src) (off : Nat) (v : W64) (r : RegDesc) (hr : regAt off = some r) (ho : 0x200000 ≤ off) :
    s.wrReg src off v =
      if (writeFlds r.flds s.svc.locked (s.reg off) v).2 then (s.setReg off (writeFlds r.flds s.svc.locked (s.reg off) v).1).cfgErr src off
      else s.setReg off (writeFlds r.flds s.svc.locked (s.reg off) v).1 := by
  have hw : wrWanted off (s.reg off) v = (v, false) := by
    have : wholeRsv off v.toNat = [] := by
      rw [wholeRsv, if_neg (by simp; omega), if_neg (by simp only [F.BOO_IPL2_COUNT]; omega)]
    simp [wrWanted, this]
  simp only [State.wrReg, hr, hw, Bool.or_false]

/-- In windows VPT, ZIP and CIP no register has a rule of its own. -/
theorem State.ctlWrite_eq_wrReg (s : State) (src : Src) (off : Nat) (v : W64) (r : RegDesc) (hr : regAt off = some r)
    (hlo : 12 ≤ off / 0x100000) (hhi : off / 0x100000 ≤ 14) : s.ctlWrite src off v = s.wrReg src off v := by
  unfold State.ctlWrite
  rw [hr]
  simp only [Option.isNone_some, Bool.false_eq_true, ↓reduceIte]
  split
  · rfl
  · obtain h | h | h : off / 0x100000 = 12 ∨ off / 0x100000 = 13 ∨ off / 0x100000 = 14 := by omega
    all_goals simp [h]

/-- How a host or a core writes a register of a complex that lives. -/
theorem exec_registerWrite (s : State) (src : Src) (off : Nat) (v : W64) (h : s.dead = false) :
    exec (.registerWrite src off v) s = .next (left s (s.ctlWrite src off v)) := by
  have : exec (.registerWrite src off v) s = execRegisterWrite src off v s := rfl
  rw [this, execRegisterWrite, h, settled_next]; rfl

/-- The registers of windows VPT, ZIP and CIP are laid out. -/
theorem regAt_laidOut (off : Nat) (r : RegDesc) (hr : regAt off = some r) (hlo : 12 ≤ off / 0x100000) (hhi : off / 0x100000 ≤ 14) : laidOut r.flds := by
  have hall : ∀ r ∈ regsVPT ++ regsZIP ++ regsCIP ++ [R.SVC_WSTAT], laidOut r.flds := by
    unfold laidOut FldDesc.fits FldDesc.apart; decide
  apply hall
  have hm := List.mem_of_find?_eq_some hr
  unfold regsOf at hm
  obtain h | h | h : off / 0x100000 = 12 ∨ off / 0x100000 = 13 ∨ off / 0x100000 = 14 := by omega
  all_goals
    rw [h] at hm
    simp only [List.mem_append] at hm ⊢
    tauto

theorem State.ctlWrite_eq (s : State) (src : Src) (off : Nat) (v : W64) (r : RegDesc) (hr : regAt off = some r)
    (hlo : 12 ≤ off / 0x100000) (hhi : off / 0x100000 ≤ 14) :
    s.ctlWrite src off v =
      if refusesOne r.flds s.svc.locked (s.reg off) v then (s.setReg off (writeFlds r.flds s.svc.locked (s.reg off) v).1).cfgErr src off
      else s.setReg off (writeFlds r.flds s.svc.locked (s.reg off) v).1 := by
  rw [State.ctlWrite_eq_wrReg s src off v r hr hlo hhi, State.wrReg_eq s src off v r hr (by omega), writeFlds_refuses _ _ _ _ (regAt_laidOut off r hr hlo hhi)]

/-- A write of a register of windows VPT, ZIP and CIP: its fields as they store, no other register but CFG_ERR of the window, and that when a field refuses. -/
theorem State.ctlWrite_spec (s : State) (src : Src) (off : Nat) (v : W64) (r : RegDesc) (hr : regAt off = some r)
    (hlo : 12 ≤ off / 0x100000) (hhi : off / 0x100000 ≤ 14) :
    let t := s.ctlWrite src off v
    let refused := refusesOne r.flds s.svc.locked (s.reg off) v
    (∃ c, t = { s with ctl := c }) ∧ (∀ o, o ≠ off → (refused = true → o ≠ wstatOff off) → t.reg o = s.reg o) ∧
      (refused = true → fieldOf (t.reg (wstatOff off)) 63 63 = 1) ∧
      ((refused = true → off ≠ wstatOff off) → ∀ f ∈ r.flds, fieldOf (t.reg off) f.hi f.lo = f.stored s.svc.locked (fieldOf (s.reg off) f.hi f.lo) v) := by
  have hstored := fun f hf => fieldOf_writeFlds r.flds f s.svc.locked (s.reg off) v (regAt_laidOut off r hr hlo hhi) hf
  rw [State.ctlWrite_eq s src off v r hr hlo hhi]
  generalize (writeFlds r.flds s.svc.locked (s.reg off) v).1 = w at hstored
  cases refusesOne r.flds s.svc.locked (s.reg off) v with
  | false =>
    refine ⟨⟨_, rfl⟩, fun o ho _ => State.reg_setReg_ne _ _ _ _ ho, by simp, fun _ f hf => ?_⟩
    simpa using hstored f hf
  | true =>
    obtain ⟨c, hc, hbit⟩ := State.cfgErr_eq (s.setReg off w) src off
    rw [if_pos rfl, hc]
    refine ⟨⟨_, rfl⟩, fun o ho hne => ?_, fun _ => by rw [State.reg_setReg, hbit], fun hne f hf => ?_⟩
    · rw [State.reg_setReg_ne _ _ _ _ (hne rfl), State.reg_setReg_ne _ _ _ _ ho]
    · rw [State.reg_setReg_ne _ _ _ _ (hne rfl), State.reg_setReg, hstored f hf]

theorem regAt_wstatOff (off : Nat) (hlo : 12 ≤ off / 0x100000) (hhi : off / 0x100000 ≤ 14) : regAt (wstatOff off) = some R.SVC_WSTAT := by
  unfold wstatOff
  obtain h | h | h : off / 0x100000 = 12 ∨ off / 0x100000 = 13 ∨ off / 0x100000 = 14 := by omega
  all_goals rw [h]; decide

/-- No field of SVC_WSTAT refuses a write. -/
theorem wstat_refuses_none (locked : Bool) (old v : W64) : refusesOne R.SVC_WSTAT.flds locked old v = false := by
  simp [refusesOne, R.SVC_WSTAT, FldDesc.refuses]

/-- Settles O53: a register of windows VPT, ZIP and CIP takes a write field by field, and CFG_ERR of the window with it. -/
theorem registerWrites : Obligations.RegisterWrites := by
  intro s src off v r hdead hr hlo hhi hwin werr
  rw [show werr = wstatOff off from rfl]
  have hoff : off ≠ wstatOff off := by unfold wstatOff; omega
  have hpin : off ≠ F.FLT_ERRPIN_PIN.base ∧ wstatOff off ≠ F.FLT_ERRPIN_PIN.base := by
    simp only [wstatOff, F.FLT_ERRPIN_PIN]; omega
  refine ⟨⟨_, exec_registerWrite s src off v hdead, ?_⟩, ⟨_, exec_registerWrite s src (wstatOff off) v hdead, ?_⟩⟩
  · obtain ⟨⟨c, hframe⟩, hother, hcfg, hfld⟩ := State.ctlWrite_spec s src off v r hr hlo hhi
    refine ⟨fun f hf => ?_, fun o ho hw hp => ?_, by simp [hframe]⟩
    · have hgot := hfld (fun _ => hoff) f hf
      have href : f.refuses s.svc.locked (fieldOf (s.reg off) f.hi f.lo) v = true →
          f.stored s.svc.locked (fieldOf (s.reg off) f.hi f.lo) v = fieldOf (s.reg off) f.hi f.lo ∧
            fieldOf ((s.ctlWrite src off v).reg (wstatOff off)) 63 63 = 1 :=
        fun h => ⟨f.stored_of_refuses _ _ _ h, hcfg (List.any_eq_true.mpr ⟨f, hf, h⟩)⟩
      rw [left_reg _ _ _ hpin.1, left_reg _ _ _ hpin.2]
      dsimp only
      rw [hgot]
      refine ⟨f.stored_ro _ _ _, f.stored_taken _ _ _, fun hty hres => href ?_, fun hty hlk hne => href ?_⟩
      · simp [FldDesc.refuses, hty, hres]
      · simp [FldDesc.refuses, hty, hlk, hne]
    · rw [left_reg _ _ _ hp, hother o ho (fun _ => hw)]
  · have hwin' : wstatOff off / 0x100000 = off / 0x100000 := by unfold wstatOff; omega
    obtain ⟨-, hother, -, hfld⟩ := State.ctlWrite_spec s src (wstatOff off) v _ (regAt_wstatOff off hlo hhi) (hwin' ▸ hlo) (hwin' ▸ hhi)
    rw [wstat_refuses_none] at hother hfld
    refine ⟨?_, fun o ho hp => ?_⟩
    · have hbit := hfld (by simp) ⟨63, 63, .rw1c, 0, []⟩ (by simp [R.SVC_WSTAT])
      rw [left_reg _ _ _ hpin.2, hbit, fieldOf_and]; rfl
    · rw [left_reg _ _ _ hp, hother o ho (by simp)]

end Sys2Proof.Machine
end

section
/-! PROOFS. The state after cold reset (00 R9, 02 R53, 10 R262). -/

namespace Sys2Proof.Machine

/-- Before anything is written, control space reads as its tables reset it. -/
theorem State.reg_reset (off : Nat) : State.reset.reg off = ctlReset off := rfl

theorem State.core_reset (n : Nat) : State.reset.core n = Core.reset := rfl

theorem Arch.getSr_reset (k : Nat) : Arch.reset.getSr k = srReset k := rfl

/-- After cold reset nothing holds ERR_N low. -/
theorem State.errWord_reset : State.reset.errWord = BitVec.ofNat 64 (2 ^ 60) := by decide +kernel

theorem State.pinOk_reset : PinOk State.reset := by
  rw [PinOk, State.errWord_reset, State.reg_reset]; decide +kernel

theorem State.queueOk_reset : QueueOk State.reset := fun _ h => absurd h List.not_mem_nil

/-- Settles O57: nothing has been written, so control space and the cores read as their tables reset them. -/
theorem resetState : Obligations.ResetState := by
  refine ⟨⟨State.pinOk_reset, State.queueOk_reset, rfl⟩, fun off r h => ?_, fun off h => ?_, fun n => ?_, rfl, rfl, rfl, rfl, rfl, rfl, rfl, State.errWord_reset⟩
  · rw [State.reg_reset, ctlReset, h]
  · rw [State.reg_reset, ctlReset, h]
  · rw [State.core_reset]; exact ⟨rfl, rfl, rfl, rfl, Arch.getSr_reset⟩

end Sys2Proof.Machine
end

section
/-! PROOFS. Register windows (02 R37 to R40): what a register or a window field reads after a write. -/

namespace Sys2Proof.Machine

/-! Window state -/

@[simp] theorem Arch.wstOf_setWst (x : Arch) (bank : Nat) (w : W64) : (x.setWst bank w).wstOf bank = w := by simp [Arch.wstOf, Arch.setWst]

theorem Arch.wstOf_setWst_ne (x : Arch) (bank n : Nat) (w : W64) (h : n ≠ bank) : (x.setWst bank w).wstOf n = x.wstOf n := by
  simp [Arch.wstOf, Arch.setWst, Tab.get_put_ne _ _ _ _ _ h]

theorem Arch.wstOf_congr {x y : Arch} (h : x.wst = y.wst) (n : Nat) : x.wstOf n = y.wstOf n := by simp [Arch.wstOf, h]
theorem Arch.cwp_congr {x y : Arch} (h : x.wst = y.wst) (n : Nat) : x.cwp n = y.cwp n := by simp [Arch.cwp, Arch.wstOf, h]
theorem Arch.nres_congr {x y : Arch} (h : x.wst = y.wst) (n : Nat) : x.nres n = y.nres n := by simp [Arch.nres, Arch.wstOf, h]
theorem Arch.spdepth_congr {x y : Arch} (h : x.wst = y.wst) (n : Nat) : x.spdepth n = y.spdepth n := by simp [Arch.spdepth, Arch.wstOf, h]

theorem Arch.cwp_lt (x : Arch) (bank : Nat) : x.cwp bank < 8 := fieldOf_lt _ 2 0
theorem Arch.nres_lt (x : Arch) (bank : Nat) : x.nres bank < 8 := fieldOf_lt _ 6 4

theorem Arch.cwp_setWin (x : Arch) (bank cwp nres : Nat) (h : cwp < 8) : (x.setWin bank cwp nres).cwp bank = cwp := by
  rw [Arch.cwp, Arch.setWin, Arch.wstOf_setWst, fieldOf_putField_apart _ _ _ _ _ _ (by omega) (by omega) (by omega),
    fieldOf_putField_same _ _ _ _ (by omega) (by omega)]
  exact Nat.mod_eq_of_lt h

theorem Arch.nres_setWin (x : Arch) (bank cwp nres : Nat) (h : nres < 8) : (x.setWin bank cwp nres).nres bank = nres := by
  rw [Arch.nres, Arch.setWin, Arch.wstOf_setWst, fieldOf_putField_same _ _ _ _ (by omega) (by omega)]
  exact Nat.mod_eq_of_lt h

theorem Arch.spdepth_setWin (x : Arch) (bank cwp nres : Nat) : (x.setWin bank cwp nres).spdepth bank = x.spdepth bank := by
  rw [Arch.spdepth, Arch.setWin, Arch.wstOf_setWst, fieldOf_putField_apart _ _ _ _ _ _ (by omega) (by omega) (by omega),
    fieldOf_putField_apart _ _ _ _ _ _ (by omega) (by omega) (by omega)]
  rfl

theorem Arch.wstOf_setWin_ne (x : Arch) (bank n cwp nres : Nat) (h : n ≠ bank) : (x.setWin bank cwp nres).wstOf n = x.wstOf n :=
  Arch.wstOf_setWst_ne _ _ _ _ h

/-! Registers -/

/-- Register `8 * j + i` of a window stands in place `i` of the `j`th frame from the window's. -/
theorem winKey_eq (bank frame j i : Nat) (h : i < 8) : winKey bank frame (8 * j + i) = bank * 64 + (frame + j) % 8 * 8 + i := by
  rw [winKey]
  omega

theorem winKey_frame (bank frame i : Nat) : winKey bank frame i / 8 = bank * 8 + (frame + i / 8) % 8 := by
  rw [winKey]
  omega

theorem winKey_bank (bank frame i : Nat) : winKey bank frame i / 64 = bank := by
  rw [winKey]
  omega

theorem Arch.getGB_window (x : Arch) (bank r : Nat) (h : 16 ≤ r) : x.getGB bank r = x.w.get 0 (winKey bank (x.cwp bank) (r - 16)) := by
  rw [Arch.getGB, if_neg (by omega)]

theorem Arch.setGB_window (x : Arch) (bank r : Nat) (v : W64) (h : 16 ≤ r) :
    x.setGB bank r v = { x with w := x.w.put (winKey bank (x.cwp bank) (r - 16)) v } := by
  rw [Arch.setGB, if_neg (by omega)]

end Sys2Proof.Machine
end

section
/-! PROOFS. How a ready core runs an instruction: refused by the checks before it (03 Table INS-3), branching, traced (22 R475). -/

namespace Sys2Proof.Machine

/-- The program exception that the checks before an operation raise, in the order of 03 Table INS-3. -/
def Pre.refusal (p : Pre) (a : Arch) : Option Nat :=
  if p.op then some 1 else if a.psw.state.toNat < p.low || p.pv then some 2 else if p.sp then some 6 else none

theorem Core.begun_quiet {c : Core} (h : c.quiet) : c.begun = false := by
  obtain ⟨-, hret, hent, hst, -⟩ := h
  simp [Core.begun, hret, hent, hst]

theorem ReadyWith.broken {s : State} {lc ilc : Nat} {w : CoreWait} (h : ReadyWith s lc ilc w) : (s.core lc).broken = false := by
  obtain ⟨-, -, ⟨-, -, -, -, -, -, -, -, hbroken, -⟩, -⟩ := h
  exact hbroken

theorem ReadyWith.replay {s : State} {lc ilc : Nat} {w : CoreWait} (h : ReadyWith s lc ilc w) : (s.core lc).replay = [] := by
  obtain ⟨-, -, ⟨-, -, -, -, -, hreplay, -⟩, -⟩ := h
  exact hreplay

theorem State.prologue_refused (s : State) (lc : Nat) (p : Pre) (w : CoreWait) (code : Nat) (h : ReadyWith s lc p.ilc w) (hp : p.refusal (s.core lc).arch = some code) :
    s.prologue lc p = .stop (s.suppress lc p.words (.program (BitVec.ofNat 16 code) p.ilc 0 0 0)) := by
  obtain ⟨-, hr, hq, hf, hw, hns⟩ := h
  have hbegun := Core.begun_quiet hq
  obtain ⟨hb, -, -, hst, hlog, hrep, hsp, hpp, -, -⟩ := hq
  have hsync : (s.core lc).wait ≠ .sync := by rw [hw]; exact hns
  have hbeg : s.beginIns lc p = s := by
    simp [State.beginIns, State.endSync_off s lc hsync, hb, hbegun, hlog, State.drainAll, State.drain_nil _ _ _ hst]
  have hlg : (s.core lc).logged = none := by simp [Core.logged, hrep]
  have how : (s.core lc).owed = none := by simp [Core.owed, hsp, hpp]
  have hsb : ((s.core lc).wait == CoreWait.sync) = false := by simpa using hsync
  simp only [State.prologue, hr, hbeg, hst, hf, hlg, how, hsb]
  simp only [Bool.not_true, Bool.false_eq_true, ↓reduceIte, List.isEmpty_nil, Bool.and_false, Bool.or_false]
  simp only [Pre.refusal] at hp
  split at hp
  next hop => cases hp; rw [if_pos hop]
  next hop =>
    rw [if_neg hop]
    split at hp
    next hpv => cases hp; exact if_pos hpv
    next hpv =>
      refine (if_neg hpv).trans ?_
      split at hp
      next hsp => cases hp; exact if_pos hsp
      next => cases hp

/-- An instruction that the checks before its operation refuse traps. -/
theorem traps_of_refused {i : Instr} {lc ilc : Nat} {p : Pre} {w : CoreWait} {s : State} {body : State → IRes} {code : Nat} (hi : exec i s = runCore lc p s body)
    (h : ReadyWith s lc ilc w) (hilc : p.ilc = ilc) (hp : p.refusal (s.core lc).arch = some code) : Traps i s lc ilc code := by
  subst hilc
  have hlc : lc < 48 := h.1
  refine ⟨p.words, ?_⟩
  rw [hi, runCore]
  simp only [hlc, decide_true, Bool.not_true, Bool.false_eq_true, ↓reduceIte, State.prologue_refused s lc p w code h hp]
  rfl

/-- An instruction whose operation changes its own core alone, and no held store of it, completes. -/
theorem completes_of_core {i : Instr} {lc ilc : Nat} {p : Pre} {w : CoreWait} {s : State} {body : State → IRes} {c : Core} {a : Arch} (hi : exec i s = runCore lc p s body)
    (h : ReadyWith s lc ilc w) (hilc : p.ilc = ilc) (hp : p.passes (s.core lc).arch) (hb : body s = .done (s.setCore lc c)) (ha : c.arch = a)
    (hst : c.stbuf = (s.core lc).stbuf) (hk : c.broken = (s.core lc).broken) : Completes i s lc ilc a := by
  subst hilc ha
  have hdone := completes_of_done hi h hp hb (hk.trans h.broken)
  rwa [hst] at hdone

/-- A trace record changes the running interval's records alone (22 R475). -/
theorem State.trace_setCore (s : State) (lc : Nat) (c : Core) (kind info : Nat) (addr : W64) :
    ∃ b, (s.setCore lc c).trace lc kind info addr = s.setCore lc { c with trbuf := b } := by
  simp only [State.trace]
  split
  · exact ⟨_, by rw [State.core_setCore, State.setCore_setCore]⟩
  · exact ⟨c.trbuf, rfl⟩

/-- A branch to an aligned target (03 R60). -/
theorem State.take_aligned (s : State) (lc : Nat) (c : Core) (ia : W64) (h : ia.extractLsb' 0 2 = 0) :
    ∃ b, (s.setCore lc c).take lc ia = .jump (s.setCore lc { c with trbuf := b }) ia := by
  obtain ⟨b, hb⟩ := State.trace_setCore s lc c 1 0 ia
  exact ⟨b, by rw [State.take, if_neg (by simpa using h), hb]⟩

/-- How a ready core answers an instruction whose operation ends in `r`. -/
theorem exec_of_body {i : Instr} {lc : Nat} {p : Pre} {w : CoreWait} {s : State} {body : State → IRes} {r : IRes} (hi : exec i s = runCore lc p s body)
    (h : ReadyWith s lc p.ilc w) (hp : p.passes (s.core lc).arch) (hb : body s = r) : exec i s = .next (left s (ended lc p s r)) := by
  rw [hi, runCore_ready lc p w s body h hp, hb]

/-- How an instruction ends that sets the next address itself. -/
theorem exec_of_jump {i : Instr} {lc : Nat} {p : Pre} {w : CoreWait} {s v : State} {body : State → IRes} {c : Core} {ia : W64} (hi : exec i s = runCore lc p s body)
    (h : ReadyWith s lc p.ilc w) (hp : p.passes (s.core lc).arch) (hb : body s = .jump (v.setCore lc c) ia) (hk : c.broken = false) :
    ∃ d, exec i s = .next (left s (v.setCore lc d)) ∧ d.arch = c.arch.setIa ia ∧ d.stbuf = c.stbuf := by
  obtain ⟨d, hd, ha, hst⟩ := State.retire_eq (v.setCore lc c) lc p (s.core lc).arch ia (by simpa using hk)
  rw [State.core_setCore] at ha hst
  refine ⟨d, ?_, ha, hst⟩
  rw [exec_of_body hi h hp hb]
  simp only [ended, State.finish, hd, State.setCore_setCore]

/-- An instruction that loads the PSW ends in the architected state that its operation leaves (02 R32). -/
theorem goes_of_loaded {i : Instr} {lc ilc : Nat} {p : Pre} {w : CoreWait} {s : State} {body : State → IRes} {c : Core} {a : Arch} (hi : exec i s = runCore lc p s body)
    (h : ReadyWith s lc ilc w) (hilc : p.ilc = ilc) (hp : p.passes (s.core lc).arch) (hb : body s = .loaded (s.setCore lc c)) (ha : c.arch = a)
    (hst : c.stbuf = (s.core lc).stbuf) (hk : c.broken = (s.core lc).broken) : Goes i s lc a := by
  subst hilc ha
  obtain ⟨d, hd, harch, hbuf⟩ := State.retire_eq (s.setCore lc c) lc p (s.core lc).arch c.arch.psw.ia (by simpa using hk.trans h.broken)
  rw [State.core_setCore] at harch hbuf
  have hend : ended lc p s (.loaded (s.setCore lc c)) = s.setCore lc d := by
    simp only [ended, State.finish, State.core_setCore, hd, State.setCore_setCore]
  refine ⟨_, exec_of_body hi h hp hb, ?_, ?_, ?_⟩
  · rw [hend, left_core, State.core_setCore, harch]; rfl
  · rw [hend, left_core, State.core_setCore, hbuf, hst]
  · rw [hend]; exact onlyCore_left s _ lc d rfl

/-- A command that changes one core and takes free values. -/
theorem onlyCore_left_freeCtr (s : State) (lc n : Nat) (c : Core) : OnlyCore s (left s (({ s with freeCtr := n } : State).setCore lc c)) lc := by
  refine ⟨by simp, by simp, by simp, by simp, by simp, by simp, by simp, by simp, ?_, ?_⟩
  · intro k hk; rw [left_core, State.core_setCore_ne _ _ _ _ hk]; rfl
  · intro off ho; rw [left_reg _ _ _ ho]; rfl

end Sys2Proof.Machine
end

section
/-! PROOFS. What a fault event (20 R432 to R447) leaves of the logical cores and of the selection of TAN_CKSEL: its reactions request sparing, stop a partition's cores and fence the complex. -/

namespace Sys2Proof.Machine

/-- What one reaction to a fault event does to a logical core (20 R436, R439, R443). -/
inductive Core.Reacts : Core → Core → Prop
  | spare (c : Core) (failing : Bool) : c.run ≠ .lost → Core.Reacts c { c with spareReq := true, spareFailing := failing }
  | checkStop (c : Core) : c.run = .running ∨ c.run = .halted ∨ c.run = .held → Core.Reacts c { c.confirm with run := .checkStop }
  | fence (c : Core) : c.run ≠ .lost → c.run ≠ .stopped → Core.Reacts c { c.discard with run := .fenced }

/-- A lost core is beyond every reaction. -/
theorem Core.reacts_lost {c d : Core} (h : Relation.ReflTransGen Core.Reacts c d) (hc : c.run = .lost) : d = c := by
  induction h with
  | refl => rfl
  | tail _ hstep ih =>
    subst ih
    cases hstep with
    | spare _ hl => exact absurd hc hl
    | checkStop hr => simp [hc] at hr
    | fence hl => exact absurd hc hl

/-- A core that has stopped for good stays stopped: in check stop, or behind the fence. -/
theorem Core.reacts_stopped {c d : Core} (h : Relation.ReflTransGen Core.Reacts c d) (hc : c.run = .checkStop ∨ c.run = .fenced) :
    d.run = .checkStop ∨ d.run = .fenced := by
  induction h with
  | refl => exact hc
  | tail _ hstep ih =>
    cases hstep with
    | spare => exact ih
    | checkStop => exact .inl rfl
    | fence => exact .inr rfl

/-- From `s` to `t` reactions to faults have reached the cores, and TAN_CKSEL selects the core that it selected. -/
structure Reaction (s t : State) : Prop where
  core : ∀ n, Relation.ReflTransGen Core.Reacts (s.core n) (t.core n)
  cksel : t.fld F.TAN_CKSEL_LC = s.fld F.TAN_CKSEL_LC

namespace Reaction

theorem refl (s : State) : Reaction s s := ⟨fun _ => .refl, rfl⟩

theorem trans {s t u : State} (h : Reaction s t) (k : Reaction t u) : Reaction s u :=
  ⟨fun n => (h.core n).trans (k.core n), k.cksel.trans h.cksel⟩

/-- A change outside the cores and the control registers. -/
theorem of_eq {s t : State} (hc : t.cores = s.cores) (hr : t.ctl = s.ctl) : Reaction s t :=
  ⟨fun n => by rw [State.core_congr s t hc], State.fld_congr s t hr _ _ _⟩

/-- A write of a field beside the selection. -/
theorem setFld (s : State) (f : Fld) (v i j : Nat) (h : f.off i j ≠ F.TAN_CKSEL_LC.base ∨ (f.lo ≤ f.hi ∧ f.hi < 64 ∧ (f.hi < 48 ∨ 55 < f.lo))) :
    Reaction s (s.setFld f v i j) := by
  refine ⟨fun n => .refl, ?_⟩
  change fieldOf ((s.setReg (f.off i j) _).reg F.TAN_CKSEL_LC.base) 55 48 = fieldOf (s.reg F.TAN_CKSEL_LC.base) 55 48
  by_cases ho : f.off i j = F.TAN_CKSEL_LC.base
  · obtain ⟨hle, hlt, hapart⟩ := h.resolve_left (fun hne => hne ho)
    rw [ho, State.reg_setReg, fieldOf_putField_apart _ _ _ _ _ _ hle hlt hapart]
  · rw [State.reg_setReg_ne _ _ _ _ (Ne.symm ho)]

theorem setCore (s : State) (n : Nat) (c : Core) (h : Core.Reacts (s.core n) c) : Reaction s (s.setCore n c) := by
  refine ⟨fun m => ?_, rfl⟩
  by_cases hm : m = n
  · subst hm; rw [State.core_setCore]; exact .single h
  · rw [State.core_setCore_ne _ _ _ _ hm]

theorem foldl {α : Type} (f : State → α → State) (h : ∀ s a, Reaction s (f s a)) (l : List α) (s : State) : Reaction s (l.foldl f s) := by
  induction l generalizing s with
  | nil => exact refl s
  | cons a l ih => exact (h s a).trans (ih _)

theorem ite_of {s t u : State} {p : Prop} [Decidable p] (h : p → Reaction s t) (k : ¬p → Reaction s u) : Reaction s (if p then t else u) := by
  split
  next hp => exact h hp
  next hp => exact k hp

theorem ite {s t u : State} {p : Prop} [Decidable p] (h : Reaction s t) (k : Reaction s u) : Reaction s (if p then t else u) := ite_of (fun _ => h) (fun _ => k)

end Reaction

/-! The parts of a fault event -/

theorem reaction_holdMc (s : State) (cls key : Nat) (id : W64) : Reaction s (s.holdMc cls key id) := by
  unfold State.holdMc
  exact .ite (.refl s) (.of_eq rfl rfl)

theorem reaction_imon (s : State) (source cls unit pid : Nat) : Reaction s (s.imon source cls unit pid) := by
  unfold State.imon
  split
  · exact reaction_holdMc ..
  · exact .of_eq rfl rfl

theorem reaction_requestSparing (s : State) (lc : Nat) : Reaction s (s.requestSparing lc false) := by
  unfold State.requestSparing
  simp only [Bool.or_false, Bool.false_and, Bool.false_eq_true, if_false]
  split
  next => exact .refl s
  next hl =>
    have hlost : (s.core lc).run ≠ .lost := fun h => hl (by simp [h])
    refine (Reaction.setCore s lc _ (.spare _ _ hlost)).trans (.setFld _ _ _ _ _ (.inl ?_))
    simp only [Fld.off, F.TAN_PCSTAT_ROLE, F.TAN_CKSEL_LC]
    omega

theorem reaction_spareReact (s : State) (source unit : Nat) : Reaction s (s.spareReact source unit) := by
  unfold State.spareReact
  split
  · split
    · exact reaction_requestSparing ..
    · exact .refl s
  · exact .of_eq rfl rfl

theorem reaction_fpart (s : State) (source cls unit pid : Nat) : Reaction s (s.fpart source cls unit pid) := by
  unfold State.fpart
  split
  · exact reaction_imon ..
  · refine Reaction.trans (.foldl _ (fun s n => ?_) _ _) (reaction_holdMc ..)
    refine .ite_of (fun hr => ?_) (fun _ => .refl s)
    simp only [Bool.and_eq_true, Bool.or_eq_true, decide_eq_true_eq] at hr
    exact .setCore _ _ _ (.checkStop _ (or_assoc.mp hr.2))

theorem reaction_fencePorts (s : State) (reason : Byte) : Reaction s (s.fencePorts reason) := by
  unfold State.fencePorts
  refine .foldl _ (fun s v => .ite (.refl s) ?_) _ _
  have hsent : Reaction s (if s.vpUp v || s.fld F.VPT_STAT_STATE v == 4 then s.sendLink v 7 [reason.toNat] else s) := .ite (.of_eq rfl rfl) (.refl s)
  refine (hsent.trans (.ite (.refl _) (.setFld _ _ _ _ _ (.inl ?_)))).trans (.of_eq rfl rfl)
  simp only [Fld.off, F.VPT_STAT_STATE, F.TAN_CKSEL_LC]
  omega

theorem reaction_fence (s : State) (source unit : Nat) : Reaction s (s.fence source unit) := by
  unfold State.fence
  refine .ite (.refl s) ?_
  extract_lets marked stopped sent svc hiZ fenced
  have hmark : Reaction s marked := ((Reaction.setFld s F.FLT_FENCE_CXF 1 0 0 (.inl (by decide))).trans
    (.setFld _ F.FLT_FENCE_SRC source 0 0 (.inl (by decide)))).trans (.setFld _ F.FLT_FENCE_UNIT unit 0 0 (.inl (by decide)))
  have hstop : Reaction marked stopped := .foldl _ (fun s n => by
    refine .ite_of (fun _ => .refl s) (fun hr => ?_)
    simp only [Bool.or_eq_true, decide_eq_true_eq, not_or] at hr
    exact .setCore _ _ _ (.fence _ hr.1 hr.2)) _ _
  have hsend : Reaction stopped sent := .foldl (fun s p => if s.portUp p then s.ctlFlit p 3 0 else s) (fun s p => .ite (.of_eq rfl rfl) (.refl s)) _ _
  have hhiZ : Reaction sent hiZ := .of_eq rfl rfl
  have hrefresh : Reaction fenced ((List.range 16).foldl (fun s m => s.setFld F.MEM_CHSTAT_PWR 3 m) fenced) := .foldl _ (fun s m => .setFld s F.MEM_CHSTAT_PWR 3 m 0 (.inl (by
    simp only [Fld.off, F.MEM_CHSTAT_PWR, F.TAN_CKSEL_LC]
    omega))) _ _
  exact hmark.trans (hstop.trans (hsend.trans (hhiZ.trans ((reaction_fencePorts hiZ 1).trans hrefresh))))

theorem reaction_feedFnote (s : State) (cls source unit : Nat) : Reaction s (s.feedFnote cls source unit) := by
  unfold State.feedFnote
  refine .foldl _ (fun s d => ?_) _ _
  exact .ite (.of_eq rfl rfl) (.refl s)

theorem reaction_fltReact (s : State) (ev : FaultEv) (cls mask : Nat) : Reaction s (s.fltReact ev cls mask) := by
  unfold State.fltReact
  extract_lets on svc1 s1 s2 svc3 s3 s4 s5 s6 s7
  have h1 : Reaction s s1 := .ite (.of_eq rfl rfl) (.refl s)
  have h2 : Reaction s1 s2 := .ite (reaction_imon ..) (.refl s1)
  have h3 : Reaction s2 s3 := .ite (.of_eq rfl rfl) (.refl s2)
  have h4 : Reaction s3 s4 := .ite (reaction_feedFnote ..) (.refl s3)
  have h5 : Reaction s4 s5 := .ite (reaction_spareReact ..) (.refl s4)
  have h6 : Reaction s5 s6 := .ite (reaction_spareReact ..) (.refl s5)
  have h7 : Reaction s6 s7 := .ite (reaction_fpart ..) (.refl s6)
  exact h1.trans (h2.trans (h3.trans (h4.trans (h5.trans (h6.trans (h7.trans (.ite (reaction_fence ..) (.refl s7))))))))

theorem reaction_logPut (s : State) (d0 d1 d2 dropped : Nat) : Reaction s (s.logPut d0 d1 d2 dropped) := by
  unfold State.logPut
  extract_lets wr seq e svc s1
  have h1 : Reaction s s1 := .of_eq rfl rfl
  exact h1.trans ((Reaction.setFld s1 F.FLT_LOGRD_WR _ 0 0 (.inl (by decide))).trans (.setFld _ F.FLT_LOGSTAT_USED _ 0 0 (.inl (by decide))))

theorem reaction_logSummary (s : State) : Reaction s s.logSummary := by
  unfold State.logSummary
  split
  · exact .ite ((reaction_logPut ..).trans (.of_eq rfl rfl)) (.refl s)
  · exact .refl s

theorem reaction_logEvent (s : State) (ev : FaultEv) (cls reacts : Nat) : Reaction s (s.logEvent ev cls reacts).1 := by
  unfold State.logEvent
  extract_lets s1 used m svc s2
  refine (reaction_logSummary s).trans ?_
  have hdrop : Reaction s1 (s2.setFlag F.FLT_LOGSTAT_DROP true) :=
    Reaction.trans (t := s2) (.of_eq rfl rfl) (.setFld s2 F.FLT_LOGSTAT_DROP 1 0 0 (.inl (by decide)))
  rw [apply_ite Prod.fst]
  exact .ite (reaction_logPut ..) hdrop

theorem reaction_count (s : State) (f o : Fld) (i j n : Nat) (hf : f.off i j ≠ F.TAN_CKSEL_LC.base) (ho : o.off i j ≠ F.TAN_CKSEL_LC.base) :
    Reaction s (s.count f (some o) i j n) := by
  have hset : Reaction s (s.setFld f (min (s.fld f i j + n) (2 ^ (f.hi + 1 - f.lo) - 1)) i j) := .setFld _ _ _ _ _ (.inl hf)
  exact .ite (hset.trans (.setFld _ _ _ _ _ (.inl ho))) hset

theorem reaction_fltClass (s : State) (source unit : Nat) : Reaction s (s.fltClass source unit).1 := by
  unfold State.fltClass
  exact .of_eq rfl rfl

theorem reaction_fltTally (s : State) (source cls : Nat) : Reaction s (s.fltTally source cls) := by
  unfold State.fltTally
  exact .of_eq rfl rfl

/-- An event counted, classified and felt as a pulse reaches no core. -/
theorem reaction_counted (s : State) (source unit cls : Nat) :
    Reaction s (if cls = 2 then ((s.fltClass source unit).1.fltTally source cls).errPulse else (s.fltClass source unit).1.fltTally source cls) :=
  have h := (reaction_fltClass s source unit).trans (reaction_fltTally _ source cls)
  .ite (h.trans (.of_eq rfl rfl)) h

/-- A fault event reaches the cores by its reactions alone. -/
theorem reaction_fault (s : State) (ev : FaultEv) : Reaction s (s.fault ev) := by
  unfold State.fault
  extract_lets r s1 s2 mask l s3 ev0 d s4 s5 s6 s7
  have h2 : Reaction s s2 := reaction_counted s ev.src ev.unit r.2
  have hl : Reaction s2 l.1 := by
    simp only [l]
    split
    · exact reaction_logEvent ..
    · exact .refl s2
  have h3 : Reaction l.1 s3 := reaction_fltReact ..
  have h5 : Reaction s3 s5 := reaction_counted s3 0 0 d.2
  have h6 : Reaction s5 s6 := reaction_fltReact ..
  have h7 : Reaction s6 s7 := (Reaction.setFld s6 F.FLT_LOGSTAT_SDROP 1 0 0 (.inl (by decide))).trans
    (reaction_count _ F.FLT_LOGSTAT_SDROPCNT F.FLT_LOGSTAT_SDOVF 0 0 1 (by decide) (by decide))
  refine h2.trans (hl.trans (h3.trans ?_))
  exact .ite (h5.trans (h6.trans (.ite (h7.trans ((reaction_fltClass ..).trans (reaction_fltTally ..))) (.refl s6)))) (.refl s3)

theorem reaction_flt (s : State) (g i unit : Nat) (pid : Option Nat) (detail : W64) : Reaction s (s.flt g i unit pid detail) := reaction_fault s _

end Sys2Proof.Machine
end

section
/-! PROOFS. CALLW and RETW (02 R39, R40, R47, R48). -/

namespace Sys2Proof.Machine

/-! What a call leaves in the registers -/

/-- The architected state after a call of the bank's window `next`, before the out registers take free values and the branch is taken (02 R39). -/
def Arch.called (r : Arch) (next : Nat) : Arch := (r.setG 31 (r.psw.ia + 4)).setWin r.psw.bank.toNat next (r.nres r.psw.bank.toNat + 1)

theorem Arch.called_w (r : Arch) (next : Nat) :
    (r.called next).w = r.w.put (winKey r.psw.bank.toNat (r.cwp r.psw.bank.toNat) 15) (r.psw.ia + 4) := by
  rw [Arch.called, Arch.setWin_w, Arch.setG, Arch.setGB_window _ _ _ _ (by decide)]
  rfl

theorem Arch.called_g (r : Arch) (next : Nat) : (r.called next).g = r.g := by
  rw [Arch.called, Arch.setWin_g, Arch.setG, Arch.setGB_window _ _ _ _ (by decide)]

/-- The architected states that a call to window `next` may leave: those of `called`, but for the out registers of the new window. -/
def CallLeaves (r u : Arch) (next : Nat) (target : W64) : Prop :=
  ∃ w, u = ({ r.called next with w := w } : Arch).setIa target ∧
    ∀ k, k / 8 ≠ r.psw.bank.toNat * 8 + (next + 1) % 8 → w.get 0 k = (r.called next).w.get 0 k

section
variable {r u : Arch} {next : Nat} {target : W64} (h : CallLeaves r u next target)
include h

theorem CallLeaves.psw : u.psw = { r.psw with ia := target } := by
  obtain ⟨w, rfl, -⟩ := h; simp [Arch.setIa, Arch.called]

theorem CallLeaves.window (hlt : next < 8) (hn : r.nres r.psw.bank.toNat < 7) :
    u.cwp r.psw.bank.toNat = next ∧ u.nres r.psw.bank.toNat = r.nres r.psw.bank.toNat + 1 ∧ u.spdepth r.psw.bank.toNat = r.spdepth r.psw.bank.toNat := by
  obtain ⟨w, rfl, -⟩ := h
  refine ⟨Arch.cwp_setWin (r.setG 31 (r.psw.ia + 4)) _ _ _ hlt, Arch.nres_setWin (r.setG 31 (r.psw.ia + 4)) _ _ _ (by omega), ?_⟩
  exact (Arch.spdepth_setWin (r.setG 31 (r.psw.ia + 4)) _ _ _).trans (Arch.spdepth_congr (Arch.setG_wst ..) _)

theorem CallLeaves.otherWindows (n : Nat) (hn : n ≠ r.psw.bank.toNat) : u.wstOf n = r.wstOf n := by
  obtain ⟨w, rfl, -⟩ := h
  exact (Arch.wstOf_setWin_ne (r.setG 31 (r.psw.ia + 4)) _ _ _ _ hn).trans (Arch.wstOf_congr (Arch.setG_wst ..) _)

theorem CallLeaves.files : u.g = r.g ∧ u.f = r.f ∧ u.sr = r.sr ∧ u.wsp = r.wsp ∧ u.tbc = r.tbc := by
  obtain ⟨w, rfl, -⟩ := h
  exact ⟨Arch.called_g r next, by simp [Arch.called], by simp [Arch.called], by simp [Arch.called], by simp [Arch.called]⟩

theorem CallLeaves.w_get (k : Nat) (hout : k / 8 ≠ r.psw.bank.toNat * 8 + (next + 1) % 8) : u.w.get 0 k = (r.called next).w.get 0 k := by
  obtain ⟨w, rfl, hw⟩ := h; exact hw k hout

theorem CallLeaves.w_unchanged (k : Nat) (hout : k / 8 ≠ r.psw.bank.toNat * 8 + (next + 1) % 8)
    (hk : k ≠ winKey r.psw.bank.toNat (r.cwp r.psw.bank.toNat) 15) : u.w.get 0 k = r.w.get 0 k := by
  rw [h.w_get k hout, Arch.called_w, Tab.get_put_ne _ _ _ _ _ hk]

variable (hnext : next = (r.cwp r.psw.bank.toNat + 1) % 8) (hn : r.nres r.psw.bank.toNat < 7)
include hnext hn

/-- The caller's out registers are the in registers of the new window. -/
theorem CallLeaves.getGB_in (i : Nat) (hi : i < 8) :
    u.getGB r.psw.bank.toNat (16 + i) = (r.called next).w.get 0 (winKey r.psw.bank.toNat (r.cwp r.psw.bank.toNat) (8 + i)) := by
  have hkey : winKey r.psw.bank.toNat next i = winKey r.psw.bank.toNat (r.cwp r.psw.bank.toNat) (8 + i) := by
    simp only [winKey]; omega
  rw [Arch.getGB_window _ _ _ (by omega), (h.window (by omega) hn).1, Nat.add_sub_cancel_left, h.w_get _ (by rw [winKey_frame]; omega), hkey]

theorem CallLeaves.returnAddress : u.getG 23 = r.psw.ia + 4 := by
  have hin := h.getGB_in hnext hn 7 (by omega)
  rw [Arch.called_w, Tab.get_put] at hin
  rw [Arch.getG, h.psw]
  exact hin

theorem CallLeaves.arguments (i : Nat) (hi : i < 7) : u.getGB r.psw.bank.toNat (16 + i) = r.getGB r.psw.bank.toNat (24 + i) := by
  rw [h.getGB_in hnext hn i (by omega), Arch.called_w, Tab.get_put_ne _ _ _ _ _ (by simp only [winKey]; omega),
    Arch.getGB_window _ _ _ (by omega), show 24 + i - 16 = 8 + i by omega]

end

/-! Free values -/

/-- The out registers of a new window take free values, no other register does (log 5). -/
theorem State.freeOuts_setCore (lc bank frame k : Nat) (hk : k ≤ 8) (s : State) (c : Core) :
    ∃ n w, (s.setCore lc c).freeOuts lc bank frame k = ({ s with freeCtr := n } : State).setCore lc { c with arch := { c.arch with w := w } } ∧
      ∀ j, j / 8 ≠ bank * 8 + (frame + 1) % 8 → w.get 0 j = c.arch.w.get 0 j := by
  induction k generalizing s c with
  | zero => exact ⟨s.freeCtr, c.arch.w, rfl, fun _ _ => rfl⟩
  | succ k ih =>
    let key := bank * 64 + (frame + 1) % 8 * 8 + k
    let d : Core := { c with arch := { c.arch with w := c.arch.w.put key (s.setCore lc c).free.2 } }
    have hstep : (s.setCore lc c).freeOuts lc bank frame (k + 1) = (({ s with freeCtr := s.freeCtr + 1 } : State).setCore lc d).freeOuts lc bank frame k := by
      have hcore : ((s.setCore lc c).free.1).core lc = c := State.core_setCore s lc c
      rw [State.freeOuts]
      congr 1
      rw [State.updArch, State.updCore, hcore]
      exact State.setCore_setCore ({ s with freeCtr := s.freeCtr + 1 } : State) lc c d
    obtain ⟨n, w, heq, hw⟩ := ih (by omega) ({ s with freeCtr := s.freeCtr + 1 } : State) d
    refine ⟨n, w, hstep.trans heq, fun j hj => ?_⟩
    rw [hw j hj]
    exact Tab.get_put_ne _ _ _ _ _ (by omega)

/-! CALLW -/

/-- A relative branch of an aligned instruction has an aligned target (03 R60). -/
theorem Arch.rel_aligned {n : Nat} (r : Arch) (off : BitVec n) (h : r.psw.ia.extractLsb' 0 2 = 0) : (r.rel off).extractLsb' 0 2 = 0 := by
  have hlow : ∀ x y : W64, x.extractLsb' 0 2 = 0 → (x + 4 * y).extractLsb' 0 2 = 0 := by
    intro x y hx
    have := congrArg BitVec.toNat hx
    apply BitVec.eq_of_toNat_eq
    simp only [BitVec.extractLsb'_toNat, BitVec.toNat_add, BitVec.toNat_mul, Nat.shiftRight_zero, BitVec.ofNat_eq_ofNat, BitVec.toNat_ofNat] at this ⊢
    omega
  exact hlow _ _ h

/-- The window that CALLW makes the current one. -/
def Arch.nextWindow (r : Arch) : Nat := (r.cwp r.psw.bank.toNat + 1) % 8

/-- Has the current bank a frame free for a call (02 R39, R47; log 16). -/
def Core.frameFree (c : Core) : Prop :=
  let bank := c.arch.psw.bank.toNat
  if bank = 7 then c.arch.nres bank < 4 ∧ c.arch.cwp bank < 3 else c.arch.nres bank < 6 ∨ c.arch.nres bank = 6 ∧ c.xfer ≠ some (bank, false)

theorem callw_runs (s : State) (lc : Nat) (off : BitVec 26) (hfree : (s.core lc).frameFree) (hk : (s.core lc).broken = false) :
    ∃ body c, exec (.callw lc off) s = runCore lc { words := wordsD 0x2B off } s body ∧ c.arch = (s.core lc).arch.called (s.core lc).arch.nextWindow ∧ c.broken = false ∧
      body s = ((s.setCore lc c).freeOuts lc (s.core lc).arch.psw.bank.toNat (s.core lc).arch.nextWindow 8).take lc ((s.core lc).arch.rel off) := by
  by_cases hb : (s.core lc).arch.psw.bank.toNat = 7
  · rw [Core.frameFree, hb, if_pos rfl] at hfree
    obtain ⟨hn, hc⟩ := hfree
    have hnext : (s.core lc).arch.nextWindow = (s.core lc).arch.cwp 7 + 1 := by rw [Arch.nextWindow, hb]; omega
    refine ⟨_, { s.core lc with arch := (s.core lc).arch.called (s.core lc).arch.nextWindow }, rfl, rfl, hk, ?_⟩
    simp only [hb, hnext, Arch.called]
    rw [if_pos trivial, if_neg (by simp; omega)]
    rfl
  · rw [Core.frameFree, if_neg hb] at hfree
    refine ⟨_, { s.core lc with wait := .none, arch := (s.core lc).arch.called (s.core lc).arch.nextWindow }, rfl, rfl, hk, ?_⟩
    have hfull : (s.core lc).arch.nres (s.core lc).arch.psw.bank.toNat < 7 := by omega
    have hfill : ¬((s.core lc).arch.nres (s.core lc).arch.psw.bank.toNat = 6 ∧ (s.core lc).xfer = some ((s.core lc).arch.psw.bank.toNat, false)) := by
      rintro ⟨h6, hx⟩
      exact hfree.elim (fun h => by omega) (fun h => h.2 hx)
    simp only [Arch.called, Arch.nextWindow]
    rw [if_neg hb, if_neg (by simpa using ⟨hfull, fun h6 hx => hfill ⟨h6, hx⟩⟩)]
    rfl

/-- A call of a core with a free frame (02 R39). -/
theorem callw_does (s : State) (lc : Nat) (off : BitVec 26) (h : Ready s lc 4) (hia : (s.core lc).arch.psw.ia.extractLsb' 0 2 = 0) (hfree : (s.core lc).frameFree) :
    Does (.callw lc off) s (fun t => OnlyCore s t lc ∧
      CallLeaves (s.core lc).arch (t.core lc).arch (s.core lc).arch.nextWindow ((s.core lc).arch.rel off)) := by
  have hk : (s.core lc).broken = false := h.broken
  obtain ⟨body, c, hexec, hc, hck, hbody⟩ := callw_runs s lc off hfree hk
  obtain ⟨n, w, houts, hw⟩ := State.freeOuts_setCore lc (s.core lc).arch.psw.bank.toNat (s.core lc).arch.nextWindow 8 (by omega) s c
  obtain ⟨b, htake⟩ := State.take_aligned ({ s with freeCtr := n } : State) lc { c with arch := { c.arch with w := w } } ((s.core lc).arch.rel off)
    (Arch.rel_aligned _ off hia)
  rw [houts, htake] at hbody
  obtain ⟨d, hd, harch, -⟩ := exec_of_jump hexec h (by simp [Pre.passes]) hbody hck
  refine ⟨_, hd, onlyCore_left_freeCtr s lc n d, w, ?_, by rw [← hc]; exact hw⟩
  rw [left_core, State.core_setCore, harch, hc]

/-! B7 exhausted (02 R48) -/

/-- After a check stop the core stands still: in check stop, or behind the fence that its fault raised (02 R48, 20 R443). -/
theorem State.checkStop_stopped (s : State) (lc reason : Nat) (ia : W64) :
    ((s.checkStop lc reason ia).core lc).run = .checkStop ∨ ((s.checkStop lc reason ia).core lc).run = .fenced := by
  unfold State.checkStop
  extract_lets c d confirmed stopped held
  have hstop : (stopped.core lc).run = .checkStop := by rw [State.core_setCore]
  exact Core.reacts_stopped (((reaction_holdMc stopped ..).trans (reaction_flt held ..)).core lc) (.inl hstop)

/-- A fifth window of B7 is a check stop (02 R48). -/
theorem callw_exhausted (s : State) (lc : Nat) (off : BitVec 26) (h : Ready s lc 4) (hb : (s.core lc).arch.psw.bank.toNat = 7)
    (hfull : 4 ≤ (s.core lc).arch.nres 7 ∨ 3 ≤ (s.core lc).arch.cwp 7) :
    Does (.callw lc off) s (fun t => (t.core lc).run = .checkStop ∨ (t.core lc).run = .fenced) := by
  have hbody : ∃ body, exec (.callw lc off) s = runCore lc { words := wordsD 0x2B off } s body ∧ body s = .gone (s.checkStop lc 1 (s.core lc).arch.psw.ia) := by
    refine ⟨_, rfl, ?_⟩
    simp only [hb]
    rw [if_pos trivial, if_pos (by simpa using hfull)]
  obtain ⟨body, hexec, hbody⟩ := hbody
  refine ⟨_, exec_of_body hexec h (by simp [Pre.passes]) hbody, ?_⟩
  simp only [left_core]
  exact State.checkStop_stopped ..

/-! RETW -/

/-- The window that RETW makes the current one. -/
def Arch.prevWindow (r : Arch) : Nat := if r.psw.bank.toNat = 7 then r.cwp 7 - 1 else (r.cwp r.psw.bank.toNat + 7) % 8

/-- Can the current bank's window be left (02 R40, R47; log 52). -/
def Core.windowLeft (c : Core) : Prop :=
  let bank := c.arch.psw.bank.toNat
  if bank = 7 then 2 ≤ c.arch.nres bank ∧ 1 ≤ c.arch.cwp bank else 2 < c.arch.nres bank ∨ c.arch.nres bank = 2 ∧ c.xfer ≠ some (bank, true)

theorem retw_runs (s : State) (lc : Nat) (hleft : (s.core lc).windowLeft) (halign : ((s.core lc).arch.getG 23).extractLsb' 0 2 = 0) :
    ∃ body c, exec (.retw lc 0 0 0 0) s = runCore lc { words := wordsA 0x2E 0x04 0 0 0 0 } s body ∧
      c.arch = (s.core lc).arch.setWin (s.core lc).arch.psw.bank.toNat (s.core lc).arch.prevWindow ((s.core lc).arch.nres (s.core lc).arch.psw.bank.toNat - 1) ∧
      c.stbuf = (s.core lc).stbuf ∧ c.broken = (s.core lc).broken ∧ body s = (s.setCore lc c).take lc ((s.core lc).arch.getG 23) := by
  by_cases hb : (s.core lc).arch.psw.bank.toNat = 7
  · rw [Core.windowLeft, hb, if_pos rfl] at hleft
    refine ⟨_, { s.core lc with arch := (s.core lc).arch.setWin 7 ((s.core lc).arch.cwp 7 - 1) ((s.core lc).arch.nres 7 - 1) }, rfl, ?_, rfl, rfl, ?_⟩
    · rw [Arch.prevWindow, hb, if_pos rfl]
    · simp only [hb]
      rw [if_neg (by simpa using halign), if_pos trivial, if_neg (by simp; omega)]
      rfl
  · rw [Core.windowLeft, if_neg hb] at hleft
    refine ⟨_, { s.core lc with wait := .none, arch := (s.core lc).arch.setWin _ (s.core lc).arch.prevWindow _ }, rfl, rfl, rfl, rfl, ?_⟩
    have hspill : ¬((s.core lc).arch.nres (s.core lc).arch.psw.bank.toNat = 2 ∧ (s.core lc).xfer = some ((s.core lc).arch.psw.bank.toNat, true)) := by
      rintro ⟨h2, hx⟩
      exact hleft.elim (fun h => by omega) (fun h => h.2 hx)
    simp only [Arch.prevWindow]
    rw [if_neg (by simpa using halign), if_neg hb, if_neg (by simpa using fun h2 hx => hspill ⟨h2, hx⟩), if_neg (by omega), if_neg hb]
    rfl

theorem retw_goes (s : State) (lc : Nat) (h : Ready s lc 4) (hleft : (s.core lc).windowLeft) (halign : ((s.core lc).arch.getG 23).extractLsb' 0 2 = 0) :
    Goes (.retw lc 0 0 0 0) s lc (((s.core lc).arch.setWin (s.core lc).arch.psw.bank.toNat (s.core lc).arch.prevWindow
      ((s.core lc).arch.nres (s.core lc).arch.psw.bank.toNat - 1)).setIa ((s.core lc).arch.getG 23)) := by
  obtain ⟨body, c, hexec, harch, hst, hbroken, hbody⟩ := retw_runs s lc hleft halign
  obtain ⟨b, htake⟩ := State.take_aligned s lc c _ halign
  rw [← harch]
  exact goes_of_jump (c := { c with trbuf := b }) hexec h (by simp [Pre.passes]) (hbody.trans htake) hst (hbroken.trans h.broken)

/-- A return in B7 with one window is a specification exception, whatever its target (02 R40, R47). -/
theorem retw_last_traps (s : State) (lc : Nat) (h : Ready s lc 4) (hb : (s.core lc).arch.psw.bank.toNat = 7)
    (hlast : (s.core lc).arch.nres 7 ≤ 1 ∨ (s.core lc).arch.cwp 7 = 0) : Traps (.retw lc 0 0 0 0) s lc 4 6 := by
  have hbody : ∃ body, exec (.retw lc 0 0 0 0) s = runCore lc { words := wordsA 0x2E 0x04 0 0 0 0 } s body ∧ body s = .exc s 6 := by
    refine ⟨_, rfl, ?_⟩
    simp only [hb]
    by_cases halign : ((s.core lc).arch.getG 23).extractLsb' 0 2 = 0
    · rw [if_neg (by simpa using halign), if_pos trivial, if_pos (by simpa using hlast)]
    · exact if_pos halign
  obtain ⟨body, hexec, hbody⟩ := hbody
  exact traps_of_exc (p := { words := wordsA 0x2E 0x04 0 0 0 0 }) hexec h (by simp [Pre.passes]) hbody

/-- Settles O14: a call leaves the registers as `CallLeaves` says, a return goes by `retw_goes`; the ends of B7 are a check stop and a trap. -/
theorem windowCalls : Obligations.WindowCalls := by
  intro s lc off h hia r bank cwp nres next prev
  have hcwp : cwp < 8 := Arch.cwp_lt _ _
  refine ⟨fun hfree => ?_, fun halign hleft => ?_, fun hb hfull => ?_, fun hb hlast => ?_⟩
  · obtain ⟨t, hexec, honly, hcall⟩ := callw_does s lc off h hia hfree
    have hnext : r.nextWindow = next := by
      simp only [next]
      split at hfree
      next hb => rw [if_pos hb, Arch.nextWindow]; change (cwp + 1) % 8 = _; omega
      next hb => rw [if_neg hb]; rfl
    have hnres : nres < 7 := by split at hfree <;> omega
    obtain ⟨hu, hn, hd⟩ := hcall.window (Nat.mod_lt _ (by omega)) hnres
    obtain ⟨hg, hf, hsr, hwsp, htbc⟩ := hcall.files
    refine ⟨t, hexec, honly, hcall.psw, hu.trans hnext, hn, hd, hcall.otherWindows, hg, hf, hsr, hwsp, htbc, hcall.returnAddress rfl hnres,
      hcall.arguments rfl hnres, fun k hout hk => hcall.w_unchanged k (by rw [hnext]; exact hout) hk⟩
  · have hprev : r.prevWindow = prev := by
      simp only [prev, Arch.prevWindow]
      split
      next hb => simp only [cwp, bank, hb]
      next => rfl
    have hgoes := retw_goes s lc h hleft halign
    rwa [hprev] at hgoes
  · exact callw_exhausted s lc off h hb (by rw [← hb]; exact hfull.imp ge_of_eq ge_of_eq)
  · exact retw_last_traps s lc h hb (by rw [← hb]; exact hlast.imp_left le_of_eq)

end Sys2Proof.Machine
end

section
/-! PROOFS. The window to other banks (02 R36). -/

namespace Sys2Proof.Machine

/-! The three files that BANKWIN reaches -/

section
variable {c : Core} {x : BitVec 5}

theorem Core.bwPut_fp (h : c.arch.bwFile = 1) (v : W64) : c.bwPut x v = { c with arch := { c.arch with f := c.arch.f.put (c.arch.bwBank * 32 + x.toNat) v } } := by
  rw [Core.bwPut, if_pos h]

theorem Core.bwPut_global (h : c.arch.bwFile = 0) (hx : x.toNat < 16) (v : W64) :
    c.bwPut x v = { c with arch := { c.arch with g := c.arch.g.put (c.arch.bwBank * 16 + x.toNat) v } } := by
  simp [Core.bwPut, h, hx]

theorem Core.bwPut_window (h : c.arch.bwFile = 0) (hx : ¬x.toNat < 16) (v : W64) :
    c.bwPut x v = { c with arch := { c.arch with w := c.arch.w.put (c.arch.bwKey x) v } } := by
  simp [Core.bwPut, h, hx]

theorem Core.bwGet_fp (h : c.arch.bwFile = 1) : c.bwGet x = c.arch.f.get 0 (c.arch.bwBank * 32 + x.toNat) := by
  rw [Core.bwGet, if_pos h]

theorem Core.bwGet_global (h : c.arch.bwFile = 0) (hx : x.toNat < 16) : c.bwGet x = c.arch.g.get 0 (c.arch.bwBank * 16 + x.toNat) := by
  simp [Core.bwGet, h, hx]

theorem Core.bwGet_window (h : c.arch.bwFile = 0) (hx : ¬x.toNat < 16) : c.bwGet x = c.arch.w.get 0 (c.arch.bwKey x) := by
  simp [Core.bwGet, h, hx]

end

/-- A register of one bank's G and W registers does not move with a write of a G register of another. -/
theorem Arch.getGB_putG_ne (r : Arch) (bank n x k : Nat) (v : W64) (hn : n ≠ bank) (hx : x < 16) :
    ({ r with g := r.g.put (bank * 16 + x) v } : Arch).getGB n k = r.getGB n k := by
  unfold Arch.getGB
  split
  · exact Tab.get_put_ne _ _ _ _ _ (by omega)
  · rfl

theorem Arch.getGB_putW_ne (r : Arch) (bank n frame i k : Nat) (v : W64) (hn : n ≠ bank) :
    ({ r with w := r.w.put (winKey bank frame i) v } : Arch).getGB n k = r.getGB n k := by
  unfold Arch.getGB
  split
  · rfl
  · refine Tab.get_put_ne _ _ _ _ _ (fun heq => hn ?_)
    have hbank := congrArg (· / 64) heq
    simpa only [winKey_bank] using hbank

/-- Settles O16: BANKWIN and the window state stay, so the same key is read as was written, and the keys of another bank differ from it. -/
theorem bankWindowReadsBack : Obligations.BankWindowReadsBack := by
  intro c x v _ hfile
  have hx32 := x.isLt
  rcases hfile with hfile | hfile
  · by_cases hx : x.toNat < 16
    · rw [Core.bwPut_global hfile hx]
      refine ⟨?_, rfl, rfl, fun n k hn _ _ => ⟨Arch.getGB_putG_ne _ _ _ _ _ _ hn hx, rfl⟩⟩
      exact Eq.trans (Core.bwGet_global (by exact hfile) hx) (Tab.get_put ..)
    · rw [Core.bwPut_window hfile hx]
      refine ⟨?_, rfl, rfl, fun n k hn _ _ => ⟨Arch.getGB_putW_ne _ _ _ _ _ _ _ hn, rfl⟩⟩
      exact Eq.trans (Core.bwGet_window (by exact hfile) hx) (Tab.get_put ..)
  · rw [Core.bwPut_fp hfile]
    refine ⟨?_, rfl, rfl, fun n k hn _ hk => ⟨rfl, Tab.get_put_ne _ _ _ _ _ (by omega)⟩⟩
    exact Eq.trans (Core.bwGet_fp (by exact hfile)) (Tab.get_put ..)

end Sys2Proof.Machine
end

section
/-! PROOFS. The system instructions (02 R31 to R36, R53, R54, 10 R262): each completes with what its rule gives, or traps. -/

namespace Sys2Proof.Machine

theorem fieldOf_eq_extractLsb' {n : Nat} (w : BitVec n) (hi lo : Nat) : fieldOf w hi lo = (w.extractLsb' lo (hi + 1 - lo)).toNat := by
  simp [fieldOf, bits, BitVec.extractLsb'_toNat, Nat.shiftRight_eq_div_pow]

/-- A number of three bits as the low field of an operand (03 Table INS-1). -/
theorem fields_of_three (k : BitVec 3) :
    (k.setWidth 10).extractLsb' 0 3 = k ∧ (k.setWidth 10).extractLsb' 3 7 = 0 ∧ fieldOf (k.setWidth 10) 2 0 = k.toNat ∧ fieldOf (k.setWidth 10) 9 3 = 0 := by
  revert k
  decide

/-- The number of a special register, whose upper bits are zero (02 R31). -/
theorem fields_of_number {sys : BitVec 10} (h : sys.extractLsb' 6 4 = 0) : fieldOf sys 5 0 = (sys.extractLsb' 0 6).toNat ∧ (fieldOf sys 9 6 != 0) = false := by
  simp [fieldOf_eq_extractLsb', h]

/-- Where the monitor's controls are open, no control bit refuses an instruction (05 R128). -/
theorem Arch.opened.ictl {a : Arch} (h : a.opened) (o : Option Nat) : a.psw.pid = 0 ∨ ∀ b, o = some b → (a.getSr 0x33).getLsbD b = false :=
  h.imp_right fun h0 b _ => by rw [h0]; exact BitVec.getLsbD_zero

/-- An instruction whose operation changes architected state alone completes. -/
theorem completes_of_arch {i : Instr} {lc ilc : Nat} {p : Pre} {w : CoreWait} {s : State} {body : State → IRes} {f : Arch → Arch} (hi : exec i s = runCore lc p s body)
    (h : ReadyWith s lc ilc w) (hilc : p.ilc = ilc) (hp : p.passes (s.core lc).arch) (hb : body s = .done (s.updArch lc f)) : Completes i s lc ilc (f (s.core lc).arch) :=
  completes_of_core (c := { s.core lc with arch := f (s.core lc).arch }) hi h hilc hp hb rfl rfl rfl

/-- A write of another bank's register changes no held store, and leaves the core as sound as it was. -/
theorem Core.bwPut_kept (c : Core) (x : BitVec 5) (v : W64) (hf : c.arch.bwFile ≠ 2) : (c.bwPut x v).stbuf = c.stbuf ∧ (c.bwPut x v).broken = c.broken := by
  simp only [Core.bwPut, if_neg hf]
  split_ifs <;> exact ⟨rfl, rfl⟩

section
variable {s : State} {lc : Nat} (h : Ready s lc 4)
include h

/-! LPSW -/

/-- The PSW that LPSW loads: supervisor state keeps its PID (02 R33). -/
def Psw.loadedBy (n old : Psw) : Psw := if old.state.toNat = 1 then { n with pid := old.pid } else n

theorem lpsw_goes (a : BitVec 5) (v : Nat) (n : Psw) (hn : Psw.ofDws (BitVec.ofNat 64 (v / 2 ^ 64)) (BitVec.ofNat 64 v) = n)
    (hst : (s.core lc).arch.psw.state.toNat = 2 ∨ ((s.core lc).arch.psw.state.toNat = 1 ∧ n.state ≠ 2))
    (halign : ((s.core lc).arch.getG a).toNat % 16 = 0) (hload : s.loadNat ((s.core lc).xctx lc) ((s.core lc).arch.getG a) 16 = .ok s v)
    (hgood : pswBad (BitVec.ofNat 64 (v / 2 ^ 64)) (BitVec.ofNat 64 v) = false) (hbank : (s.core lc).arch.psw.bank ≠ 7) (hnew : n.bank ≠ 7) :
    Goes (.lpsw lc 0 a 0) s lc { (s.core lc).arch with psw := n.loadedBy (s.core lc).arch.psw } := by
  have hread : s.loadNat (s.xc lc) ((s.arch lc).getG a) 16 = .ok s v := hload
  have hmon : ((s.arch lc).psw.state == 1 && n.state == 2) = false := by
    rcases hst with hst | ⟨-, hn2⟩
    · simp [State.arch, BitVec.eq_of_toNat_eq (y := 2) hst]
    · exact Bool.and_eq_false_imp.mpr fun _ => beq_eq_false_iff_ne.mpr hn2
  have hsup : ((s.arch lc).psw.state == 1) = decide ((s.core lc).arch.psw.state.toNat = 1) := by
    rw [Bool.eq_iff_iff]; simp [State.arch, ← BitVec.toNat_inj]
  have hseven : decide (n.bank = 7) = false := decide_eq_false hnew
  obtain ⟨body, hi, k, b, hbody⟩ : ∃ body,
      exec (.lpsw lc 0 a 0) s = runCore lc
          { words := wordsE 0x30 0x01 0 a 0, low := 1, sp := (0 : BitVec 5) != 0 || (0 : BitVec 10) != 0 || ((s.arch lc).getG a).toNat % 16 != 0 } s body ∧
        ∃ k b, body s = .loaded (s.setCore lc { s.core lc with arch := { (s.core lc).arch with psw := n.loadedBy (s.core lc).arch.psw }, kept := k, trbuf := b }) := by
    refine ⟨_, rfl, ?_⟩
    obtain ⟨b, hb⟩ := State.trace_setCore s lc { s.core lc with
      arch := { (s.core lc).arch with psw := n.loadedBy (s.core lc).arch.psw }
      kept := if (s.arch lc).psw.state == 2 && (n.loadedBy (s.core lc).arch.psw).state != 2 then none else (s.core lc).kept } 3 0 (n.loadedBy (s.core lc).arch.psw).ia
    refine ⟨_, b, Eq.trans ?_ (congrArg IRes.loaded hb)⟩
    simp only [hread, SRes.run, hn]
    rw [if_neg (by rw [hmon]; decide), if_neg (by rw [hgood]; decide), if_neg (by rw [hseven]; exact Bool.false_ne_true), if_neg (by rw [hseven]; exact Bool.false_ne_true),
      if_pos (show (s.arch lc).psw.bank ≠ 7 from hbank), hsup]
    simp only [Psw.loadedBy, decide_eq_true_eq]
    rfl
  have hlow : 1 ≤ (s.core lc).arch.psw.state.toNat := by omega
  exact goes_of_loaded hi h rfl (by simp [Pre.passes, State.arch, halign, hlow]) hbody rfl rfl rfl

/-! SETB -/

theorem setb_completes (k : BitVec 3) (hk : k ≠ 7) (hpv : (s.core lc).arch.psw.state.toNat ≠ 0 ∨ ((s.core lc).arch.getSr 0x0B).getLsbD k.toNat = true) :
    Completes (.setb lc 0 0 (k.setWidth 10)) s lc 4 { (if (s.core lc).arch.psw.bank = 7 then (s.core lc).arch.setWin 7 0 1 else (s.core lc).arch) with
      psw := { (s.core lc).arch.psw with bank := k } } := by
  obtain ⟨hk0, hk3, -, -⟩ := fields_of_three k
  have hstate : ((s.core lc).arch.psw.state == 0) = decide ((s.core lc).arch.psw.state.toNat = 0) := by
    rw [Bool.eq_iff_iff]; simp [← BitVec.toNat_inj]
  have hk7 : (k == 7) = false := by simpa using hk
  have hi : exec (.setb lc 0 0 (k.setWidth 10)) s = execSetb lc 0 0 (k.setWidth 10) s := rfl
  unfold execSetb at hi
  rw [hk0, hk3] at hi
  refine completes_of_core hi h rfl ?_ rfl ?_ rfl rfl
  · simp only [Pre.passes, State.arch, hstate, hk7]
    rcases hpv with hpv | hpv <;> simp [hpv]
  · simp only []
    split <;> rfl

theorem setb_privileged (k : BitVec 3) (hk : k ≠ 7) (hst : (s.core lc).arch.psw.state.toNat = 0) (hoff : ((s.core lc).arch.getSr 0x0B).getLsbD k.toNat = false) :
    Traps (.setb lc 0 0 (k.setWidth 10)) s lc 4 2 := by
  obtain ⟨hk0, -, -, -⟩ := fields_of_three k
  have hstate : (s.core lc).arch.psw.state = 0 := BitVec.eq_of_toNat_eq hst
  have hk7 : (k != 7) = true := by simpa using hk
  have hi : exec (.setb lc 0 0 (k.setWidth 10)) s = execSetb lc 0 0 (k.setWidth 10) s := rfl
  unfold execSetb at hi
  rw [hk0] at hi
  refine traps_of_refused hi h rfl ?_
  simp only [Pre.refusal, State.arch, hstate, hk7, hoff]
  rfl

theorem setb_seven : Traps (.setb lc 0 0 7) s lc 4 6 := by
  have hi : exec (.setb lc 0 0 7) s = execSetb lc 0 0 7 s := rfl
  unfold execSetb at hi
  refine traps_of_refused hi h rfl ?_
  simp [Pre.refusal]

/-! MFSR and MTSR -/

omit h in
/-- A write of a special register without a meaning of its own. -/
theorem State.srWrite_plain (s : State) (lc n : Nat) (v : W64) (hn : n ≠ 8 ∧ n ≠ 9 ∧ n ≠ 0x34 ∧ n ≠ 0x10) :
    ∃ c, s.srWrite lc n v = s.setCore lc c ∧ c.arch = (s.core lc).arch.setSr n v ∧ c.stbuf = (s.core lc).stbuf ∧ c.broken = (s.core lc).broken := by
  obtain ⟨h8, h9, h34, h10⟩ := hn
  simp only [State.srWrite, if_neg h8, if_neg h9, if_neg h34, if_neg h10]
  split
  · exact ⟨_, rfl, rfl, rfl, rfl⟩
  · exact ⟨_, rfl, rfl, rfl, rfl⟩

omit h in
theorem State.srWrite_wsp (s : State) (lc n : Nat) (v : W64) (hn : n = 8) :
    s.srWrite lc n v = s.setCore lc { s.core lc with arch := { (s.core lc).arch with wsp := (s.core lc).arch.wsp.put (s.core lc).arch.psw.bank.toNat v } } := by
  simp only [State.srWrite, if_pos hn]
  rfl

section
variable {t a : BitVec 5} {sys : BitVec 10} {n low : Nat} (hn : fieldOf sys 5 0 = n) (hz : (fieldOf sys 9 6 != 0) = false)
include hn hz

theorem mfsr_completes (hl : (s.core lc).arch.srLow n false = some low) (hst : low ≤ (s.core lc).arch.psw.state.toNat) :
    Completes (.mfsr lc t 0 sys) s lc 4 ((s.core lc).arch.setG t (s.srRead lc n)) := by
  have hi : exec (.mfsr lc t 0 sys) s = execMfsr lc t 0 sys s := rfl
  unfold execMfsr at hi
  rw [hn, hz] at hi
  refine completes_of_arch (f := fun r => r.setG t (s.srRead lc _)) hi h rfl ?_ rfl
  simp [Pre.passes, State.arch, hl, hst]

theorem mfsr_privileged (hl : (s.core lc).arch.srLow n false = some low) (hst : (s.core lc).arch.psw.state.toNat < low) :
    Traps (.mfsr lc t 0 sys) s lc 4 2 := by
  have hi : exec (.mfsr lc t 0 sys) s = execMfsr lc t 0 sys s := rfl
  unfold execMfsr at hi
  rw [hn, hz] at hi
  refine traps_of_refused hi h rfl ?_
  simp [Pre.refusal, State.arch, hl, hst]

theorem mfsr_unassigned (hl : (s.core lc).arch.srLow n false = none) : Traps (.mfsr lc t 0 sys) s lc 4 1 := by
  have hi : exec (.mfsr lc t 0 sys) s = execMfsr lc t 0 sys s := rfl
  unfold execMfsr at hi
  rw [hn, hz] at hi
  refine traps_of_refused hi h rfl ?_
  simp [Pre.refusal, State.arch, hl]

theorem mtsr_privileged (hl : (s.core lc).arch.srLow n true = some low) (hst : (s.core lc).arch.psw.state.toNat < low) :
    Traps (.mtsr lc 0 a sys) s lc 4 2 := by
  have hi : exec (.mtsr lc 0 a sys) s = execMtsr lc 0 a sys s := rfl
  unfold execMtsr at hi
  rw [hn, hz] at hi
  refine traps_of_refused hi h rfl ?_
  simp [Pre.refusal, State.arch, hl, hst]

variable (hl : (s.core lc).arch.srLow n true = some low) (hst : low ≤ (s.core lc).arch.psw.state.toNat)
  (hgood : (s.core lc).srBad n ((s.core lc).arch.getG a) = false) (hopen : (s.core lc).arch.opened)
include hl hst hgood hopen

omit h in
/-- MTSR of an assigned number and a legal value comes to its write. -/
theorem mtsr_runs : ∃ p body, exec (.mtsr lc 0 a sys) s = runCore lc p s body ∧ p.ilc = 4 ∧ p.passes (s.core lc).arch ∧
    body s = .done (s.srWrite lc n ((s.core lc).arch.getG a)) := by
  have hi : exec (.mtsr lc 0 a sys) s = execMtsr lc 0 a sys s := rfl
  unfold execMtsr at hi
  rw [hn, hz] at hi
  exact ⟨_, _, hi, rfl, ⟨by simp [State.arch, hl], rfl, by simp [State.arch, hgood], by simpa [State.arch, hl] using hst, hopen.ictl _⟩, rfl⟩

theorem mtsr_completes {c : Core} (hw : s.srWrite lc n ((s.core lc).arch.getG a) = s.setCore lc c)
    (hbuf : c.stbuf = (s.core lc).stbuf) (hk : c.broken = (s.core lc).broken) : Completes (.mtsr lc 0 a sys) s lc 4 c.arch := by
  obtain ⟨p, body, hi, hilc, hp, hb⟩ := mtsr_runs hn hz hl hst hgood hopen
  exact completes_of_core hi h hilc hp (hb.trans (congrArg IRes.done hw)) rfl hbuf hk

theorem mtsr_p2base (h34 : n = 0x34) : Does (.mtsr lc 0 a sys) s (fun u =>
    u.p2base = (s.core lc).arch.getG a ∧ u.mem = s.mem ∧ (u.core lc).arch = (s.core lc).arch.setIa ((s.core lc).arch.psw.ia + 4)) := by
  obtain ⟨p, body, hi, hilc, hp, hb⟩ := mtsr_runs hn hz hl hst hgood hopen
  let u : State := { s with p2base := (s.core lc).arch.getG a }
  have hw : s.srWrite lc n ((s.core lc).arch.getG a) = u := by
    simp only [State.srWrite, h34, Nat.reduceEqDiff, if_false, if_true]
    rfl
  obtain ⟨d, hd, harch, -⟩ := State.retire_eq u lc p (s.core lc).arch ((s.core lc).arch.psw.ia + BitVec.ofNat 64 p.ilc) h.broken
  rw [hilc] at hd harch
  refine ⟨_, exec_of_body hi (hilc ▸ h) hp hb, ?_⟩
  simp only [hw, ended, State.finish, hilc, hd, left_p2base, left_mem, left_core, State.core_setCore, harch]
  exact ⟨rfl, rfl, rfl⟩

end

/-! Feature registers, comparator, bank windows -/

section
variable (hst : 1 ≤ (s.core lc).arch.psw.state.toNat) (hopen : (s.core lc).arch.opened) (t a : BitVec 5)
include hst hopen

theorem readf_completes (k : BitVec 3) : Completes (.readf lc t 0 (k.setWidth 10)) s lc 4 ((s.core lc).arch.setG t (s.feat lc k.toNat)) := by
  obtain ⟨-, -, hk, hz⟩ := fields_of_three k
  have hi : exec (.readf lc t 0 (k.setWidth 10)) s = execReadf lc t 0 (k.setWidth 10) s := rfl
  unfold execReadf at hi
  rw [hk, hz] at hi
  exact completes_of_arch (f := fun r => r.setG t (s.feat lc k.toNat)) hi h rfl ⟨rfl, rfl, rfl, hst, hopen.ictl _⟩ rfl

theorem settc_completes : Completes (.settc lc 0 a 0) s lc 4 { (s.core lc).arch with tbc := (s.core lc).arch.getG a } := by
  have hi : exec (.settc lc 0 a 0) s = execSettc lc 0 a 0 s := rfl
  unfold execSettc at hi
  exact completes_of_arch (f := fun r => { r with tbc := r.getG a }) hi h rfl ⟨rfl, rfl, rfl, hst, hopen.ictl _⟩ rfl

theorem sttc_completes : Completes (.sttc lc t 0 0) s lc 4 ((s.core lc).arch.setG t (s.core lc).arch.tbc) := by
  have hi : exec (.sttc lc t 0 0) s = execSttc lc t 0 0 s := rfl
  unfold execSttc at hi
  exact completes_of_arch (f := fun r => r.setG t r.tbc) hi h rfl ⟨rfl, rfl, rfl, hst, hopen.ictl _⟩ rfl

omit hopen in
theorem movfb_completes (hbad : (s.core lc).arch.bwBad a = false) (hwait : (s.core lc).bwWait = false) :
    Completes (.movfb lc t a 0) s lc 4 ((s.core lc).arch.setG t ((s.core lc).bwGet a)) := by
  have hi : exec (.movfb lc t a 0) s = execMovfb lc t a 0 s := rfl
  unfold execMovfb at hi
  refine completes_of_arch (f := fun r => r.setG t ((s.core lc).bwGet a)) hi h rfl ⟨rfl, rfl, ?_, hst, .inr (by simp)⟩ ?_
  · simpa [State.arch] using hbad
  · simp only [hwait]; rfl

omit hopen in
theorem movtb_completes (hbad : (s.core lc).arch.bwBad t = false) (hfile : (s.core lc).arch.bwFile ≠ 2) (hwait : (s.core lc).bwWait = false) :
    Completes (.movtb lc t a 0) s lc 4 ((s.core lc).bwPut t ((s.core lc).arch.getG a)).arch := by
  have hi : exec (.movtb lc t a 0) s = execMovtb lc t a 0 s := rfl
  unfold execMovtb at hi
  obtain ⟨hbuf, hk⟩ := Core.bwPut_kept (s.core lc) t ((s.core lc).arch.getG a) hfile
  refine completes_of_core hi h rfl ⟨rfl, rfl, ?_, hst, .inr (by simp)⟩ (c := (s.core lc).bwPut t ((s.core lc).arch.getG a)) ?_ rfl hbuf hk
  · simp [hbad, hfile]
  · simp only [hwait]; rfl

end

/-! EPSW and STTB -/

theorem epsw_completes (t : BitVec 5) : Completes (.epsw lc t 0 0) s lc 4 ((s.core lc).arch.setG t (s.core lc).arch.psw.dw0) := by
  have hi : exec (.epsw lc t 0 0) s = execEpsw lc t 0 0 s := rfl
  unfold execEpsw at hi
  exact completes_of_arch (f := fun r => r.setG t r.psw.dw0) hi h rfl (by simp [Pre.passes]) rfl

theorem sttb_completes (t : BitVec 5) : Completes (.sttb lc t 0 0) s lc 4 ((s.core lc).arch.setG t s.fab.tb) := by
  have hi : exec (.sttb lc t 0 0) s = execSttb lc t 0 0 s := rfl
  unfold execSttb at hi
  refine completes_of_core hi h rfl (by simp [Pre.passes]) (c := { s.core lc with
    arch := (s.core lc).arch.setG t s.fab.tb
    inlog := (s.core lc).inlog ++ [{ ia := (s.core lc).arch.psw.ia, kind := .timeBase, val := s.fab.tb.setWidth 256, cc := 0 }] }) ?_ rfl rfl rfl
  simp only [State.once_nil s lc _ _ _ h.replay, State.logInput, State.updArch, State.updCore, State.core_setCore, State.setCore_setCore]

end

/-- Settles O15: each clause is the lemma of its instruction. -/
theorem systemRegisters : Obligations.SystemRegisters := by
  intro s lc t a sys v h r st n x d0 d1 opened
  refine ⟨fun _ halign hload hgood hbank hnew hst => lpsw_goes h a v _ rfl hst halign hload hgood hbank hnew, setb_completes h, setb_privileged h, setb_seven h,
    fun hsys => ?_,
    fun hst hopen => ⟨readf_completes h hst hopen t, settc_completes h hst hopen a, sttc_completes h hst hopen t, movfb_completes h hst t a, movtb_completes h hst t a⟩,
    epsw_completes h t, sttb_completes h t⟩
  obtain ⟨hn, hz⟩ := fields_of_number hsys
  refine ⟨fun low hl => ⟨mfsr_completes h hn hz hl, mfsr_privileged h hn hz hl⟩, mfsr_unassigned h hn hz,
    fun low hl hgood hopen => ⟨fun hst hplain => ?_, fun hst h8 => ?_, (mtsr_p2base h hn hz hl · hgood hopen), mtsr_privileged h hn hz hl⟩⟩
  · obtain ⟨c, hw, harch, hbuf, hk⟩ := State.srWrite_plain s lc n x hplain
    exact harch ▸ mtsr_completes h hn hz hl hst hgood hopen hw hbuf hk
  · exact mtsr_completes h hn hz hl hst hgood hopen (State.srWrite_wsp s lc n x h8) rfl rfl

end Sys2Proof.Machine
end

section
/-! PROOFS. Entering an interruption (02 R49 to R52): what the entry counts, which PSW and window it leaves. -/

namespace Sys2Proof.Machine

/-! Counting an event (02 R55): special registers alone change -/

theorem Arch.setSr_sr (a : Arch) (n : Nat) (v : W64) : ∃ sr, a.setSr n v = { a with sr := sr } := ⟨_, rfl⟩

theorem Arch.pmcBump_sr (a : Arch) (n k : Nat) : ∃ sr, (a.pmcBump n k).1 = { a with sr := sr } := by
  simp only [Arch.pmcBump]
  split <;> exact ⟨_, rfl⟩

theorem Arch.pmcAdd_sr (a : Arch) (n ev k : Nat) : ∃ sr, (a.pmcAdd n ev k).1 = { a with sr := sr } := by
  unfold Arch.pmcAdd
  split
  · exact a.pmcBump_sr n k
  · exact ⟨a.sr, rfl⟩

theorem Arch.pmc_sr (a : Arch) (ev k : Nat) : ∃ sr, (a.pmc ev k).1 = { a with sr := sr } := by
  have hfold : ∀ (l : List Nat) (p : Arch × Bool), (∃ sr, p.1 = { a with sr := sr }) →
      ∃ sr, (l.foldl (fun p n => let q := p.1.pmcAdd n ev k; (q.1, p.2 || q.2)) p).1 = { a with sr := sr } := by
    intro l
    induction l with
    | nil => exact fun p hp => hp
    | cons n l ih =>
      rintro p ⟨sr, hp⟩
      obtain ⟨sr', hq⟩ := Arch.pmcAdd_sr p.1 n ev k
      exact ih _ ⟨sr', by rw [hq, hp]⟩
  exact hfold _ _ ⟨a.sr, rfl⟩

theorem Core.pmcNow_sr (c : Core) (ev k : Nat) : ∃ sr ckpt pe, c.pmcNow ev k = { c with arch := { c.arch with sr := sr }, ckpt := ckpt, pendExt := pe } := by
  obtain ⟨sr, hsr⟩ := c.arch.pmc_sr ev k
  unfold Core.pmcNow
  split
  · exact ⟨c.arch.sr, c.ckpt, c.pendExt, rfl⟩
  · simp only [hsr]
    split
    · unfold Core.pendExternal
      split <;> exact ⟨_, _, _, rfl⟩
    · exact ⟨_, _, _, rfl⟩

/-! The entry area (02 R51) -/

/-- The area that an entry accepts holds a legal PSW, for a partition's area one below monitor state. -/
theorem State.areaCheck_ok {s t : State} {x : XCtx} {base new : Nat} {partition : Bool} {stores : List (Nat × List Byte)} {ps : List (List (Nat × Nat) × List Byte)} {d0 d1 : W64}
    (h : s.areaCheck x base new partition stores = .ok t ps d0 d1) : pswBad d0 d1 = false ∧ (partition = true → (Psw.ofDws d0 d1).state ≠ 2) := by
  unfold State.areaCheck at h
  split at h
  next =>
    split at h
    next => cases h
    next => cases h
    next v _ =>
      simp only [] at h
      split at h
      next => cases h
      next hgood =>
        cases h
        rw [Bool.or_eq_true, not_or] at hgood
        obtain ⟨hbad, hstate⟩ := hgood
        refine ⟨by simpa using hbad, fun hp h2 => hstate ?_⟩
        rw [hp, Bool.true_and, beq_iff_eq]
        exact h2
  next hne =>
    exact absurd h (hne _ _ _ _)

theorem psw_of_good {d0 d1 : W64} (h : pswBad d0 d1 = false) : (Psw.ofDws d0 d1).state ≠ 3 ∧ (Psw.ofDws d0 d1).ia.extractLsb' 0 2 = 0 := by
  simp only [pswBad, Bool.or_eq_false_iff, beq_eq_false_iff_ne, bne_eq_false_iff_eq] at h
  obtain ⟨⟨⟨-, hstate⟩, -⟩, hia⟩ := h
  exact ⟨hstate, hia⟩

/-! The window of B7 (02 R47) -/

theorem Arch.trapWindow_some {a b : Arch} {restart : Bool} (h : a.trapWindow restart = some b) :
    if a.psw.bank = 7 ∧ restart = false then b.cwp 7 = a.cwp 7 + 1 ∧ b.nres 7 = a.nres 7 + 1 else b.cwp 7 = 0 ∧ b.nres 7 = 1 := by
  have hcwp := a.cwp_lt 7
  unfold Arch.trapWindow at h
  split at h
  next hother =>
    cases h
    rw [if_neg (by simpa [imp_iff_not_or] using hother)]
    exact ⟨a.cwp_setWin _ _ _ (by omega), a.nres_setWin _ _ _ (by omega)⟩
  next hsame =>
    rw [if_pos (by simpa using hsame)]
    split at h
    next => cases h
    next hroom =>
      have hroom : a.nres 7 < 4 ∧ a.cwp 7 < 3 := by simpa using hroom
      cases h
      exact ⟨a.cwp_setWin _ _ _ (by omega), a.nres_setWin _ _ _ (by omega)⟩

/-! The entry -/

/-- Is the interruption a restart: then B7 shows window 0 (02 R47). -/
def IntReq.isRestart (q : IntReq) : Bool := match q with | .restart => true | _ => false

theorem IntReq.isRestart_iff (q : IntReq) : q.isRestart = false ↔ q ≠ .restart := by cases q <;> simp [IntReq.isRestart]

/-- The PSW that an entry loads (02 R51). -/
def Psw.entering (pid : BitVec 8) (monitor : Bool) (d0 d1 : W64) : Psw := { Psw.ofDws d0 d1 with bank := 7, pid := if monitor then 0 else pid }

/-- The architected state of an entry but for its PSW and window: an IEEE exception writes DXC (04 R107). -/
def IntReq.dxcWritten (q : IntReq) (a : Arch) : Arch :=
  match q with
  | .program 0x0C _ _ _ dxc => a.setSr 0x0C (putField (a.getSr 0x0C) 15 8 dxc.toNat)
  | _ => a

theorem IntReq.dxcWritten_sr (q : IntReq) (a : Arch) : ∃ sr, q.dxcWritten a = { a with sr := sr } := by
  unfold IntReq.dxcWritten
  split
  · exact Arch.setSr_sr ..
  · exact ⟨a.sr, rfl⟩

section
variable {s u : State} {lc : Nat} {q : IntReq} {oldIa : W64} {monitor : Bool} {places : List (List (Nat × Nat) × List Byte)} {d0 d1 : W64}
  (harea : s.entryArea lc q oldIa monitor = .ok s places d0 d1)
include harea

/-- An entry that is made changes its own core alone. -/
theorem State.enterAt_ok (h : s.enterAt lc q oldIa monitor = .ok u) :
    ∃ a1 sr c, (s.core lc).arch.trapWindow q.isRestart = some a1 ∧ u = s.setCore lc c ∧
      c.arch = { (s.core lc).arch with psw := .entering (s.core lc).arch.psw.pid monitor d0 d1, wst := a1.wst, sr := sr } ∧
      c.stbuf = places.foldl (fun b p => holdBytes b (if monitor then 0 else (s.core lc).arch.psw.pid) p.1 p.2) (s.core lc).stbuf := by
  obtain ⟨sr, ckpt, pe, hnow⟩ := (s.core lc).pmcNow_sr 0x0F 1
  unfold State.enterAt at h
  dsimp only at h
  split at h
  next => cases h
  next a1 hwin =>
    obtain ⟨buf, hbuf⟩ : ∃ buf, places.foldl (fun b p => holdBytes b (if monitor then 0 else (s.core lc).arch.psw.pid) p.1 p.2) (s.core lc).stbuf = buf := ⟨_, rfl⟩
    simp only [harea, hnow, hbuf] at h
    by_cases hfull : stbufMax < buf.length
    · rw [if_pos hfull] at h; cases h
    · rw [if_neg hfull] at h
      obtain ⟨sr', hsr⟩ := q.dxcWritten_sr { (s.core lc).arch with sr := sr }
      obtain ⟨b, hb⟩ := State.trace_setCore s lc { s.core lc with
        arch := { q.dxcWritten { (s.core lc).arch with sr := sr } with psw := .entering (s.core lc).arch.psw.pid monitor d0 d1, wst := a1.wst }
        ckpt := ckpt
        pendExt := pe
        stbuf := buf } 2 q.info (Psw.ofDws d0 d1).ia
      exact ⟨a1, sr', _, hwin, (Entry.ok.inj h).symm.trans hb, by rw [hsr], hbuf.symm⟩

end

/-- Settles O17: the PSW is that of an accepted area, the window that of `trapWindow`, and only the core's registers, special registers and held stores change. -/
theorem interruptionEntry : Obligations.InterruptionEntry := by
  intro s u lc q oldIa monitor places d0 d1 harea h r n
  obtain ⟨a1, sr, c, hwin, rfl, harch, hbuf⟩ := State.enterAt_ok harea h
  obtain ⟨hgood, hpart⟩ := State.areaCheck_ok harea
  obtain ⟨hstate, hia⟩ := psw_of_good hgood
  have hn : n = c.arch := congrArg Core.arch (State.core_setCore s lc c)
  have hw7 := Arch.trapWindow_some hwin
  rw [hn, harch]
  refine ⟨rfl, hstate, fun hm => hpart (by rw [hm]; rfl), hia, rfl, rfl, rfl, rfl, rfl, rfl, ?_, by rw [State.core_setCore, hbuf], fun k hk => State.core_setCore_ne _ _ _ _ hk,
    rfl, rfl, rfl, rfl, rfl, rfl⟩
  simp only [q.isRestart_iff] at hw7
  exact hw7

end Sys2Proof.Machine
end

section
/-! PROOFS. Supervisor calls, undefined words, and the commands that take a pending interruption (02 R49, 03 R66, R67). -/

namespace Sys2Proof.Machine

/-! SCALL -/

/-- A supervisor call whose entry is made. -/
theorem scall_leaves {s u : State} {lc : Nat} {t a : BitVec 5} {sys : BitVec 10} (h : Ready s lc 4) (ht : t.extractLsb' 1 4 = 0)
    (henter : s.enterAt lc (.svc ((t ++ a ++ sys : BitVec 20).setWidth 16)) ((s.core lc).arch.psw.ia + 4) ((s.core lc).arch.psw.state == 2) = .ok u) :
    Leaves (.scall lc t a sys) s
      ((u.updCore lc (fun d => ({ d with retired := d.retired + 1, lastIlc := 4 } : Core).countIns (s.core lc).arch)).entered lc (s.core lc).arch.psw.pid) := by
  obtain ⟨-, -, hquiet, -⟩ := id h
  have hbegun : (s.core lc).begun = false := Core.begun_quiet hquiet
  have hmon : (IntReq.svc ((t ++ a ++ sys : BitVec 20).setWidth 16)).toMonitor (s.core lc).arch.psw = ((s.core lc).arch.psw.state == 2) := rfl
  obtain ⟨body, hi, hbody⟩ : ∃ body, exec (.scall lc t a sys) s = runCore lc { words := wordsE 0x30 0x08 t a sys, sp := t.extractLsb' 1 4 != 0 } s body ∧
      body s = .gone ((u.updCore lc (fun d => ({ d with retired := d.retired + 1, lastIlc := 4 } : Core).countIns (s.core lc).arch)).entered lc (s.core lc).arch.psw.pid) :=
    ⟨_, rfl, by simp only [hbegun, Bool.false_eq_true, if_false, State.arch, hmon, henter]⟩
  exact exec_of_body hi h ⟨rfl, rfl, by simp [ht], Nat.zero_le _, .inr (by simp)⟩ hbody

/-! Undefined words -/

theorem undefinedOpcode_traps {s : State} {lc : Nat} {w0 : BitVec 32} (h : Ready s lc (coreIlc w0)) (hw : coreDefined w0 = false) :
    Traps (.undefinedOpcode lc w0) s lc (coreIlc w0) 1 := by
  have hi : exec (.undefinedOpcode lc w0) s = runCore lc { ilc := coreIlc w0, words := w0 ++ (0 : BitVec 32), op := true } s fun s => .done s := by
    obtain ⟨u, hu⟩ := runCore_runs lc { ilc := coreIlc w0, words := w0 ++ (0 : BitVec 32), op := true } s (fun s => .done s) h.1
    change execUndefinedOpcode lc w0 s = _
    rw [execUndefinedOpcode, hw, if_neg Bool.false_ne_true, hu, settled_settled]
  exact traps_of_refused hi h rfl rfl

/-! Taking what is pending -/

/-- A core that may take an interruption waits for no SYNC and replays nothing. -/
theorem Core.mayTake_cases {c : Core} (h : c.mayTake = true) : c.wait ≠ .sync ∧ c.replay = [] := by
  simp only [Core.mayTake, Bool.and_eq_true, List.isEmpty_iff] at h
  obtain ⟨⟨hwait, -⟩, hreplay⟩ := h
  exact ⟨fun hs => by simp [hs] at hwait, hreplay⟩

theorem Core.logged_nil {c : Core} (h : c.replay = []) : c.logged = none := by rw [Core.logged, h]

theorem interruptionEntry_leaves {s u : State} {lc : Nat} (hlc : lc < 48) (hu : s.boundary lc = u) : Leaves (.interruptionEntry lc) s u := by
  change execInterruptionEntry lc s = _
  rw [execInterruptionEntry, if_pos hlc, hu, settled_next]

/-- A boundary of a core that waits for no SYNC and replays nothing. -/
theorem State.boundary_eq {s : State} {lc : Nat} (hwait : (s.core lc).wait ≠ .sync) (hreplay : (s.core lc).replay = []) :
    s.boundary lc = if s.canRun lc then (match s.pickInt lc with | none => s | some x => if (s.core lc).mayTake then s.takePending lc x else s) else s := by
  simp only [State.boundary, State.endSync_off s lc hwait, Core.logged_nil hreplay, Bool.not_eq_true']
  cases s.canRun lc <;> rfl

theorem restart_stopped {s : State} {lc : Nat} (hlc : lc < 48) (he : s.lcExists lc = true) (hp : (s.core lc).pendRestart = true) (hf : s.flag F.FLT_FENCE_CXF = false)
    (hr : s.svc.resetHold = false) (hrun : (s.core lc).run = .stopped) : Leaves (.restartInterruption lc) s (s.restartStopped lc) := by
  change execRestartInterruption lc s = _
  simp only [execRestartInterruption, he, hp, hf, hr, hrun]
  rw [if_neg (by omega)]
  rfl

theorem restart_none {s : State} {lc : Nat} (hlc : lc < 48) (hp : (s.core lc).pendRestart = false) : Leaves (.restartInterruption lc) s s := by
  change execRestartInterruption lc s = _
  simp only [execRestartInterruption, hp]
  rw [if_neg (by omega), if_pos (by simp)]
  rfl

/-- Settles O18: each clause is the lemma of its command. -/
theorem callsAndEntries : Obligations.CallsAndEntries := by
  intro s u lc t a sys w0 x c q
  refine ⟨scall_leaves, undefinedOpcode_traps, fun hlc hrun hpick htake => ?_, fun hlc hwait hreplay hpick => ?_, restart_stopped, restart_none⟩
  · obtain ⟨hwait, hreplay⟩ := Core.mayTake_cases htake
    exact interruptionEntry_leaves hlc (by rw [State.boundary_eq hwait hreplay, if_pos hrun, hpick]; exact if_pos htake)
  · exact interruptionEntry_leaves hlc (by rw [State.boundary_eq hwait hreplay, hpick]; exact ite_self _)

end Sys2Proof.Machine
end

section
/-! PROOFS. The order in which a boundary takes pending interruptions (02 R45, R49, R51, R53, 20 R494). -/

namespace Sys2Proof.Machine

section
variable {s : State} {lc : Nat}

/-! Machine checks -/

/-- A failed transfer is one that met poisoned data, or a spill fault (02 R45). -/
theorem Core.poisonOwed_machine {c : Core} {b : Nat} {id : W64} {abs : Option W64} {rest : List (Nat × IntReq)} (h : c.pendSpill = (b, .machine id abs) :: rest) :
    c.poisonOwed = some (.poison b) := by simp [Core.poisonOwed, h]

theorem Core.poisonOwed_fault {c : Core} {b : Nat} {q : IntReq} (h : c.pendSpill = [(b, q)]) (hq : ∀ i a, q ≠ .machine i a) : c.poisonOwed = none := by
  cases q with
  | machine i a => exact absurd rfl (hq i a)
  | _ => simp [Core.poisonOwed, h]

theorem Core.spillOwed_fault {c : Core} {b : Nat} {q : IntReq} (h : c.pendSpill = [(b, q)]) (hq : ∀ i a, q ≠ .machine i a) (hk : c.kept ≠ some (.spill b)) :
    c.spillOwed = some (.spill b) := by
  have hk' : (c.kept != some (.spill b)) = true := bne_iff_ne.mpr hk
  cases q with
  | machine i a => exact absurd rfl (hq i a)
  | _ => simp [Core.spillOwed, h, hk']

theorem Core.owed_nil {c : Core} (h : c.pendSpill = []) : c.poisonOwed = none ∧ c.spillOwed = none := by simp [Core.poisonOwed, Core.spillOwed, h]

theorem State.machinePending_held {m : HeldMc} (hm : s.svc.mcs = [m]) (hl : s.lowestCore = some lc) (hmcm : (s.core lc).arch.psw.mcm = true)
    (hp : (s.core lc).poisonOwed = none) : s.machinePending lc = some (.machine m) := by
  simp [State.machinePending, hl, hmcm, hm, firstMc, hp]

theorem State.machinePending_none (hm : s.svc.mcs = []) : s.machinePending lc = (s.core lc).poisonOwed := by
  have hheld : (if s.lowestCore = some lc && (s.core lc).arch.psw.mcm then firstMc s.svc.mcs else none) = none := by
    rw [hm]; exact ite_self _
  simp only [State.machinePending, hheld]

/-! I/O interruptions -/

/-- With IOM = 0 a core serves no FIFO (12 R301). -/
theorem State.ioPending_masked (h : (s.core lc).arch.psw.iom = false) : s.ioPending lc = none := by
  rw [State.ioPending, List.findSome?_eq_none_iff]
  intro isc _
  split
  · rfl
  · refine if_neg fun hfirst => ?_
    have := List.find?_some hfirst
    simp [h] at this

/-! The choice -/

theorem State.pickInt_machine {x : IntSrc} (h : s.machinePending lc = some x) : s.pickInt lc = some x := by
  simp only [State.pickInt, h]
  rfl

theorem State.pickInt_spill {x : IntSrc} (h : s.machinePending lc = none) (hx : (s.core lc).spillOwed = some x) : s.pickInt lc = some x := by
  simp only [State.pickInt, h, hx]
  rfl

section
variable (hmachine : s.machinePending lc = none) (hspill : (s.core lc).spillOwed = none)
include hmachine hspill

theorem State.pickInt_program {p : IntReq × W64} (hp : (s.core lc).pendProg = some p) (hk : (s.core lc).kept ≠ some .program) : s.pickInt lc = some .program := by
  have hk' : ((s.core lc).kept != some .program) = true := bne_iff_ne.mpr hk
  simp only [State.pickInt, hmachine, hspill, hp, hk']
  rfl

variable (hprog : (s.core lc).pendProg = none ∨ (s.core lc).kept = some .program)
include hprog

theorem State.pickInt_comparator (hexm : (s.core lc).arch.psw.exm = true) (htb : (s.core lc).arch.tbc.toNat ≤ s.fab.tb.toNat)
    (hk : (s.core lc).kept ≠ some (.external 0x1001)) : s.pickInt lc = some (.external 0x1001) := by
  have hpending : s.externalPending lc 0x1001 = true := by simpa [State.externalPending] using htb
  have hk' : ((s.core lc).kept != some (.external 0x1001)) = true := bne_iff_ne.mpr hk
  have hnone : ((s.core lc).pendProg.isSome && (s.core lc).kept != some .program) = false := by rcases hprog with hp | hp <;> simp [hp]
  simp only [State.pickInt, hmachine, hspill, hnone, hexm, List.find?_cons, hpending, hk']
  rfl

theorem State.pickInt_masked (hexm : (s.core lc).arch.psw.exm = false) (hiom : (s.core lc).arch.psw.iom = false) :
    s.pickInt lc = if (s.core lc).pendRestart then some .restart else none := by
  have hnone : ((s.core lc).pendProg.isSome && (s.core lc).kept != some .program) = false := by rcases hprog with hp | hp <;> simp [hp]
  simp only [State.pickInt, hmachine, hspill, hnone, hexm, State.ioPending_masked hiom]
  rfl

end

end

/-- Settles O19: `pickInt` takes the first class that has an interruption pending. -/
theorem interruptionPriority : Obligations.InterruptionPriority := by
  intro s lc b q p id abs rest c
  refine ⟨fun m hm hl hmcm hnil => ?_, fun hm hpoison => ?_, fun hm hfault hq hk => ?_, fun hm hnil => ?_⟩
  · exact State.pickInt_machine (State.machinePending_held hm hl hmcm (Core.owed_nil hnil).1)
  · exact State.pickInt_machine ((State.machinePending_none hm).trans (Core.poisonOwed_machine hpoison))
  · exact State.pickInt_spill ((State.machinePending_none hm).trans (Core.poisonOwed_fault hfault hq)) (Core.spillOwed_fault hfault hq hk)
  · obtain ⟨hpoison, hspill⟩ := Core.owed_nil hnil
    have hmachine := (State.machinePending_none hm).trans hpoison
    exact ⟨State.pickInt_program hmachine hspill, fun hprog => ⟨State.pickInt_comparator hmachine hspill hprog, State.pickInt_masked hmachine hspill hprog⟩⟩

end Sys2Proof.Machine
end

section
/-! PROOFS. The spill and fill engine (02 R41 to R44). -/

namespace Sys2Proof.Machine

/-! The end of a transfer -/

/-- The end of a transfer changes special registers and the engine besides what the transfer does. -/
theorem State.xferDone_eq (s : State) (lc : Nat) (f : Arch → Arch) (ev : Nat) :
    ∃ sr d, s.xferDone lc f ev = s.setCore lc d ∧ d.arch = { f (s.core lc).arch with sr := sr } ∧ d.stbuf = (s.core lc).stbuf := by
  obtain ⟨sr, hsr⟩ := (f (s.core lc).arch).pmc_sr ev 1
  exact ⟨sr, _, rfl, hsr, rfl⟩

theorem State.xferDone_setCore (s : State) (lc : Nat) (c : Core) (f : Arch → Arch) (ev : Nat) :
    ∃ sr d, (s.setCore lc c).xferDone lc f ev = s.setCore lc d ∧ d.arch = { f c.arch with sr := sr } ∧ d.stbuf = c.stbuf := by
  have h := (s.setCore lc c).xferDone_eq lc f ev
  simpa only [State.setCore_setCore, State.core_setCore] using h

/-- The architected state after a transfer of a bank: WSP, SPDEPTH and NRES as it leaves them (02 R41). -/
def Arch.transferred (a : Arch) (bank : Nat) (wsp : W64) (depth nres : Nat) : Arch :=
  ({ a with wsp := a.wsp.put bank wsp } : Arch).setWst bank (putField (putField (a.wstOf bank) 63 32 depth) 6 4 nres)

section
variable (a : Arch) (bank : Nat) (wsp : W64) (depth nres : Nat)

theorem Arch.transferred_spdepth (h : depth < 2 ^ 32) : (a.transferred bank wsp depth nres).spdepth bank = depth := by
  rw [Arch.spdepth, Arch.transferred, Arch.wstOf_setWst, fieldOf_putField_apart _ _ _ _ _ _ (by omega) (by omega) (by omega), fieldOf_putField_same _ _ _ _ (by omega) (by omega)]
  exact Nat.mod_eq_of_lt h

theorem Arch.transferred_nres (h : nres < 8) : (a.transferred bank wsp depth nres).nres bank = nres := by
  rw [Arch.nres, Arch.transferred, Arch.wstOf_setWst, fieldOf_putField_same _ _ _ _ (by omega) (by omega)]
  exact Nat.mod_eq_of_lt h

theorem Arch.transferred_cwp : (a.transferred bank wsp depth nres).cwp bank = a.cwp bank := by
  rw [Arch.cwp, Arch.transferred, Arch.wstOf_setWst, fieldOf_putField_apart _ _ _ _ _ _ (by omega) (by omega) (by omega),
    fieldOf_putField_apart _ _ _ _ _ _ (by omega) (by omega) (by omega)]
  rfl

/-- The bank of a transfer: WSP, SPDEPTH and NRES as given, its current window as it was. -/
theorem Arch.transferred_bank (hd : depth < 2 ^ 32) (hn : nres < 8) :
    (a.transferred bank wsp depth nres).wsp.get 0 bank = wsp ∧ (a.transferred bank wsp depth nres).spdepth bank = depth ∧
      (a.transferred bank wsp depth nres).nres bank = nres ∧ (a.transferred bank wsp depth nres).cwp bank = a.cwp bank :=
  ⟨Tab.get_put .., a.transferred_spdepth bank wsp depth nres hd, a.transferred_nres bank wsp depth nres hn, a.transferred_cwp bank wsp depth nres⟩

theorem Arch.transferred_others (b : Nat) (h : b ≠ bank) :
    (a.transferred bank wsp depth nres).wsp.get 0 b = a.wsp.get 0 b ∧ (a.transferred bank wsp depth nres).wstOf b = a.wstOf b :=
  ⟨Tab.get_put_ne _ _ _ _ _ h, Arch.wstOf_setWst_ne _ _ _ _ h⟩

end

/-! The work of the engine -/

theorem State.engineRuns_xfer {s : State} {lc : Nat} {x : Nat × Bool} (h : s.engineRuns lc x = true) : (s.core lc).xfer = some x := by
  simp only [State.engineRuns, Bool.and_eq_true, beq_iff_eq] at h
  exact h.2

/-- The frame of a bank that a spill stores, from its first register to its last (02 R42). -/
def Arch.frameBytes (a : Arch) (bank frame : Nat) : List Byte := (List.range 8).flatMap (fun i => toBytes 8 (a.w.get 0 (bank * 64 + frame * 8 + i)).toNat)

theorem Arch.length_frameBytes (a : Arch) (bank frame : Nat) : (a.frameBytes bank frame).length = 64 := by
  simp [Arch.frameBytes, List.length_flatMap, toBytes]

/-- A store whose places are found and whose bytes find room in the store buffer is held. -/
theorem State.storeBytes_held {s : State} {x : XCtx} {va : W64} {bs : List Byte} {n : Nat} {places : List (Nat × Nat)} (hn : bs.length / 256 + 2 = n)
    (h : s.checkStore x .wr n va bs.length = .ok s places) (hroom : (holdBytes (s.core x.lc).stbuf (BitVec.ofNat 8 x.pid) places bs).length ≤ stbufMax) :
    s.storeBytes x va bs = .ok (s.setCore x.lc { s.core x.lc with stbuf := holdBytes (s.core x.lc).stbuf (BitVec.ofNat 8 x.pid) places bs }) () := by
  rw [State.storeBytes, hn, h]
  exact if_neg (by omega)

/-- A spill that stores its frame (02 R41, R42). -/
theorem spillFrame_leaves {s : State} {lc bank : Nat} {places : List (Nat × Nat)} (hlc : lc < 48) (hrun : s.engineRuns lc (bank, true) = true)
    (hdepth : (s.core lc).arch.spdepth bank < 2 ^ 32 - 1) {frame : Nat} (hframe : ((s.core lc).arch.cwp bank + 1 + 8 - (s.core lc).arch.nres bank) % 8 = frame)
    (hplaces : s.checkStore ((s.core lc).spillCtx lc) .wr 2 ((s.core lc).arch.wsp.get 0 bank) 64 = .ok s places) {buf : List StEnt}
    (hbuf : holdBytes (s.core lc).stbuf (s.core lc).arch.psw.pid places ((s.core lc).arch.frameBytes bank frame) = buf) (hroom : buf.length ≤ stbufMax) {u : State}
    (hu : (s.setCore lc { s.core lc with stbuf := buf }).xferDone lc
      (fun a => a.transferred bank ((s.core lc).arch.wsp.get 0 bank + 64) (a.spdepth bank + 1) (a.nres bank - 1)) 0x0C = u) : Leaves (.spillFrame lc) s u := by
  have hlen := (s.core lc).arch.length_frameBytes bank frame
  have hpid : BitVec.ofNat 8 ((s.core lc).spillCtx lc).pid = (s.core lc).arch.psw.pid := by simp [Core.spillCtx, Core.xctx]
  have hstore := State.storeBytes_held (s := s) (x := (s.core lc).spillCtx lc) (va := (s.core lc).arch.wsp.get 0 bank) (bs := (s.core lc).arch.frameBytes bank frame) (n := 2)
    (by rw [hlen]) (by rw [hlen]; exact hplaces) (by rw [hpid]; exact hbuf ▸ hroom)
  rw [hpid, show ((s.core lc).spillCtx lc).lc = lc from rfl, hbuf, Arch.frameBytes] at hstore
  change execSpillFrame lc s = _
  simp only [execSpillFrame, State.engineRuns_xfer hrun, hrun, hframe]
  rw [if_neg (by omega), if_neg (by decide), if_neg (by omega)]
  simp only [hstore]
  rw [← hu]
  rfl

/-- The registers after eight words have been put from place `base` on. -/
def putFrame (w : Tab W64) (base : Nat) (v : Nat → W64) : Tab W64 := (List.range 8).foldl (fun w i => w.put (base + i) (v i)) w

theorem putFrame_get (w : Tab W64) (base k : Nat) (v : Nat → W64) :
    (putFrame w base v).get 0 k = if base ≤ k ∧ k < base + 8 then v (k - base) else w.get 0 k := by
  have hfold : ∀ n, ((List.range n).foldl (fun w i => w.put (base + i) (v i)) w).get 0 k = if base ≤ k ∧ k < base + n then v (k - base) else w.get 0 k := by
    intro n
    induction n with
    | zero => rw [if_neg (by omega)]; rfl
    | succ n ih =>
      rw [List.range_succ, List.foldl_append, List.foldl_cons, List.foldl_nil]
      by_cases hk : k = base + n
      · rw [hk, Tab.get_put, if_pos (by omega), Nat.add_sub_cancel_left]
      · rw [Tab.get_put_ne _ _ _ _ _ hk, ih]
        exact if_congr (by omega) rfl rfl
  exact hfold 8

/-- The registers with the bytes of a frame loaded (02 R43). -/
def Arch.filled (a : Arch) (bank frame : Nat) (bs : List Byte) : Arch :=
  { a with w := putFrame a.w (bank * 64 + frame * 8) (fun i => BitVec.ofNat 64 (packBytes ((bs.drop (8 * i)).take 8))) }

theorem Arch.filled_inside (a : Arch) (bank frame : Nat) (bs : List Byte) (i : Nat) (hi : i < 8) :
    (a.filled bank frame bs).w.get 0 (bank * 64 + frame * 8 + i) = BitVec.ofNat 64 (packBytes ((bs.drop (8 * i)).take 8)) := by
  rw [Arch.filled, putFrame_get, if_pos (by omega), Nat.add_sub_cancel_left]

theorem Arch.filled_outside (a : Arch) (bank frame : Nat) (bs : List Byte) (k : Nat) (hk : k / 8 ≠ bank * 8 + frame) : (a.filled bank frame bs).w.get 0 k = a.w.get 0 k := by
  rw [Arch.filled, putFrame_get, if_neg (by omega)]

/-- A fill that loads its frame (02 R41 to R43). -/
theorem fillFrame_leaves {s : State} {lc bank : Nat} {bs : List Byte} (hlc : lc < 48) (hrun : s.engineRuns lc (bank, false) = true)
    {slot : W64} (hslot : (s.core lc).arch.wsp.get 0 bank - 64 = slot) {frame : Nat} (hframe : ((s.core lc).arch.cwp bank + 8 - (s.core lc).arch.nres bank) % 8 = frame)
    (hload : s.loadBytes ((s.core lc).spillCtx lc) 2 slot 64 = .ok s bs) {u : State}
    (hu : s.xferDone lc (fun a => (a.filled bank frame bs).transferred bank slot (a.spdepth bank - 1) (a.nres bank + 1)) 0x0D = u) : Leaves (.fillFrame lc) s u := by
  change execFillFrame lc s = _
  simp only [execFillFrame, State.engineRuns_xfer hrun, hrun, hframe, hslot, hload]
  rw [if_neg (by omega), if_neg (by decide), ← hu]
  rfl

/-- Settles O20: the frame goes by `spillFrame_leaves` and `fillFrame_leaves`, the window state follows by the lemmas of `transferred`. -/
theorem spillAndFill : Obligations.SpillAndFill := by
  intro s lc bank places bs hlc c r x wsp top below frame buf
  have hlt := r.nres_lt bank
  refine ⟨fun hrun hdepth hplaces hroom => ?_, fun hrun hnres _ hload => ?_⟩
  · obtain ⟨sr, d, hd, harch, hbuf⟩ := State.xferDone_setCore s lc { c with stbuf := buf }
      (fun a => a.transferred bank (wsp + 64) (a.spdepth bank + 1) (a.nres bank - 1)) 0x0C
    have hcore : (left s (s.setCore lc d)).core lc = d := by rw [left_core, State.core_setCore]
    obtain ⟨hwsp, hdep, hres, hcwp⟩ := r.transferred_bank bank (wsp + 64) (r.spdepth bank + 1) (r.nres bank - 1) (by omega) (by omega)
    have hothers := r.transferred_others bank (wsp + 64) (r.spdepth bank + 1) (r.nres bank - 1)
    refine ⟨_, spillFrame_leaves hlc hrun hdepth (frame := top) rfl hplaces rfl hroom hd, ?_⟩
    dsimp only
    rw [hcore, harch]
    exact ⟨onlyCore_left s _ lc d rfl, hbuf, hwsp, hdep, hres, hcwp, rfl, rfl, rfl, rfl, hothers⟩
  · obtain ⟨sr, d, hd, harch, hbuf⟩ := State.xferDone_eq s lc
      (fun a => (a.filled bank below bs).transferred bank (wsp - 64) (a.spdepth bank - 1) (a.nres bank + 1)) 0x0D
    have hcore : (left s (s.setCore lc d)).core lc = d := by rw [left_core, State.core_setCore]
    have hdepth : r.spdepth bank < 2 ^ 32 := fieldOf_lt _ 63 32
    obtain ⟨hwsp, hdep, hres, hcwp⟩ := (r.filled bank below bs).transferred_bank bank (wsp - 64) (r.spdepth bank - 1) (r.nres bank + 1) (by omega) (by omega)
    have hothers := (r.filled bank below bs).transferred_others bank (wsp - 64) (r.spdepth bank - 1) (r.nres bank + 1)
    refine ⟨_, fillFrame_leaves hlc hrun (slot := wsp - 64) rfl (frame := below) rfl hload hd, ?_⟩
    dsimp only
    rw [hcore, harch]
    exact ⟨onlyCore_left s _ lc d rfl, hbuf, hwsp, hdep, hres, hcwp, rfl, rfl, rfl, r.filled_inside bank below bs, r.filled_outside bank below bs, hothers⟩

end Sys2Proof.Machine
end

section
/-! PROOFS. A logical core that is lost (07 R184): its state, and the selection of TAN_CKSEL, after the reactions to the fault. -/

namespace Sys2Proof.Machine

/-! Giving up a core's log reaches no register -/

theorem State.repend_ctl (s : State) (lc : Nat) (x : IntSrc) (q : IntReq) (words : W64) : (s.repend lc x q words).ctl = s.ctl := by
  unfold State.repend
  cases x with
  | external code =>
    dsimp only
    split_ifs <;> rfl
  | _ => rfl

theorem State.dropLog_ctl (s : State) (lc : Nat) (l : List LogEnt) : (s.dropLog lc l).ctl = s.ctl := by
  induction l with
  | nil => rfl
  | cons e l ih =>
    have hrange : (if e.kind = .cache then (s.dropLog lc l).releaseRange lc (fun o => o.kind == .inval) else s.dropLog lc l).ctl = s.ctl := by
      split
      · exact ih
      · exact ih
    rw [State.dropLog]
    split
    · exact (State.repend_ctl ..).trans hrange
    · exact hrange

theorem State.dropReplay_ctl (s : State) (lc : Nat) : (s.dropReplay lc).ctl = s.ctl := State.dropLog_ctl ..

/-! What follows the loss -/

theorem reaction_accessGone (s : State) (lc : Nat) : Reaction s (s.accessGone lc) := by
  unfold State.accessGone
  refine .ite (.refl s) ?_
  unfold State.tlbDone
  extract_lets n atom ws ended kept
  have hkept : Reaction s kept := .of_eq rfl rfl
  exact hkept.trans (.foldl (fun (s : State) (w : TlbWait) => s.send .fab w.cx 0x4B [w.tag]) (fun s w => .of_eq rfl rfl) _ _)

theorem reaction_gearDue (s : State) (c : Nat) : Reaction s (s.gearDue c) := by
  unfold State.gearDue
  extract_lets t cur put to_
  have hput : ∀ u, Reaction u (put u) := fun u => .of_eq rfl rfl
  refine .ite (.refl s) (.ite (.ite (hput s) (.refl s)) (.ite (.refl s) ?_))
  exact (Reaction.setFld s F.CLK_GEAR_CHG 1 c 0 (.inr (by decide))).trans (hput _)

theorem reaction_ageCap (s : State) (c : Nat) : Reaction s (s.ageCap c) := by
  unfold State.ageCap
  extract_lets carrying old
  split
  · exact .refl s
  next cap _ =>
    extract_lets capped
    have h1 : Reaction s capped := (Reaction.setFld s F.CLK_GEAR_AGECAP cap c 0 (.inr (by decide))).trans (reaction_gearDue ..)
    exact .ite (h1.trans (reaction_flt ..)) h1

/-- A core that is lost: its run state, whether with its checkpoint array, and the selection as it was. -/
theorem State.loseCore_lost (s : State) (lc reason : Nat) :
    ((s.loseCore lc reason).core lc).run = .lost ∧ ((s.loseCore lc reason).core lc).lostCkpt = (reason == 2) ∧
      (s.loseCore lc reason).fld F.TAN_CKSEL_LC = s.fld F.TAN_CKSEL_LC := by
  unfold State.loseCore
  extract_lets given released c lost marked held
  have hrole : F.TAN_PCSTAT_ROLE.off c.phys 0 ≠ F.TAN_CKSEL_LC.base := by
    simp only [Fld.off, F.TAN_PCSTAT_ROLE, F.TAN_CKSEL_LC]
    omega
  let gone := released.setCore lc { c with
    run := .lost, spareReq := false, spareFailing := false, lostCkpt := reason == 2, wait := .none, xfer := none, retry := 0, retryLeft := 0, retryStart := none }
  have hreact : Reaction gone ((held.flt 2 (if reason = 1 then 6 else 7) c.phys).ageCap (c.phys / 7)) :=
    (reaction_accessGone gone lc).trans ((Reaction.setFld lost F.TAN_PCSTAT_ROLE 3 c.phys 0 (.inl hrole)).trans
      ((reaction_holdMc marked ..).trans ((reaction_flt held ..).trans (reaction_ageCap ..))))
  have hgone : gone.core lc = _ := State.core_setCore released lc _
  have hcore := Core.reacts_lost (hreact.core lc) (by rw [hgone])
  have hctl : gone.ctl = s.ctl := State.dropReplay_ctl (s.discardCore lc) lc
  exact ⟨by rw [hcore, hgone], by rw [hcore, hgone], hreact.cksel.trans (State.fld_congr s gone hctl _ _ _)⟩

end Sys2Proof.Machine
end

section
/-! PROOFS. The events of a core (02 R53, R55, 07 R169, R177 to R184): comparator, counters, self-check, sparing and the reading of checkpoints. -/

namespace Sys2Proof.Machine

/-! The comparator (02 R53) -/

theorem State.reach_tb (s : State) (x : W64) : (s.reach x.toNat).fab.tb.toNat = max s.fab.tb.toNat x.toNat := by
  unfold State.reach
  split
  next h => simp only [BitVec.ofNat_toNat, BitVec.setWidth_eq]; omega
  next h => omega

theorem State.reach_only (s : State) (n : Nat) : (s.reach n).cores = s.cores ∧ (s.reach n).mem = s.mem ∧ (s.reach n).chn = s.chn ∧ (s.reach n).svc = s.svc := by
  unfold State.reach
  split <;> exact ⟨rfl, rfl, rfl, rfl⟩

theorem timeBaseComparator_does {s : State} {lc : Nat} (hlc : lc < 48) : Does (.timeBaseComparator lc) s (fun t =>
    t.fab.tb.toNat = max s.fab.tb.toNat (s.core lc).arch.tbc.toNat ∧ t.externalPending lc 0x1001 = true ∧ t.cores = s.cores ∧ t.mem = s.mem ∧ t.chn = s.chn ∧ t.svc = s.svc) := by
  have hexec : exec (.timeBaseComparator lc) s = .next (left s (s.reach (s.core lc).arch.tbc.toNat)) := by
    change execTimeBaseComparator lc s = _
    rw [execTimeBaseComparator, if_neg (by omega), settled_next]
    rfl
  have htb := s.reach_tb (s.core lc).arch.tbc
  obtain ⟨hcores, hmem, hchn, hsvc⟩ := s.reach_only (s.core lc).arch.tbc.toNat
  refine ⟨_, hexec, by rw [left_fab, htb], ?_, by rw [left_cores, hcores], by rw [left_mem, hmem], by rw [left_chn, hchn], by rw [left_svc, hsvc]⟩
  rw [State.externalPending, if_pos rfl, decide_eq_true_eq, left_core, left_fab, State.core_congr _ _ hcores, htb]
  exact Nat.le_max_right _ _

/-! Counters (02 R55) -/

theorem Arch.pmcWrap_getSr (a : Arch) (n : Nat) (hn : n < 8) :
    (a.pmcWrap n).getSr (0x20 + n) = 0 ∧ fieldOf ((a.pmcWrap n).getSr 0x10) (8 + n) (8 + n) = 1 := by
  constructor
  · rw [Arch.pmcWrap, Arch.getSr_setSr_ne _ _ _ _ (by omega), Arch.getSr_setSr]
  · rw [Arch.pmcWrap, Arch.getSr_setSr, fieldOf_putField_same _ _ _ _ (by omega) (by omega), Nat.add_sub_cancel_left]
    rfl

theorem Core.pendExternal_arch (c : Core) (code : BitVec 16) : (c.pendExternal code).arch = c.arch := by
  unfold Core.pendExternal
  split <;> rfl

theorem Core.mem_pendExternal (c : Core) (code : BitVec 16) : code ∈ (c.pendExternal code).pendExt := by
  unfold Core.pendExternal
  split
  next h => simpa using h
  next h => exact List.mem_append_right _ (List.mem_singleton_self _)

/-- A core after one of its counters has wrapped. -/
def Core.wrapped (c : Core) (n : Nat) : Core :=
  let d := { c with arch := c.arch.pmcWrap n, ckpt := c.ckpt.pmcWrap n }
  if fieldOf (c.arch.getSr 0x10) 2 2 = 1 then d.pendExternal 0x1301 else d

theorem Core.wrapped_arch (c : Core) (n : Nat) : (c.wrapped n).arch = c.arch.pmcWrap n := by
  simp only [Core.wrapped]
  split
  · exact Core.pendExternal_arch ..
  · rfl

theorem pmcOverflow_leaves {s : State} {lc n : Nat} (hlc : lc < 48) (hn : n < 8) (hrun : (s.core lc).run = .running)
    (hon : (s.core lc).arch.pmcOn n (fieldOf ((s.core lc).arch.getSr (0x18 + n)) 15 0) = true) (hoff : fieldOf ((s.core lc).arch.getSr 0x10) 16 16 = 0) :
    Leaves (.pmcOverflow lc n) s (s.setCore lc ((s.core lc).wrapped n)) := by
  change execPmcOverflow lc n s = _
  rw [execPmcOverflow, if_neg (by simp; omega)]
  exact congrArg (settled s) (if_pos (by simp [hrun, hon, hoff]))

theorem pmcOverflow_does {s : State} {lc n : Nat} (hlc : lc < 48) (hn : n < 8) (hrun : (s.core lc).run = .running)
    (hon : (s.core lc).arch.pmcOn n (fieldOf ((s.core lc).arch.getSr (0x18 + n)) 15 0) = true) (hoff : fieldOf ((s.core lc).arch.getSr 0x10) 16 16 = 0) :
    Does (.pmcOverflow lc n) s (fun t =>
      let r := (t.core lc).arch
      OnlyCore s t lc ∧ r.getSr (0x20 + n) = 0 ∧ fieldOf (r.getSr 0x10) (8 + n) (8 + n) = 1 ∧ r.psw = (s.core lc).arch.psw ∧ r.g = (s.core lc).arch.g ∧
      (fieldOf ((s.core lc).arch.getSr 0x10) 2 2 = 1 → 0x1301 ∈ (t.core lc).pendExt)) := by
  refine ⟨_, pmcOverflow_leaves hlc hn hrun hon hoff, ?_⟩
  obtain ⟨hzero, hovf⟩ := (s.core lc).arch.pmcWrap_getSr n hn
  have hcore : (left s (s.setCore lc ((s.core lc).wrapped n))).core lc = (s.core lc).wrapped n := by rw [left_core, State.core_setCore]
  dsimp only
  rw [hcore, Core.wrapped_arch]
  refine ⟨onlyCore_left s _ lc _ rfl, hzero, hovf, rfl, rfl, fun hoie => ?_⟩
  rw [Core.wrapped, if_pos hoie]
  exact Core.mem_pendExternal ..

/-! Self-check (07 R177) -/

theorem selfCheckSlot_due {s : State} {lc pc : Nat} (hpc : pc < 56) (hlc : s.lcOf pc = some lc) (hdue : s.svc.selfSlot.get 0 pc < s.svc.ckptCount.get 0 pc / 2 ^ 20) :
    let u := s.updSvc (fun z => { z with selfSlot := z.selfSlot.upd 0 pc (fun m => m + 1) })
    Leaves (.selfCheckSlot pc true) s (u.setFld F.TAN_PCSTAT_SCOK ((s.fld F.TAN_PCSTAT_SCOK pc + 1) % 65536) pc) ∧
      Leaves (.selfCheckSlot pc false) s ((u.flt 2 5 pc).requestSparing lc true) := by
  have hexec : ∀ detected, exec (.selfCheckSlot pc detected) s = execSelfCheckSlot pc detected s := fun _ => rfl
  constructor
  all_goals
    rw [Leaves, hexec]
    simp only [execSelfCheckSlot, hlc]
    rw [if_neg (by omega), if_neg (by omega)]
    rfl

theorem selfCheckSlot_early {s : State} {lc pc : Nat} (hpc : pc < 56) (hlc : s.lcOf pc = some lc) (hearly : s.svc.ckptCount.get 0 pc / 2 ^ 20 ≤ s.svc.selfSlot.get 0 pc)
    (missed : Bool) : Leaves (.selfCheckSlot pc missed) s s := by
  change execSelfCheckSlot pc missed s = _
  simp only [execSelfCheckSlot, hlc]
  rw [if_neg (by omega), if_pos hearly]
  rfl

/-! Sparing (07 R180 to R185) -/

/-- The state in which the sparing unit has taken a core's move up: its interval is discarded, and what may drain has drained. -/
def State.moveBegun (s : State) (lc : Nat) : State := (((s.setMoving (some lc)).discardCore lc).accessGone lc).drainAll lc

/-- The state in which the old physical core of a move is clean. -/
def State.moveCleaned (s : State) (lc : Nat) (lines : List Nat) : State := ((s.moveBegun lc).cleanBad ((s.moveBegun lc).pcOf lc) lines).setMoving none

section
variable {s : State} {lc : Nat} (hlc : lc < 48) (hfence : s.flag F.FLT_FENCE_CXF = false) (hmove : s.moveNow = some lc) (bad lines : List Nat)
include hlc hfence hmove

theorem sparingMove_waits (hst : ((s.moveBegun lc).core lc).stbuf ≠ []) (ckptBad : Bool) : Leaves (.sparingMove lc ⟨bad, lines⟩ ckptBad) s (s.moveBegun lc) := by
  change execSparingMove lc ⟨bad, lines⟩ ckptBad s = _
  rw [execSparingMove, if_neg (by omega), if_neg (by simp [hfence, hmove])]
  have hheld : (!((s.moveBegun lc).core lc).stbuf.isEmpty) = true := by simpa using hst
  exact congrArg (settled s) (if_pos hheld)

/-- A move whose core has nothing left to drain: the core is lost, or goes to the first sound spare. -/
theorem sparingMove_exec (hst : ((s.moveBegun lc).core lc).stbuf = []) (ckptBad : Bool) {z : State} (hz : s.moveCleaned lc lines = z) {w : State} {p : Option Nat}
    (hspare : z.chooseSpare bad (z.spareList (z.pcOf lc)) = (w, p)) :
    Leaves (.sparingMove lc ⟨bad, lines⟩ ckptBad) s (if ckptBad then z.loseCore lc 2 else p.elim (w.loseCore lc 1) (w.moveTo lc)) := by
  subst hz
  have hempty : (!((s.moveBegun lc).core lc).stbuf.isEmpty) = false := by simp [hst]
  unfold State.moveCleaned State.moveBegun at *
  change execSparingMove lc ⟨bad, lines⟩ ckptBad s = _
  rw [execSparingMove, if_neg (by omega), if_neg (by simp [hfence, hmove])]
  dsimp only
  rw [hempty, if_neg Bool.false_ne_true, hspare]
  cases ckptBad <;> cases p <;> rfl

end

/-! TAN_SPREQ, TAN_CKDATA, TAN_MODE (07 R169, R180, R184) -/

section
variable {s : State} {src : Src} {v : W64} (hgo : fieldOf v 63 63 = 1)
include hgo

theorem tanSpreq_requests (he : s.lcExists (fieldOf v 5 0) = true) (hl : (s.core (fieldOf v 5 0)).run ≠ .lost) (hc : (s.core (fieldOf v 5 0)).run ≠ .checkStop) :
    Leaves (.tanSpreq src v) s (s.requestSparing (fieldOf v 5 0) false) := by
  refine congrArg (settled s ∘ Host.Outcome.next) ?_
  rw [State.spreq, if_neg (by omega)]
  exact if_neg (by simp [he, hl, hc])

theorem tanSpreq_lost (hl : (s.core (fieldOf v 5 0)).run = .lost) : Leaves (.tanSpreq src v) s (s.cfgErr src 0x500008) := by
  refine congrArg (settled s ∘ Host.Outcome.next) ?_
  rw [State.spreq, if_neg (by omega)]
  exact if_pos (by simp [hl])

end

theorem State.cfgErr_core (s : State) (src : Src) (off n : Nat) : (s.cfgErr src off).core n = s.core n := by
  obtain ⟨w, hw, -⟩ := s.cfgErr_eq src off
  rw [hw]
  rfl

section
variable {s : State} {lc : Nat} {src : Src} (hsel : s.fld F.TAN_CKSEL_LC = lc)
include hsel

theorem tanCkdataRead_does {x : Item} (he : s.lcExists lc = true) (hrun : (s.core lc).run = .checkStop) (hx : itemOf (s.fld F.TAN_CKSEL_INDEX) = some x) :
    Does (.tanCkdataRead ⟨src, false⟩) s (fun t => t.busData = s.itemGet (s.core lc).ckpt x ∧ t.cores = s.cores ∧ t.mem = s.mem ∧ t.chn = s.chn ∧ t.svc = s.svc ∧ t.out = s.out) := by
  have hdata : s.ckData src = (s, s.itemGet (s.core lc).ckpt x) := by simp [State.ckData, hx, hsel, he, hrun]
  have hexec : exec (.tanCkdataRead ⟨src, false⟩) s = .next (left s { s with busData := s.itemGet (s.core lc).ckpt x }) := by
    change settled s (.next { (s.ckData src).1 with busData := (s.ckData src).2 }) = _
    rw [hdata, settled_next]
  refine ⟨_, hexec, ?_⟩
  simp

/-- The checkpoint of a core that is lost with its checkpoint array reads zero. -/
theorem State.ckData_lost (hrun : (s.core lc).run = .lost) (hk : (s.core lc).lostCkpt = true) : s.ckData src = (s.cfgErr src 0x500018, 0) := by
  simp only [State.ckData, hsel, hrun, hk]
  split
  · exact if_neg (by simp)
  · rfl

theorem tanCkdataRead_loses (he : s.lcExists lc = true) (hrun : (s.core lc).run = .checkStop) :
    Does (.tanCkdataRead ⟨src, true⟩) s (fun t => t.busData = 0 ∧ (t.core lc).run = .lost ∧ (t.core lc).lostCkpt = true) := by
  obtain ⟨hlost, hckpt, hfld⟩ := s.loseCore_lost lc 2
  have hdata := State.ckData_lost (src := src) (hfld.trans hsel) hlost hckpt
  have hexec : exec (.tanCkdataRead ⟨src, true⟩) s = .next (left s { (s.loseCore lc 2).cfgErr src 0x500018 with busData := 0 }) := by
    change execTanCkdataRead ⟨src, true⟩ s = _
    simp only [execTanCkdataRead, hsel]
    rw [if_pos (by simp [he, hrun]), hdata, settled_next]
  refine ⟨_, hexec, by simp, ?_⟩
  simp only [left_core]
  change (((s.loseCore lc 2).cfgErr src 0x500018).core lc).run = _ ∧ (((s.loseCore lc 2).cfgErr src 0x500018).core lc).lostCkpt = _
  rw [State.cfgErr_core]
  exact ⟨hlost, hckpt⟩

end

theorem tanModeWrite_leaves (s : State) (src : Src) (k : Nat) (v : W64) (hk : k < 32) :
    Leaves (.tanModeWrite src k v) s (s.wrReg src (0x500100 + k * 8) (if k = 0 then putField v 63 56 0 else if k = 31 then putField v 7 0 0 else v)) := by
  change execTanModeWrite src k v s = _
  rw [execTanModeWrite, if_neg (by omega)]
  rfl

end Sys2Proof.Machine
end

section
/-! PROOFS. Signals between cores and access to control space (03 R87, R88, 07 R183). -/

namespace Sys2Proof.Machine

/-! Operands -/

/-- A complex and a core in the operand of a signal: nothing beside their fields (03 Table INS-15). -/
theorem outside_signal (v : W64) (hv : v.toNat < 2 ^ 18) : outside v 0x3FFFF = false := by
  have hones : ∀ i < 18, (0x3FFFF : W64).getLsbD i = true := by decide
  have hzero : v &&& ~~~0x3FFFF = 0 := by
    apply BitVec.eq_of_getLsbD_eq
    intro i hi
    rw [BitVec.getLsbD_and, BitVec.getLsbD_not]
    by_cases hlow : i < 18
    · rw [hones i hlow]; simp
    · have hhigh : v.getLsbD i = false := Nat.testBit_lt_two_pow (Nat.lt_of_lt_of_le hv (Nat.pow_le_pow_right (by omega) (by omega)))
      simp [hhigh]
  rw [outside, hzero]
  rfl

/-- The operand that names logical core `n` of complex `cx` (03 Table INS-15). -/
theorem signal_operand {cx n : Nat} (hcx : cx < 1024) (hn : n < 256) :
    (BitVec.ofNat 64 (cx * 256 + n)).toNat < 2 ^ 18 ∧ fieldOf (BitVec.ofNat 64 (cx * 256 + n)) 17 8 = cx ∧ fieldOf (BitVec.ofNat 64 (cx * 256 + n)) 7 0 = n := by
  have hv : (BitVec.ofNat 64 (cx * 256 + n)).toNat = cx * 256 + n := by rw [BitVec.toNat_ofNat]; omega
  simp only [fieldOf, bits, hv]
  omega

/-! The delivery of a signal -/

theorem State.signal_given {s : State} {n : Nat} {pid : Nat} (he : s.lcExists n = true) (hrun : (s.core n).run = .running) (hf : s.flag F.FLT_FENCE_CXF = false) :
    s.signal n pid true = (s.setCore n { s.core n with pendRestart := true }, 0) ∧
      ((s.core n).arch.psw.pid.toNat = pid → s.signal n pid false = (s.setCore n ((s.core n).pendExternal 0x1201), 0)) := by
  constructor
  · simp [State.signal, he, hrun, hf]
  · rintro rfl
    simp [State.signal, he, hrun, hf]

theorem State.signal_refused {s : State} {n : Nat} {pid : BitVec 8} (hpid : (s.core n).arch.psw.pid ≠ pid) : s.signal n pid.toNat false = (s, 1) := by
  have hne : (s.core n).arch.psw.pid.toNat ≠ pid.toNat := fun h => hpid (BitVec.eq_of_toNat_eq h)
  simp only [State.signal, if_pos hne]
  split <;> rfl

/-! SIGC and RSTC -/

/-- The state that a signal to a core of this complex leaves, with its condition code. -/
def State.signalled (s : State) (lc n : Nat) (restart : Bool) : State :=
  let p := s.signal n (s.core lc).arch.psw.pid.toNat restart
  (p.1.updArch lc (fun q => q.setCc p.2)).logInput lc .signal 0 p.2

theorem State.signalIns_here {s : State} {lc n : Nat} {v : W64} (restart : Bool) (hr : (s.core lc).replay = []) (hw : (s.core lc).wait = .none)
    (hcx : fieldOf v 17 8 = s.cxid) (hn : fieldOf v 7 0 = n) : s.signalIns lc v restart = .done (s.signalled lc n restart) := by
  simp only [State.signalIns, State.once_nil s lc _ _ _ hr, hw, if_pos hcx, hn]
  rfl

/-- A core that has the answer of another complex sets its condition code. -/
theorem State.signalIns_answered {s : State} {lc : Nat} {v : W64} {cc : BitVec 2} (restart : Bool) (hr : (s.core lc).replay = []) (hw : (s.core lc).wait = .ccGot cc) :
    s.signalIns lc v restart = .done (s.setCore lc { s.core lc with
      arch := (s.core lc).arch.setCc cc
      inlog := (s.core lc).inlog ++ [{ ia := (s.core lc).arch.psw.ia, kind := .signal, val := 0, cc := cc }] }) := by
  simp only [State.signalIns, State.once_nil s lc _ _ _ hr, hw, State.logInput, State.updArch, State.updCore, State.core_setCore, State.setCore_setCore]
  rfl

section
variable {s : State} {lc : Nat} {w : CoreWait} {t : BitVec 5} (hst : (s.core lc).arch.psw.state = 2) (hopen : (s.core lc).arch.opened)
  (hv : ((s.core lc).arch.getG t).toNat < 2 ^ 18)
include hst hv

theorem rstc_runs : ∃ p body, exec (.rstc lc t 0 0) s = runCore lc p s body ∧ p.ilc = 4 ∧ p.passes (s.core lc).arch ∧
    ∀ r, s.signalIns lc ((s.core lc).arch.getG t) true = r → body s = r := by
  have hi : exec (.rstc lc t 0 0) s = execRstc lc t 0 0 s := rfl
  unfold execRstc at hi
  refine ⟨_, _, hi, rfl, ⟨rfl, rfl, ?_, ?_, .inr (by simp)⟩, fun r hr => hr⟩
  · simpa [State.arch] using outside_signal _ hv
  · simp [hst]

include hopen

theorem sigc_runs : ∃ p body, exec (.sigc lc t 0 0) s = runCore lc p s body ∧ p.ilc = 4 ∧ p.passes (s.core lc).arch ∧
    ∀ r, s.signalIns lc ((s.core lc).arch.getG t) false = r → body s = r := by
  have hi : exec (.sigc lc t 0 0) s = execSigc lc t 0 0 s := rfl
  unfold execSigc at hi
  refine ⟨_, _, hi, rfl, ⟨rfl, rfl, ?_, ?_, hopen.ictl _⟩, fun r hr => hr⟩
  · simpa [State.arch] using outside_signal _ hv
  · simp [hst]

end

/-- A signal to a core of this complex retires with its condition code (03 R87). -/
theorem signal_retires {s : State} {lc n : Nat} {t : BitVec 5} (h : Ready s lc 4) (hst : (s.core lc).arch.psw.state = 2) (hopen : (s.core lc).arch.opened)
    (hv : (s.core lc).arch.getG t = BitVec.ofNat 64 (s.cxid * 256 + n)) (hcx : s.cxid < 1024) (hn : n < 256) :
    Retires (.sigc lc t 0 0) s lc 4 (s.signalled lc n false) ∧ Retires (.rstc lc t 0 0) s lc 4 (s.signalled lc n true) := by
  obtain ⟨-, -, -, -, hw, -⟩ := id h
  obtain ⟨hlt, hf, hnum⟩ := signal_operand hcx hn
  rw [← hv] at hlt hf hnum
  constructor
  · obtain ⟨p, body, hi, hilc, hp, hb⟩ := sigc_runs hst hopen hlt
    exact hilc ▸ retires_of_done hi (hilc ▸ h) hp (hb _ (State.signalIns_here false h.replay hw hf hnum))
  · obtain ⟨p, body, hi, hilc, hp, hb⟩ := rstc_runs hst hlt
    exact hilc ▸ retires_of_done hi (hilc ▸ h) hp (hb _ (State.signalIns_here true h.replay hw hf hnum))

/-- A signal that another complex has answered completes with the answer's condition code (03 R87). -/
theorem signal_completes {s : State} {lc : Nat} {t : BitVec 5} {cc : BitVec 2} (h : ReadyWith s lc 4 (.ccGot cc)) (hst : (s.core lc).arch.psw.state = 2)
    (hopen : (s.core lc).arch.opened) (hv : ((s.core lc).arch.getG t).toNat < 2 ^ 18) :
    Completes (.sigc lc t 0 0) s lc 4 ((s.core lc).arch.setCc cc) ∧ Completes (.rstc lc t 0 0) s lc 4 ((s.core lc).arch.setCc cc) := by
  obtain ⟨-, -, -, -, hw, -⟩ := id h
  constructor
  · obtain ⟨p, body, hi, hilc, hp, hb⟩ := sigc_runs hst hopen hv
    exact completes_of_core hi h hilc hp (hb _ (State.signalIns_answered false h.replay hw)) rfl rfl rfl
  · obtain ⟨p, body, hi, hilc, hp, hb⟩ := rstc_runs hst hv
    exact completes_of_core hi h hilc hp (hb _ (State.signalIns_answered true h.replay hw)) rfl rfl rfl

/-! LOADC and STOREC -/

theorem ctlBad_aligned {off : W64} (hlt : off.toNat < 0x4000000) (halign : off.toNat % 8 = 0) : ctlBad off = false := by
  rw [ctlBad, halign, decide_eq_false (by omega)]
  rfl

section
variable {s : State} {lc : Nat} {t a : BitVec 5} (h : Ready s lc 4) (hst : (s.core lc).arch.psw.state = 2)
  (hlt : ((s.core lc).arch.getG a).toNat < 0x4000000) (halign : ((s.core lc).arch.getG a).toNat % 8 = 0)
include h hst hlt halign

theorem loadc_retires : Retires (.loadc lc t a 0) s lc 4
    (((s.ctlRead .core ((s.core lc).arch.getG a).toNat).1.logInput lc .loadc ((s.ctlRead .core ((s.core lc).arch.getG a).toNat).2.setWidth 256) 0).updArch lc
      (fun q => q.setG t (s.ctlRead .core ((s.core lc).arch.getG a).toNat).2)) := by
  have hi : exec (.loadc lc t a 0) s = execLoadc lc t a 0 s := rfl
  unfold execLoadc at hi
  refine retires_of_done hi h ⟨rfl, rfl, ?_, ?_, .inr (by simp)⟩ (State.once_nil s lc _ _ _ h.replay)
  · simp [State.arch, ctlBad_aligned hlt halign]
  · simp [hst]

theorem storec_retires (hrun : (((s.logInput lc .storec 0 0).ctlWrite .core ((s.core lc).arch.getG a).toNat ((s.core lc).arch.getG t)).core lc).run = .running) :
    Retires (.storec lc t a 0) s lc 4 ((s.logInput lc .storec 0 0).ctlWrite .core ((s.core lc).arch.getG a).toNat ((s.core lc).arch.getG t)) := by
  have hi : exec (.storec lc t a 0) s = execStorec lc t a 0 s := rfl
  unfold execStorec at hi
  refine retires_of_done hi h ⟨rfl, rfl, ?_, ?_, .inr (by simp)⟩ ((State.once_nil s lc _ _ _ h.replay).trans ?_)
  · simp [State.arch, ctlBad_aligned hlt halign]
  · simp [hst]
  · simp only [State.arch, hrun]

end

/-! The clauses of O24 -/

/-- Settles O24: each clause is the lemma of its event or instruction. -/
theorem coreEvents : Obligations.CoreEvents := by
  refine ⟨fun s lc pc k n src v bad lines missed x hlc hpc hk hn => ?_, fun s lc n t a cc => ?_⟩
  · refine ⟨timeBaseComparator_does hlc, pmcOverflow_does hlc hn, fun hof => ⟨selfCheckSlot_due hpc hof, fun hearly => selfCheckSlot_early hpc hof hearly missed⟩,
      fun hfence hmove => ⟨fun hst => sparingMove_waits hlc hfence hmove bad lines hst missed, fun hst => ?_⟩,
      fun hgo => ⟨tanSpreq_requests hgo, tanSpreq_lost hgo⟩, fun hsel he hrun hx => ⟨tanCkdataRead_does hsel he hrun hx, tanCkdataRead_loses hsel he hrun⟩,
      fun hk0 hk31 => ?_, tanModeWrite_leaves s src 0 v (by omega), tanModeWrite_leaves s src 31 v (by omega)⟩
    · have hmoves := fun ckptBad w p => sparingMove_exec (w := w) (p := p) hlc hfence hmove bad lines hst ckptBad rfl
      exact ⟨hmoves true _ _ rfl, fun w p => hmoves false w (some p), fun w => hmoves false w none⟩
    · have hmode := tanModeWrite_leaves s src k v (by omega)
      rwa [if_neg (by omega), if_neg (by omega)] at hmode
  · refine ⟨fun h hst hopen => ⟨signal_retires h hst hopen, fun hlt halign => ⟨loadc_retires h hst hlt halign, storec_retires h hst hlt halign⟩⟩, signal_completes,
      fun he hrun hf hpid => ?_, fun he hrun hpid => State.signal_refused hpid⟩
    obtain ⟨hrestart, hsignal⟩ := State.signal_given (pid := (s.core lc).arch.psw.pid.toNat) he hrun hf
    rw [hrestart, hsignal (congrArg BitVec.toNat hpid)]
    refine ⟨rfl, ?_, rfl, by rw [State.core_setCore]⟩
    rw [State.core_setCore]
    exact Core.mem_pendExternal ..

end Sys2Proof.Machine
end

section
/-! PROOFS. Integer instructions (03 R77 to R79, R86; 04 R93, R94): what an integer result leaves in the architected state. -/

namespace Sys2Proof.Machine

/-- An instruction of every state that no control intercepts passes the checks when its reserved fields are zero (03 Table INS-3). -/
theorem Pre.passes_of_plain {p : Pre} {a : Arch} (h : p.op = false ∧ p.pv = false ∧ p.low = 0 ∧ p.ictl = none) (hsp : p.sp = false) : p.passes a := by
  obtain ⟨hop, hpv, hlow, hictl⟩ := h
  exact ⟨hop, hpv, hsp, by omega, .inr (by simp [hictl])⟩

/-! What a result leaves -/

/-- The architected state after a result is written to register `t`. -/
def Alu.put (r : Alu) (t : BitVec 5) (a : Arch) : Arch :=
  match r.cc with
  | some cc => (a.setG t r.val).setCc cc
  | none => a.setG t r.val

theorem aluPlain_put (v : W64) (t : BitVec 5) (a : Arch) : (aluPlain v).put t a = a.setG t v := rfl

theorem aluLogic_put (v : W64) (t : BitVec 5) (a : Arch) : (aluLogic v).put t a = (a.setG t v).setCc (if v = 0 then 0 else 1) := rfl

theorem aluSign_put (v : W64) (t : BitVec 5) (a : Arch) : (aluSign v).put t a = (a.setG t v).setCc (ccSign v.toInt) := rfl

theorem aluArith_put (w : Nat) (n : Int) (t : BitVec 5) (a : Arch) :
    (aluArith w n).put t a = (a.setG t ((BitVec.ofInt w n).signExtend 64)).setCc (keyA w n) := by
  simp only [aluArith, arith, Alu.put, keyA]
  split <;> rfl

/-- An arithmetic result traps only where it overflows and FOM = 1 (04 R94). -/
theorem aluArith_ovf {w : Nat} {n : Int} {fom : Bool} (h : fom = false ∨ fitsSigned w n = true) : (aluArith w n).ovf = false ∨ fom = false := by
  rcases h with h | h
  · exact .inr h
  · exact .inl (by simp [aluArith, arith, h])

theorem State.setAlu_eq_done (s : State) (lc : Nat) (t : BitVec 5) (r : Alu) (h : r.ovf = false ∨ (s.core lc).arch.psw.fom = false) :
    s.setAlu lc t r = .done (s.updArch lc (r.put t)) := by
  have hoff : (r.ovf && ((s.arch lc).setG t r.val).psw.fom) = false := by
    rw [Arch.setG_psw]
    exact Bool.and_eq_false_iff.mpr h
  simp only [State.setAlu, hoff, Bool.false_eq_true, if_false]
  rfl

/-! Instructions that write a result. Each lemma takes the meaning `e` of the instruction, which `exec` gives it, and what `e` runs. -/

section
variable {i : Instr} {s : State} {lc ilc : Nat} {t : BitVec 5} {u : Arch} (e : State → Out) (hi : exec i s = e s)
include hi

/-- An instruction of every state whose operation changes architected state alone, once its reserved fields are checked. -/
theorem completes_of_plain {p : Pre} {w : CoreWait} {body : State → IRes} {f : Arch → Arch} (he : e s = runCore lc p s body) (h : ReadyWith s lc ilc w) (hilc : p.ilc = ilc)
    (hplain : p.op = false ∧ p.pv = false ∧ p.low = 0 ∧ p.ictl = none) (hsp : p.sp = false) (hb : body s = .done (s.updArch lc f)) (hu : f (s.core lc).arch = u) :
    Completes i s lc ilc u :=
  hu ▸ completes_of_arch (hi.trans he) h hilc (Pre.passes_of_plain hplain hsp) hb

/-- An instruction whose operation is to write an integer result. -/
theorem completes_of_alu {p : Pre} {body : State → IRes} {r : Alu} (he : e s = runCore lc p s body) (h : Ready s lc ilc) (hilc : p.ilc = ilc)
    (hplain : p.op = false ∧ p.pv = false ∧ p.low = 0 ∧ p.ictl = none) (hsp : p.sp = false) (hb : body s = s.setAlu lc t r)
    (ho : r.ovf = false ∨ (s.core lc).arch.psw.fom = false) (hu : r.put t (s.core lc).arch = u) : Completes i s lc ilc u :=
  completes_of_plain e hi he h hilc hplain hsp (hb.trans (State.setAlu_eq_done s lc t r ho)) hu

/-- A register instruction with its reserved fields zero (03 Tables INS-6, INS-8). -/
theorem aluReg_completes {op minor : Nat} {a b : BitVec 5} {bad : Bool} {f : W64 → W64 → Alu} (he : e s = aluReg op minor lc t a b 0 bad f s) (h : Ready s lc 4)
    (hbad : bad = false) (ho : (f ((s.core lc).arch.getG a) ((s.core lc).arch.getG b)).ovf = false ∨ (s.core lc).arch.psw.fom = false)
    (hu : (f ((s.core lc).arch.getG a) ((s.core lc).arch.getG b)).put t (s.core lc).arch = u) : Completes i s lc 4 u :=
  completes_of_alu e hi he h rfl ⟨rfl, rfl, rfl, rfl⟩ hbad rfl ho hu

/-- An immediate instruction with its reserved fields zero (03 Table INS-7). -/
theorem aluImm_completes {op : Nat} {a : BitVec 5} {imm : BitVec 16} {bad : Bool} {f : W64 → Alu} (he : e s = aluImm op lc t a imm bad f s) (h : Ready s lc 4)
    (hbad : bad = false) (ho : (f ((s.core lc).arch.getG a)).ovf = false ∨ (s.core lc).arch.psw.fom = false)
    (hu : (f ((s.core lc).arch.getG a)).put t (s.core lc).arch = u) : Completes i s lc 4 u :=
  completes_of_alu e hi he h rfl ⟨rfl, rfl, rfl, rfl⟩ hbad rfl ho hu

/-- An immediate instruction with key A (04 R94). -/
theorem arithImm_completes {op w : Nat} {a : BitVec 5} {imm : BitVec 16} {bad : Bool} {f : W64 → Alu} {n : Int} {v : W64} (he : e s = aluImm op lc t a imm bad f s)
    (h : Ready s lc 4) (hbad : bad = false) (hf : f ((s.core lc).arch.getG a) = aluArith w n) (hv : (BitVec.ofInt w n).signExtend 64 = v)
    (ho : (s.core lc).arch.psw.fom = false ∨ fitsSigned w n = true) : Completes i s lc 4 (((s.core lc).arch.setG t v).setCc (keyA w n)) :=
  aluImm_completes e hi he h hbad (hf ▸ aluArith_ovf ho) (by rw [hf, aluArith_put, hv])

end

/-! Compares -/

/-- Key Cm of two signed operands. -/
theorem ccCmp_toInt {w : Nat} (x y : BitVec w) : ccCmp x.toInt y.toInt = if x = y then 0 else if x.slt y then 1 else 2 := by
  simp only [ccCmp, BitVec.toInt_inj, BitVec.slt, decide_eq_true_eq]

/-- Key Cm of two unsigned operands. -/
theorem ccCmp_toNat {w : Nat} (x y : BitVec w) : ccCmp x.toNat y.toNat = if x = y then 0 else if x.ult y then 1 else 2 := by
  simp only [ccCmp, Int.ofNat_inj, BitVec.toNat_inj, Int.ofNat_lt, BitVec.ult, decide_eq_true_eq]

/-! Values -/

theorem ofInt_mul_two_pow (x : W64) (n : Nat) : BitVec.ofInt 64 (x.toInt * 2 ^ n) = x <<< n := by
  have hpow : ((2 : Int) ^ n) = ((2 ^ n : Nat) : Int) := by norm_cast
  rw [BitVec.ofInt_mul, BitVec.ofInt_toInt, BitVec.shiftLeft_eq_mul_twoPow, hpow, BitVec.ofInt_natCast]
  exact congrArg (x * ·) (BitVec.eq_of_toNat_eq (by rw [BitVec.toNat_ofNat, BitVec.toNat_twoPow]))

/-- A sum with a sign-extended immediate. -/
theorem ofInt_add_toInt {w n : Nat} (x : BitVec w) (imm : BitVec n) : BitVec.ofInt w (x.toInt + imm.toInt) = x + imm.signExtend w := by
  rw [BitVec.ofInt_add, BitVec.ofInt_toInt]
  rfl

theorem sext_toInt {n : Nat} (hn : n ≤ 64) (v : BitVec n) : (sext v).toInt = v.toInt := BitVec.toInt_signExtend_of_le hn

theorem lo32_sext (imm : BitVec 16) : lo32 (sext imm) = imm.toInt := by
  have hlow : (imm.signExtend 64).setWidth 32 = imm.signExtend 32 := by
    ext i hi
    simp [BitVec.getElem_signExtend, show i < 64 by omega]
  rw [lo32, sext, hlow, BitVec.toInt_signExtend_of_le (by omega)]

theorem shCount_ofNat {n : Nat} (h : n < 64) : shCount (BitVec.ofNat 16 n) = n := by
  rw [shCount, BitVec.extractLsb'_toNat, BitVec.toNat_ofNat, Nat.shiftRight_zero]
  omega

theorem shBad_ofNat {n : Nat} (h : n < 64) : shBad (BitVec.ofNat 16 n) = false := by
  have hz : (BitVec.ofNat 16 n).extractLsb' 6 10 = 0 := by
    apply BitVec.eq_of_toNat_eq
    rw [BitVec.extractLsb'_toNat, BitVec.toNat_ofNat, Nat.shiftRight_eq_div_pow]
    simp; omega
  rw [shBad, hz]
  rfl

end Sys2Proof.Machine
end

section
/-! PROOFS. Bit and extension instructions (03 R79): counts of bits, bytes reversed. -/

namespace Sys2Proof.Machine

/-! Counts -/

/-- Key fact of CLZ: the first one bit from the top is the base-2 logarithm. -/
theorem clzN_spec (x : W64) : clzN x ≤ 64 ∧ (∀ k, k < clzN x → x.getLsbD (63 - k) = false) ∧ (clzN x < 64 → x.getLsbD (63 - clzN x) = true) := by
  by_cases hx : x.toNat = 0
  · obtain rfl : x = 0 := BitVec.eq_of_toNat_eq hx
    simp [clzN]
  · have hlog : x.toNat.log2 < 64 := (Nat.log2_lt hx).mpr x.isLt
    simp only [clzN, if_neg hx]
    refine ⟨by omega, fun k hk => ?_, fun _ => ?_⟩
    · exact Nat.testBit_lt_two_pow (Nat.lt_of_lt_of_le Nat.lt_log2_self (Nat.pow_le_pow_right (by omega) (by omega)))
    · rw [show 63 - (63 - x.toNat.log2) = x.toNat.log2 by omega]
      exact Nat.testBit_log2 hx

/-- Key fact of CTZ: the first one bit from the bottom. -/
theorem ctzN_spec (x : W64) : ctzN x ≤ 64 ∧ (∀ k, k < ctzN x → x.getLsbD k = false) ∧ (ctzN x < 64 → x.getLsbD (ctzN x) = true) := by
  unfold ctzN
  cases hfind : (List.range 64).find? (fun i => x.getLsbD i) with
  | none =>
    have hall := List.find?_range_eq_none.mp hfind
    exact ⟨Nat.le_refl _, fun k hk => by simpa using hall k hk, fun h => absurd h (Nat.lt_irrefl _)⟩
  | some n =>
    obtain ⟨hn, hmem, hbefore⟩ := List.find?_range_eq_some.mp hfind
    have hlt : n < 64 := List.mem_range.mp hmem
    exact ⟨Nat.le_of_lt hlt, fun k hk => by simpa using hbefore k hk, fun _ => hn⟩

/-! Bytes reversed -/

/-- Byte `i` of a number, from the least significant one up. -/
theorem extractLsb'_byte {w : Nat} (x : BitVec w) (i : Nat) : x.extractLsb' (8 * i) 8 = BitVec.ofNat 8 (x.toNat / 256 ^ i) := by
  rw [BitVec.extractLsb', Nat.shiftRight_eq_div_pow, Nat.pow_mul]

/-- The bytes that `revBytes` packs. -/
def lowBytes (n : Nat) (x : W64) : List Byte := (List.range n).map (fun i => BitVec.ofNat 8 (x.toNat / 256 ^ i))

theorem revBytes_toNat {n : Nat} (hn : n ≤ 8) (x : W64) : (revBytes n x).toNat = packBytes (lowBytes n x) ∧ (revBytes n x).toNat < 256 ^ n := by
  have hlt := packBytes_lt (lowBytes n x)
  rw [lowBytes, List.length_map, List.length_range] at hlt
  have heq : (revBytes n x).toNat = packBytes (lowBytes n x) := by
    rw [revBytes, BitVec.toNat_ofNat]
    exact Nat.mod_eq_of_lt (Nat.lt_of_lt_of_le hlt (Nat.pow_le_pow_right (by decide) hn))
  exact ⟨heq, heq ▸ hlt⟩

/-- BSWAP moves byte `i` to the mirrored place. -/
theorem extractLsb'_revBytes {n : Nat} (hn : n ≤ 8) (x : W64) {i : Nat} (hi : i < n) :
    (revBytes n x).extractLsb' (8 * i) 8 = x.extractLsb' (8 * (n - 1 - i)) 8 := by
  have hlen : (lowBytes n x).length = n := by simp [lowBytes]
  have hbyte := byte_packBytes (lowBytes n x) (n - 1 - i) (by omega)
  have hexp : (lowBytes n x).length - 1 - (n - 1 - i) = i := by omega
  rw [hexp] at hbyte
  rw [extractLsb'_byte, extractLsb'_byte, (revBytes_toNat hn x).1, hbyte]
  simp [lowBytes]

theorem revBytes_four_upper (x : W64) : (revBytes 4 x).extractLsb' 32 32 = 0 := by
  have hlt := (revBytes_toNat (n := 4) (by omega) x).2
  apply BitVec.eq_of_toNat_eq
  rw [BitVec.extractLsb'_toNat, Nat.shiftRight_eq_div_pow, Nat.div_eq_of_lt (by simpa using hlt)]
  rfl

/-! Extensions -/

/-- Zero extension of the low `n` bits is a mask. -/
theorem setWidth_setWidth_eq_and (x : W64) {n : Nat} (hn : n ≤ 64) : (x.setWidth n).setWidth 64 = x &&& BitVec.ofNat 64 (2 ^ n - 1) := by
  have hlt : 2 ^ n - 1 < 2 ^ 64 := Nat.lt_of_lt_of_le (Nat.sub_lt (Nat.two_pow_pos n) (by omega)) (Nat.pow_le_pow_right (by omega) hn)
  apply BitVec.eq_of_toNat_eq
  rw [BitVec.toNat_setWidth, BitVec.toNat_setWidth, BitVec.toNat_and, BitVec.toNat_ofNat, Nat.mod_eq_of_lt hlt, Nat.and_two_pow_sub_one_eq_mod]
  exact Nat.mod_eq_of_lt (Nat.lt_of_le_of_lt (Nat.mod_le _ _) x.isLt)

/-! The clauses of O3 -/

section
variable {s : State} {lc : Nat} (t a b : BitVec 5)

section
variable (h : Ready s lc 4)
include h

theorem arithImmediates_complete (imm : BitVec 16) :
    let r := (s.core lc).arch
    let x := r.getG a
    let arith := fun (i : Instr) (w : Nat) (v : W64) (n : Int) => (r.psw.fom = false ∨ fitsSigned w n = true) → Completes i s lc 4 ((r.setG t v).setCc (keyA w n))
    arith (.addi lc t a imm) 64 (x + imm.signExtend 64) (x.toInt + imm.toInt) ∧
      arith (.addiw lc t a imm) 32 ((x.setWidth 32 + imm.signExtend 32).signExtend 64) ((x.setWidth 32).toInt + imm.toInt) ∧
      arith (.addis lc t a imm) 64 (x + imm.signExtend 64 <<< 16) (x.toInt + imm.toInt * 2 ^ 16) ∧
      arith (.muli lc t a imm) 64 (x * imm.signExtend 64) (x.toInt * imm.toInt) := by
  have hs : (sext imm).toInt = imm.toInt := sext_toInt (by omega) imm
  refine ⟨arithImm_completes (execAddi lc t a imm) rfl rfl h rfl (by rw [hs]) ?_, arithImm_completes (execAddiw lc t a imm) rfl rfl h rfl (by rw [lo32_sext]; rfl) ?_,
    arithImm_completes (execAddis lc t a imm) rfl rfl h rfl (by rw [hs]) ?_, arithImm_completes (execMuli lc t a imm) rfl rfl h rfl (by rw [hs]) ?_⟩
  · rw [BitVec.signExtend_eq, ofInt_add_toInt]
  · rw [ofInt_add_toInt]
  · rw [BitVec.signExtend_eq, BitVec.ofInt_add, BitVec.ofInt_toInt, ← hs, ofInt_mul_two_pow]
    rfl
  · rw [BitVec.signExtend_eq, BitVec.ofInt_mul, BitVec.ofInt_toInt]
    rfl

/-- The shift immediates with a count below 64 (03 R78, 04 R97). -/
theorem shiftImmediates_complete {n : Nat} (hn : n < 64) :
    let r := (s.core lc).arch
    let x := r.getG a
    let imm := BitVec.ofNat 16 n
    Completes (.slli lc t a imm) s lc 4 (r.setG t (x <<< n)) ∧ Completes (.srli lc t a imm) s lc 4 (r.setG t (x >>> n)) ∧
      Completes (.roli lc t a imm) s lc 4 (r.setG t (x.rotateLeft n)) ∧
      Completes (.srai lc t a imm) s lc 4 ((r.setG t (x.sshiftRight n)).setCc (ccSign (x.sshiftRight n).toInt)) ∧
      ((r.psw.fom = false ∨ fitsSigned 64 (x.toInt * 2 ^ n) = true) →
        Completes (.slai lc t a imm) s lc 4 ((r.setG t (x <<< n)).setCc (keyA 64 (x.toInt * 2 ^ n)))) := by
  intro r x imm
  have hbad : shBad imm = false := shBad_ofNat hn
  have hcount : shCount imm = n := shCount_ofNat hn
  have hlt : ¬64 ≤ n := by omega
  refine ⟨aluImm_completes (execSlli lc t a imm) rfl rfl h hbad (.inl rfl) ?_, aluImm_completes (execSrli lc t a imm) rfl rfl h hbad (.inl rfl) ?_,
    aluImm_completes (execRoli lc t a imm) rfl rfl h hbad (.inl rfl) ?_, aluImm_completes (execSrai lc t a imm) rfl rfl h hbad (.inl rfl) ?_,
    arithImm_completes (execSlai lc t a imm) rfl rfl h hbad ?_ ((BitVec.signExtend_eq _).trans (ofInt_mul_two_pow _ n))⟩
  · rw [aluPlain_put, shl, hcount, if_neg hlt]
  · rw [aluPlain_put, shr, hcount, if_neg hlt]
  · rw [aluPlain_put, rol, hcount, Nat.mod_eq_of_lt hn]
  · rw [aluSign_put, sar, hcount, show min n 63 = n by omega]
  · rw [shla, hcount, if_neg hlt]

theorem bitIns_completes {i : Instr} {minor : Nat} {f : W64 → W64 → Alu} {v : W64} (e : State → Out) (hi : exec i s = e s)
    (he : e s = aluReg 0x25 minor lc t a 0 0 ((0 : BitVec 5) != 0) f s) (hf : f ((s.core lc).arch.getG a) ((s.core lc).arch.getG 0) = aluPlain v) :
    Completes i s lc 4 ((s.core lc).arch.setG t v) :=
  aluReg_completes e hi he h rfl (.inl (by rw [hf]; rfl)) (by rw [hf, aluPlain_put])

theorem sel_completes {c : BitVec 5} (hc : c.getLsbD 4 = false) :
    Completes (.sel lc t a b c) s lc 4
      ((s.core lc).arch.setG t (if c.getLsbD (s.core lc).arch.psw.cc.toNat then (s.core lc).arch.getG a else (s.core lc).arch.getG b)) :=
  completes_of_alu (execSel lc t a b c) rfl rfl h rfl ⟨rfl, rfl, rfl, rfl⟩ hc rfl (.inl rfl) rfl

end

/-- The long-immediate instructions (03 R86). -/
theorem longImmediates_complete (h : Ready s lc 8) (imm : BitVec 32) :
    let r := (s.core lc).arch
    let x := r.getG a
    Completes (.liw lc t 0 0 imm) s lc 8 (r.setG t (imm.signExtend 64)) ∧ Completes (.liwu lc t 0 0 imm) s lc 8 (r.setG t (imm.setWidth 64)) ∧
      Completes (.lih lc t a 0 imm) s lc 8 (r.setG t (imm ++ x.setWidth 32)) ∧
      ((r.psw.fom = false ∨ fitsSigned 64 (x.toInt + imm.toInt) = true) →
        Completes (.addli lc t a 0 imm) s lc 8 ((r.setG t (x + imm.signExtend 64)).setCc (keyA 64 (x.toInt + imm.toInt)))) := by
  refine ⟨completes_of_alu (execLiw lc t 0 0 imm) rfl rfl h rfl ⟨rfl, rfl, rfl, rfl⟩ rfl rfl (.inl rfl) rfl,
    completes_of_alu (execLiwu lc t 0 0 imm) rfl rfl h rfl ⟨rfl, rfl, rfl, rfl⟩ rfl rfl (.inl rfl) rfl,
    completes_of_alu (execLih lc t a 0 imm) rfl rfl h rfl ⟨rfl, rfl, rfl, rfl⟩ rfl rfl (.inl rfl) rfl,
    fun ho => completes_of_alu (execAddli lc t a 0 imm) rfl rfl h rfl ⟨rfl, rfl, rfl, rfl⟩ rfl rfl (aluArith_ovf ho) ?_⟩
  rw [aluArith_put, BitVec.signExtend_eq, ofInt_add_toInt]
  rfl

end

/-- Settles O3: each instruction writes its result as its row says; the values are the lemmas on counts, reversed bytes and extensions above. -/
theorem immediatesAndBits : Obligations.ImmediatesAndBits := by
  refine ⟨fun s lc t a imm imm32 => ?_, fun s lc t a b h => ?_⟩
  · intro r x x32 se ze plain logic arith
    refine ⟨fun h => ⟨arithImmediates_complete t a h imm,
      ⟨aluImm_completes (execAndi lc t a imm) rfl rfl h rfl (.inl rfl) rfl, aluImm_completes (execOri lc t a imm) rfl rfl h rfl (.inl rfl) rfl,
        aluImm_completes (execXori lc t a imm) rfl rfl h rfl (.inl rfl) rfl⟩,
      ⟨?_, ?_⟩,
      aluImm_completes (execLui lc t 0 imm) rfl rfl h rfl (.inl rfl) rfl, ?_⟩, fun h => longImmediates_complete t a h imm32⟩
    · exact completes_of_plain (execCmpi lc 0 a imm) rfl rfl h rfl ⟨rfl, rfl, rfl, rfl⟩ rfl rfl (congrArg r.setCc (ccCmp_toInt x se))
    · exact completes_of_plain (execCmpui lc 0 a imm) rfl rfl h rfl ⟨rfl, rfl, rfl, rfl⟩ rfl rfl (congrArg r.setCc (ccCmp_toNat x ze))
    · rintro n hn rfl
      exact shiftImmediates_complete t a h hn
  · intro r x plain
    refine ⟨⟨clzN x, bitIns_completes t a h (execClz lc t a 0 0) rfl rfl rfl, clzN_spec x⟩, ⟨ctzN x, bitIns_completes t a h (execCtz lc t a 0 0) rfl rfl rfl, ctzN_spec x⟩,
      bitIns_completes t a h (execPopc lc t a 0 0) rfl rfl rfl,
      ⟨revBytes 8 x, bitIns_completes t a h (execBswap lc t a 0 0) rfl rfl rfl, fun i hi => ?_⟩,
      ⟨revBytes 4 x, bitIns_completes t a h (execBswapw lc t a 0 0) rfl rfl rfl, revBytes_four_upper x, fun i hi => ?_⟩,
      bitIns_completes t a h (execSextb lc t a 0 0) rfl rfl rfl, bitIns_completes t a h (execSexth lc t a 0 0) rfl rfl rfl,
      bitIns_completes t a h (execSextw lc t a 0 0) rfl rfl rfl,
      bitIns_completes t a h (execZextb lc t a 0 0) rfl rfl (congrArg aluPlain (setWidth_setWidth_eq_and x (by omega))),
      bitIns_completes t a h (execZexth lc t a 0 0) rfl rfl (congrArg aluPlain (setWidth_setWidth_eq_and x (by omega))),
      bitIns_completes t a h (execZextw lc t a 0 0) rfl rfl (congrArg aluPlain (setWidth_setWidth_eq_and x (by omega))),
      fun c hc => sel_completes t a b h hc⟩
    · rw [extractLsb'_revBytes (by omega) x hi, Nat.mul_sub]
    · rw [extractLsb'_revBytes (by omega) x hi, Nat.mul_sub]

end Sys2Proof.Machine
end

section
/-! PROOFS. Loads and stores (03 R80, R81, 07 R170): what a load writes and where a store holds its bytes. -/

namespace Sys2Proof.Machine

/-! Loads -/

theorem sx_eq {w v : Nat} (hw : w ≤ 64) : sx w v = ((BitVec.ofNat 64 v).setWidth w).signExtend 64 := by
  rw [sx, BitVec.setWidth_ofNat_of_le hw]

/-- A quadword as the two doublewords of a pair (03 R64). -/
theorem Arch.setPair_ofNat (a : Arch) (t : BitVec 5) (v : Nat) :
    a.setPair t (BitVec.ofNat 128 v) = (a.setG t (BitVec.ofNat 64 (v / 2 ^ 64))).setG (t + 1) (BitVec.ofNat 64 v) := by
  have hhigh : (BitVec.ofNat 128 v).extractLsb' 64 64 = BitVec.ofNat 64 (v / 2 ^ 64) := by
    apply BitVec.eq_of_toNat_eq
    simp [BitVec.extractLsb'_toNat, Nat.shiftRight_eq_div_pow]
    omega
  have hlow : (BitVec.ofNat 128 v).extractLsb' 0 64 = BitVec.ofNat 64 v := by
    apply BitVec.eq_of_toNat_eq
    simp [BitVec.extractLsb'_toNat]
  rw [Arch.setPair, hhigh, hlow]

section
variable {i : Instr} {s : State} {lc : Nat} {w : W64} {sp : Bool} {ea : Arch → W64} {n : Nat} {e : State → Out} (hi : exec i s = e s) (h : Ready s lc 4)
include hi h

/-- A load whose bytes can be read. -/
theorem load_completes {put : Arch → Nat → Arch} {v : Nat} {u : Arch} (he : e s = loadIns lc { words := w, sp := sp } ea n put s) (hsp : sp = false)
    (hv : s.loadNat ((s.core lc).xctx lc) (ea (s.core lc).arch) n = .ok s v) (hu : put (s.core lc).arch v = u) : Completes i s lc 4 u :=
  completes_of_plain e hi he h rfl ⟨rfl, rfl, rfl, rfl⟩ hsp (f := fun a => put a v) (by simp only [State.xc, State.arch, hv]; rfl) hu

end

/-! Stores -/

@[simp] theorem toBytes_length (n v : Nat) : (toBytes n v).length = n := by simp [toBytes]

/-- The bytes that a store writes, the most significant first. -/
theorem toBytes_eq_map_extractLsb' (n : Nat) (v : W128) : toBytes n v.toNat = (List.range n).map (fun k => v.extractLsb' (8 * (n - 1 - k)) 8) := by
  simp only [toBytes, extractLsb'_byte]

/-- A store whose places can be written and for which the store buffer has room is held (07 R170). -/
theorem State.storeBytes_ok {s : State} {x : XCtx} {va : W64} {bs : List Byte} {places : List (Nat × Nat)}
    (hplaces : s.checkStore x .wr (bs.length / 256 + 2) va bs.length = .ok s places)
    (hroom : (holdBytes (s.core x.lc).stbuf (BitVec.ofNat 8 x.pid) places bs).length ≤ 80) :
    s.storeBytes x va bs = .ok (s.setCore x.lc { s.core x.lc with stbuf := holdBytes (s.core x.lc).stbuf (BitVec.ofNat 8 x.pid) places bs }) () := by
  rw [State.storeBytes, hplaces]
  exact if_neg (Nat.not_lt.mpr hroom)

/-- An instruction whose operation holds stores of its core, and does nothing else, completes. -/
theorem completes_holding {i : Instr} {lc : Nat} {p : Pre} {w : CoreWait} {s : State} {body : State → IRes} {buf : List StEnt} (hi : exec i s = runCore lc p s body)
    (h : ReadyWith s lc p.ilc w) (hp : p.passes (s.core lc).arch) (hb : body s = .done (s.setCore lc { s.core lc with stbuf := buf })) :
    CompletesBuf i s lc p.ilc (s.core lc).arch buf :=
  completes_of_done hi h hp hb h.broken

/-- A store of up to 16 bytes holds them at the places found, and changes nothing else. -/
theorem store_completes {i : Instr} {s : State} {lc : Nat} {w : W64} {sp : Bool} {ea : Arch → W64} {n : Nat} {e : State → Out} (hi : exec i s = e s) (h : Ready s lc 4)
    {val : Arch → Nat} {v : W128} {places : List (Nat × Nat)} (he : e s = storeIns lc { words := w, sp := sp } ea n val s) (hsp : sp = false)
    (hn : n ≤ 16) (hval : val (s.core lc).arch = v.toNat) (hplaces : s.checkStore ((s.core lc).xctx lc) .wr 2 (ea (s.core lc).arch) n = .ok s places)
    (hroom : (holdBytes (s.core lc).stbuf (s.core lc).arch.psw.pid places ((List.range n).map (fun k => v.extractLsb' (8 * (n - 1 - k)) 8))).length ≤ 80) :
    CompletesBuf i s lc 4 (s.core lc).arch
      (holdBytes (s.core lc).stbuf (s.core lc).arch.psw.pid places ((List.range n).map (fun k => v.extractLsb' (8 * (n - 1 - k)) 8))) := by
  have hpid : BitVec.ofNat 8 (s.core lc).arch.psw.pid.toNat = (s.core lc).arch.psw.pid := by simp
  rw [← toBytes_eq_map_extractLsb', ← hval] at hroom ⊢
  have hstore := State.storeBytes_ok (s := s) (x := (s.core lc).xctx lc) (va := ea (s.core lc).arch) (bs := toBytes n (val (s.core lc).arch)) (places := places)
    (by rw [toBytes_length, show n / 256 + 2 = 2 by omega, hplaces]) (by rwa [Core.xctx, hpid])
  rw [Core.xctx, hpid] at hstore
  refine completes_holding (hi.trans he) h (Pre.passes_of_plain ⟨rfl, rfl, rfl, rfl⟩ hsp) ?_
  simp only [State.xc, State.arch, Core.xctx, hstore]
  rfl

/-! The forms -/

/-- A pair at an even register and an aligned quadword breaks no rule of LDP and STP (03 R64, R80). -/
theorem pair_sound {t : BitVec 5} {ea : W64} (hodd : t.getLsbD 0 = false) (halign : ea.toNat % 16 = 0) : (oddPair t || ea.toNat % 16 != 0) = false := by
  rw [oddPair, hodd, halign]
  rfl

theorem execLdp_eq (lc : Nat) (t a : BitVec 5) (imm : BitVec 16) (s : State) :
    execLdp lc t a imm s = loadIns lc { words := wordsB 0x17 t a imm, sp := oddPair t || ((s.core lc).arch.ea a imm).toNat % 16 != 0 } (fun r => r.ea a imm) 16
      (fun r v => r.setPair t (BitVec.ofNat 128 v)) s := rfl

theorem execStp_eq (lc : Nat) (t a : BitVec 5) (imm : BitVec 16) (s : State) :
    execStp lc t a imm s = storeIns lc { words := wordsB 0x1C t a imm, sp := oddPair t || ((s.core lc).arch.ea a imm).toNat % 16 != 0 } (fun r => r.ea a imm) 16
      (fun r => (r.getPair t).toNat) s := rfl

/-- Settles O5: every load is `load_completes` at its address with its extension. -/
theorem loads : Obligations.Loads := by
  intro s lc t a b imm v h r ea eax w can
  refine ⟨fun hv => ⟨load_completes (e := execLd lc t a imm) rfl h rfl rfl hv rfl, load_completes (e := execLdf lc t a imm) rfl h rfl rfl hv rfl⟩,
    fun hv => ⟨load_completes (e := execLw lc t a imm) rfl h rfl rfl hv rfl, load_completes (e := execLws lc t a imm) rfl h rfl rfl hv (congrArg (r.setG t) (sx_eq (by omega))),
      load_completes (e := execLfs lc t a imm) rfl h rfl rfl hv rfl⟩,
    fun hv => ⟨load_completes (e := execLh lc t a imm) rfl h rfl rfl hv rfl, load_completes (e := execLhs lc t a imm) rfl h rfl rfl hv (congrArg (r.setG t) (sx_eq (by omega)))⟩,
    fun hv => ⟨load_completes (e := execLb lc t a imm) rfl h rfl rfl hv rfl, load_completes (e := execLbs lc t a imm) rfl h rfl rfl hv (congrArg (r.setG t) (sx_eq (by omega)))⟩,
    fun hv hodd halign => load_completes (e := execLdp lc t a imm) rfl h (execLdp_eq lc t a imm s) (pair_sound hodd halign) hv (r.setPair_ofNat t v),
    fun hv => ⟨load_completes (e := execLdx lc t a b 0) rfl h rfl rfl hv rfl, load_completes (e := execLdfx lc t a b 0) rfl h rfl rfl hv rfl⟩,
    fun hv => ⟨load_completes (e := execLwx lc t a b 0) rfl h rfl rfl hv rfl, load_completes (e := execLwsx lc t a b 0) rfl h rfl rfl hv (congrArg (r.setG t) (sx_eq (by omega))),
      load_completes (e := execLfsx lc t a b 0) rfl h rfl rfl hv rfl⟩,
    fun hv => ⟨load_completes (e := execLhx lc t a b 0) rfl h rfl rfl hv rfl, load_completes (e := execLhsx lc t a b 0) rfl h rfl rfl hv (congrArg (r.setG t) (sx_eq (by omega)))⟩,
    fun hv => ⟨load_completes (e := execLbx lc t a b 0) rfl h rfl rfl hv rfl, load_completes (e := execLbsx lc t a b 0) rfl h rfl rfl hv (congrArg (r.setG t) (sx_eq (by omega)))⟩,
    completes_of_plain (execLea lc t a imm) rfl rfl h rfl ⟨rfl, rfl, rfl, rfl⟩ rfl rfl rfl⟩

/-- Settles O6: every store is `store_completes` at its address with its register. -/
theorem stores : Obligations.Stores := by
  intro s lc t a b imm places h r ea eax holds g f
  have hg : (r.getG t).toNat = g.toNat := (BitVec.toNat_setWidth_of_le (by omega)).symm
  have hf : (r.getF t).toNat = f.toNat := (BitVec.toNat_setWidth_of_le (by omega)).symm
  exact ⟨fun hp hr => store_completes (e := execStd lc t a imm) rfl h rfl rfl (by omega) hg hp hr, fun hp hr => store_completes (e := execStw lc t a imm) rfl h rfl rfl (by omega) hg hp hr,
    fun hp hr => store_completes (e := execSth lc t a imm) rfl h rfl rfl (by omega) hg hp hr, fun hp hr => store_completes (e := execStb lc t a imm) rfl h rfl rfl (by omega) hg hp hr,
    fun hp hr => store_completes (e := execStf lc t a imm) rfl h rfl rfl (by omega) hf hp hr, fun hp hr => store_completes (e := execStfs lc t a imm) rfl h rfl rfl (by omega) hf hp hr,
    fun hodd halign hp hr => store_completes (e := execStp lc t a imm) rfl h (execStp_eq lc t a imm s) (pair_sound hodd halign) (by omega) rfl hp hr,
    fun hp hr => store_completes (e := execStdx lc t a b 0) rfl h rfl rfl (by omega) hg hp hr, fun hp hr => store_completes (e := execStwx lc t a b 0) rfl h rfl rfl (by omega) hg hp hr,
    fun hp hr => store_completes (e := execSthx lc t a b 0) rfl h rfl rfl (by omega) hg hp hr, fun hp hr => store_completes (e := execStbx lc t a b 0) rfl h rfl rfl (by omega) hg hp hr,
    fun hp hr => store_completes (e := execStfx lc t a b 0) rfl h rfl rfl (by omega) hf hp hr, fun hp hr => store_completes (e := execStfsx lc t a b 0) rfl h rfl rfl (by omega) hf hp hr⟩

end Sys2Proof.Machine
end

section
/-! PROOFS. Floating point (03 R83, R84; 04 R103 to R113): an instruction whose conditions are all disabled completes. -/

namespace Sys2Proof.Machine

/-! Operands -/

theorem fmt64_ofReg (w : W64) : fmt64.ofReg w = w.toNat := Nat.mod_eq_of_lt w.isLt

theorem fmt32_ofReg (w : W64) : fmt32.ofReg w = w.toNat % 2 ^ 32 := rfl

/-- Adding the weight of the top bit inverts it. -/
theorem add_two_pow_mod (n x : Nat) (hx : x < 2 * 2 ^ n) : (x + 2 ^ n) % (2 * 2 ^ n) = x ^^^ 2 ^ n := by
  have hpow : 2 * 2 ^ n = 2 ^ (n + 1) := by rw [Nat.pow_succ, Nat.mul_comm]
  rw [hpow] at hx ⊢
  apply Nat.eq_of_testBit_eq
  intro i
  rw [Nat.testBit_mod_two_pow, Nat.testBit_xor, Nat.testBit_two_pow, Nat.add_comm x]
  rcases Nat.lt_trichotomy i n with hi | rfl | hi
  · simp [Nat.testBit_two_pow_add_gt hi, show i < n + 1 by omega, show n ≠ i by omega]
  · simp [Nat.testBit_two_pow_add_eq]
  · simp [show ¬i < n + 1 by omega, show n ≠ i by omega, Nat.testBit_lt_two_pow (Nat.lt_of_lt_of_le hx (Nat.pow_le_pow_right (by omega) (show n + 1 ≤ i by omega)))]

/-! The end of an operation -/

/-- With the conditions that it met disabled, an operation sets their flags and writes its result (04 R107). -/
theorem State.fpEnd_disabled {s : State} {lc k : Nat} (put : Arch → Arch) (hk : k &&& (s.core lc).arch.fpEna = 0) :
    s.fpEnd lc k put = .done (s.updArch lc (fun a => a.fpFlags k (put a))) := by
  have hon : k &&& (s.arch lc).fpEna = 0 := hk
  rw [State.fpEnd, hon, if_neg (by rw [Nat.zero_and]; exact not_not_intro rfl), if_pos rfl]
  simp only [State.updArch, State.updCore, State.arch, Arch.fpFlags]

section
variable {i : Instr} {s : State} {lc minor : Nat} {t a b c : BitVec 5} {e : State → Out} {f : Fmt} (hi : exec i s = e s) (h : Ready s lc 4)
include hi h

/-- An instruction whose operation ends with a result and the conditions it met. -/
theorem completes_of_fpEnd {p : Pre} {body : State → IRes} {put : Arch → Arch} {k : Nat} (he : e s = runCore lc p s body) (hilc : p.ilc = 4)
    (hplain : p.op = false ∧ p.pv = false ∧ p.low = 0 ∧ p.ictl = none) (hsp : p.sp = false) (hb : body s = s.fpEnd lc k put)
    (hk : k &&& (s.core lc).arch.fpEna = 0) : Completes i s lc 4 ((s.core lc).arch.fpFlags k (put (s.core lc).arch)) :=
  completes_of_plain e hi he h hilc hplain hsp (hb.trans (State.fpEnd_disabled put hk)) rfl

theorem fpIns_completes {bad : Bool} {op : Nat → Nat → Nat → Nat → Nat × Nat} {x y z : Nat} (he : e s = fpIns f minor lc t a b c bad op s) (hbad : bad = false)
    (hx : f.ofReg ((s.core lc).arch.getF a) = x) (hy : f.ofReg ((s.core lc).arch.getF b) = y) (hz : f.ofReg ((s.core lc).arch.getF c) = z)
    (hk : (op (s.core lc).arch.fpRm x y z).2 &&& (s.core lc).arch.fpEna = 0) :
    Completes i s lc 4 ((s.core lc).arch.fpFlags (op (s.core lc).arch.fpRm x y z).2 ((s.core lc).arch.setF t (BitVec.ofNat 64 (op (s.core lc).arch.fpRm x y z).1))) := by
  subst hx hy hz
  exact completes_of_fpEnd hi h he rfl ⟨rfl, rfl, rfl, rfl⟩ hbad rfl hk

theorem fpCmp_completes {sig : Bool} {x y : Nat} (he : e s = fpCmp f minor lc 0 a b 0 sig s) (hx : f.ofReg ((s.core lc).arch.getF a) = x)
    (hy : f.ofReg ((s.core lc).arch.getF b) = y) (hk : (f.compare sig (f.unpack x) (f.unpack y)).2 &&& (s.core lc).arch.fpEna = 0) :
    Completes i s lc 4 ((s.core lc).arch.fpFlags (f.compare sig (f.unpack x) (f.unpack y)).2 ((s.core lc).arch.setCc (f.compare sig (f.unpack x) (f.unpack y)).1)) := by
  subst hx hy
  exact completes_of_fpEnd hi h he rfl ⟨rfl, rfl, rfl, rfl⟩ rfl rfl hk

theorem fpBits_completes {op : Nat → Nat} {v : Nat} (he : e s = fpBits f minor lc t a 0 0 op s) (hv : op (f.ofReg ((s.core lc).arch.getF a)) = v) :
    Completes i s lc 4 ((s.core lc).arch.setF t (BitVec.ofNat 64 v)) :=
  hv ▸ completes_of_plain e hi he h rfl ⟨rfl, rfl, rfl, rfl⟩ rfl rfl rfl

theorem fcvt_completes {op : Arch → Nat × (Arch → Arch)} {k : Nat} {put : Arch → Arch} (he : e s = fcvt minor lc t a 0 0 op s) (hop : op (s.core lc).arch = (k, put))
    (hk : k &&& (s.core lc).arch.fpEna = 0) : Completes i s lc 4 ((s.core lc).arch.fpFlags k (put (s.core lc).arch)) :=
  completes_of_fpEnd hi h he rfl ⟨rfl, rfl, rfl, rfl⟩ rfl (by simp only [State.arch, hop]) hk

theorem fpMove_completes {put : Arch → Arch} (he : e s = fpMove minor lc t a 0 0 put s) : Completes i s lc 4 (put (s.core lc).arch) :=
  completes_of_plain e hi he h rfl ⟨rfl, rfl, rfl, rfl⟩ rfl rfl rfl

end

/-! The clauses of O10 -/

section
variable {s : State} {lc : Nat} (h : Ready s lc 4) (t a b c : BitVec 5)
include h

/-- Arithmetic in binary64 (03 R83). -/
theorem binary64_completes :
    let r := (s.core lc).arch
    let rm := r.fpRm
    let x := (r.getF a).toNat
    let y := (r.getF b).toNat
    let z := (r.getF c).toNat
    let d := fmt64.unpack
    let gives := fun (i : Instr) (v : Nat × Nat) => v.2 &&& r.fpEna = 0 → Completes i s lc 4 (r.fpFlags v.2 (r.setF t (BitVec.ofNat 64 v.1)))
    gives (.fadd lc t a b 0) (fmt64.add rm (d x) (d y)) ∧ gives (.fsub lc t a b 0) (fmt64.add rm (d x) (d y).neg) ∧ gives (.fmul lc t a b 0) (fmt64.mul rm (d x) (d y)) ∧
      gives (.fdiv lc t a b 0) (fmt64.div rm (d x) (d y)) ∧ gives (.fsqrt lc t a 0 0) (fmt64.sqrt rm (d x)) ∧ gives (.fma lc t a b c) (fmt64.fma rm (d x) (d y) (d z) false) ∧
      gives (.fms lc t a b c) (fmt64.fma rm (d x) (d y) (d z) true) ∧ gives (.fnma lc t a b c) (fmt64.negRes (fmt64.fma rm (d x) (d y) (d z) false)) ∧
      gives (.fnms lc t a b c) (fmt64.negRes (fmt64.fma rm (d x) (d y) (d z) true)) ∧ gives (.fmin lc t a b 0) (fmt64.minmax false x y) ∧
      gives (.fmax lc t a b 0) (fmt64.minmax true x y) ∧ gives (.frint lc t a 0 0) (fmt64.rint rm x) := by
  have hx := fmt64_ofReg ((s.core lc).arch.getF a)
  have hy := fmt64_ofReg ((s.core lc).arch.getF b)
  have hz := fmt64_ofReg ((s.core lc).arch.getF c)
  have h0 := fmt64_ofReg ((s.core lc).arch.getF 0)
  exact ⟨fpIns_completes (e := execFadd lc t a b 0) rfl h rfl rfl hx hy h0, fpIns_completes (e := execFsub lc t a b 0) rfl h rfl rfl hx hy h0,
    fpIns_completes (e := execFmul lc t a b 0) rfl h rfl rfl hx hy h0, fpIns_completes (e := execFdiv lc t a b 0) rfl h rfl rfl hx hy h0,
    fpIns_completes (e := execFsqrt lc t a 0 0) rfl h rfl rfl hx h0 h0, fpIns_completes (e := execFma lc t a b c) rfl h rfl rfl hx hy hz,
    fpIns_completes (e := execFms lc t a b c) rfl h rfl rfl hx hy hz, fpIns_completes (e := execFnma lc t a b c) rfl h rfl rfl hx hy hz,
    fpIns_completes (e := execFnms lc t a b c) rfl h rfl rfl hx hy hz, fpIns_completes (e := execFmin lc t a b 0) rfl h rfl rfl hx hy h0,
    fpIns_completes (e := execFmax lc t a b 0) rfl h rfl rfl hx hy h0, fpIns_completes (e := execFrint lc t a 0 0) rfl h rfl rfl hx h0 h0⟩

/-- Arithmetic in binary32, on the low words of the registers (03 R83). -/
theorem binary32_completes :
    let r := (s.core lc).arch
    let rm := r.fpRm
    let x := (r.getF a).toNat % 2 ^ 32
    let y := (r.getF b).toNat % 2 ^ 32
    let z := (r.getF c).toNat % 2 ^ 32
    let w := fmt32.unpack
    let gives := fun (i : Instr) (v : Nat × Nat) => v.2 &&& r.fpEna = 0 → Completes i s lc 4 (r.fpFlags v.2 (r.setF t (BitVec.ofNat 64 v.1)))
    gives (.fadds lc t a b 0) (fmt32.add rm (w x) (w y)) ∧ gives (.fsubs lc t a b 0) (fmt32.add rm (w x) (w y).neg) ∧ gives (.fmuls lc t a b 0) (fmt32.mul rm (w x) (w y)) ∧
      gives (.fdivs lc t a b 0) (fmt32.div rm (w x) (w y)) ∧ gives (.fsqrts lc t a 0 0) (fmt32.sqrt rm (w x)) ∧ gives (.fmas lc t a b c) (fmt32.fma rm (w x) (w y) (w z) false) ∧
      gives (.fmss lc t a b c) (fmt32.fma rm (w x) (w y) (w z) true) ∧ gives (.fnmas lc t a b c) (fmt32.negRes (fmt32.fma rm (w x) (w y) (w z) false)) ∧
      gives (.fnmss lc t a b c) (fmt32.negRes (fmt32.fma rm (w x) (w y) (w z) true)) ∧ gives (.fmins lc t a b 0) (fmt32.minmax false x y) ∧
      gives (.fmaxs lc t a b 0) (fmt32.minmax true x y) ∧ gives (.frints lc t a 0 0) (fmt32.rint rm x) := by
  have hx := fmt32_ofReg ((s.core lc).arch.getF a)
  have hy := fmt32_ofReg ((s.core lc).arch.getF b)
  have hz := fmt32_ofReg ((s.core lc).arch.getF c)
  have h0 := fmt32_ofReg ((s.core lc).arch.getF 0)
  exact ⟨fpIns_completes (e := execFadds lc t a b 0) rfl h rfl rfl hx hy h0, fpIns_completes (e := execFsubs lc t a b 0) rfl h rfl rfl hx hy h0,
    fpIns_completes (e := execFmuls lc t a b 0) rfl h rfl rfl hx hy h0, fpIns_completes (e := execFdivs lc t a b 0) rfl h rfl rfl hx hy h0,
    fpIns_completes (e := execFsqrts lc t a 0 0) rfl h rfl rfl hx h0 h0, fpIns_completes (e := execFmas lc t a b c) rfl h rfl rfl hx hy hz,
    fpIns_completes (e := execFmss lc t a b c) rfl h rfl rfl hx hy hz, fpIns_completes (e := execFnmas lc t a b c) rfl h rfl rfl hx hy hz,
    fpIns_completes (e := execFnmss lc t a b c) rfl h rfl rfl hx hy hz, fpIns_completes (e := execFmins lc t a b 0) rfl h rfl rfl hx hy h0,
    fpIns_completes (e := execFmaxs lc t a b 0) rfl h rfl rfl hx hy h0, fpIns_completes (e := execFrints lc t a 0 0) rfl h rfl rfl hx h0 h0⟩

omit h in
/-- Inverting the sign bit of a datum (03 R83). -/
theorem sign_inverted (v : W64) :
    (v.toNat + fmt64.sign true) % (2 * fmt64.sign true) = v.toNat ^^^ 2 ^ 63 ∧
      (v.toNat % 2 ^ 32 + fmt32.sign true) % (2 * fmt32.sign true) = v.toNat % 2 ^ 32 ^^^ 2 ^ 31 :=
  ⟨add_two_pow_mod 63 _ v.isLt, add_two_pow_mod 31 _ (Nat.mod_lt _ (by decide))⟩

/-- The sign operations and moves copy bits and set no flag (03 R83, R84). -/
theorem fpMoves_complete :
    let r := (s.core lc).arch
    let x := (r.getF a).toNat
    let xs := x % 2 ^ 32
    let moves := fun (i : Instr) (v : Nat) => Completes i s lc 4 (r.setF t (BitVec.ofNat 64 v))
    moves (.fabs lc t a 0 0) (x % 2 ^ 63) ∧ moves (.fneg lc t a 0 0) (x ^^^ 2 ^ 63) ∧ moves (.fmov lc t a 0 0) x ∧
      moves (.fabss lc t a 0 0) (xs % 2 ^ 31) ∧ moves (.fnegs lc t a 0 0) (xs ^^^ 2 ^ 31) ∧ moves (.fmovs lc t a 0 0) xs ∧
      Completes (.movgf lc t a 0 0) s lc 4 (r.setF t (r.getG a)) ∧ Completes (.movfg lc t a 0 0) s lc 4 (r.setG t (r.getF a)) := by
  have hx := fmt64_ofReg ((s.core lc).arch.getF a)
  have hxs := fmt32_ofReg ((s.core lc).arch.getF a)
  obtain ⟨hneg, hnegs⟩ := sign_inverted ((s.core lc).arch.getF a)
  exact ⟨fpBits_completes (e := execFabs lc t a 0 0) rfl h rfl (by rw [hx]; rfl), fpBits_completes (e := execFneg lc t a 0 0) rfl h rfl (by rw [hx, hneg]),
    fpBits_completes (e := execFmov lc t a 0 0) rfl h rfl hx,
    fpBits_completes (e := execFabss lc t a 0 0) rfl h rfl (by rw [hxs]; rfl), fpBits_completes (e := execFnegs lc t a 0 0) rfl h rfl (by rw [hxs, hnegs]),
    fpBits_completes (e := execFmovs lc t a 0 0) rfl h rfl hxs,
    fpMove_completes (e := execMovgf lc t a 0 0) rfl h rfl, fpMove_completes (e := execMovfg lc t a 0 0) rfl h rfl⟩

/-- Conversions (03 R84, 04 R113). -/
theorem conversions_complete :
    let r := (s.core lc).arch
    let rm := r.fpRm
    let x := (r.getF a).toNat
    let xs := x % 2 ^ 32
    let d := fmt64.unpack
    let w := fmt32.unpack
    let gives := fun (i : Instr) (v : Nat × Nat) => v.2 &&& r.fpEna = 0 → Completes i s lc 4 (r.fpFlags v.2 (r.setF t (BitVec.ofNat 64 v.1)))
    let given := fun (i : Instr) (v : W64 × Nat) => v.2 &&& r.fpEna = 0 → Completes i s lc 4 (r.fpFlags v.2 (r.setG t v.1))
    gives (.fcvtds lc t a 0 0) (cvtDS (w xs)) ∧ gives (.fcvtsd lc t a 0 0) (cvtSD rm (d x)) ∧ gives (.fcvtgd lc t a 0 0) (fmt64.ofInteger rm (r.getG a).toInt) ∧
      gives (.fcvtgud lc t a 0 0) (fmt64.ofInteger rm (r.getG a).toNat) ∧ gives (.fcvtgs lc t a 0 0) (fmt32.ofInteger rm (r.getG a).toInt) ∧
      given (.fcvtdg lc t a 0 0) (fmt64.toInteger rm true (d x)) ∧ given (.fcvtdgu lc t a 0 0) (fmt64.toInteger rm false (d x)) ∧
      given (.fcvtsg lc t a 0 0) (fmt32.toInteger rm true (w xs)) := by
  intro r rm x xs d w gives given
  have hx : x = fmt64.ofReg (r.getF a) := (fmt64_ofReg _).symm
  rw [hx]
  exact ⟨fcvt_completes (e := execFcvtds lc t a 0 0) rfl h rfl rfl, fcvt_completes (e := execFcvtsd lc t a 0 0) rfl h rfl rfl,
    fcvt_completes (e := execFcvtgd lc t a 0 0) rfl h rfl rfl, fcvt_completes (e := execFcvtgud lc t a 0 0) rfl h rfl rfl,
    fcvt_completes (e := execFcvtgs lc t a 0 0) rfl h rfl rfl, fcvt_completes (e := execFcvtdg lc t a 0 0) rfl h rfl rfl,
    fcvt_completes (e := execFcvtdgu lc t a 0 0) rfl h rfl rfl, fcvt_completes (e := execFcvtsg lc t a 0 0) rfl h rfl rfl⟩

end

/-- Settles O10: each instruction ends by `State.fpEnd_disabled`, on the operands of its format. -/
theorem floatingPoint : Obligations.FloatingPoint := by
  intro s lc t a b c h r rm x y z xs ys zs d w gives given compares moves
  have hx := fmt64_ofReg (r.getF a)
  have hy := fmt64_ofReg (r.getF b)
  exact ⟨binary64_completes h t a b c, binary32_completes h t a b c,
    ⟨fpCmp_completes (e := execFcmp lc 0 a b 0) rfl h rfl hx hy, fpCmp_completes (e := execFcmps lc 0 a b 0) rfl h rfl hx hy,
      fpCmp_completes (e := execFcmpSingle lc 0 a b 0) rfl h rfl rfl rfl, fpCmp_completes (e := execFcmpss lc 0 a b 0) rfl h rfl rfl rfl⟩,
    fpMoves_complete h t a, conversions_complete h t a⟩

end Sys2Proof.Machine
end

section
/-! PROOFS. Prefetch and atomic operations (03 R81, R82, 09 R220). -/

namespace Sys2Proof.Machine

/-- An instruction whose operation changes nothing completes with the architected state that the core had. -/
theorem completes_unchanged {i : Instr} {lc ilc : Nat} {p : Pre} {w : CoreWait} {s : State} {body : State → IRes} (hi : exec i s = runCore lc p s body)
    (h : ReadyWith s lc ilc w) (hilc : p.ilc = ilc) (hp : p.passes (s.core lc).arch) (hb : body s = .done s) : Completes i s lc ilc (s.core lc).arch := by
  subst hilc
  obtain ⟨d, hd, harch, hbuf⟩ := State.retire_eq s lc p (s.core lc).arch ((s.core lc).arch.psw.ia + BitVec.ofNat 64 p.ilc) h.broken
  have hend : ended lc p s (.done s) = s.setCore lc d := hd
  refine ⟨_, exec_of_body hi h hp hb, ?_, ?_, ?_⟩
  · rw [hend, left_core, State.core_setCore, harch]
  · rw [hend, left_core, State.core_setCore, hbuf]
  · rw [hend]; exact onlyCore_left s _ lc d rfl

/-! Prefetch -/

theorem pref_completes {s : State} {lc : Nat} {t a : BitVec 5} {imm : BitVec 16} (h : Ready s lc 4) (ht : t.toNat ≤ 2)
    (hacc : (∃ p, s.access ((s.core lc).xctx lc) ((s.core lc).arch.ea a imm) (if t = 0 then .rd else if t = 1 then .wr else .fx) = .ok s p) ∨
      ∃ u f, s.access ((s.core lc).xctx lc) ((s.core lc).arch.ea a imm) (if t = 0 then .rd else if t = 1 then .wr else .fx) = .fail u f) :
    Completes (.pref lc t a imm) s lc 4 (s.core lc).arch := by
  have hi : exec (.pref lc t a imm) s = execPref lc t a imm s := rfl
  refine completes_unchanged (hi.trans rfl) h rfl (Pre.passes_of_plain ⟨rfl, rfl, rfl, rfl⟩ (decide_eq_false (by omega))) ?_
  rcases hacc with ⟨p, hok⟩ | ⟨u, f, hfail⟩
  · simp only [State.xc, State.arch, hok]
  · simp only [State.xc, State.arch, hfail]

/-! Atomic operations -/

/-- The answer of an atomic that no TLB operation waits for changes its core alone: the old value and the condition code are written, event 0x11 is counted (03 R82, 02 Table COR-7). -/
theorem State.endAtom_eq {s : State} {lc : Nat} (op : Nat) (t : BitVec 5) (old : W128) (cc : BitVec 2) (hw : s.mem.tlbWaits = []) :
    ∃ c, s.endAtom lc op t old cc = .done (s.setCore lc c) ∧ c.arch = ((s.core lc).arch.pmc 0x11 1).1.setAtom op t old cc ∧
      c.stbuf = (s.core lc).stbuf ∧ c.broken = (s.core lc).broken := by
  have hgone : ∀ f : Core → Core, (s.updCore lc f).accessGone lc = s.updCore lc f := fun f => if_pos (by simp [hw])
  rw [State.endAtom, hgone, State.logInput, State.updCore, State.core_updCore, State.updCore, State.setCore_setCore]
  exact ⟨_, rfl, rfl, rfl, rfl⟩

theorem atomIns_completes {i : Instr} {s : State} {lc op line : Nat} {t a b c : BitVec 5} {old : W128} {cc : BitVec 2} {e : State → Out} (hi : exec i s = e s)
    (he : e s = atomIns op lc t a b c s) (h : ReadyWith s lc 4 (.atomGot line old cc)) (hc : c.toNat ≤ 1) (hw : s.mem.tlbWaits = [])
    (halign : ((s.core lc).arch.getG a).toNat % (if op = 4 then 16 else 8) = 0) (hpair : (op == 4 && (oddPair t || oddPair b)) = false) :
    Completes i s lc 4 (((s.core lc).arch.pmc 0x11 1).1.setAtom op t old cc) := by
  have hrsv : c.extractLsb' 1 4 = 0 := by
    apply BitVec.eq_of_toNat_eq
    rw [BitVec.extractLsb'_toNat, Nat.shiftRight_eq_div_pow, Nat.div_eq_of_lt (by omega)]
    rfl
  obtain ⟨-, -, -, -, hwait, -⟩ := id h
  obtain ⟨k, hend, harch, hbuf, hbroken⟩ := State.endAtom_eq op t old cc hw
  refine completes_of_core (hi.trans he) h rfl (Pre.passes_of_plain ⟨rfl, rfl, rfl, rfl⟩ ?_) ((State.once_nil s lc _ _ _ h.replay).trans ?_) harch hbuf hbroken
  · simp only [State.arch, hrsv, halign, hpair]
    rfl
  · rw [hwait]
    exact hend

/-- What CAS128 leaves in a pair (03 R64). -/
theorem Arch.setAtom_pair (r : Arch) (t : BitVec 5) (old : W128) (cc : BitVec 2) :
    r.setAtom 4 t old cc = ((r.setG t (old.extractLsb' 64 64)).setG (t + 1) (old.setWidth 64)).setCc cc := by
  rw [BitVec.setWidth_eq_extractLsb' (by omega)]
  rfl

/-- The smaller of two doublewords, the old one if they are equal. -/
theorem select_min {α : Type} [LinearOrder α] (f : W64 → α) (o b : W64) : (if f o ≤ f b then o else b) = if f b < f o then b else o := by
  simp only [← not_lt, ite_not]

/-- The greater of two doublewords: which one is taken makes no difference when they are equal. -/
theorem select_max {α : Type} [LinearOrder α] {f : W64 → α} (hf : Function.Injective f) (o b : W64) : (if f o ≤ f b then b else o) = if f o < f b then b else o := by
  rcases lt_trichotomy (f o) (f b) with hlt | heq | hgt
  · rw [if_pos hlt.le, if_pos hlt]
  · rw [hf heq, ite_self, ite_self]
  · rw [if_neg hgt.not_ge, if_neg hgt.not_gt]

/-- What the eleven operations store, and the condition code of CAS and CAS128 (03 Table INS-10). -/
theorem atomFn_table (o t b : W64) (oldq tq bq : W128) :
    let w := fun (x : W64) => (x.setWidth 128 : W128)
    (atomFn 1 (w o) (w t) (w b)).1 = w (o + b) ∧ (atomFn 2 (w o) (w t) (w b)).1 = w b ∧
    atomFn 3 (w o) (w t) (w b) = (if o = t then (w b, 0) else (w o, 1)) ∧ atomFn 4 oldq tq bq = (if oldq = tq then (bq, 0) else (oldq, 1)) ∧
    (atomFn 5 (w o) (w t) (w b)).1 = w (if b.slt o then b else o) ∧ (atomFn 6 (w o) (w t) (w b)).1 = w (if o.slt b then b else o) ∧
    (atomFn 7 (w o) (w t) (w b)).1 = w (if b.ult o then b else o) ∧ (atomFn 8 (w o) (w t) (w b)).1 = w (if o.ult b then b else o) ∧
    (atomFn 9 (w o) (w t) (w b)).1 = w (o &&& b) ∧ (atomFn 10 (w o) (w t) (w b)).1 = w (o ||| b) ∧ (atomFn 11 (w o) (w t) (w b)).1 = w (o ^^^ b) := by
  intro w
  have hback : ∀ x : W64, (w x).setWidth 64 = x := fun x => BitVec.setWidth_setWidth_of_le x (by omega)
  simp only [atomFn, hback, BitVec.slt, BitVec.ult, decide_eq_true_eq]
  exact ⟨rfl, rfl, rfl, trivial, congrArg w (select_min BitVec.toInt o b), congrArg w (select_max (fun _ _ => BitVec.eq_of_toInt_eq) o b),
    congrArg w (select_min BitVec.toNat o b), congrArg w (select_max (fun _ _ => BitVec.eq_of_toNat_eq) o b), rfl, rfl, rfl⟩

/-- Settles O9: a prefetch changes nothing, an answered atomic ends by `State.endAtom_eq`, and the table of operations is `atomFn_table`. -/
theorem prefetchAndAtomics : Obligations.PrefetchAndAtomics := by
  refine ⟨fun s lc t a b c imm line old cc => ?_, atomFn_table⟩
  refine ⟨pref_completes, fun h hc hw => ⟨fun halign => ?_, fun halign ht hb => ?_⟩⟩
  · exact ⟨atomIns_completes (e := execLdadd lc t a b c) rfl rfl h hc hw halign rfl, atomIns_completes (e := execSwp lc t a b c) rfl rfl h hc hw halign rfl,
      atomIns_completes (e := execLdmin lc t a b c) rfl rfl h hc hw halign rfl, atomIns_completes (e := execLdmax lc t a b c) rfl rfl h hc hw halign rfl,
      atomIns_completes (e := execLdminu lc t a b c) rfl rfl h hc hw halign rfl, atomIns_completes (e := execLdmaxu lc t a b c) rfl rfl h hc hw halign rfl,
      atomIns_completes (e := execLdand lc t a b c) rfl rfl h hc hw halign rfl, atomIns_completes (e := execLdor lc t a b c) rfl rfl h hc hw halign rfl,
      atomIns_completes (e := execLdxor lc t a b c) rfl rfl h hc hw halign rfl, atomIns_completes (e := execCas lc t a b c) rfl rfl h hc hw halign rfl⟩
  · rw [← Arch.setAtom_pair]
    exact atomIns_completes (e := execCas128 lc t a b c) rfl rfl h hc hw halign (by rw [oddPair, oddPair, ht, hb]; rfl)

end Sys2Proof.Machine
end

section
/-! PROOFS. Branches, barriers and hints (03 R60, R74, R85, R92). -/

namespace Sys2Proof.Machine

/-! A branch that is taken -/

/-- A trace record changes its core's records alone (22 R475). -/
theorem State.trace_keeps (s : State) (lc kind info : Nat) (addr : W64) :
    (∀ d, (s.trace lc kind info addr).setCore lc d = s.setCore lc d) ∧ ∃ b, (s.trace lc kind info addr).core lc = { s.core lc with trbuf := b } := by
  rw [State.trace]
  split
  · exact ⟨fun d => State.setCore_setCore .., _, State.core_setCore ..⟩
  · exact ⟨fun _ => rfl, _, rfl⟩

/-- A branch to an aligned target, taken in a state `u` that differs from `s` in the core's architected state alone. -/
theorem goes_of_take {i : Instr} {lc : Nat} {p : Pre} {s u : State} {body : State → IRes} {a : Arch} {ia : W64} (hi : exec i s = runCore lc p s body) (h : Ready s lc p.ilc)
    (hp : p.passes (s.core lc).arch) (hb : body s = u.take lc ia) (halign : ia.extractLsb' 0 2 = 0) (hu : ∀ d, u.setCore lc d = s.setCore lc d)
    (hc : u.core lc = { s.core lc with arch := a }) : Goes i s lc (a.setIa ia) := by
  obtain ⟨hkeep, b, hcore⟩ := State.trace_keeps u lc 1 0 ia
  rw [State.take, if_neg (not_not_intro halign)] at hb
  obtain ⟨d, hd, harch, hbuf⟩ := State.retire_eq (u.trace lc 1 0 ia) lc p (s.core lc).arch ia (by rw [hcore, hc]; exact h.broken)
  rw [hkeep, hu] at hd
  rw [hcore, hc] at harch hbuf
  have hend : ended lc p s (.jump (u.trace lc 1 0 ia) ia) = s.setCore lc d := hd
  refine ⟨_, exec_of_body hi h hp hb, ?_, ?_, ?_⟩
  · rw [hend, left_core, State.core_setCore, harch]
  · rw [hend, left_core, State.core_setCore, hbuf]
  · rw [hend]; exact onlyCore_left s _ lc d rfl

section
variable {i : Instr} {s : State} {lc : Nat} {p : Pre} {body : State → IRes} {ia : W64} (e : State → Out) (hi : exec i s = e s) (he : e s = runCore lc p s body)
  (h : Ready s lc 4) (hilc : p.ilc = 4) (hplain : p.op = false ∧ p.pv = false ∧ p.low = 0 ∧ p.ictl = none) (hsp : p.sp = false)
include hi he h hilc hplain hsp

theorem branch_goes (hb : body s = s.take lc ia) (halign : ia.extractLsb' 0 2 = 0) : Goes i s lc ((s.core lc).arch.setIa ia) :=
  goes_of_take (hi.trans he) (hilc ▸ h) (Pre.passes_of_plain hplain hsp) hb halign (fun _ => rfl) rfl

/-- A branch that also writes a register. -/
theorem branch_writes_goes {f : Arch → Arch} (hb : body s = (s.updArch lc f).take lc ia) (halign : ia.extractLsb' 0 2 = 0) :
    Goes i s lc ((f (s.core lc).arch).setIa ia) :=
  goes_of_take (hi.trans he) (hilc ▸ h) (Pre.passes_of_plain hplain hsp) hb halign (fun _ => State.setCore_setCore ..) (State.core_updArch ..)

/-- A branch that is not taken, a hint, and a barrier with no store held (03 R74, R92). -/
theorem plain_unchanged (hb : body s = .done s) : Completes i s lc 4 (s.core lc).arch :=
  completes_unchanged (hi.trans he) h hilc (Pre.passes_of_plain hplain hsp) hb

theorem plain_traps {code : Nat} (hb : body s = .exc s code) : Traps i s lc 4 code :=
  hilc ▸ traps_of_exc (hi.trans he) (hilc ▸ h) (Pre.passes_of_plain hplain hsp) hb

end

/-! The branches -/

section
variable {s : State} {lc : Nat} (h : Ready s lc 4) (t a b : BitVec 5)
include h

/-- B, BAL, BC and BCT of an aligned instruction (03 R60, R85). -/
theorem relativeBranches_go (hia : (s.core lc).arch.psw.ia.extractLsb' 0 2 = 0) (off : BitVec 26) (imm : BitVec 16) :
    let r := (s.core lc).arch
    let ia := r.psw.ia
    let far := ia + 4 * off.signExtend 64
    let near := ia + 4 * imm.signExtend 64
    Goes (.b lc off) s lc (r.setIa far) ∧ Goes (.bal lc off) s lc ((r.setG 15 (ia + 4)).setIa far) ∧
    (t.getLsbD 4 = false → (r.ccBit t = true → Goes (.bc lc t 0 imm) s lc (r.setIa near)) ∧ (r.ccBit t = false → Completes (.bc lc t 0 imm) s lc 4 r)) ∧
    (r.getG t ≠ 1 → Goes (.bct lc t 0 imm) s lc ((r.setG t (r.getG t - 1)).setIa near)) ∧ (r.getG t = 1 → Completes (.bct lc t 0 imm) s lc 4 (r.setG t 0)) := by
  intro r ia far near
  have hfar : far.extractLsb' 0 2 = 0 := Arch.rel_aligned r off hia
  have hnear : near.extractLsb' 0 2 = 0 := Arch.rel_aligned r imm hia
  refine ⟨branch_goes (execB lc off) rfl rfl h rfl ⟨rfl, rfl, rfl, rfl⟩ rfl rfl hfar,
    branch_writes_goes (execBal lc off) rfl rfl h rfl ⟨rfl, rfl, rfl, rfl⟩ rfl (f := fun r => r.setG 15 (ia + 4)) rfl hfar, fun ht => ⟨fun hcc => ?_, fun hcc => ?_⟩,
    fun hne => ?_, fun h1 => ?_⟩
  · exact branch_goes (execBc lc t 0 imm) rfl rfl h rfl ⟨rfl, rfl, rfl, rfl⟩ (by rw [ht]; rfl) (if_pos hcc) hnear
  · exact plain_unchanged (execBc lc t 0 imm) rfl rfl h rfl ⟨rfl, rfl, rfl, rfl⟩ (by rw [ht]; rfl) (if_neg (Bool.not_eq_true _ ▸ hcc))
  · have hv : r.getG t - 1 ≠ 0 := fun h0 => hne (sub_eq_zero.mp h0)
    exact branch_writes_goes (execBct lc t 0 imm) rfl rfl h rfl ⟨rfl, rfl, rfl, rfl⟩ rfl (f := fun r' => r'.setG t (r.getG t - 1)) (if_neg hv) hnear
  · have hv : r.getG t - 1 = 0 := by rw [h1]; rfl
    exact completes_of_plain (execBct lc t 0 imm) rfl rfl h rfl ⟨rfl, rfl, rfl, rfl⟩ rfl (f := fun r' => r'.setG t (r.getG t - 1)) (if_pos hv) (congrArg (r.setG t) hv)

/-- BR, BALR and BCR go to an aligned register; an unaligned target is a specification exception (03 R60, R85). -/
theorem registerBranches_go :
    let r := (s.core lc).arch
    let x := r.getG a
    (x.extractLsb' 0 2 = 0 →
      Goes (.br lc 0 a 0 0) s lc (r.setIa x) ∧ Goes (.balr lc t a 0 0) s lc ((r.setG t (r.psw.ia + 4)).setIa x) ∧
      (b.getLsbD 4 = false → r.ccBit b = true → Goes (.bcr lc 0 a 0 b) s lc (r.setIa x))) ∧
    (b.getLsbD 4 = false → r.ccBit b = false → Completes (.bcr lc 0 a 0 b) s lc 4 r) ∧
    (x.extractLsb' 0 2 ≠ 0 → Traps (.br lc 0 a 0 0) s lc 4 6 ∧ Traps (.balr lc t a 0 0) s lc 4 6) := by
  intro r x
  have hsp : b.getLsbD 4 = false → ((0 : BitVec 5) != 0 || (0 : BitVec 5) != 0 || b.getLsbD 4) = false := fun hb => by rw [hb]; rfl
  refine ⟨fun halign => ⟨?_, ?_, fun hb hcc => ?_⟩, fun hb hcc => ?_, fun hodd => ⟨?_, ?_⟩⟩
  · exact branch_goes (execBr lc 0 a 0 0) rfl rfl h rfl ⟨rfl, rfl, rfl, rfl⟩ rfl rfl halign
  · exact branch_writes_goes (execBalr lc t a 0 0) rfl rfl h rfl ⟨rfl, rfl, rfl, rfl⟩ rfl (f := fun r => r.setG t (r.psw.ia + 4)) (if_neg (not_not_intro halign)) halign
  · exact branch_goes (execBcr lc 0 a 0 b) rfl rfl h rfl ⟨rfl, rfl, rfl, rfl⟩ (hsp hb) (if_pos hcc) halign
  · exact plain_unchanged (execBcr lc 0 a 0 b) rfl rfl h rfl ⟨rfl, rfl, rfl, rfl⟩ (hsp hb) (if_neg (Bool.not_eq_true _ ▸ hcc))
  · exact plain_traps (execBr lc 0 a 0 0) rfl rfl h rfl ⟨rfl, rfl, rfl, rfl⟩ rfl (if_pos hodd)
  · exact plain_traps (execBalr lc t a 0 0) rfl rfl h rfl ⟨rfl, rfl, rfl, rfl⟩ rfl (if_pos hodd)

end

end Sys2Proof.Machine
end

section
/-! PROOFS. The words of the core's instructions (03 R59, R62, R66, R67, R76, Tables INS-1 and INS-5). -/

namespace Sys2Proof

section
variable {lc : Nat} {w v : BitVec 32}

/-- The majors whose words have a form of their own: relative branches, long immediates, decimal instructions, hints (03 Table INS-5). -/
def ownForm (major : Nat) : Bool := major == 0x29 || major == 0x2A || major == 0x2B || major == 0x2F || major == 0x3A || major == 0x3E

/-- A major of formats B and C takes its fields from the word. -/
theorem decodeWords_formB {k : FormB} (hk : majorB (w.extractLsb' 26 6).toNat = some k) :
    decodeWords lc w v = some (k lc (w.extractLsb' 21 5) (w.extractLsb' 16 5) (w.extractLsb' 0 16)) := by
  simp only [decodeWords]
  generalize (w.extractLsb' 26 6).toNat = major at hk ⊢
  split
  case h_7 => rw [hk]
  all_goals cases hk

/-- The member of a major of format A that a minor names. -/
def memberA (major minor : Nat) : Option FormA :=
  if major = 0x27 ∧ 0x21 ≤ minor then nth minorsFs (minor - 0x20) else nth (minorsA major) minor

/-- Is the major one of format A (03 Table INS-5). -/
def isFormA (major : Nat) : Bool := !ownForm major && (majorB major).isNone && !(decide (0x30 ≤ major) && decide (major ≤ 0x37))

/-- A major of format A takes the minor of the low bits (03 Tables INS-6, INS-8, INS-10 to INS-13, INS-16). -/
theorem decodeWords_formA {major minor : Nat} (hmajor : (w.extractLsb' 26 6).toNat = major) (hminor : (w.extractLsb' 0 6).toNat = minor) (hform : isFormA major = true) :
    decodeWords lc w v = (memberA major minor).map (fun k => k lc (w.extractLsb' 21 5) (w.extractLsb' 16 5) (w.extractLsb' 11 5) (w.extractLsb' 6 5)) := by
  simp only [isFormA, Bool.and_eq_true, Bool.not_eq_true', Option.isNone_iff_eq_none] at hform
  obtain ⟨⟨hown, hB⟩, hE⟩ := hform
  have hcore : coreMinor w = minor := by
    have h2F : major ≠ 0x2F := by rintro rfl; cases hown
    have h3A : major ≠ 0x3A := by rintro rfl; cases hown
    simp only [coreMinor, hmajor, if_neg h2F, if_neg h3A, hE, Bool.false_eq_true, if_false, hminor]
  simp only [decodeWords, hmajor, hcore]
  split
  case h_7 =>
    simp only [hB, hE, memberA, Bool.false_eq_true, if_false, Bool.and_eq_true, decide_eq_true_eq]
    split <;> rfl
  all_goals cases hown

/-- A system major takes the sub-operation of bits [25:20] (03 Table INS-15). -/
theorem decodeWords_formE {major sub : Nat} (hmajor : (w.extractLsb' 26 6).toNat = major) (hsub : (w.extractLsb' 20 6).toNat = sub) (hE : 0x30 ≤ major ∧ major ≤ 0x37) :
    decodeWords lc w v = (nth (subsE major) sub).map (fun k => k lc (w.extractLsb' 15 5) (w.extractLsb' 10 5) (w.extractLsb' 0 10)) := by
  obtain ⟨hlow, hhigh⟩ := hE
  have hrange : (decide (0x30 ≤ major) && decide (major ≤ 0x37)) = true := by simp [hlow, hhigh]
  have hcore : coreMinor w = sub := by
    simp only [coreMinor, hmajor, hrange, hsub, show major ≠ 0x2F by omega, show major ≠ 0x3A by omega, if_false, if_true]
  have hB : majorB major = none := by interval_cases major <;> rfl
  simp only [decodeWords, hmajor, hcore]
  split
  case h_7 => simp only [hB, hrange, if_true]
  all_goals omega

/-- A minor outside its list is undefined (03 R66). -/
theorem nth_none {α : Type} {l : List α} {n : Nat} (h : n = 0 ∨ l.length < n) : nth l n = none := by
  rw [nth]
  split
  · rfl
  · exact List.getElem?_eq_none (by omega)

/-- A word that names no instruction is an undefined opcode (03 R66, R67). -/
theorem decodeCore_none (h : decodeWords lc w v = none) : decodeCore lc w v = .undefinedOpcode lc w := by rw [decodeCore, h]; rfl

theorem decodeCore_some {i : Instr} (h : decodeWords lc w v = some i) : decodeCore lc w v = i := by rw [decodeCore, h]; rfl

end

/-- The long instructions are those of majors 0x2F and 0x3A (03 R59). -/
theorem coreIlc_eq (w : BitVec 32) : coreIlc w = if w.extractLsb' 26 6 = 0x2F ∨ w.extractLsb' 26 6 = 0x3A then 8 else 4 := by
  simp only [coreIlc, ← BitVec.toNat_inj, Bool.or_eq_true, decide_eq_true_eq]
  rfl

/-! The forms, each with its undefined words -/

section
variable (lc : Nat) (w v : BitVec 32)

/-- Words of format A (03 Tables INS-6, INS-10, INS-11, INS-16). -/
theorem decodeCore_formA :
    let op := w.extractLsb' 26 6
    let t : BitVec 5 := w.extractLsb' 21 5
    let a : BitVec 5 := w.extractLsb' 16 5
    let b : BitVec 5 := w.extractLsb' 11 5
    let c : BitVec 5 := w.extractLsb' 6 5
    let low := w.extractLsb' 0 6
    let is := fun (i : Instr) => decodeCore lc w v = i
    (op = 0x00 → (low = 0x01 → is (.add lc t a b c)) ∧ (low = 0x20 → is (.mov lc t a b c)) ∧ (low = 0 ∨ 0x20 < low.toNat → is (.undefinedOpcode lc w))) ∧
    (op = 0x23 → low = 0x01 → is (.ldx lc t a b c)) ∧ (op = 0x24 → low = 0x04 → is (.cas128 lc t a b c)) ∧ (op = 0x27 → low = 0x06 → is (.fma lc t a b c)) ∧
    (op = 0x27 → low = 0x21 → is (.fadds lc t a b c)) ∧ (op = 0x27 → low = 0x12 → is (.undefinedOpcode lc w)) ∧ (op = 0x3D → low = 0x03 → is (.ciph lc t a b c)) ∧
    (op = 0x3F → is (.undefinedOpcode lc w)) := by
  intro op t a b c low is
  have hsome : ∀ {major minor : BitVec 6} {k : FormA}, isFormA major.toNat = true → memberA major.toNat minor.toNat = some k → op = major → low = minor → is (k lc t a b c) := by
    rintro major minor k hform hk rfl rfl
    exact decodeCore_some (by rw [decodeWords_formA rfl rfl hform, hk]; rfl)
  have hnone : ∀ {major minor : BitVec 6}, isFormA major.toNat = true → memberA major.toNat minor.toNat = none → op = major → low = minor → is (.undefinedOpcode lc w) := by
    rintro major minor hform hk rfl rfl
    exact decodeCore_none (by rw [decodeWords_formA rfl rfl hform, hk]; rfl)
  refine ⟨fun hop => ⟨hsome rfl rfl hop, hsome rfl rfl hop, fun hlow => hnone (minor := low) rfl ?_ hop rfl⟩, hsome rfl rfl, hsome rfl rfl, hsome rfl rfl, hsome rfl rfl,
    hnone rfl rfl, hsome rfl rfl, fun hop => hnone (minor := low) rfl ?_ hop rfl⟩
  · exact nth_none (hlow.imp_left fun h => congrArg BitVec.toNat h)
  · exact nth_none (Nat.eq_zero_or_pos _)

/-- Words of formats B, C and D (03 Tables INS-7, INS-9, INS-13). -/
theorem decodeCore_formsBD :
    let op := w.extractLsb' 26 6
    let t : BitVec 5 := w.extractLsb' 21 5
    let a : BitVec 5 := w.extractLsb' 16 5
    let imm : BitVec 16 := w.extractLsb' 0 16
    let is := fun (i : Instr) => decodeCore lc w v = i
    (op = 0x01 → is (.addi lc t a imm)) ∧ (op = 0x10 → is (.ld lc t a imm)) ∧ (op = 0x1C → is (.stp lc t a imm)) ∧ (op = 0x2C → is (.bc lc t a imm)) ∧
    (op = 0x29 → is (.b lc (w.extractLsb' 0 26))) ∧ (op = 0x2A → is (.bal lc (w.extractLsb' 0 26))) := by
  intro op t a imm is
  have hB : ∀ {major : BitVec 6} {k : FormB}, majorB major.toNat = some k → op = major → is (k lc t a imm) := by
    rintro major k hk rfl
    exact decodeCore_some (decodeWords_formB hk)
  refine ⟨hB rfl, hB rfl, hB rfl, hB rfl, fun hop => ?_, fun hop => ?_⟩
  · have hmajor : (w.extractLsb' 26 6).toNat = 0x29 := congrArg BitVec.toNat hop
    exact decodeCore_some (by simp only [decodeWords, hmajor])
  · have hmajor : (w.extractLsb' 26 6).toNat = 0x2A := congrArg BitVec.toNat hop
    exact decodeCore_some (by simp only [decodeWords, hmajor])

/-- Words of format E, of the long formats, and hints (03 Tables INS-14, INS-15, INS-17, R92). -/
theorem decodeCore_otherForms :
    let op := w.extractLsb' 26 6
    let t : BitVec 5 := w.extractLsb' 21 5
    let a : BitVec 5 := w.extractLsb' 16 5
    let sub := w.extractLsb' 20 6
    let imm : BitVec 16 := w.extractLsb' 0 16
    let is := fun (i : Instr) => decodeCore lc w v = i
    (op = 0x2F → (w.extractLsb' 11 5 = (1 : BitVec 5) → is (.liw lc t a (w.extractLsb' 0 11) v)) ∧ (w.extractLsb' 11 5 = (5 : BitVec 5) → is (.undefinedOpcode lc w))) ∧
    (op = 0x30 → (sub = 3 → is (.mfsr lc (w.extractLsb' 15 5) (w.extractLsb' 10 5) (w.extractLsb' 0 10))) ∧ (sub = 0 → is (.undefinedOpcode lc w))) ∧
    (op = 0x3A → w.extractLsb' 0 8 = (1 : BitVec 8) → is (.addp lc t a (w.extractLsb' 12 4) (w.extractLsb' 8 4) (v.extractLsb' 16 16) (v.extractLsb' 0 16))) ∧
    (op = 0x3E → (w.extractLsb' 16 10 = (1 : BitVec 10) → is (.pause lc imm)) ∧ (w.extractLsb' 16 10 ≠ (1 : BitVec 10) → is (.nop lc (w.extractLsb' 16 10) imm))) := by
  intro op t a sub imm is
  refine ⟨fun hop => ?_, fun hop => ?_, fun hop hsub => ?_, fun hop => ?_⟩
  · have hmajor : (w.extractLsb' 26 6).toNat = 0x2F := congrArg BitVec.toNat hop
    have hwords : decodeWords lc w v = (nth [Instr.liw, .liwu, .lih, .addli] (w.extractLsb' 11 5).toNat).map (fun k => k lc t a (w.extractLsb' 0 11) v) := by
      simp only [decodeWords, coreMinor, hmajor, if_true]
      rfl
    refine ⟨fun hsub => ?_, fun hsub => ?_⟩
    · exact decodeCore_some (by rw [hwords, hsub]; rfl)
    · exact decodeCore_none (by rw [hwords, hsub]; rfl)
  · have hmajor : (w.extractLsb' 26 6).toNat = 0x30 := congrArg BitVec.toNat hop
    refine ⟨fun hsub => ?_, fun hsub => ?_⟩
    · exact decodeCore_some (by rw [decodeWords_formE hmajor (congrArg BitVec.toNat hsub) (by omega)]; rfl)
    · exact decodeCore_none (by rw [decodeWords_formE hmajor (congrArg BitVec.toNat hsub) (by omega)]; rfl)
  · have hmajor : (w.extractLsb' 26 6).toNat = 0x3A := congrArg BitVec.toNat hop
    refine decodeCore_some ?_
    simp only [decodeWords, coreMinor, hmajor, hsub]
    rfl
  · have hmajor : (w.extractLsb' 26 6).toNat = 0x3E := congrArg BitVec.toNat hop
    refine ⟨fun hnum => decodeCore_some ?_, fun hnum => decodeCore_some ?_⟩
    · simp only [decodeWords, hmajor, if_pos hnum]
      rfl
    · simp only [decodeWords, hmajor, if_neg hnum]
      rfl

end

end Sys2Proof
end

section
/-! PROOFS. The clauses of O13 and O60. -/

namespace Sys2Proof.Machine

/-- Settles O13: the branches, the barriers and hints, and the forms of the words. -/
theorem branchesAndHints : Obligations.BranchesAndHints := by
  refine ⟨fun s lc t a b off imm h hia => ?_, fun s lc num opnd h => ?_, fun lc w v => ?_⟩
  · obtain ⟨hb, hbal, hbc, hbct, hbctEnd⟩ := relativeBranches_go h t hia off imm
    exact ⟨hb, hbal, hbc, hbct, hbctEnd, registerBranches_go h t a b⟩
  · exact ⟨plain_unchanged (execSync lc 0 0 0) rfl rfl h rfl ⟨rfl, rfl, rfl, rfl⟩ rfl rfl, plain_unchanged (execIsync lc 0 0 0) rfl rfl h rfl ⟨rfl, rfl, rfl, rfl⟩ rfl rfl,
      plain_unchanged (execNop lc num opnd) rfl rfl h rfl ⟨rfl, rfl, rfl, rfl⟩ rfl rfl, plain_unchanged (execPause lc opnd) rfl rfl h rfl ⟨rfl, rfl, rfl, rfl⟩ rfl rfl⟩
  · obtain ⟨h00, h23, h24, hfma, hfadds, h27, h3D, h3F⟩ := decodeCore_formA lc w v
    obtain ⟨h01, h10, h1C, h2C, h29, h2A⟩ := decodeCore_formsBD lc w v
    obtain ⟨h2F, h30, h3A, h3E⟩ := decodeCore_otherForms lc w v
    exact ⟨coreIlc_eq w, h00, h23, h24, hfma, hfadds, h27, h3D, h01, h10, h1C, h2C, h29, h2A, h2F, h30, h3A, h3E, h3F⟩

/-- Settles O60: a word of major 0x3F is four bytes long and undefined, whatever its other bits hold. -/
theorem majorThreeF : Obligations.MajorThreeF := by
  intro s lc w h hop
  have hmajor : (w.extractLsb' 26 6).toNat = 0x3F := congrArg BitVec.toNat hop
  have hilc : coreIlc w = 4 := by rw [coreIlc_eq, hop]; rfl
  have hundefined : coreDefined w = false := by simp only [coreDefined, hmajor]; rfl
  exact ⟨hilc, hilc ▸ undefinedOpcode_traps (hilc.symm ▸ h) hundefined⟩

end Sys2Proof.Machine
end

section
/-! PROOFS. Cache and TLB maintenance (03 R87, 05 R131, 08 R192 to R200). -/

namespace Sys2Proof.Machine

/-! Running a maintenance instruction -/

section
variable {i : Instr} {s u : State} {lc : Nat} {p : Pre} {w : CoreWait} {body : State → IRes} (e : State → Out) (hi : exec i s = e s) (he : e s = runCore lc p s body)
  (h : ReadyWith s lc 4 w) (hopen : (s.core lc).arch.opened) (hilc : p.ilc = 4) (hplain : p.op = false ∧ p.pv = false) (hsp : p.sp = false)
  (hlow : p.low ≤ (s.core lc).arch.psw.state.toNat)
include hi he h hopen hilc hplain hsp hlow

/-- An instruction of a core whose controls are open and whose state is high enough retires with what its operation leaves (03 R87). -/
theorem controlled_retires (hb : body s = .done u) : Retires i s lc 4 u :=
  hilc ▸ retires_of_done (hi.trans he) (hilc ▸ h) ⟨hplain.1, hplain.2, hsp, hlow, hopen.ictl _⟩ hb

/-- The same for an operation that logs an outcome and changes nothing else. -/
theorem controlled_completes {kind : LogKind} {val : BitVec 256} {cc : BitVec 2} (hb : body s = .done (s.logInput lc kind val cc)) :
    Completes i s lc 4 (s.core lc).arch :=
  completes_of_core (c := { s.core lc with inlog := _ }) (hi.trans he) h hilc ⟨hplain.1, hplain.2, hsp, hlow, hopen.ictl _⟩ hb rfl rfl rfl

end

/-- With nothing to replay, a checkpoint-bound operation that ends in `r` is made (07 R171). -/
theorem ReadyWith.once {s : State} {lc ilc : Nat} {w : CoreWait} (h : ReadyWith s lc ilc w) {kind : LogKind} {again : State → LogEnt → IRes} {issue : State → IRes} {r : IRes}
    (hr : issue s = r) : s.once lc kind again issue = r := (State.once_nil s lc kind again issue h.replay).trans hr

/-! TLB operations (05 R131) -/

/-- The drop of entries is all that a TLB operation does where no other complex is present and no access that used an entry in scope is outstanding. -/
theorem State.tlbOp_alone {s : State} {lc : Nat} {k : TlbKind} {pid : BitVec 8} (va : W64) (hw : (s.core lc).wait = .none) (hothers : s.others = [])
    (hwaits : s.mem.tlbWaits = []) (hleft : s.tlbLeft k pid = ([], [])) : s.tlbOp lc k pid va = .done ((s.dropTlb k pid va).logInput lc .tlb 0 0) := by
  have hlocal : s.tlbLocal s.cxid lc k pid va = s.dropTlb k pid va := by
    rw [State.tlbLocal, hleft]
    rfl
  have hothers' : (s.dropTlb k pid va).others = [] := hothers
  have hbusy : ∀ cx, (s.dropTlb k pid va).tlbBusy cx lc = false := fun cx => by
    have hwaits' : (s.dropTlb k pid va).mem.tlbWaits = [] := hwaits
    rw [State.tlbBusy, hwaits']
    rfl
  simp only [State.tlbOp, hw, hlocal, hothers', List.foldl_nil, hbusy]
  rfl

/-- A TLB operation that every complex has answered, and whose accesses here have ended, completes. -/
theorem State.tlbOp_answered {s : State} {lc : Nat} (k : TlbKind) (pid : BitVec 8) (va : W64) (hw : (s.core lc).wait = .tlbAcks []) (hbusy : s.tlbBusy s.cxid lc = false) :
    s.tlbOp lc k pid va = .done (s.logInput lc .tlb 0 0) := by
  simp only [State.tlbOp, hw, hbusy]
  rfl

/-- A core after a drop keeps its entries out of scope, and all else. -/
theorem State.core_dropTlb (s : State) (k : TlbKind) (pid : BitVec 8) (va : W64) (lc : Nat) :
    (s.dropTlb k pid va).core lc = { s.core lc with tlb := (s.core lc).tlb.filter (fun t => !t.hit k pid va) } := by
  simp only [State.core, State.dropTlb]
  induction s.cores with
  | nil => rfl
  | cons q r ih =>
    simp only [List.map_cons, Tab.get, ih]
    split
    · rfl
    · split <;> rfl

/-- No bit beside the low `n` ones is set in a value below 2^n. -/
theorem outside_low (v : W64) {n : Nat} (hn : n ≤ 64) (hv : v.toNat < 2 ^ n) : outside v (BitVec.ofNat 64 (2 ^ n - 1)) = false := by
  have hmask : v &&& BitVec.ofNat 64 (2 ^ n - 1) = v := by
    rw [← setWidth_setWidth_eq_and v hn]
    apply BitVec.eq_of_toNat_eq
    rw [BitVec.toNat_setWidth, BitVec.toNat_setWidth, Nat.mod_eq_of_lt hv, Nat.mod_eq_of_lt v.isLt]
  have hzero : v &&& ~~~BitVec.ofNat 64 (2 ^ n - 1) = 0 := by
    rw [← hmask, BitVec.and_assoc]
    simp
  rw [outside, hzero]
  rfl

/-! The clauses of O25 -/

section
variable {s u : State} {lc : Nat} (t a : BitVec 5) (hopen : (s.core lc).arch.opened)
include hopen

section
variable (h : Ready s lc 4)
include h

/-- Cache maintenance by address, by range, and by set and way (08 R192 to R200). -/
theorem cacheMaintenance_retires :
    let r := (s.core lc).arch
    let x := r.getG a
    (s.cmoAddr lc x .clean = .done u → Retires (.cleana lc 0 a 0) s lc 4 u) ∧ (s.cmoAddr lc x .clinv = .done u → Retires (.clinva lc 0 a 0) s lc 4 u) ∧
    Retires (.cleanr lc t a 0) s lc 4 (s.rangeIns lc t a .clean 1).1 ∧ Retires (.clinvr lc t a 0) s lc 4 (s.rangeIns lc t a .clinv 3).1 ∧
    (1 ≤ r.psw.state.toNat →
      (s.cmoAddr lc x .inval = .done u → Retires (.invala lc 0 a 0) s lc 4 (u.logInput lc .cache 0 0)) ∧
      Retires (.invalr lc t a 0) s lc 4 ((s.rangeIns lc t a .inval 2).1.logInput lc .cache 0 (s.rangeIns lc t a .inval 2).2) ∧
      (setWayBad x false = false → (s.setWay lc x .clean = .done u → Retires (.cleans lc 0 a 0) s lc 4 u) ∧
        (s.setWay lc x .clinv = .done u → Retires (.clinvs lc 0 a 0) s lc 4 (u.logInput lc .cache 0 0))) ∧
      (setWayBad x true = false → s.setWay lc x .inval = .done u → Retires (.invals lc 0 a 0) s lc 4 (u.logInput lc .cache 0 0))) := by
  intro r x
  refine ⟨fun hu => ?_, fun hu => ?_, ?_, ?_, fun hst => ⟨fun hu => ?_, ?_, fun hgood => ⟨fun hu => ?_, fun hu => ?_⟩, fun hgood hu => ?_⟩⟩
  · exact controlled_retires (execCleana lc 0 a 0) rfl rfl h hopen rfl ⟨rfl, rfl⟩ rfl (Nat.zero_le _) hu
  · exact controlled_retires (execClinva lc 0 a 0) rfl rfl h hopen rfl ⟨rfl, rfl⟩ rfl (Nat.zero_le _) hu
  · exact controlled_retires (execCleanr lc t a 0) rfl rfl h hopen rfl ⟨rfl, rfl⟩ rfl (Nat.zero_le _) rfl
  · exact controlled_retires (execClinvr lc t a 0) rfl rfl h hopen rfl ⟨rfl, rfl⟩ rfl (Nat.zero_le _) rfl
  · have hinval : s.cmoAddr lc ((s.arch lc).getG a) .inval = .done u := hu
    exact controlled_retires (execInvala lc 0 a 0) rfl rfl h hopen rfl ⟨rfl, rfl⟩ rfl hst (h.once (by simp only [hinval]))
  · exact controlled_retires (execInvalr lc t a 0) rfl rfl h hopen rfl ⟨rfl, rfl⟩ rfl hst (h.once rfl)
  · exact controlled_retires (execCleans lc 0 a 0) rfl rfl h hopen rfl ⟨rfl, rfl⟩ hgood hst (congrArg (CmoRes.ends · s IRes.done) hu)
  · exact controlled_retires (execClinvs lc 0 a 0) rfl rfl h hopen rfl ⟨rfl, rfl⟩ hgood hst (h.once (congrArg (CmoRes.ends · s _) hu))
  · exact controlled_retires (execInvals lc 0 a 0) rfl rfl h hopen rfl ⟨rfl, rfl⟩ hgood hst (h.once (congrArg (CmoRes.ends · s _) hu))

/-- TLB operations where no other complex is present and no access that used an entry in scope is outstanding (05 R131). -/
theorem tlbMaintenance_retires (hothers : s.others = []) (hwaits : s.mem.tlbWaits = []) :
    let r := (s.core lc).arch
    let x := r.getG a
    (1 ≤ r.psw.state.toNat →
      (s.tlbLeft .va r.psw.pid = ([], []) → Retires (.tlbiv lc 0 a 0) s lc 4 ((s.dropTlb .va r.psw.pid x).logInput lc .tlb 0 0)) ∧
      (s.tlbLeft .pidAll r.psw.pid = ([], []) → Retires (.tlbia lc 0 0 0) s lc 4 ((s.dropTlb .pidAll r.psw.pid 0).logInput lc .tlb 0 0))) ∧
    (r.psw.state = 2 →
      ((r.getG t).toNat < 256 → s.tlbLeft .pidAll ((r.getG t).setWidth 8) = ([], []) →
        Retires (.tlbip lc t 0 0) s lc 4 ((s.dropTlb .pidAll ((r.getG t).setWidth 8) 0).logInput lc .tlb 0 0)) ∧
      (s.tlbLeft .everything 0 = ([], []) → Retires (.tlbiall lc 0 0 0) s lc 4 ((s.dropTlb .everything 0 0).logInput lc .tlb 0 0))) := by
  intro r x
  obtain ⟨-, -, -, -, hwait, -⟩ := id h
  have hop : ∀ (k : TlbKind) (pid : BitVec 8) (va : W64), s.tlbLeft k pid = ([], []) → s.tlbOp lc k pid va = .done ((s.dropTlb k pid va).logInput lc .tlb 0 0) :=
    fun k pid va => State.tlbOp_alone va hwait hothers hwaits
  refine ⟨fun hst => ⟨fun hleft => ?_, fun hleft => ?_⟩, fun hst => ?_⟩
  · exact controlled_retires (execTlbiv lc 0 a 0) rfl rfl h hopen rfl ⟨rfl, rfl⟩ rfl hst (h.once (hop _ _ _ hleft))
  · exact controlled_retires (execTlbia lc 0 0 0) rfl rfl h hopen rfl ⟨rfl, rfl⟩ rfl hst (h.once (hop _ _ _ hleft))
  · have hlow : 2 ≤ r.psw.state.toNat := by rw [hst]; decide
    refine ⟨fun hpid hleft => ?_, fun hleft => ?_⟩
    · have hbad : ((0 : BitVec 5) != 0 || (0 : BitVec 10) != 0 || outside (r.getG t) 0xFF) = false := outside_low (n := 8) (r.getG t) (by omega) hpid
      exact controlled_retires (execTlbip lc t 0 0) rfl rfl h hopen rfl ⟨rfl, rfl⟩ hbad hlow (h.once (hop _ _ _ hleft))
    · exact controlled_retires (execTlbiall lc 0 0 0) rfl rfl h hopen rfl ⟨rfl, rfl⟩ rfl hlow (h.once (hop _ _ _ hleft))

end

/-- TLB operations that every complex has answered (05 R131). -/
theorem tlbMaintenance_completes (h : ReadyWith s lc 4 (.tlbAcks [])) (hst : (s.core lc).arch.psw.state = 2) (hbusy : s.tlbBusy s.cxid lc = false) :
    Completes (.tlbiv lc 0 a 0) s lc 4 (s.core lc).arch ∧ Completes (.tlbia lc 0 0 0) s lc 4 (s.core lc).arch ∧
      Completes (.tlbiall lc 0 0 0) s lc 4 (s.core lc).arch := by
  obtain ⟨-, -, -, -, hwait, -⟩ := id h
  have hop := fun (k : TlbKind) (pid : BitVec 8) (va : W64) => State.tlbOp_answered k pid va hwait hbusy
  have hlow : 2 ≤ (s.core lc).arch.psw.state.toNat := by rw [hst]; decide
  exact ⟨controlled_completes (execTlbiv lc 0 a 0) rfl rfl h hopen rfl ⟨rfl, rfl⟩ rfl (Nat.le_of_succ_le hlow) (h.once (hop _ _ _)),
    controlled_completes (execTlbia lc 0 0 0) rfl rfl h hopen rfl ⟨rfl, rfl⟩ rfl (Nat.le_of_succ_le hlow) (h.once (hop _ _ _)),
    controlled_completes (execTlbiall lc 0 0 0) rfl rfl h hopen rfl ⟨rfl, rfl⟩ rfl hlow (h.once (hop _ _ _))⟩

end

/-- Settles O25: the operations retire by the lemmas of their groups, and `State.core_dropTlb` says which entries a drop takes. -/
theorem maintenanceInstructions : Obligations.MaintenanceInstructions := by
  refine ⟨fun s u lc t a hopen => ⟨fun h => ?_, tlbMaintenance_completes a hopen⟩, fun s k pid va lc e => ?_⟩
  · obtain ⟨hcleana, hclinva, hcleanr, hclinvr, hupper⟩ := cacheMaintenance_retires (u := u) t a hopen h
    refine ⟨hcleana, hclinva, hcleanr, hclinvr, fun hst => ?_, fun hst ⟨hothers, hwaits⟩ => (tlbMaintenance_retires t a hopen h hothers hwaits).2 hst⟩
    obtain ⟨hinvala, hinvalr, hways, hinvals⟩ := hupper hst
    exact ⟨hinvala, hinvalr, hways, hinvals, fun ⟨hothers, hwaits⟩ => (tlbMaintenance_retires t a hopen h hothers hwaits).1 hst⟩
  · rw [State.core_dropTlb]
    simp [List.mem_filter]

end Sys2Proof.Machine
end

section
/-! PROOFS. Units of the long instructions (03 R90, 04 R101, 06 R158 to R160). -/

namespace Sys2Proof.Machine

/-! How long a unit is -/

/-- Key fact of R158: a step is begun only while bytes of the operand are left. -/
theorem fitLen_le (base per size : Nat) (extra : Nat → Nat) (maxn fuel n ticks : Nat) (hn : n ≤ maxn) : fitLen base per size extra maxn fuel n ticks ≤ maxn := by
  induction fuel generalizing n ticks with
  | zero => exact hn
  | succ fuel ih =>
    simp only [fitLen]
    split
    · exact hn
    · split
      · exact ih _ _ (by omega)
      · exact hn

theorem unitLen_bounds (base per size : Nat) (extra : Nat → Nat) (len : W64) :
    unitLen true base per size extra len = min 4096 len.toNat ∧ unitLen false base per size extra len ≤ min 4096 len.toNat :=
  ⟨rfl, fitLen_le base per size extra _ 65 0 0 (Nat.zero_le _)⟩

/-! Running a unit -/

theorem SRes.bind_of_ok {α β : Type} {x : SRes α} {s : State} {a : α} {f : State → α → SRes β} (h : x = .ok s a) : x.bind f = f s a := by rw [h]; rfl

theorem SRes.run_of_ok {α : Type} {x : SRes α} {s : State} {a : α} {f : State → α → IRes} (h : x = .ok s a) : x.run f = f s a := by rw [h]; rfl

theorem unitRun_of_ok {α : Type} {lc : Nat} {buf : List StEnt} {x : SRes α} {s : State} {a : α} {f : State → α → IRes} (h : x = .ok s a) : unitRun lc buf x f = f s a := by
  rw [h]; rfl

/-- An instruction of every state retires with what its operation leaves. -/
theorem plain_retires {i : Instr} {s u : State} {lc ilc : Nat} {p : Pre} {body : State → IRes} (e : State → Out) (hi : exec i s = e s) (he : e s = runCore lc p s body)
    (h : Ready s lc ilc) (hilc : p.ilc = ilc) (hplain : p.op = false ∧ p.pv = false ∧ p.low = 0 ∧ p.ictl = none) (hsp : p.sp = false) (hb : body s = .done u) :
    Retires i s lc ilc u := by
  subst hilc
  exact retires_of_done (hi.trans he) h (Pre.passes_of_plain hplain hsp) hb

/-- Three different registers break no rule of a long instruction (03 R90). -/
theorem longBad_distinct {t a b : BitVec 5} (hta : t ≠ a) (htb : t ≠ b) (hab : a ≠ b) : longBad t a b 0 = false := by
  simp [longBad, hta, htb, hab]

/-! The units -/

section
variable {s u : State} {lc : Nat} {t a b : BitVec 5} (h : Ready s lc 4) (hbad : longBad t a b 0 = false)
include h hbad

/-- The registers after a unit of `k` bytes of MOVL or CMPL (03 R90). -/
def Arch.advanced (r : Arch) (t a b : BitVec 5) (k : Nat) (q : Arch) : Arch :=
  ((q.setG t (r.getG t + BitVec.ofNat 64 k)).setG a (r.getG a + BitVec.ofNat 64 k)).setG b (r.getG b - BitVec.ofNat 64 k)

/-- How long a unit of MOVL or CMPL is (06 R158, Table MCS-7). -/
def Arch.moveLen (r : Arch) (t a b : BitVec 5) : Nat :=
  unitLen r.psw.ct 32 (movPer (r.getG t) (r.getG a)) 256 (fun k => 4 * (crossings (r.getG t) k + crossings (r.getG a) k)) (r.getG b)

/-- The condition code of a unit of `n` bytes that ends without a verdict of its own: 0 at the end of the operand (03 R90). -/
def unitEnd (n : Nat) (len : W64) : BitVec 2 := if n = len.toNat then 0 else 3

theorem movl_retires {pt : List (Nat × Nat)} {bs : List Byte} :
    let r := (s.core lc).arch
    let x := (s.core lc).xctx lc
    let n := r.moveLen t a b
    s.checkStore x .wr (n / 256 + 2) (r.getG t) n = .ok s pt → s.loadBytes x (n / 256 + 2) (r.getG a) n = .ok s bs → s.copyBytes x n (r.getG t) (r.getG a) = .ok u () →
      Retires (.movl lc t a b 0) s lc 4 ((u.updArch lc (r.advanced t a b n)).unitCc lc (unitEnd n (r.getG b))) := by
  intro r x n hcheck hload hcopy
  exact plain_retires (execMovl lc t a b 0) rfl rfl h rfl ⟨rfl, rfl, rfl, rfl⟩ hbad
    (unitRun_of_ok ((SRes.bind_of_ok hcheck).trans ((SRes.bind_of_ok hload).trans hcopy)))

/-- The condition code of a unit of CMPL of `n` bytes (03 R90): low or high by the pair that differs. -/
def compareEnd (n : Nat) (len : W64) : Option (Byte × Byte) → BitVec 2
  | some (p, q) => if p.toNat < q.toNat then 1 else 2
  | none => unitEnd n len

theorem cmpl_retires (hct : (s.core lc).arch.psw.ct = false) {k : Nat} {d : Option (Byte × Byte)} :
    let r := (s.core lc).arch
    let n := r.moveLen t a b
    s.compareBytes ((s.core lc).xctx lc) 0 n (r.getG t) (r.getG a) = .ok s (k, d) →
      Retires (.cmpl lc t a b 0) s lc 4 ((s.updArch lc (r.advanced t a b k)).unitCc lc (compareEnd n (r.getG b) d)) := by
  intro r n hcmp
  refine plain_retires (execCmpl lc t a b 0) rfl rfl h rfl ⟨rfl, rfl, rfl, rfl⟩ hbad ?_
  refine (SRes.run_of_ok (a := (k, d)) (s := s) ?_).trans ?_
  · exact (if_neg (Bool.not_eq_true _ ▸ hct)).trans hcmp
  · cases d <;> rfl

theorem trtl_retires {pa : List (Nat × Nat)} {bt tab : List Byte} :
    let r := (s.core lc).arch
    let x := (s.core lc).xctx lc
    let vt := r.getG t
    let va := r.getG a
    let len := r.getG b
    let n := unitLen r.psw.ct (24 + 4 * crossings va 256) 64 64 (fun k => 4 * crossings vt k) len
    0 < n → s.loadBytes x (n / 256 + 2) vt n = .ok s bt → s.checkStore x .wr (n / 256 + 2) vt n = .ok s pa → s.loadBytes x 3 va 256 = .ok s tab →
      s.storeBytes x vt (bt.map (fun i => tab.getD i.toNat 0)) = .ok u () →
      Retires (.trtl lc t a b 0) s lc 4
        ((u.updArch lc (fun q => (q.setG t (vt + BitVec.ofNat 64 n)).setG b (len - BitVec.ofNat 64 n))).unitCc lc (unitEnd n len)) := by
  intro r x vt va len n hn hload hcheck htab hstore
  exact plain_retires (execTrtl lc t a b 0) rfl rfl h rfl ⟨rfl, rfl, rfl, rfl⟩ hbad
    ((if_neg (Nat.ne_of_gt hn)).trans
      (unitRun_of_ok ((SRes.bind_of_ok hload).trans ((SRes.bind_of_ok hcheck).trans ((SRes.bind_of_ok htab).trans hstore)))))

/-- A unit of CKSM or CKSM16 whose sum `f` advances (06 R160). -/
theorem cksmUnit_retires {i : Instr} {p : Pre} {f : W64 → List Byte → W64} {bs : List Byte} (e : State → Out) (hi : exec i s = e s)
    (he : e s = cksmUnit lc p t a b f s) (hilc : p.ilc = 4) (hplain : p.op = false ∧ p.pv = false ∧ p.low = 0 ∧ p.ictl = none) (hsp : p.sp = longBad t a b 0) :
    let r := (s.core lc).arch
    let va := r.getG a
    let len := r.getG b
    let n := unitLen r.psw.ct 24 16 256 (fun k => 4 * crossings va k) len
    s.loadBytes ((s.core lc).xctx lc) (n / 256 + 2) va n = .ok s bs →
      Retires i s lc 4 ((s.updArch lc (fun q => ((q.setG t (f (r.getG t) bs)).setG a (va + BitVec.ofNat 64 n)).setG b (len - BitVec.ofNat 64 n))).unitCc lc (unitEnd n len)) := by
  intro r va len n hload
  exact plain_retires e hi he h hilc hplain (hsp.trans hbad) (SRes.run_of_ok hload)

end

/-- Settles O26: each unit is the lemma of its instruction, and `unitLen_bounds` bounds its length. -/
theorem longInstructions : Obligations.LongInstructions := by
  refine ⟨?_, unitLen_bounds⟩
  intro s u lc t a b pt pa bs bt tab h hta htb hab r x vt va len advance cc
  have hbad := longBad_distinct hta htb hab
  refine ⟨?_, ?_, ?_⟩
  · intro n
    refine ⟨?_, ?_, ?_⟩
    · intro hcheck hload hcopy
      exact movl_retires h hbad hcheck hload hcopy
    · intro hct k hcmp
      exact cmpl_retires h hbad hct (d := none) hcmp
    · intro hct k p q hcmp
      exact cmpl_retires h hbad hct (d := some (p, q)) hcmp
  · intro n hn hload hcheck htab hstore
    exact trtl_retires h hbad hn hload hcheck htab hstore
  · intro n hload sums
    have hcksm := cksmUnit_retires h hbad (i := .cksm lc t a b 0) (f := fun v bs => (crc32c (v.setWidth 32) bs).setWidth 64)
      (execCksm lc t a b 0) rfl rfl rfl ⟨rfl, rfl, rfl, rfl⟩ rfl hload
    have hcksm16 := cksmUnit_retires h hbad (i := .cksm16 lc t a b 0) (f := fun v bs => BitVec.ofNat 64 (ones16 (fieldOf v 15 0) bs))
      (execCksm16 lc t a b 0) rfl rfl rfl ⟨rfl, rfl, rfl, rfl⟩ rfl hload
    exact ⟨hcksm, hcksm16⟩

end Sys2Proof.Machine
end

section
/-! PROOFS. Packed decimal instructions (03 R91, 04 R115 to R119). -/

namespace Sys2Proof.Machine

/-! The frame of the decimal instructions -/

/-- The operands of a decimal instruction: apart, the first readable as `p` and writable at `places`, the second readable as `q`. -/
structure DecOperands (s : State) (lc : Nat) (e1 e2 : W64) (n1 n2 : Nat) (p q : List Byte) (places : List (Nat × Nat)) : Prop where
  apart : decOverlap e1 e2 n1 n2 = false
  read1 : s.loadBytes ((s.core lc).xctx lc) 2 e1 n1 = .ok s p
  read2 : s.loadBytes ((s.core lc).xctx lc) 2 e2 n2 = .ok s q
  write1 : s.checkStore ((s.core lc).xctx lc) .wr 2 e1 n1 = .ok s places

/-- What a decimal instruction does with the values of its operands (04 R115): an invalid nibble suppresses. -/
def decApply (s : State) (f : Int → Int → IRes) : Option Int → Option Int → IRes
  | some v1, some v2 => f v1 v2
  | _, _ => .exc s 7

theorem decApply_none (s : State) (f : Int → Int → IRes) (o : Option Int) : decApply s f o none = .exc s 7 := by
  cases o <;> rfl

/-- The meaning of `f` on the two values, as `decIns` calls it. -/
abbrev decCall (s : State) (lc : Nat) (b1 : BitVec 5) (l1 : BitVec 4) (d1 : BitVec 16) (f : State → XCtx → W64 → Nat → Int → Int → IRes) : Int → Int → IRes :=
  f s ((s.core lc).xctx lc) ((s.core lc).arch.getG b1 + d1.signExtend 64) (l1.toNat + 1)

section
variable {i : Instr} {s : State} {lc sub : Nat} {b1 b2 : BitVec 5} {l1 l2 : BitVec 4} {d1 d2 : BitVec 16} {p q : List Byte} {places : List (Nat × Nat)}
  {stores bad : Bool} {f : State → XCtx → W64 → Nat → Int → Int → IRes}
  (ho : DecOperands s lc ((s.core lc).arch.getG b1 + d1.signExtend 64) ((s.core lc).arch.getG b2 + d2.signExtend 64) (l1.toNat + 1) (l2.toNat + 1) p q places)
include ho

/-- On operands that it can reach, a decimal instruction passes its checks and acts on their values. -/
theorem decIns_frame (hbad : bad = false) :
    ∃ (pre : Pre) (body : State → IRes), decIns lc sub b1 b2 l1 l2 d1 d2 stores bad s f = runCore lc pre s body ∧ pre.ilc = 8 ∧ pre.passes (s.core lc).arch ∧
      body s = decApply s (decCall s lc b1 l1 d1 f) (packedVal p) (packedVal q) := by
  obtain ⟨hapart, hread1, hread2, hwrite1⟩ := ho
  have hsp : (bad || decOverlap ((s.core lc).arch.getG b1 + d1.signExtend 64) ((s.core lc).arch.getG b2 + d2.signExtend 64) (l1.toNat + 1) (l2.toNat + 1)) = false := by
    rw [hbad, hapart]; rfl
  have hcheck : ∃ w, (if stores then s.checkStore ((s.core lc).xctx lc) .wr 2 ((s.core lc).arch.getG b1 + d1.signExtend 64) (l1.toNat + 1) else .ok s []) = .ok s w := by
    cases stores
    · exact ⟨[], rfl⟩
    · exact ⟨places, hwrite1⟩
  obtain ⟨w, hw⟩ := hcheck
  refine ⟨_, _, rfl, rfl, Pre.passes_of_plain ⟨rfl, rfl, rfl, rfl⟩ hsp, ?_⟩
  refine (SRes.run_of_ok ((SRes.bind_of_ok hread1).trans ((SRes.bind_of_ok hw).trans (SRes.bind_of_ok hread2)))).trans ?_
  cases packedVal p <;> cases packedVal q <;> rfl

variable (e : State → Out) (hi : exec i s = e s) (he : e s = decIns lc sub b1 b2 l1 l2 d1 d2 stores bad s f) (h : Ready s lc 8)
include hi he h

theorem decIns_retires {u : State} {v1 v2 : Int} (hbad : bad = false) (hp : packedVal p = some v1) (hq : packedVal q = some v2)
    (hf : decCall s lc b1 l1 d1 f v1 v2 = .done u) : Retires i s lc 8 u := by
  obtain ⟨pre, body, hrun, hilc, hpass, hbody⟩ := decIns_frame ho hbad
  rw [hp, hq] at hbody
  exact hilc ▸ retires_of_done (hi.trans (he.trans hrun)) (hilc ▸ h) hpass (hbody.trans hf)

theorem decIns_completes {g : Arch → Arch} {v1 v2 : Int} (hbad : bad = false) (hp : packedVal p = some v1) (hq : packedVal q = some v2)
    (hf : decCall s lc b1 l1 d1 f v1 v2 = .done (s.updArch lc g)) : Completes i s lc 8 (g (s.core lc).arch) := by
  obtain ⟨pre, body, hrun, hilc, hpass, hbody⟩ := decIns_frame ho hbad
  rw [hp, hq] at hbody
  exact completes_of_arch (hi.trans (he.trans hrun)) h hilc hpass (hbody.trans hf)

theorem decIns_traps {code : Nat} (hbad : bad = false) (hf : decApply s (decCall s lc b1 l1 d1 f) (packedVal p) (packedVal q) = .exc s code) :
    Traps i s lc 8 code := by
  obtain ⟨pre, body, hrun, hilc, hpass, hbody⟩ := decIns_frame ho hbad
  exact hilc ▸ traps_of_exc (hi.trans (he.trans hrun)) (hilc ▸ h) hpass (hbody.trans hf)

end

/-! Results -/

section
variable {s u : State} {lc n1 : Nat} {x : XCtx} {e1 : W64} {v : Int} (hstore : s.storeBytes x e1 (packedBytes n1 (decide (v < 0)) v.natAbs) = .ok u ())
include hstore

theorem decResult_fits (hfit : v.natAbs < 10 ^ (2 * n1 - 1)) : decResult lc s x e1 n1 v = .done (u.updArch lc (fun a => a.setCc (ccSign v))) :=
  (SRes.run_of_ok hstore).trans (if_pos (decide_eq_true hfit))

/-- A result with more digits than its operand holds, with DOM = 0 (04 R117). -/
theorem decResult_truncates (hbig : 10 ^ (2 * n1 - 1) ≤ v.natAbs) (hdom : (u.core lc).arch.psw.dom = false) :
    decResult lc s x e1 n1 v = .done (u.updArch lc (fun a => a.setCc 3)) := by
  have hdom' : (((u.updArch lc (fun a => a.setCc 3)).core lc).arch).psw.dom = false := by
    rw [State.core_updArch]; exact hdom
  refine (SRes.run_of_ok hstore).trans ((if_neg ?_).trans (if_neg ?_))
  · exact fun hfit => Nat.not_lt.mpr hbig (of_decide_eq_true hfit)
  · exact Bool.not_eq_true _ ▸ hdom'

end

/-! The instructions -/

/-- What ADDP, SUBP, MULP and DIVP do with their result `v` (04 R117): it is stored, truncated to its digits, CC by key D. -/
def DecResult (i : Instr) (s u : State) (lc : Nat) (b1 : BitVec 5) (l1 : BitVec 4) (d1 : BitVec 16) (v : Int) : Prop :=
  s.storeBytes ((s.core lc).xctx lc) ((s.core lc).arch.getG b1 + d1.signExtend 64) (packedBytes (l1.toNat + 1) (decide (v < 0)) v.natAbs) = .ok u () →
    (v.natAbs < 10 ^ (2 * (l1.toNat + 1) - 1) → Retires i s lc 8 (u.updArch lc (fun a => a.setCc (ccSign v)))) ∧
    (10 ^ (2 * (l1.toNat + 1) - 1) ≤ v.natAbs → (u.core lc).arch.psw.dom = false → Retires i s lc 8 (u.updArch lc (fun a => a.setCc 3)))

section
variable {s : State} {lc : Nat} {b1 b2 : BitVec 5} {l1 l2 : BitVec 4} {d1 d2 : BitVec 16} {p q : List Byte} {places : List (Nat × Nat)} {v1 v2 : Int}
  (h : Ready s lc 8)
  (ho : DecOperands s lc ((s.core lc).arch.getG b1 + d1.signExtend 64) ((s.core lc).arch.getG b2 + d2.signExtend 64) (l1.toNat + 1) (l2.toNat + 1) p q places)
include h ho

theorem decIns_result {i : Instr} {u : State} {sub : Nat} {bad : Bool} {f : State → XCtx → W64 → Nat → Int → Int → IRes} {v : Int} (e : State → Out)
    (hi : exec i s = e s) (he : e s = decIns lc sub b1 b2 l1 l2 d1 d2 true bad s f) (hbad : bad = false)
    (hp : packedVal p = some v1) (hq : packedVal q = some v2)
    (hf : decCall s lc b1 l1 d1 f v1 v2 = decResult lc s ((s.core lc).xctx lc) ((s.core lc).arch.getG b1 + d1.signExtend 64) (l1.toNat + 1) v) :
    DecResult i s u lc b1 l1 d1 v := by
  intro hstore
  refine ⟨fun hfit => ?_, fun hbig hdom => ?_⟩
  · exact decIns_retires ho e hi he h hbad hp hq (hf.trans (decResult_fits hstore hfit))
  · exact decIns_retires ho e hi he h hbad hp hq (hf.trans (decResult_truncates hstore hbig hdom))

theorem addp_result {u : State} (hp : packedVal p = some v1) (hq : packedVal q = some v2) : DecResult (.addp lc b1 b2 l1 l2 d1 d2) s u lc b1 l1 d1 (v1 + v2) :=
  decIns_result h ho (execAddp lc b1 b2 l1 l2 d1 d2) rfl rfl rfl hp hq rfl

theorem subp_result {u : State} (hp : packedVal p = some v1) (hq : packedVal q = some v2) : DecResult (.subp lc b1 b2 l1 l2 d1 d2) s u lc b1 l1 d1 (v1 - v2) :=
  decIns_result h ho (execSubp lc b1 b2 l1 l2 d1 d2) rfl rfl rfl hp hq rfl

theorem cmpp_completes (hp : packedVal p = some v1) (hq : packedVal q = some v2) :
    Completes (.cmpp lc b1 b2 l1 l2 d1 d2) s lc 8 ((s.core lc).arch.setCc (if v1 = v2 then 0 else if v1 < v2 then 1 else 2)) :=
  decIns_completes ho (execCmpp lc b1 b2 l1 l2 d1 d2) rfl rfl h (g := fun r => r.setCc (ccCmp v1 v2)) rfl hp hq rfl

/-- An invalid digit or sign in the second operand suppresses (04 R116). -/
theorem addp_traps (hq : packedVal q = none) : Traps (.addp lc b1 b2 l1 l2 d1 d2) s lc 8 7 :=
  decIns_traps ho (execAddp lc b1 b2 l1 l2 d1 d2) rfl rfl h rfl (hq ▸ decApply_none ..)

theorem cmpp_traps (hq : packedVal q = none) : Traps (.cmpp lc b1 b2 l1 l2 d1 d2) s lc 8 7 :=
  decIns_traps ho (execCmpp lc b1 b2 l1 l2 d1 d2) rfl rfl h rfl (hq ▸ decApply_none ..)

section
variable (hlen : l2.toNat < l1.toNat)
include hlen

theorem mulp_result {u : State} (hp : packedVal p = some v1) (hq : packedVal q = some v2) : DecResult (.mulp lc b1 b2 l1 l2 d1 d2) s u lc b1 l1 d1 (v1 * v2) :=
  decIns_result h ho (execMulp lc b1 b2 l1 l2 d1 d2) rfl rfl (decide_eq_false (Nat.not_le.mpr hlen)) hp hq rfl

theorem divp_result {u : State} (hp : packedVal p = some v1) (hq : packedVal q = some v2) (hv : v2 ≠ 0) :
    DecResult (.divp lc b1 b2 l1 l2 d1 d2) s u lc b1 l1 d1 (v1.tdiv v2) :=
  decIns_result h ho (execDivp lc b1 b2 l1 l2 d1 d2) rfl rfl (decide_eq_false (Nat.not_le.mpr hlen)) hp hq (if_neg hv)

/-- A zero divisor suppresses (04 R118). -/
theorem divp_traps_of_zero (hp : packedVal p = some v1) (hq : packedVal q = some v2) (hv : v2 = 0) : Traps (.divp lc b1 b2 l1 l2 d1 d2) s lc 8 0x0B := by
  refine decIns_traps ho (execDivp lc b1 b2 l1 l2 d1 d2) rfl rfl h (decide_eq_false (Nat.not_le.mpr hlen)) ?_
  rw [hp, hq]
  exact if_pos hv

end
end

/-! Conversion -/

theorem Arch.setCc_fom (a : Arch) (cc : BitVec 2) : (a.setCc cc).psw.fom = a.psw.fom := rfl

theorem Alu.put_fom (r : Alu) (t : BitVec 5) (a : Arch) : (r.put t a).psw.fom = a.psw.fom := by
  simp only [Alu.put]
  split
  · rw [Arch.setCc_fom, Arch.setG_psw]
  · rw [Arch.setG_psw]

section
variable {s : State} {lc : Nat} (h : Ready s lc 4) {t a : BitVec 5} {imm : BitVec 16}
include h

theorem cvdb_completes {p : List Byte} {v : Int} (hread : s.loadBytes ((s.core lc).xctx lc) 2 ((s.core lc).arch.getG a + imm.signExtend 64) 16 = .ok s p)
    (hp : packedVal p = some v) (hovf : (s.core lc).arch.psw.fom = false ∨ fitsSigned 64 v = true) :
    Completes (.cvdb lc t a imm) s lc 4 (((s.core lc).arch.setG t (BitVec.ofInt 64 v)).setCc (keyA 64 v)) := by
  have hval := aluArith_put 64 v t (s.core lc).arch
  rw [BitVec.signExtend_eq] at hval
  have hnone : ((aluArith 64 v).ovf && (((s.updArch lc ((aluArith 64 v).put t)).core lc).arch).psw.fom) = false := by
    rw [State.core_updArch, Alu.put_fom]
    exact Bool.and_eq_false_iff.mpr (aluArith_ovf hovf)
  refine completes_of_plain (execCvdb lc t a imm) rfl rfl h rfl ⟨rfl, rfl, rfl, rfl⟩ rfl ?_ hval
  refine (SRes.run_of_ok hread).trans ?_
  rw [hp]
  exact if_neg (Bool.not_eq_true _ ▸ hnone)

theorem cvbd_retires {u : State}
    (hstore : s.storeBytes ((s.core lc).xctx lc) ((s.core lc).arch.getG a + imm.signExtend 64)
      (packedBytes 16 (decide (((s.core lc).arch.getG t).toInt < 0)) ((s.core lc).arch.getG t).toInt.natAbs) = .ok u ()) :
    Retires (.cvbd lc t a imm) s lc 4 u :=
  plain_retires (execCvbd lc t a imm) rfl rfl h rfl ⟨rfl, rfl, rfl, rfl⟩ rfl (SRes.run_of_ok hstore)

end

/-- Settles O27: the frame of the decimal instructions leaves each its operation on the two values, and `decResult` what becomes of a result. -/
theorem decimalInstructions : Obligations.DecimalInstructions := by
  intro s u lc b1 b2 l1 l2 d1 d2 p q places v1 v2 r x e1 e2 n1
  refine ⟨fun h hapart hread1 hread2 hwrite1 => ?_, fun h => ⟨fun v hread hp hovf => ?_, fun hstore => ?_⟩⟩
  · have ho := DecOperands.mk hapart hread1 hread2 hwrite1
    refine ⟨fun hp hq => ⟨?_, ?_, ?_, fun hlen => ⟨?_, fun hv => ?_, fun hv => ?_⟩⟩, fun hq => ⟨?_, ?_⟩⟩
    · exact addp_result h ho hp hq
    · exact subp_result h ho hp hq
    · exact cmpp_completes h ho hp hq
    · exact mulp_result h ho hlen hp hq
    · exact divp_result h ho hlen hp hq hv
    · exact divp_traps_of_zero h ho hlen hp hq hv
    · exact addp_traps h ho hq
    · exact cmpp_traps h ho hq
  · exact cvdb_completes h hread hp hovf
  · exact cvbd_retires h hstore

end Sys2Proof.Machine
end

section
/-! PROOFS. Integer register instructions (03 R77; 04 R93 to R97): results, divides, and overflows that trap. -/

namespace Sys2Proof.Machine

/-! Values -/

section
variable {w : Nat} (x y : BitVec w)

theorem ofInt_toInt_add : BitVec.ofInt w (x.toInt + y.toInt) = x + y := by rw [BitVec.ofInt_add, BitVec.ofInt_toInt, BitVec.ofInt_toInt]

theorem ofInt_toInt_sub : BitVec.ofInt w (x.toInt - y.toInt) = x - y := by
  rw [Int.sub_eq_add_neg, BitVec.ofInt_add, BitVec.ofInt_neg, BitVec.ofInt_toInt, BitVec.ofInt_toInt, BitVec.sub_eq_add_neg]

theorem ofInt_toInt_mul : BitVec.ofInt w (x.toInt * y.toInt) = x * y := by rw [BitVec.ofInt_mul, BitVec.ofInt_toInt, BitVec.ofInt_toInt]

theorem ofInt_neg_toInt : BitVec.ofInt w (-x.toInt) = -x := by rw [BitVec.ofInt_neg, BitVec.ofInt_toInt]

end

/-- Rotating left by what is missing from 64 rotates right (04 R97). -/
theorem rol_complement (x : W64) (n : Nat) : rol x (64 - n % 64) = x.rotateRight n := by
  rw [rol, BitVec.rotateLeft_mod_eq_rotateLeft, BitVec.rotateLeft_def, BitVec.rotateRight_def, BitVec.or_comm]
  rcases Nat.eq_zero_or_pos (n % 64) with hn | hn
  · simp [hn, BitVec.ushiftRight_eq_zero]
  · have hlt : (64 - n % 64) % 64 = 64 - n % 64 := Nat.mod_eq_of_lt (by omega)
    have hback : 64 - (64 - n % 64) = n % 64 := by omega
    rw [hlt, hback]

theorem extractLsb'_high_ofInt (z : Int) : (BitVec.ofInt 128 z).extractLsb' 64 64 = BitVec.ofInt 64 (z / 2 ^ 64) := by
  apply BitVec.eq_of_toNat_eq
  rw [BitVec.extractLsb'_toNat, BitVec.toNat_ofInt, BitVec.toNat_ofInt, Nat.shiftRight_eq_div_pow]
  omega

/-- The high half of the signed product (04 R95). -/
theorem mulh_eq (x y : W64) : BitVec.ofInt 64 (x.toInt * y.toInt / 2 ^ 64) = (x.signExtend 128 * y.signExtend 128).extractLsb' 64 64 := by
  rw [← extractLsb'_high_ofInt, BitVec.ofInt_mul]
  rfl

/-- The high half of the unsigned product (04 R95). -/
theorem mulhu_eq (x y : W64) : BitVec.ofNat 64 (x.toNat * y.toNat / 2 ^ 64) = (x.setWidth 128 * y.setWidth 128).extractLsb' 64 64 := by
  have hlt : x.toNat * y.toNat < 2 ^ 64 * 2 ^ 64 := Nat.mul_lt_mul'' x.isLt y.isLt
  apply BitVec.eq_of_toNat_eq
  rw [BitVec.extractLsb'_toNat, BitVec.toNat_mul, BitVec.toNat_setWidth_of_le (by omega), BitVec.toNat_setWidth_of_le (by omega),
    Nat.shiftRight_eq_div_pow, BitVec.toNat_ofNat]
  omega

theorem lo32u_eq (x : W64) : lo32u x = (x.setWidth 32).toNat := (BitVec.toNat_setWidth ..).symm

/-! Instructions that write a result -/

section
variable {i : Instr} {s : State} {lc op minor : Nat} {t a b : BitVec 5} {bad : Bool} (e : State → Out) (hi : exec i s = e s) (h : Ready s lc 4)
include hi h

/-- A register instruction with key A (04 R94). -/
theorem arithReg_completes {w : Nat} {f : W64 → W64 → Alu} {n : Int} {v : W64} (he : e s = aluReg op minor lc t a b 0 bad f s) (hbad : bad = false)
    (hf : f ((s.core lc).arch.getG a) ((s.core lc).arch.getG b) = aluArith w n) (hv : (BitVec.ofInt w n).signExtend 64 = v)
    (ho : (s.core lc).arch.psw.fom = false ∨ fitsSigned w n = true) : Completes i s lc 4 (((s.core lc).arch.setG t v).setCc (keyA w n)) :=
  aluReg_completes e hi he h hbad (hf ▸ aluArith_ovf ho) (by rw [hf, aluArith_put, hv])

/-- A register instruction that leaves the condition code (03 R77). -/
theorem plainReg_completes {f : W64 → W64 → Alu} {v : W64} (he : e s = aluReg op minor lc t a b 0 bad f s) (hbad : bad = false)
    (hf : f ((s.core lc).arch.getG a) ((s.core lc).arch.getG b) = aluPlain v) : Completes i s lc 4 ((s.core lc).arch.setG t v) :=
  aluReg_completes e hi he h hbad (.inl (by rw [hf]; rfl)) (by rw [hf, aluPlain_put])

/-- A register instruction with key L (03 R77). -/
theorem logicReg_completes {f : W64 → W64 → Alu} {v : W64} (he : e s = aluReg op minor lc t a b 0 bad f s) (hbad : bad = false)
    (hf : f ((s.core lc).arch.getG a) ((s.core lc).arch.getG b) = aluLogic v) :
    Completes i s lc 4 (((s.core lc).arch.setG t v).setCc (if v = 0 then 0 else 1)) :=
  aluReg_completes e hi he h hbad (.inl (by rw [hf]; rfl)) (by rw [hf, aluLogic_put])

/-- A register compare. -/
theorem cmpReg_completes {f : W64 → W64 → BitVec 2} {cc : BitVec 2} (he : e s = cmpReg minor lc 0 a b 0 f s)
    (hcc : f ((s.core lc).arch.getG a) ((s.core lc).arch.getG b) = cc) : Completes i s lc 4 ((s.core lc).arch.setCc cc) :=
  completes_of_plain e hi he h rfl ⟨rfl, rfl, rfl, rfl⟩ rfl rfl (congrArg (s.core lc).arch.setCc hcc)

end

/-! The clauses of O1 -/

section
variable {s : State} {lc : Nat} (h : Ready s lc 4) (t a b : BitVec 5)
include h

/-- Sums, differences, negatives and products in 64 and in 32 bits (04 R93 to R95). -/
theorem arithRegisters_complete :
    let r := (s.core lc).arch
    let x := r.getG a
    let y := r.getG b
    let x32 := x.setWidth 32
    let y32 := y.setWidth 32
    let arith := fun (i : Instr) (w : Nat) (v : W64) (n : Int) => (r.psw.fom = false ∨ fitsSigned w n = true) → Completes i s lc 4 ((r.setG t v).setCc (keyA w n))
    arith (.add lc t a b 0) 64 (x + y) (x.toInt + y.toInt) ∧ arith (.sub lc t a b 0) 64 (x - y) (x.toInt - y.toInt) ∧
      arith (.neg lc t a 0 0) 64 (-x) (-x.toInt) ∧ arith (.mul lc t a b 0) 64 (x * y) (x.toInt * y.toInt) ∧
      arith (.addw lc t a b 0) 32 ((x32 + y32).signExtend 64) (x32.toInt + y32.toInt) ∧
      arith (.subw lc t a b 0) 32 ((x32 - y32).signExtend 64) (x32.toInt - y32.toInt) ∧
      arith (.negw lc t a 0 0) 32 ((-x32).signExtend 64) (-x32.toInt) ∧
      arith (.mulw lc t a b 0) 32 ((x32 * y32).signExtend 64) (x32.toInt * y32.toInt) := by
  refine ⟨arithReg_completes (execAdd lc t a b 0) rfl h rfl rfl rfl ?_, arithReg_completes (execSub lc t a b 0) rfl h rfl rfl rfl ?_,
    arithReg_completes (execNeg lc t a 0 0) rfl h rfl rfl rfl ?_, arithReg_completes (execMul lc t a b 0) rfl h rfl rfl rfl ?_,
    arithReg_completes (execAddw lc t a b 0) rfl h rfl rfl rfl ?_, arithReg_completes (execSubw lc t a b 0) rfl h rfl rfl rfl ?_,
    arithReg_completes (execNegw lc t a 0 0) rfl h rfl rfl rfl ?_, arithReg_completes (execMulw lc t a b 0) rfl h rfl rfl rfl ?_⟩
  · rw [BitVec.signExtend_eq, ofInt_toInt_add]
  · rw [BitVec.signExtend_eq, ofInt_toInt_sub]
  · rw [BitVec.signExtend_eq, ofInt_neg_toInt]
  · rw [BitVec.signExtend_eq, ofInt_toInt_mul]
  · rw [ofInt_toInt_add]
  · rw [ofInt_toInt_sub]
  · rw [ofInt_neg_toInt]
  · rw [ofInt_toInt_mul]

/-- SLA by a count below 64 (04 R97). -/
theorem sla_completes (hn : ((s.core lc).arch.getG b).toNat < 64)
    (ho : (s.core lc).arch.psw.fom = false ∨ fitsSigned 64 (((s.core lc).arch.getG a).toInt * 2 ^ ((s.core lc).arch.getG b).toNat) = true) :
    Completes (.sla lc t a b 0) s lc 4 (((s.core lc).arch.setG t ((s.core lc).arch.getG a <<< ((s.core lc).arch.getG b).toNat)).setCc
      (keyA 64 (((s.core lc).arch.getG a).toInt * 2 ^ ((s.core lc).arch.getG b).toNat))) :=
  arithReg_completes (execSla lc t a b 0) rfl h rfl rfl (if_neg (Nat.not_le.mpr hn)) ((BitVec.signExtend_eq _).trans (ofInt_mul_two_pow ..)) ho

/-- SLA by a count of 64 or more shifts everything out (04 R97). -/
theorem sla_far_completes (hn : 64 ≤ ((s.core lc).arch.getG b).toNat) (ho : (s.core lc).arch.getG a = 0 ∨ (s.core lc).arch.psw.fom = false) :
    Completes (.sla lc t a b 0) s lc 4 (((s.core lc).arch.setG t 0).setCc (if (s.core lc).arch.getG a = 0 then 0 else 3)) := by
  have hfar : shla ((s.core lc).arch.getG a) ((s.core lc).arch.getG b).toNat =
      { val := 0, cc := some (if (s.core lc).arch.getG a = 0 then 0 else 3), ovf := decide ((s.core lc).arch.getG a ≠ 0) } := if_pos hn
  refine aluReg_completes (execSla lc t a b 0) rfl rfl h rfl ?_ (by rw [hfar]; rfl)
  rw [hfar]
  exact ho.imp_left fun hx => decide_eq_false (not_not_intro hx)

/-- Shifts, rotates, high products and moves leave the condition code, SRA sets key A (04 R95, R97). -/
theorem shiftRegisters_complete :
    let r := (s.core lc).arch
    let x := r.getG a
    let y := r.getG b
    let plain := fun (i : Instr) (v : W64) => Completes i s lc 4 (r.setG t v)
    plain (.sll lc t a b 0) (if 64 ≤ y.toNat then 0 else x <<< y.toNat) ∧ plain (.srl lc t a b 0) (if 64 ≤ y.toNat then 0 else x >>> y.toNat) ∧
      Completes (.sra lc t a b 0) s lc 4 ((r.setG t (x.sshiftRight (min y.toNat 63))).setCc (ccSign (x.sshiftRight (min y.toNat 63)).toInt)) ∧
      plain (.rol lc t a b 0) (x.rotateLeft y.toNat) ∧ plain (.ror lc t a b 0) (x.rotateRight y.toNat) ∧
      plain (.mulh lc t a b 0) ((x.signExtend 128 * y.signExtend 128).extractLsb' 64 64) ∧
      plain (.mulhu lc t a b 0) ((x.setWidth 128 * y.setWidth 128).extractLsb' 64 64) ∧ plain (.mov lc t a 0 0) x := by
  intro r x y plain
  exact ⟨plainReg_completes (execSll lc t a b 0) rfl h rfl rfl rfl, plainReg_completes (execSrl lc t a b 0) rfl h rfl rfl rfl,
    aluReg_completes (execSra lc t a b 0) rfl rfl h rfl (.inl rfl) rfl,
    plainReg_completes (execRol lc t a b 0) rfl h rfl rfl (congrArg aluPlain (BitVec.rotateLeft_mod_eq_rotateLeft ..)),
    plainReg_completes (execRor lc t a b 0) rfl h rfl rfl (congrArg aluPlain (rol_complement x y.toNat)),
    plainReg_completes (execMulh lc t a b 0) rfl h rfl rfl (congrArg aluPlain (mulh_eq x y)),
    plainReg_completes (execMulhu lc t a b 0) rfl h rfl rfl (congrArg aluPlain (mulhu_eq x y)),
    plainReg_completes (execMov lc t a 0 0) rfl h rfl rfl rfl⟩

end

/-- Settles O1: each instruction writes its result by the lemma of its key; the values are the lemmas above. -/
theorem integerRegister : Obligations.IntegerRegister := by
  intro s lc t a b h r x y x32 y32 plain logic arith
  obtain ⟨hadd, hsub, hneg, hmul, haddw, hsubw, hnegw, hmulw⟩ := arithRegisters_complete h t a b
  refine ⟨⟨hadd, hsub, hneg, hmul, haddw, hsubw, hnegw, hmulw, sla_completes h t a b, sla_far_completes h t a b⟩,
    ⟨logicReg_completes (execAnd lc t a b 0) rfl h rfl rfl rfl, logicReg_completes (execOr lc t a b 0) rfl h rfl rfl rfl,
      logicReg_completes (execXor lc t a b 0) rfl h rfl rfl rfl, logicReg_completes (execAndn lc t a b 0) rfl h rfl rfl rfl,
      logicReg_completes (execOrn lc t a b 0) rfl h rfl rfl rfl⟩,
    shiftRegisters_complete h t a b,
    ⟨cmpReg_completes (execCmp lc 0 a b 0) rfl h rfl (ccCmp_toInt x y), cmpReg_completes (execCmpu lc 0 a b 0) rfl h rfl (ccCmp_toNat x y),
      cmpReg_completes (execCmpw lc 0 a b 0) rfl h rfl (ccCmp_toInt x32 y32), cmpReg_completes (execCmpuw lc 0 a b 0) rfl h rfl ?_⟩⟩
  rw [lo32u_eq, lo32u_eq]
  exact ccCmp_toNat x32 y32

/-! Divides -/

section
variable {w : Nat} (hw : 0 < w) (x y : BitVec w)

theorem toInt_eq_zero_iff_eq : y.toInt = 0 ↔ y = 0 :=
  ⟨fun h => BitVec.eq_of_toInt_eq (h.trans BitVec.toInt_zero.symm), fun h => h ▸ BitVec.toInt_zero⟩

/-- The remainder of width `w`, for a divisor that is not zero (04 R96). -/
theorem remS_toInt : remS x.toInt y.toInt = if y ≠ 0 then some (x.srem y).toInt else none := by
  simp only [remS, toInt_eq_zero_iff_eq, BitVec.toInt_srem, ite_not]

include hw

theorem toInt_eq_neg_one_iff : y.toInt = -1 ↔ y = -1 := by
  have hone : (-1 : BitVec w).toInt = -1 := by
    change (-1#w).toInt = -1
    rw [BitVec.neg_one_eq_allOnes, BitVec.toInt_allOnes, if_pos hw]
  rw [← BitVec.toInt_inj, hone]

theorem toInt_eq_intMin_iff : x.toInt = -(2 ^ (w - 1)) ↔ x = BitVec.intMin w := by
  rw [← BitVec.toInt_inj, BitVec.toInt_intMin_of_pos hw]

/-- The quotient of width `w` fits unless the smallest number is divided by −1 (04 R96). -/
theorem divS_toInt : divS w x.toInt y.toInt = if y ≠ 0 ∧ ¬(x = BitVec.intMin w ∧ y = -1) then some (x.sdiv y).toInt else none := by
  simp only [divS, Bool.or_eq_true, Bool.and_eq_true, decide_eq_true_eq, toInt_eq_zero_iff_eq, toInt_eq_intMin_iff hw, toInt_eq_neg_one_iff hw, ← not_or, ite_not]
  split
  next => rfl
  next hok =>
    have hfit : x ≠ BitVec.intMin w ∨ y ≠ -1 := not_and_or.mp fun hmin => hok (.inr hmin)
    rw [BitVec.toInt_sdiv_of_ne_or_ne x y hfit]

end

section
variable {i : Instr} {s : State} {lc minor : Nat} {t a b : BitVec 5} (e : State → Out) (hi : exec i s = e s)
include hi

/-- An instruction of every state whose operation raises an exception before it has changed anything. -/
theorem traps_of_plain {p : Pre} {body : State → IRes} {ilc code : Nat} (he : e s = runCore lc p s body) (h : Ready s lc ilc) (hilc : p.ilc = ilc)
    (hplain : p.op = false ∧ p.pv = false ∧ p.low = 0 ∧ p.ictl = none) (hsp : p.sp = false) (hb : body s = .exc s code) : Traps i s lc ilc code := by
  subst hilc
  exact traps_of_exc (hi.trans he) h (Pre.passes_of_plain hplain hsp) hb

variable (h : Ready s lc 4)
include h

/-- A divide writes its result where it has one, and is suppressed where it has none (04 R96). -/
theorem divReg_divides {f : W64 → W64 → Option W64} {ok : Prop} [Decidable ok] {v : W64} (he : e s = divReg minor lc t a b 0 f s)
    (hf : f ((s.core lc).arch.getG a) ((s.core lc).arch.getG b) = if ok then some v else none) :
    (ok → Completes i s lc 4 ((s.core lc).arch.setG t v)) ∧ (¬ok → Traps i s lc 4 9) := by
  refine ⟨fun hok => ?_, fun hok => ?_⟩
  · have hres := hf.trans (if_pos hok)
    exact completes_of_alu e hi he h (r := aluPlain v) rfl ⟨rfl, rfl, rfl, rfl⟩ rfl (by simp only [State.arch, hres]) (.inl rfl) rfl
  · have hres := hf.trans (if_neg hok)
    exact traps_of_plain e hi he h rfl ⟨rfl, rfl, rfl, rfl⟩ rfl (by simp only [State.arch, hres])

end

/-- Settles O2: where each divide has a result is `divS_toInt` and `remS_toInt`. -/
theorem divides : Obligations.Divides := by
  intro s lc t a b h r x y x32 y32 div
  refine ⟨divReg_divides (execDiv lc t a b 0) rfl h rfl ?_, divReg_divides (execDivu lc t a b 0) rfl h rfl (ite_not ..).symm,
    divReg_divides (execRem lc t a b 0) rfl h rfl ?_, divReg_divides (execRemu lc t a b 0) rfl h rfl (ite_not ..).symm,
    divReg_divides (execDivw lc t a b 0) rfl h rfl ?_, divReg_divides (execRemw lc t a b 0) rfl h rfl ?_⟩
  · rw [divS_toInt (by omega), apply_ite (Option.map _), Option.map_some, BitVec.ofInt_toInt, Option.map_none]
  · rw [remS_toInt, apply_ite (Option.map _), Option.map_some, BitVec.ofInt_toInt, Option.map_none]
  · exact (congrArg _ (divS_toInt (by omega) x32 y32)).trans (apply_ite ..)
  · exact (congrArg _ (remS_toInt x32 y32)).trans (apply_ite ..)

/-! Overflows that trap -/

/-- An instruction whose operation completes and raises an exception (04 R94, R107). -/
theorem thenTraps_of_doneExc {i : Instr} {lc ilc : Nat} {p : Pre} {w : CoreWait} {s : State} {body : State → IRes} {u : Arch} {code dxc : Nat}
    (hi : exec i s = runCore lc p s body) (h : ReadyWith s lc ilc w) (hilc : p.ilc = ilc) (hp : p.passes (s.core lc).arch)
    (hb : body s = .doneExc (s.updArch lc (fun _ => u)) code dxc) : ThenTraps i s lc ilc code dxc u := by
  subst hilc
  have hend : ended lc p s (.doneExc (s.updArch lc (fun _ => u)) code dxc) = (s.updArch lc (fun _ => u)).completeInt lc p (s.core lc) code dxc := by
    simp only [ended, State.finish]
  exact ⟨p, rfl, hend ▸ exec_of_body hi h hp hb⟩

/-- With FOM = 1 an overflow is written and raises 0x0008 (04 R94). -/
theorem State.setAlu_eq_doneExc (s : State) (lc : Nat) (t : BitVec 5) (r : Alu) (ho : r.ovf = true) (hfom : (s.core lc).arch.psw.fom = true) :
    s.setAlu lc t r = .doneExc (s.updArch lc (fun _ => r.put t (s.core lc).arch)) 8 0 := by
  have hon : (r.ovf && ((s.arch lc).setG t r.val).psw.fom) = true := by
    rw [Arch.setG_psw]
    exact Bool.and_eq_true_iff.mpr ⟨ho, hfom⟩
  simp only [State.setAlu, if_pos hon]
  rfl

section
variable {s : State} {lc : Nat} (h : Ready s lc 4) (hfom : (s.core lc).arch.psw.fom = true)
include h hfom

theorem thenTraps_of_overflow {i : Instr} {t : BitVec 5} {w : Nat} {n : Int} {p : Pre} {body : State → IRes} {r : Alu} {v : W64} (hi : exec i s = runCore lc p s body)
    (hilc : p.ilc = 4) (hplain : p.op = false ∧ p.pv = false ∧ p.low = 0 ∧ p.ictl = none) (hsp : p.sp = false) (hb : body s = s.setAlu lc t r)
    (hr : r = aluArith w n) (hv : (BitVec.ofInt w n).signExtend 64 = v) (ho : fitsSigned w n = false) :
    ThenTraps i s lc 4 8 0 (((s.core lc).arch.setG t v).setCc 3) := by
  have hovf : r.ovf = true := by rw [hr]; simp [aluArith, arith, ho]
  have hput : r.put t (s.core lc).arch = ((s.core lc).arch.setG t v).setCc 3 := by
    rw [hr, aluArith_put, hv, keyA, if_neg (by simp [ho])]
  exact hput ▸ thenTraps_of_doneExc hi h hilc (Pre.passes_of_plain hplain hsp) (hb.trans (State.setAlu_eq_doneExc s lc t r hovf hfom))

theorem aluReg_overflows {i : Instr} {op minor w : Nat} {t a b : BitVec 5} {bad : Bool} {f : W64 → W64 → Alu} {n : Int} {v : W64} (e : State → Out) (hi : exec i s = e s)
    (he : e s = aluReg op minor lc t a b 0 bad f s) (hbad : bad = false) (hf : f ((s.core lc).arch.getG a) ((s.core lc).arch.getG b) = aluArith w n)
    (hv : (BitVec.ofInt w n).signExtend 64 = v) (ho : fitsSigned w n = false) : ThenTraps i s lc 4 8 0 (((s.core lc).arch.setG t v).setCc 3) :=
  thenTraps_of_overflow h hfom (hi.trans he) rfl ⟨rfl, rfl, rfl, rfl⟩ hbad rfl hf hv ho

theorem aluImm_overflows {i : Instr} {op w : Nat} {t a : BitVec 5} {imm : BitVec 16} {bad : Bool} {f : W64 → Alu} {n : Int} {v : W64} (e : State → Out) (hi : exec i s = e s)
    (he : e s = aluImm op lc t a imm bad f s) (hbad : bad = false) (hf : f ((s.core lc).arch.getG a) = aluArith w n)
    (hv : (BitVec.ofInt w n).signExtend 64 = v) (ho : fitsSigned w n = false) : ThenTraps i s lc 4 8 0 (((s.core lc).arch.setG t v).setCc 3) :=
  thenTraps_of_overflow h hfom (hi.trans he) rfl ⟨rfl, rfl, rfl, rfl⟩ hbad rfl hf hv ho

end

/-- Settles O4: each instruction has key A of its true result, and an overflow of it ends by `State.setAlu_eq_doneExc`. -/
theorem overflowTraps : Obligations.OverflowTraps := by
  intro s lc t a b imm h hfom r x y ovf over32
  have hs : (sext imm).toInt = imm.toInt := sext_toInt (by omega) imm
  have hw : ∀ n : Int, (BitVec.ofInt 64 n).signExtend 64 = BitVec.ofInt 64 n := fun n => BitVec.signExtend_eq _
  exact ⟨aluReg_overflows h hfom (execAdd lc t a b 0) rfl rfl rfl rfl (hw _), aluReg_overflows h hfom (execSub lc t a b 0) rfl rfl rfl rfl (hw _),
    aluReg_overflows h hfom (execMul lc t a b 0) rfl rfl rfl rfl (hw _), aluImm_overflows h hfom (execAddi lc t a imm) rfl rfl rfl (by rw [hs]) (hw _),
    aluImm_overflows h hfom (execAddis lc t a imm) rfl rfl rfl (by rw [hs]) (hw _), aluImm_overflows h hfom (execMuli lc t a imm) rfl rfl rfl (by rw [hs]) (hw _),
    aluReg_overflows h hfom (execAddw lc t a b 0) rfl rfl rfl rfl rfl, aluReg_overflows h hfom (execSubw lc t a b 0) rfl rfl rfl rfl rfl,
    aluReg_overflows h hfom (execMulw lc t a b 0) rfl rfl rfl rfl rfl, aluImm_overflows h hfom (execAddiw lc t a imm) rfl rfl rfl (by rw [lo32_sext]; rfl) rfl,
    aluReg_overflows h hfom (execNeg lc t a 0 0) rfl rfl rfl rfl (hw _), aluReg_overflows h hfom (execNegw lc t a 0 0) rfl rfl rfl rfl rfl⟩

end Sys2Proof.Machine
end

section
/-! PROOFS. Rounding (04 R106): what a format holds exactly is its own rounding. -/

namespace Sys2Proof.Machine

/-- How the parameters of a binary format hang together (04 R103). -/
structure Fmt.Regular (f : Fmt) : Prop where
  prec : f.p = f.fb + 1
  wide : 2 ≤ f.eb
  top : f.emax = f.emin + (2 ^ f.eb : Nat) - 3 + f.fb

theorem fmt64_regular : fmt64.Regular := ⟨rfl, by decide, by decide⟩

theorem fmt32_regular : fmt32.Regular := ⟨rfl, by decide, by decide⟩

theorem roundTo_of_le {rm m : Nat} {n st : Bool} {e q : Int} (h : q ≤ e) : roundTo rm n m e q st = (m * 2 ^ (e - q).toNat, st) := if_pos h

/-- A magnitude m × 2^e that a format holds: its exponent is in range, and its top bit stands at the hidden bit unless it is subnormal (04 R103). -/
structure Fmt.Holds (f : Fmt) (m : Nat) (e : Int) : Prop where
  lt : m < 2 ^ f.p
  low : f.emin ≤ e
  high : e + ((f.p : Int) - 1) ≤ f.emax
  normal : e = f.emin ∨ 2 ^ (f.p - 1) ≤ m

section
variable {f : Fmt} {m : Nat} {e : Int} (h : f.Holds m e)
include h

theorem Fmt.Holds.log2_lt (hm : m ≠ 0) : m.log2 < f.p := (Nat.log2_lt hm).mpr h.lt

/-- A held magnitude is rounded to the units in which it is given. -/
theorem Fmt.Holds.unit_eq (hm : m ≠ 0) : max (e + (m.log2 : Int) - ((f.p : Int) - 1)) f.emin = e := by
  have hlog := h.log2_lt hm
  have hlow := h.low
  rcases h.normal with he | hbig
  · omega
  · have hle := (Nat.le_log2 hm).mpr hbig
    omega

/-- Key fact of R106: no mode changes a held magnitude, and no condition is met. -/
theorem Fmt.round_of_holds (rm : Nat) (n : Bool) :
    f.round rm n m e false = (f.sign n + if m < 2 ^ (f.p - 1) then m else (e - f.emin + 1).toNat * 2 ^ f.fb + (m - 2 ^ (f.p - 1)), 0) := by
  by_cases hm : m = 0
  · subst hm
    rw [if_pos (Nat.two_pow_pos _)]
    rfl
  have hexact : roundTo rm n m e e false = (m, false) := by
    rw [roundTo_of_le (Int.le_refl e), Int.sub_self, Int.toNat_zero, Nat.pow_zero, Nat.mul_one]
  have hfits : ¬f.p ≤ m.log2 := Nat.not_le.mpr (h.log2_lt hm)
  have hover : decide (f.emax < e + ((f.p : Int) - 1)) = false := decide_eq_false (Int.not_lt.mpr h.high)
  simp only [Fmt.round, h.unit_eq hm, hexact, if_neg hfits, hover, decide_eq_false hm, Bool.false_and, Bool.false_eq_true, if_false]

end

/-- A datum below 2^(1 + exponent + fraction) is its sign, its exponent and its fraction side by side. -/
theorem Fmt.split (f : Fmt) {x : Nat} (hx : x < 2 ^ (f.fb + f.eb + 1)) :
    f.sign (x / 2 ^ (f.fb + f.eb) % 2 == 1) + (x / 2 ^ f.fb % 2 ^ f.eb * 2 ^ f.fb + x % 2 ^ f.fb) = x := by
  have htop : x / 2 ^ (f.fb + f.eb) < 2 := Nat.div_lt_of_lt_mul (by rwa [← Nat.pow_succ])
  have hsign : f.sign (x / 2 ^ (f.fb + f.eb) % 2 == 1) = 2 ^ (f.fb + f.eb) * (x / 2 ^ (f.fb + f.eb)) := by
    rcases Nat.le_one_iff_eq_zero_or_eq_one.mp (Nat.le_of_lt_succ htop) with h | h <;> simp [h, Fmt.sign]
  have hlow : x % 2 ^ (f.fb + f.eb) = x % 2 ^ f.fb + 2 ^ f.fb * (x / 2 ^ f.fb % 2 ^ f.eb) := by rw [Nat.pow_add, Nat.mod_mul]
  have hall := Nat.div_add_mod x (2 ^ (f.fb + f.eb))
  rw [hsign, Nat.mul_comm (x / 2 ^ f.fb % 2 ^ f.eb)]
  omega

/-- A finite datum: its magnitude is held, and rounding's packing of it is its exponent and fraction. -/
theorem Fmt.Regular.unpack_fin {f : Fmt} (hf : f.Regular) {x m : Nat} {n : Bool} {e : Int} (h : f.unpack x = .fin n m e) :
    f.Holds m e ∧ (x / 2 ^ (f.fb + f.eb) % 2 == 1) = n ∧
      (if m < 2 ^ (f.p - 1) then m else (e - f.emin + 1).toNat * 2 ^ f.fb + (m - 2 ^ (f.p - 1))) = x / 2 ^ f.fb % 2 ^ f.eb * 2 ^ f.fb + x % 2 ^ f.fb := by
  obtain ⟨hprec, hwide, htop⟩ := hf
  have hpred : f.p - 1 = f.fb := by omega
  have hpow : 2 ^ f.p = 2 * 2 ^ f.fb := by rw [hprec, Nat.pow_succ']
  have hexps : 4 ≤ 2 ^ f.eb := Nat.pow_le_pow_right (n := 2) (by omega) hwide
  have hfrac : x % 2 ^ f.fb < 2 ^ f.fb := Nat.mod_lt _ (Nat.two_pow_pos _)
  have hex : x / 2 ^ f.fb % 2 ^ f.eb < 2 ^ f.eb := Nat.mod_lt _ (Nat.two_pow_pos _)
  simp only [Fmt.unpack] at h
  generalize x % 2 ^ f.fb = frac at *
  generalize x / 2 ^ f.fb % 2 ^ f.eb = ex at *
  rw [hpred]
  split at h
  next => split at h <;> cases h
  next hspecial =>
    split at h
    next hsub =>
      cases h
      subst hsub
      refine ⟨⟨by omega, Int.le_refl _, by omega, .inl rfl⟩, rfl, ?_⟩
      rw [if_pos hfrac]
      omega
    next hnorm =>
      cases h
      have hexp : (f.emin + (ex : Int) - 1 - f.emin + 1).toNat = ex := by omega
      refine ⟨⟨by omega, by omega, by omega, .inr (by rw [hpred]; omega)⟩, rfl, ?_⟩
      rw [if_neg (by omega), hexp, Nat.add_sub_cancel]

/-- Settles O12: what a finite datum unpacks to is held by its format, and rounding packs it as it was. -/
theorem exactResultsRoundToThemselves : Obligations.ExactResultsRoundToThemselves := by
  intro f hformat rm x n m e hx hunpack
  have hf : f.Regular := by
    rcases hformat with rfl | rfl
    · exact fmt64_regular
    · exact fmt32_regular
  obtain ⟨hholds, hsign, hbits⟩ := hf.unpack_fin hunpack
  rw [Fmt.round_of_holds hholds, ← hsign, hbits, f.split hx]

end Sys2Proof.Machine
end

section
/-! PROOFS. Floating point (04 R107, R108, R110 to R112): conditions that trap, and the special cases of the operations. -/

namespace Sys2Proof.Machine

/-! Conditions that trap (04 R107) -/

/-- The DXC of a set of conditions, by the bits of the set (04 Table ARI-3). -/
theorem fpDxc_eq (k : Nat) :
    fpDxc k = if k.testBit 4 then 0x80 else if k.testBit 3 then 0x40 else if k.testBit 2 then 0x20 else if k.testBit 1 then 0x10 else 0x08 := by
  simp only [fpDxc, Nat.testBit_eq_decide_div_mod_eq, decide_eq_true_eq]

/-- An enabled overflow, underflow or inexact writes the result first. -/
theorem State.fpEnd_completes {s : State} {lc k : Nat} (put : Arch → Arch) (hon : k &&& (s.core lc).arch.fpEna ≠ 0) (hlow : k &&& (s.core lc).arch.fpEna &&& 24 = 0) :
    s.fpEnd lc k put = .doneExc (s.updArch lc (fun _ => (s.core lc).arch.fpFlags k (put (s.core lc).arch))) 0x0C (fpDxc (k &&& (s.core lc).arch.fpEna)) := by
  have hhigh : ¬(k &&& (s.arch lc).fpEna &&& (fpNV + fpDZ) ≠ 0) := not_not_intro hlow
  have hsome : ¬(k &&& (s.arch lc).fpEna = 0) := hon
  rw [State.fpEnd, if_neg hhigh, if_neg hsome]
  simp only [State.updArch, State.updCore, State.arch, Arch.fpFlags]

section
variable {i : Instr} {s : State} {lc : Nat} {e : State → Out} (hi : exec i s = e s)
include hi

/-- An enabled invalid or divide-by-zero suppresses. -/
theorem trapsAt_of_excFp {ilc dxc : Nat} {p : Pre} {w : CoreWait} {body : State → IRes} (he : e s = runCore lc p s body) (h : ReadyWith s lc ilc w)
    (hilc : p.ilc = ilc) (hp : p.passes (s.core lc).arch) (hb : body s = .excFp s dxc) : TrapsAt i s lc ilc 0x0C (BitVec.ofNat 64 dxc) := by
  subst hilc
  exact ⟨p.words, exec_of_body (hi.trans he) h hp hb⟩

theorem fpIns_traps {f : Fmt} {minor x y z dxc : Nat} {t a b c : BitVec 5} {bad : Bool} {op : Nat → Nat → Nat → Nat → Nat × Nat} {v : Nat × Nat}
    (h : Ready s lc 4) (he : e s = fpIns f minor lc t a b c bad op s) (hbad : bad = false) (hx : f.ofReg ((s.core lc).arch.getF a) = x) (hy : f.ofReg ((s.core lc).arch.getF b) = y)
    (hz : f.ofReg ((s.core lc).arch.getF c) = z) (hv : op (s.core lc).arch.fpRm x y z = v) (hdxc : fpDxc (v.2 &&& (s.core lc).arch.fpEna) = dxc) :
    (v.2 &&& (s.core lc).arch.fpEna &&& 24 ≠ 0 → TrapsAt i s lc 4 0x0C (BitVec.ofNat 64 dxc)) ∧
      (v.2 &&& (s.core lc).arch.fpEna ≠ 0 → v.2 &&& (s.core lc).arch.fpEna &&& 24 = 0 →
        ThenTraps i s lc 4 0x0C dxc ((s.core lc).arch.fpFlags v.2 ((s.core lc).arch.setF t (BitVec.ofNat 64 v.1)))) := by
  subst hx hy hz hv hdxc
  refine ⟨fun hhigh => ?_, fun hon hlow => ?_⟩
  · exact trapsAt_of_excFp hi he h rfl (Pre.passes_of_plain ⟨rfl, rfl, rfl, rfl⟩ hbad) (if_pos hhigh)
  · exact thenTraps_of_doneExc (hi.trans he) h rfl (Pre.passes_of_plain ⟨rfl, rfl, rfl, rfl⟩ hbad) (State.fpEnd_completes _ hon hlow)

end

/-! NaN operands (04 R108, R112) -/

section
variable (f : Fmt) (n : Bool) (fr : Nat)

theorem Fmt.signalling_nan : f.signalling (.nan n fr) = !fr.testBit (f.fb - 1) := by
  rw [Fmt.signalling, Nat.testBit_eq_decide_div_mod_eq]
  rcases Nat.mod_two_eq_zero_or_one (fr / 2 ^ (f.fb - 1)) with h | h <;> rw [h] <;> rfl

theorem Fmt.nanOf_single : f.nanOf [.nan n fr] = some (f.quiet n fr, if fr.testBit (f.fb - 1) then 0 else 16) := by
  change some (f.quiet n fr, if f.signalling (.nan n fr) || false then fpNV else 0) = _
  rw [Bool.or_false, Fmt.signalling_nan]
  cases fr.testBit (f.fb - 1) <;> rfl

section
variable {x : Fp} (hx : ∀ q k, x ≠ .nan q k)
include hx

theorem Fmt.signalling_of_number : f.signalling x = false := by
  cases x with
  | nan q k => exact absurd rfl (hx q k)
  | inf n => rfl
  | fin n m e => rfl

/-- The first NaN operand is the result, quieted. -/
theorem Fmt.nanOf_left : f.nanOf [.nan n fr, x] = some (f.quiet n fr, if fr.testBit (f.fb - 1) then 0 else 16) := by
  rw [← Fmt.nanOf_single]
  change some (f.quiet n fr, if f.signalling (.nan n fr) || (f.signalling x || false) then fpNV else 0) = _
  rw [Fmt.signalling_of_number f hx]
  rfl

theorem Fmt.nanOf_right : f.nanOf [x, .nan n fr] = some (f.quiet n fr, if fr.testBit (f.fb - 1) then 0 else 16) := by
  rw [← Fmt.nanOf_single]
  cases x with
  | nan q k => exact absurd rfl (hx q k)
  | inf n => rfl
  | fin n m e => rfl

end

theorem Fmt.add_of_nan {x y : Fp} {v : Nat × Nat} (rm : Nat) (h : f.nanOf [x, y] = some v) : f.add rm x y = v := by
  simp only [Fmt.add, h]

theorem Fmt.mul_of_nan {x y : Fp} {v : Nat × Nat} (rm : Nat) (h : f.nanOf [x, y] = some v) : f.mul rm x y = v := by
  simp only [Fmt.mul, h]

theorem Fmt.div_of_nan {x y : Fp} {v : Nat × Nat} (rm : Nat) (h : f.nanOf [x, y] = some v) : f.div rm x y = v := by
  simp only [Fmt.div, h]

theorem Fmt.sqrt_of_nan {x : Fp} {v : Nat × Nat} (rm : Nat) (h : f.nanOf [x] = some v) : f.sqrt rm x = v := by
  simp only [Fmt.sqrt, h]

theorem Fp.cmp_nan (x : Fp) : x.cmp (.nan n fr) = none := by
  cases x <;> rfl

/-- A compare with a NaN is unordered: FCMPS raises invalid for any NaN, FCMP for a signalling one (04 R112). -/
theorem Fmt.compare_nan {x : Fp} (hx : ∀ q k, x ≠ .nan q k) (sig : Bool) :
    f.compare sig x (.nan n fr) = (3, if sig then 16 else if fr.testBit (f.fb - 1) then 0 else 16) := by
  rw [Fmt.compare, Fp.cmp_nan, Fmt.signalling_of_number f hx, Fmt.signalling_nan, Bool.or_false]
  cases sig <;> cases fr.testBit (f.fb - 1) <;> rfl

end

/-! Sums and compares of finite numbers (04 R111, R112) -/

section
variable (f : Fmt) (rm : Nat) (n n' : Bool) {m m' : Nat} (e e' : Int)

theorem addExact_zeros : (addExact n 0 e n' 0 e').1 = 0 := by simp [addExact]

theorem addExact_opposite : (addExact n m e (!n) m e).1 = 0 := by
  cases n <;> simp [addExact]

/-- An exact zero sum of zeros has the sign that `zeroSign` gives. -/
theorem Fmt.addFin_zeros : f.addFin rm n 0 e n' 0 e' = (f.sign (zeroSign rm n n'), 0) := by
  rw [Fmt.addFin, if_pos (addExact_zeros ..)]
  rfl

/-- An exact zero sum of nonzero numbers is −0 only when rounding down. -/
theorem Fmt.addFin_opposite (hm : 0 < m) : f.addFin rm n m e (!n) m e = (f.sign (rm == 3), 0) := by
  rw [Fmt.addFin, if_pos (addExact_opposite ..), decide_eq_false (Nat.ne_of_gt hm)]
  rfl

theorem zeroSign_same : zeroSign rm n n = n := by rw [zeroSign, beq_self_eq_true, if_pos rfl]

theorem zeroSign_opposite : zeroSign rm n (!n) = (rm == 3) := by
  cases n <;> rfl

/-- Zeros are equal, whatever their signs. -/
theorem Fmt.compare_zeros : f.compare false (.fin n 0 e) (.fin n' 0 e') = (0, 0) := by
  rw [Fmt.compare, Fp.cmp, addExact_zeros]
  rfl

/-- A negative number is below a positive one. -/
theorem Fmt.compare_signs (hm : 0 < m) (hm' : 0 < m') : f.compare false (.fin true m e) (.fin false m' e') = (1, 0) := by
  have hneg : (addExact true m e (!false) m' e').1 < 0 := by
    have h1 := Nat.mul_pos hm (Nat.two_pow_pos (e - min e e').toNat)
    have h2 := Nat.mul_pos hm' (Nat.two_pow_pos (e' - min e e').toNat)
    simp only [addExact, Bool.not_false, if_true]
    omega
  rw [Fmt.compare, Fp.cmp, Int.sign_eq_neg_one_of_neg hneg]
  rfl

end

/-- Settles O11: the traps are `fpIns_traps`, a NaN operand ends an operation by `Fmt.nanOf`, and the other cases are branches of the operations. -/
theorem floatingPointTraps : Obligations.FloatingPointTraps := by
  refine ⟨fun s lc t a b h => ?_, fun f _ rm n n' fr m m' e e' x _ hm hm' hx => ?_⟩
  · intro r traps x y
    have hx := fmt64_ofReg (r.getF a)
    have hy := fmt64_ofReg (r.getF b)
    exact ⟨fpIns_traps (e := execFadd lc t a b 0) rfl h rfl rfl hx hy rfl rfl (fpDxc_eq _), fpIns_traps (e := execFmul lc t a b 0) rfl h rfl rfl hx hy rfl rfl (fpDxc_eq _),
      fpIns_traps (e := execFdiv lc t a b 0) rfl h rfl rfl hx hy rfl rfl (fpDxc_eq _), fpIns_traps (e := execFsqrt lc t a 0 0) rfl h rfl rfl hx rfl rfl rfl (fpDxc_eq _)⟩
  · intro quieted nv
    have hleft := f.nanOf_left n fr hx
    have hright := f.nanOf_right n fr hx
    have hm0 : m ≠ 0 := Nat.ne_of_gt hm
    refine ⟨f.add_of_nan rm hleft, f.add_of_nan rm hright, f.mul_of_nan rm hright, f.div_of_nan rm hleft, f.sqrt_of_nan rm (f.nanOf_single n fr), f.compare_nan n fr hx true, f.compare_nan n fr hx false,
      ?_, rfl, rfl, rfl, ?_, rfl, ?_, rfl, rfl, ?_, f.addFin_opposite rm n e hm, ?_, ?_,
      f.compare_zeros n n' e e', f.compare_signs e e' hm hm', rfl⟩
    · cases n <;> rfl
    · exact if_neg hm0
    · exact if_neg hm0
    · exact if_neg hm0
    · exact (f.addFin_zeros rm n n e e').trans (by rw [zeroSign_same])
    · exact (f.addFin_zeros rm n (!n) e e').trans (by rw [zeroSign_opposite])

end Sys2Proof.Machine
end

section
/-! PROOFS. Packed decimal values (04 R115, R116): what is written as nibbles reads back. -/

namespace Sys2Proof.Machine

/-- Two nibbles of a byte. -/
theorem byte_nibbles {hi lo : Nat} (hhi : hi < 16) (hlo : lo < 16) :
    (BitVec.ofNat 8 (hi * 16 + lo)).toNat / 16 = hi ∧ (BitVec.ofNat 8 (hi * 16 + lo)).toNat % 16 = lo := by
  rw [BitVec.toNat_ofNat]
  omega

/-- Nibbles packed into bytes are the nibbles of those bytes. -/
theorem nibbles_packed (n : Nat) (l : List Nat) (hlen : l.length = 2 * n) (hnib : ∀ d ∈ l, d < 16) :
    ((List.range n).map (fun i => BitVec.ofNat 8 (l.getD (2 * i) 0 * 16 + l.getD (2 * i + 1) 0))).flatMap (fun b => [b.toNat / 16, b.toNat % 16]) = l := by
  induction n generalizing l with
  | zero => exact (List.eq_nil_of_length_eq_zero hlen).symm
  | succ n ih =>
    match l, hlen, hnib with
    | hi :: lo :: rest, hlen, hnib =>
      obtain ⟨h1, h2⟩ := byte_nibbles (hnib hi (by simp)) (hnib lo (by simp))
      have hrest := ih rest (by rw [List.length_cons, List.length_cons] at hlen; omega) (fun d hd => hnib d (by simp [hd]))
      rw [List.range_succ_eq_map, List.map_cons, List.flatMap_cons, List.map_map]
      exact congrArg₂ (· ++ ·) (congrArg₂ (fun a b => [a, b]) h1 h2) hrest

theorem packedDigits_snoc (l : List Nat) (d : Nat) :
    packedDigits (l ++ [d]) = (packedDigits l).bind (fun v => if d ≤ 9 then some (v * 10 + d) else none) := by
  unfold packedDigits
  rw [List.foldl_append]
  generalize List.foldl _ _ l = read
  cases read <;> rfl

theorem decDigits_succ (k v : Nat) : decDigits (k + 1) v = decDigits k (v / 10) ++ [v % 10] := by
  rw [decDigits, List.range_succ, List.map_append, List.map_singleton, Nat.add_sub_cancel, Nat.sub_self, Nat.pow_zero, Nat.div_one]
  refine congrArg (· ++ [v % 10]) (List.map_congr_left fun i hi => ?_)
  have hexp : k - i = (k - 1 - i) + 1 := by have := List.mem_range.mp hi; omega
  rw [hexp, Nat.pow_succ', Nat.div_div_eq_div_mul]

/-- The `k` low-order digits of a number are its remainder by 10^k. -/
theorem packedDigits_decDigits (k v : Nat) : packedDigits (decDigits k v) = some (v % 10 ^ k) := by
  induction k generalizing v with
  | zero => simp [decDigits, packedDigits, Nat.mod_one]
  | succ k ih =>
    have hdigit : v % 10 ≤ 9 := by omega
    rw [decDigits_succ, packedDigits_snoc, ih, Option.bind_some, if_pos hdigit, Nat.pow_succ', Nat.mod_mul, Nat.mul_comm, Nat.add_comm]

theorem decDigits_length (k v : Nat) : (decDigits k v).length = k := by rw [decDigits, List.length_map, List.length_range]

theorem decDigits_lt {k v d : Nat} (h : d ∈ decDigits k v) : d < 10 := by
  obtain ⟨i, -, rfl⟩ := List.mem_map.mp h
  omega

/-- The nibbles of a packed operand: its digits and its sign. -/
theorem nibbles_packedBytes {n : Nat} (hn : 0 < n) (neg : Bool) (v : Nat) :
    (packedBytes n neg v).flatMap (fun b => [b.toNat / 16, b.toNat % 16]) = decDigits (2 * n - 1) v ++ [if neg then 0xD else 0xC] := by
  refine nibbles_packed n _ ?_ fun d hd => ?_
  · rw [List.length_append, decDigits_length, List.length_singleton]
    omega
  · rcases List.mem_append.mp hd with hd | hd
    · have := decDigits_lt hd
      omega
    · rw [List.mem_singleton.mp hd]
      cases neg <;> decide

/-- Settles O28: the nibbles of the operand are its digits and its sign, and the digits are its value where they hold it all. -/
theorem packedReadsBack : Obligations.PackedReadsBack := by
  intro n v neg hn _ hv
  simp only [packedVal, nibbles_packedBytes hn, List.dropLast_concat, List.getLastD_concat, packedDigits_decDigits, Nat.mod_eq_of_lt hv]
  cases neg <;> rfl

end Sys2Proof.Machine
end

section
/-! PROOFS. Held stores (07 R170): which bytes the core sees after one has been put in its store buffer. -/

namespace Sys2Proof.Machine

/-! Bytes of a bit vector -/

theorem testBit_putField {n : Nat} (w : BitVec n) (hi lo v i : Nat) (h : lo ≤ hi) (hn : hi < n) :
    (putField w hi lo v).toNat.testBit i = if lo ≤ i ∧ i ≤ hi then v.testBit (i - lo) else w.toNat.testBit i := by
  have hput : putBits w.toNat hi lo v < 2 ^ n := by
    refine Nat.lt_pow_two_of_testBit _ fun j hj => ?_
    rw [testBit_putBits _ _ _ _ _ h, if_neg (by omega), if_neg (by omega)]
    exact w.getLsbD_of_ge j hj
  rw [putField, BitVec.toNat_ofNat, Nat.mod_eq_of_lt hput, testBit_putBits _ _ _ _ _ h]
  by_cases hlo : i < lo
  · rw [if_pos hlo, if_neg (by omega)]
  · by_cases hhi : i ≤ hi
    · rw [if_neg hlo, if_pos hhi, if_pos (by omega)]
    · rw [if_neg hlo, if_neg hhi, if_neg (by omega)]

/-- A write of byte `j`, counted from the least significant end, changes that byte alone. -/
theorem byte_putField {n : Nat} (w : BitVec n) (i j : Nat) (b : Byte) (hj : 8 * j + 7 < n) :
    BitVec.ofNat 8 ((putField w (8 * j + 7) (8 * j) b.toNat).toNat / 2 ^ (8 * i)) = if i = j then b else BitVec.ofNat 8 (w.toNat / 2 ^ (8 * i)) := by
  apply BitVec.eq_of_getLsbD_eq
  intro k hk
  rw [BitVec.getLsbD_ofNat, Nat.testBit_div_two_pow, testBit_putField _ _ _ _ _ (by omega) hj]
  by_cases hij : i = j
  · subst hij
    rw [if_pos (by omega), if_pos rfl, Nat.add_sub_cancel, decide_eq_true hk, Bool.true_and]
    rfl
  · rw [if_neg (by omega), if_neg hij, BitVec.getLsbD_ofNat, Nat.testBit_div_two_pow]

/-! An entry of the buffer -/

/-- What the core sees of a byte through one entry, over the older `d`. -/
def StEnt.over (e : StEnt) (k : Nat) (d : Byte) : Byte := if e.covers k then e.byte k else d

theorem fwdByte_cons (e : StEnt) (buf : List StEnt) (k : Nat) (d : Byte) : fwdByte (e :: buf) k d = fwdByte buf k (e.over k d) := rfl

theorem fwdByte_concat (buf : List StEnt) (e : StEnt) (k : Nat) (d : Byte) : fwdByte (buf ++ [e]) k d = e.over k (fwdByte buf k d) := by
  rw [fwdByte, List.foldl_append]
  rfl

theorem StEnt.covers_iff (e : StEnt) (k : Nat) : e.covers k = true ↔ (e.addr ≤ k ∧ k < e.addr + 64) ∧ e.mask.getLsbD (k - e.addr) = true := by
  rw [StEnt.covers, Bool.and_eq_true, Bool.and_eq_true, decide_eq_true_eq, decide_eq_true_eq]

/-- An aligned entry covers only its block. -/
theorem StEnt.block_of_covers {e : StEnt} {k : Nat} (hal : e.addr % 64 = 0) (h : e.covers k = true) : e.addr = k / 64 * 64 := by
  obtain ⟨hrange, -⟩ := (e.covers_iff k).mp h
  omega

theorem StEnt.covers_put (e : StEnt) (a k : Nat) (b : Byte) (ha : e.addr ≤ a ∧ a < e.addr + 64) : (e.put a b).covers k = true ↔ k = a ∨ e.covers k = true := by
  have hbit : (e.put a b).mask.getLsbD (k - e.addr) = (e.mask.getLsbD (k - e.addr) || (decide (a - e.addr < 64) && decide (a - e.addr = k - e.addr))) := by
    rw [show (e.put a b).mask = e.mask ||| BitVec.twoPow 64 (a - e.addr) from rfl, BitVec.getLsbD_or, BitVec.getLsbD_twoPow]
  rw [StEnt.covers_iff, StEnt.covers_iff]
  change (e.addr ≤ k ∧ k < e.addr + 64) ∧ (e.put a b).mask.getLsbD (k - e.addr) = true ↔ _
  rw [hbit, Bool.or_eq_true, Bool.and_eq_true, decide_eq_true_eq, decide_eq_true_eq]
  constructor
  · rintro ⟨hk, hold | ⟨-, hnew⟩⟩
    · exact .inr ⟨hk, hold⟩
    · exact .inl (by omega)
  · rintro (rfl | ⟨hk, hold⟩)
    · exact ⟨ha, .inr ⟨by omega, rfl⟩⟩
    · exact ⟨hk, .inl hold⟩

theorem StEnt.byte_put (e : StEnt) (a k : Nat) (b : Byte) (ha : e.addr ≤ a ∧ a < e.addr + 64) (hk : e.addr ≤ k ∧ k < e.addr + 64) :
    (e.put a b).byte k = if k = a then b else e.byte k :=
  (byte_putField e.data (63 - (k - e.addr)) (63 - (a - e.addr)) b (by omega)).trans (if_congr (by omega) rfl rfl)

/-- Through an entry that was given a byte of its block, the core sees that byte, and every other one as before. -/
theorem StEnt.over_put (e : StEnt) (a k : Nat) (b d : Byte) (ha : e.addr ≤ a ∧ a < e.addr + 64) : (e.put a b).over k d = if k = a then b else e.over k d := by
  by_cases hka : k = a
  · rw [StEnt.over, if_pos ((e.covers_put a k b ha).mpr (.inl hka)), if_pos hka, e.byte_put a k b ha (by omega), if_pos hka]
  · rw [if_neg hka, StEnt.over, StEnt.over]
    by_cases hc : e.covers k = true
    · rw [if_pos ((e.covers_put a k b ha).mpr (.inr hc)), if_pos hc, e.byte_put a k b ha ((e.covers_iff k).mp hc).1, if_neg hka]
    · rw [if_neg (fun h => ((e.covers_put a k b ha).mp h).elim hka hc), if_neg hc]

/-! The buffer -/

/-- Is the entry the running interval's for the block of address `a`. -/
def StEnt.takes (e : StEnt) (a : Nat) : Bool := !e.conf && e.addr == a / 64 * 64

/-- The entry with byte `a` merged into it, if it takes it. -/
def StEnt.given (e : StEnt) (a : Nat) (v : Byte) : StEnt := if e.takes a then e.put a v else e

theorem stPut_eq (buf : List StEnt) (a : Nat) (v : Byte) (pid : BitVec 8) :
    stPut buf a v pid = if buf.any (fun e => e.takes a) then buf.map (fun e => e.given a v)
      else buf ++ [({ addr := a / 64 * 64, mask := 0, data := 0, pid := pid, conf := false } : StEnt).put a v] := rfl

theorem StEnt.range_of_takes {e : StEnt} {a : Nat} (h : e.takes a = true) : e.addr ≤ a ∧ a < e.addr + 64 := by
  obtain ⟨-, haddr⟩ := (Bool.and_eq_true _ _).mp h
  have := eq_of_beq haddr
  omega

theorem StEnt.over_given_ne (e : StEnt) {a k : Nat} (v d : Byte) (hk : k ≠ a) : (e.given a v).over k d = e.over k d := by
  unfold StEnt.given
  split
  next h => rw [e.over_put a k v d (StEnt.range_of_takes h), if_neg hk]
  next => rfl

theorem StEnt.over_given_of_takes {e : StEnt} {a : Nat} (v d : Byte) (h : e.takes a = true) : (e.given a v).over a d = v := by
  rw [StEnt.given, if_pos h, e.over_put a a v d (StEnt.range_of_takes h), if_pos rfl]

theorem fwdByte_given_ne (buf : List StEnt) {a k : Nat} (v d : Byte) (hk : k ≠ a) : fwdByte (buf.map (fun e => e.given a v)) k d = fwdByte buf k d := by
  induction buf generalizing d with
  | nil => rfl
  | cons e buf ih => rw [List.map_cons, fwdByte_cons, fwdByte_cons, e.over_given_ne v d hk, ih]

/-- Behind the entry that took the byte stand only entries of the running interval: one that covers the address took it too. -/
theorem fwdByte_given_unconfirmed (buf : List StEnt) (a : Nat) (v : Byte) (hal : ∀ e ∈ buf, e.addr % 64 = 0) (hconf : ∀ e ∈ buf, e.conf = false) :
    fwdByte (buf.map (fun e => e.given a v)) a v = v := by
  induction buf with
  | nil => rfl
  | cons e buf ih =>
    obtain ⟨hal, halr⟩ := List.forall_mem_cons.mp hal
    obtain ⟨hconf, hconfr⟩ := List.forall_mem_cons.mp hconf
    have hover : (e.given a v).over a v = v := by
      by_cases ht : e.takes a = true
      · exact StEnt.over_given_of_takes v v ht
      · have hc : ¬ e.covers a = true := fun hc => ht (by simp [StEnt.takes, hconf, ← StEnt.block_of_covers hal hc])
        rw [StEnt.given, if_neg ht, StEnt.over, if_neg hc]
    rw [List.map_cons, fwdByte_cons, hover, ih halr hconfr]

theorem fwdByte_given (buf : List StEnt) (a : Nat) (v d : Byte) (hal : ∀ e ∈ buf, e.addr % 64 = 0) (hord : buf.Pairwise (fun e f => f.conf = true → e.conf = true))
    (hany : buf.any (fun e => e.takes a) = true) : fwdByte (buf.map (fun e => e.given a v)) a d = v := by
  induction buf generalizing d with
  | nil => cases hany
  | cons e buf ih =>
    obtain ⟨-, halr⟩ := List.forall_mem_cons.mp hal
    obtain ⟨hlater, hordr⟩ := List.pairwise_cons.mp hord
    rw [List.map_cons, fwdByte_cons]
    by_cases ht : e.takes a = true
    · have hconf : e.conf = false := by simpa using ((Bool.and_eq_true _ _).mp ht).1
      rw [StEnt.over_given_of_takes v d ht]
      exact fwdByte_given_unconfirmed buf a v halr fun f hf => by simpa [hconf] using hlater f hf
    · exact ih _ halr hordr (by simpa [ht] using hany)

/-- The entry that a byte opens shows that byte alone. -/
theorem StEnt.over_opened (a k : Nat) (v d : Byte) (pid : BitVec 8) :
    (({ addr := a / 64 * 64, mask := 0, data := 0, pid := pid, conf := false } : StEnt).put a v).over k d = if k = a then v else d := by
  rw [StEnt.over_put _ a k v d (by dsimp only; omega)]
  simp [StEnt.over, StEnt.covers]

/-- Settles O8: the byte is merged into the interval's entry of its block, behind which nothing older covers it, or opens an entry of its own. -/
theorem heldByteForwards : Obligations.HeldByteForwards := by
  intro buf a v d pid hal hord
  rw [stPut_eq]
  split
  next hany => exact ⟨fwdByte_given buf a v d hal hord hany, fun k hk => fwdByte_given_ne buf v d hk⟩
  next =>
    refine ⟨?_, fun k hk => ?_⟩
    · rw [fwdByte_concat, StEnt.over_opened, if_pos rfl]
    · rw [fwdByte_concat, StEnt.over_opened, if_neg hk]

end Sys2Proof.Machine
end

section
/-! PROOFS. Draining a held store (07 R170, 09 R221): its bytes, and no others, become the line's. -/

namespace Sys2Proof.Machine

/-! Merging an entry into its line -/

theorem lineByte_setLineByte (d : Line) (i j : Nat) (b : Byte) (hi : i < 256) (hj : j < 256) : lineByte (setLineByte d j b) i = if i = j then b else lineByte d i :=
  (byte_putField d (255 - i) (255 - j) b (by omega)).trans (if_congr (by omega) rfl rfl)

/-- A line into which the first `n` bytes of an entry have been written. -/
def StEnt.mergeFirst (e : StEnt) (n : Nat) (d : Line) : Line :=
  (List.range n).foldl (fun d i => if e.mask.getLsbD i then setLineByte d (e.addr % 256 + i) (e.byte (e.addr + i)) else d) d

theorem StEnt.mergeFirst_succ (e : StEnt) (n : Nat) (d : Line) :
    e.mergeFirst (n + 1) d = if e.mask.getLsbD n then setLineByte (e.mergeFirst n d) (e.addr % 256 + n) (e.byte (e.addr + n)) else e.mergeFirst n d := by
  rw [StEnt.mergeFirst, List.range_succ, List.foldl_append]
  rfl

theorem StEnt.lineByte_mergeFirst (e : StEnt) (n : Nat) (d : Line) (i : Nat) (hi : i < 256) (hn : e.addr % 256 + n ≤ 256) :
    lineByte (e.mergeFirst n d) i =
      if (e.addr % 256 ≤ i ∧ i < e.addr % 256 + n) ∧ e.mask.getLsbD (i - e.addr % 256) = true then e.byte (e.addr + (i - e.addr % 256)) else lineByte d i := by
  induction n with
  | zero => rw [if_neg (fun h => by omega)]; rfl
  | succ n ih =>
    have ih := ih (by omega)
    rw [StEnt.mergeFirst_succ]
    by_cases hin : i = e.addr % 256 + n
    · subst hin
      rw [Nat.add_sub_cancel_left] at ih ⊢
      rw [if_neg (fun h => by omega)] at ih
      split
      next hbit => rw [lineByte_setLineByte _ _ _ _ hi hi, if_pos rfl, if_pos ⟨by omega, hbit⟩]
      next hbit => rw [ih, if_neg (fun h => hbit h.2)]
    · have hrange : (e.addr % 256 ≤ i ∧ i < e.addr % 256 + (n + 1)) ↔ (e.addr % 256 ≤ i ∧ i < e.addr % 256 + n) := by omega
      simp only [hrange, ← ih]
      split
      · rw [lineByte_setLineByte _ _ _ _ hi (by omega), if_neg hin]
      · rfl

/-- A merged line holds the entry's bytes where it covers the line, and the line's own elsewhere. -/
theorem StEnt.lineByte_merge (e : StEnt) (d : Line) (a : Nat) (hal : e.addr % 64 = 0) (ha : a / 256 = e.addr / 256) :
    lineByte (e.merge d) (a % 256) = if e.covers a then e.byte a else lineByte d (a % 256) := by
  change lineByte (e.mergeFirst 64 d) (a % 256) = _
  rw [e.lineByte_mergeFirst 64 d (a % 256) (by omega) (by omega)]
  by_cases hrange : e.addr ≤ a ∧ a < e.addr + 64
  · have hsub : a % 256 - e.addr % 256 = a - e.addr := by omega
    have hin : e.addr % 256 ≤ a % 256 ∧ a % 256 < e.addr % 256 + 64 := by omega
    simp only [StEnt.covers_iff, hsub, hrange, hin, Nat.add_sub_cancel' hrange.1]
  · rw [if_neg (fun h => by omega), if_neg (fun h => hrange ((e.covers_iff a).mp h).1)]

/-! The drain -/

theorem State.acquire_held {s : State} {line pid : Nat} {need : Need} {c : CLine} (hc : s.held line = some c) (hs : c.serves pid need = true) (lc stype : Nat) :
    s.acquire line pid lc stype need = .ok s c := by
  simp [State.acquire, hc, hs]

theorem State.storeGone_idle {s : State} (h : s.mem.tlbWaits = []) (lc : Nat) : s.storeGone lc = s := by simp [State.storeGone, h]

/-- The state in which the oldest entry `e` of a core has gone into its line's copy `c`. -/
def State.drained (s : State) (lc : Nat) (e : StEnt) (rest : List StEnt) (c : CLine) : State :=
  (s.updMem (fun m => { m with lines := m.lines.put (e.addr / 256) { c with st := .m, data := e.merge c.data, stype := 0 } })).updCore lc (fun c => { c with stbuf := rest })

theorem State.drained_held (s : State) (lc : Nat) (e : StEnt) (rest : List StEnt) (c : CLine) :
    (s.drained lc e rest c).held (e.addr / 256) = some { c with st := .m, data := e.merge c.data, stype := 0 } := Tab.find_put ..

theorem State.drained_held_ne (s : State) (lc : Nat) (e : StEnt) (rest : List StEnt) (c : CLine) {line : Nat} (h : line ≠ e.addr / 256) :
    (s.drained lc e rest c).held line = s.held line := Tab.find_put_ne _ _ _ _ h

theorem State.drainOne_held {s : State} {lc : Nat} {e : StEnt} {rest : List StEnt} {c : CLine} (hw : s.mem.tlbWaits = []) (hbuf : (s.core lc).stbuf = e :: rest)
    (hconf : e.conf = true) (hc : s.held (e.addr / 256) = some c) (hs : c.serves e.pid.toNat .wr = true) : s.drainOne lc = (s.drained lc e rest c, true) := by
  simp only [State.drainOne, hbuf, hconf, State.acquire_held hc hs, Bool.not_true, Bool.false_eq_true, if_false]
  exact congrArg (·, true) (State.storeGone_idle (s := s.drained lc e rest c) hw lc)

theorem State.byteAt_of_held {s : State} {a : Nat} {c : CLine} (h : s.held (a / 256) = some c) : s.byteAt a = lineByte c.data (a % 256) := by
  rw [State.byteAt, h]

theorem State.byteAt_congr {s t : State} {a : Nat} (hheld : t.held (a / 256) = s.held (a / 256)) (hbytes : t.mem.bytes = s.mem.bytes) : t.byteAt a = s.byteAt a := by
  rw [State.byteAt, State.byteAt, hheld, Mem.byte, Mem.byte, hbytes]

theorem State.byteAt_drained {s : State} {e : StEnt} {c : CLine} (lc : Nat) (rest : List StEnt) (hal : e.addr % 64 = 0) (hc : s.held (e.addr / 256) = some c) (a : Nat) :
    (s.drained lc e rest c).byteAt a = if e.covers a then e.byte a else s.byteAt a := by
  by_cases ha : a / 256 = e.addr / 256
  · have hnew := s.drained_held lc e rest c
    rw [← ha] at hnew hc
    rw [State.byteAt_of_held hnew, State.byteAt_of_held hc, e.lineByte_merge c.data a hal ha]
  · have hc : ¬ e.covers a = true := fun h => ha (by have := StEnt.block_of_covers hal h; omega)
    rw [if_neg hc, State.byteAt_congr (s.drained_held_ne lc e rest c ha) rfl]

/-- Settles O23: the line is held and serves the store, so that the entry is merged into its copy and leaves the buffer. -/
theorem drainWritesItsBytes : Obligations.DrainWritesItsBytes := by
  intro s lc e rest c hlc hexists hfence hsync hw hbuf hconf hal hc hs
  have hcore : (s.drained lc e rest c).core lc = { s.core lc with stbuf := rest } := State.core_updCore ..
  have hend : (s.drained lc e rest c).endSync lc = s.drained lc e rest c := State.endSync_off _ lc (by rw [hcore]; exact hsync)
  have hexec : exec (.storeBufferDrain lc) s = .next (left s (s.drained lc e rest c)) := by
    change execStoreBufferDrain lc s = _
    rw [execStoreBufferDrain, if_neg (by omega), if_neg (by simp [hexists, hfence]), State.drainOne_held hw hbuf hconf hc hs, hend, settled_next]
  have hheld : ∀ line, (left s (s.drained lc e rest c)).held line = (s.drained lc e rest c).held line := fun line => by rw [State.held, left_mem]; rfl
  refine ⟨_, hexec, by rw [left_core, hcore], by rw [left_core, hcore], fun k hk => ?_, fun a => ?_, ⟨_, (hheld _).trans (s.drained_held lc e rest c)⟩, ?_⟩
  · rw [left_core]
    exact State.core_updCore_ne _ _ _ _ hk
  · rw [State.byteAt_congr (hheld _) (by rw [left_mem]), State.byteAt_drained lc rest hal hc a]
  · simp only [left_chn, left_fab, left_svc, left_out, left_mem]
    exact ⟨rfl, rfl, rfl, rfl, rfl⟩

end Sys2Proof.Machine
end

section
/-! PROOFS. Confirmation of a checkpoint interval (07 R167): what the core keeps, what it releases. -/

namespace Sys2Proof.Machine

/-! Giving up a log makes interruptions pending again (07 R173) -/

/-- From `s` to `t` interruptions have become pending again, some of them at core `lc`; the cores are else as they were, and so is storage. -/
structure Repended (lc : Nat) (s t : State) : Prop where
  core : ∃ ext restart spill prog, t.core lc = { s.core lc with pendExt := ext, pendRestart := restart, pendSpill := spill, pendProg := prog }
  others : ∀ k, k ≠ lc → t.core k = s.core k
  bytes : t.mem.bytes = s.mem.bytes

namespace Repended

/-- A change outside the cores and the bytes of storage. -/
theorem of_eq {lc : Nat} {s t : State} (hc : t.cores = s.cores) (hb : t.mem.bytes = s.mem.bytes) : Repended lc s t :=
  ⟨⟨_, _, _, _, State.core_congr s t hc lc⟩, fun k _ => State.core_congr s t hc k, hb⟩

theorem refl (lc : Nat) (s : State) : Repended lc s s := of_eq rfl rfl

theorem trans {lc : Nat} {s t u : State} (h : Repended lc s t) (k : Repended lc t u) : Repended lc s u := by
  obtain ⟨_, _, _, _, hcore⟩ := h.core
  obtain ⟨ext, restart, spill, prog, kcore⟩ := k.core
  exact ⟨⟨ext, restart, spill, prog, by rw [kcore, hcore]⟩, fun n hn => (k.others n hn).trans (h.others n hn), k.bytes.trans h.bytes⟩

theorem updCore (lc : Nat) (s : State) (f : Core → Core)
    (h : ∃ ext restart spill prog, f (s.core lc) = { s.core lc with pendExt := ext, pendRestart := restart, pendSpill := spill, pendProg := prog }) :
    Repended lc s (s.updCore lc f) :=
  ⟨by rwa [State.core_updCore], fun k hk => State.core_updCore_ne s lc k f hk, rfl⟩

end Repended

theorem Core.pendExternal_eq (c : Core) (code : BitVec 16) : ∃ ext, c.pendExternal code = { c with pendExt := ext } := by
  unfold Core.pendExternal
  split
  · exact ⟨c.pendExt, rfl⟩
  · exact ⟨_, rfl⟩

theorem State.repend_repended (s : State) (lc : Nat) (x : IntSrc) (q : IntReq) (words : W64) : Repended lc s (s.repend lc x q words) := by
  unfold State.repend
  cases x with
  | machine | io => exact .of_eq rfl rfl
  | poison | spill | program | restart => exact .updCore lc s _ ⟨_, _, _, _, rfl⟩
  | external code =>
    dsimp only
    split
    · exact .refl lc s
    split
    · exact .of_eq (by split <;> rfl) (by split <;> rfl)
    split
    · exact .of_eq rfl rfl
    · obtain ⟨ext, hext⟩ := (s.core lc).pendExternal_eq (BitVec.ofNat 16 code)
      exact .updCore lc s _ ⟨ext, _, _, _, hext⟩

theorem State.dropLog_repended (s : State) (lc : Nat) (l : List LogEnt) : Repended lc s (s.dropLog lc l) := by
  induction l with
  | nil => exact .refl lc s
  | cons e l ih =>
    have hrange : Repended lc s (if e.kind = .cache then (s.dropLog lc l).releaseRange lc (fun o => o.kind == .inval) else s.dropLog lc l) := by
      split
      · exact ih.trans (.of_eq rfl rfl)
      · exact ih
    rw [State.dropLog]
    split
    · exact hrange.trans (State.repend_repended ..)
    · exact hrange

/-! Confirmation -/

/-- The counters that confirmation updates are special registers. -/
theorem Core.counted_sr (c : Core) : ∃ sr, c.counted.1 = { c.arch with sr := sr } := by
  have hfold : ∀ (l : Tab Nat) (p : Arch × Bool), (∃ sr, p.1 = { c.arch with sr := sr }) →
      ∃ sr, (l.foldl (fun (p : Arch × Bool) q => let r := p.1.pmcBump q.1 q.2; (r.1, p.2 || r.2)) p).1 = { c.arch with sr := sr } := by
    intro l
    induction l with
    | nil => exact fun p hp => hp
    | cons q l ih =>
      rintro p ⟨sr, hp⟩
      obtain ⟨sr', hq⟩ := p.1.pmcBump_sr q.1 q.2
      exact ih _ ⟨sr', by rw [hq, hp]⟩
  exact hfold _ _ ⟨c.arch.sr, rfl⟩

theorem Core.confirm_eq (c : Core) : ∃ sr ext, c.confirm =
    { c with arch := { c.arch with sr := sr }, ckpt := { c.arch with sr := sr }, stbuf := c.stbuf.map (fun e => { e with conf := true }), inlog := [], replay := [],
             retired := 0, entries := 0, pmcDue := [], pmcInt := false, bounded := false, trbuf := [], pendExt := ext } := by
  obtain ⟨sr, hsr⟩ := c.counted_sr
  unfold Core.confirm
  rcases hcounted : c.counted with ⟨a, due⟩
  rw [hcounted] at hsr
  dsimp only at hsr ⊢
  subst hsr
  split
  · obtain ⟨ext, hext⟩ := Core.pendExternal_eq _ 0x1301
    exact ⟨sr, ext, hext⟩
  · exact ⟨sr, c.pendExt, rfl⟩

/-- A core that confirms its interval and goes on in the mode, the retry and the run state of `d`. -/
def Core.confirmAs (c d : Core) : Core :=
  { c.confirm with sig := d.sig, cad := d.cad, retryLeft := d.retryLeft, replay := d.replay, retry := d.retry, retryStart := d.retryStart, run := d.run }

/-- Outside a retry and with nothing traced, what follows the core's own confirmation makes pending again what is not replayed. -/
theorem State.confirmCore_repended {s : State} {lc : Nat} (hretry : (s.core lc).retry = 0) (htr : (s.core lc).trbuf = []) :
    ∃ d, Repended lc (s.setCore lc ((s.core lc).confirmAs d)) (s.confirmCore lc) := by
  unfold State.confirmCore
  extract_lets c n md whole recovered confirmed d begun dropped traced submitted
  have hrec : recovered = false := by simp [recovered, c, hretry]
  have hd : (s.core lc).confirmAs d = d := rfl
  have hdrop : Repended lc begun dropped := by
    simp only [dropped]
    split
    · exact State.dropLog_repended ..
    · exact .refl lc begun
  have htraced : traced = dropped := by simp only [traced, c, htr, List.foldl_nil]
  refine ⟨d, ?_⟩
  rw [hd, if_neg (by simp [hrec])]
  exact hdrop.trans (htraced ▸ .of_eq rfl rfl)

theorem fwdByte_confirmed (buf : List StEnt) (a : Nat) (d : Byte) : fwdByte (buf.map (fun e => { e with conf := true })) a d = fwdByte buf a d := List.foldl_map ..

/-- Settles O22: the core confirms its interval, and what follows reaches nothing but pending interruptions. -/
theorem confirmationKeepsTheState : Obligations.ConfirmationKeepsTheState := by
  intro s lc hretry htr
  obtain ⟨d, hrep⟩ := State.confirmCore_repended hretry htr
  obtain ⟨ext', restart, spill, prog, hcore⟩ := hrep.core
  obtain ⟨sr, ext, hconf⟩ := (s.core lc).confirm_eq
  rw [State.core_setCore, Core.confirmAs, hconf] at hcore
  have hothers : ∀ k, k ≠ lc → (s.confirmCore lc).core k = s.core k := fun k hk => (hrep.others k hk).trans (State.core_setCore_ne _ _ _ _ hk)
  have hheld : ∀ e ∈ (s.core lc).stbuf.map (fun e => { e with conf := true }), e.conf = true := fun e he => by
    obtain ⟨e', -, rfl⟩ := List.mem_map.mp he
    rfl
  dsimp only
  rw [hcore]
  exact ⟨rfl, rfl, rfl, rfl, rfl, rfl, rfl, rfl, rfl, rfl, rfl, rfl, List.length_map .., hheld, fwdByte_confirmed _, hothers, hrep.bytes⟩

end Sys2Proof.Machine
end

section
/-! PROOFS. The comparison of an interval (07 R164, R174, R184): a mismatch goes back to the checkpoint, exhausts the retry or loses the core. -/

namespace Sys2Proof.Machine

/-! The commands -/

section
variable {s : State} {lc : Nat} (hlc : lc < 48) (hrun : s.canRun lc = true)
include hlc hrun

theorem checkpointComparison_confirms (hbroken : (s.core lc).broken = false) (bad : Bool) (hb : (s.core lc).bounded = true) :
    Leaves (.checkpointComparison lc ⟨false, bad⟩) s ((s.confirmCore lc).endSync lc) := by
  change execCheckpointComparison lc ⟨false, bad⟩ s = _
  simp only [execCheckpointComparison, if_neg (show ¬ 48 ≤ lc by omega), hrun, hbroken, hb, Bool.not_true, Bool.or_self, Bool.false_eq_true, if_false, if_true, settled_next]

theorem checkpointComparison_mismatch (hbroken : (s.core lc).broken = false) (bad : Bool) (hb : (s.core lc).bounded = true ∨ (s.core lc).begun = true) :
    Leaves (.checkpointComparison lc ⟨true, bad⟩) s (s.mismatch lc bad) := by
  have hb : ((s.core lc).bounded || (s.core lc).begun) = true := by simpa using hb
  change execCheckpointComparison lc ⟨true, bad⟩ s = _
  simp only [execCheckpointComparison, if_neg (show ¬ 48 ≤ lc by omega), hrun, hbroken, hb, Bool.not_true, Bool.or_self, Bool.false_eq_true, if_false, if_true, settled_next]

theorem retryTimeLimit_leaves {t0 : W64} (hstart : (s.core lc).retryStart = some t0) (hretry : (s.core lc).retry ≠ 0) : Leaves (.retryTimeLimit lc) s (s.reach (t0.toNat + 8192)) := by
  change execRetryTimeLimit lc s = _
  simp [execRetryTimeLimit, if_neg (show ¬ 48 ≤ lc by omega), hrun, hstart, hretry, settled_next, usec]

theorem delayRegisterParity_leaves (bad : Bool) :
    let u := (s.count F.TAN_PCSTAT_PAR (some F.TAN_PCSTAT_POVF) (s.core lc).phys).flt 2 1 (s.core lc).phys
    Leaves (.delayRegisterParity ⟨lc, bad⟩) s (if (s.core lc).broken then u else u.mismatch lc bad) := by
  change execDelayRegisterParity ⟨lc, bad⟩ s = _
  rw [execDelayRegisterParity, if_neg (show ¬ 48 ≤ lc by omega), if_neg (by simp [hrun]), settled_next]

end

/-! A mismatch -/

theorem State.mismatch_ckptBad {s : State} {lc : Nat} (hretry : (s.core lc).retry = 0) : s.mismatch lc true = s.loseCore lc 2 := by
  simp [State.mismatch, hretry]

theorem State.mismatch_exhausted {s : State} {lc : Nat} (hretry : (s.core lc).retry = 3) (bad : Bool) : s.mismatch lc bad = s.retryExhausted lc := by
  simp [State.mismatch, hretry]

/-- A count writes registers of control space alone. -/
theorem State.count_eq (s : State) (f : Fld) (o : Option Fld) (i j n : Nat) : ∃ ctl, s.count f o i j n = { s with ctl := ctl } := by
  unfold State.count
  cases o with
  | none => exact ⟨_, rfl⟩
  | some o =>
    dsimp only
    split <;> exact ⟨_, rfl⟩

theorem State.accessGone_idle {s : State} (h : s.mem.tlbWaits = []) (lc : Nat) : s.accessGone lc = s := by simp [State.accessGone, h]

/-- An event counted at once: the counters of the running state and of the checkpoint. -/
theorem Core.pmcNow_counters (c : Core) (ev k : Nat) :
    ∃ sr sr' ext, c.pmcNow ev k = { c with arch := { c.arch with sr := sr }, ckpt := { c.ckpt with sr := sr' }, pendExt := ext } := by
  obtain ⟨sr, hsr⟩ := c.arch.pmc_sr ev k
  obtain ⟨sr', hsr'⟩ := c.ckpt.pmc_sr ev k
  unfold Core.pmcNow
  extract_lets p q counted
  have hcounted : counted = { c with arch := { c.arch with sr := sr }, ckpt := { c.ckpt with sr := sr' } } := by simp only [counted, p, q, hsr, hsr']
  split
  · exact ⟨c.arch.sr, c.ckpt.sr, c.pendExt, rfl⟩
  · rw [hcounted]
    split
    · obtain ⟨ext, hext⟩ := Core.pendExternal_eq { c with arch := { c.arch with sr := sr }, ckpt := { c.ckpt with sr := sr' } } 0x1301
      exact ⟨sr, sr', ext, hext⟩
    · exact ⟨sr, sr', c.pendExt, rfl⟩

/-- A core that goes back to its checkpoint for the first attempt of a retry, whose first mismatch was at `tb`. -/
def Core.retried (c : Core) (tb : W64) : Core := (({ c.discard with retry := 1, retryStart := some tb } : Core).pmcNow 0x0E 1).engine

theorem Core.retried_eq (c : Core) (tb : W64) : ∃ sr sr' ext xfer, c.retried tb =
    { c.discard with arch := { c.ckpt with sr := sr }, ckpt := { c.ckpt with sr := sr' }, retry := 1, retryStart := some tb, pendExt := ext, xfer := xfer } := by
  obtain ⟨sr, sr', ext, h⟩ := Core.pmcNow_counters { c.discard with retry := 1, retryStart := some tb } 0x0E 1
  exact ⟨sr, sr', ext, _, by rw [Core.retried, h]; rfl⟩

/-- The state in which core `lc` begins the first attempt, with the registers of control space that its count leaves. -/
def State.retried (s : State) (lc : Nat) (ctl : Tab W64) : State := { (s.discardCore lc).setCore lc ((s.core lc).retried s.fab.tb) with ctl := ctl }

theorem State.retried_core (s : State) (lc : Nat) (ctl : Tab W64) : (s.retried lc ctl).core lc = (s.core lc).retried s.fab.tb := State.core_setCore ..

theorem State.retried_core_ne (s : State) (lc : Nat) (ctl : Tab W64) {k : Nat} (hk : k ≠ lc) : (s.retried lc ctl).core k = s.core k :=
  (State.core_setCore_ne _ _ _ _ hk).trans (State.core_updCore_ne _ _ _ _ hk)

/-- The first mismatch takes the core back to its checkpoint, releases its range operations and is counted. -/
theorem State.mismatch_first {s : State} {lc : Nat} (hretry : (s.core lc).retry = 0) (hstart : (s.core lc).retryStart = none) (hw : s.mem.tlbWaits = []) :
    ∃ ctl, s.mismatch lc false = s.retried lc ctl := by
  have hcore : (s.discardCore lc).core lc = (s.core lc).discard := State.core_updCore ..
  have hmove : (s.discardCore lc).updCore lc (fun d => (({ d with retry := 1, retryStart := some s.fab.tb } : Core).pmcNow 0x0E 1).engine) =
      (s.discardCore lc).setCore lc ((s.core lc).retried s.fab.tb) := by
    rw [State.updCore, hcore]
    rfl
  unfold State.mismatch
  simp only [hretry, hstart, ne_eq, not_true_eq_false, decide_false, Bool.false_and, Bool.false_eq_true, if_false, Nat.zero_add, hmove]
  rw [State.accessGone_idle (s := (s.discardCore lc).setCore lc ((s.core lc).retried s.fab.tb)) hw]
  exact State.count_eq ..

/-- Settles O21: the comparison confirms the interval or meets a mismatch, whose outcome follows from the attempt it ends; the time limit, the early mismatch and the class of an exhausted retry are the choices of logs 14, 10 and 4. -/
theorem checkpointsAndRetry : Obligations.CheckpointsAndRetry := by
  intro s lc bad hlc
  refine ⟨fun hrun hbroken => ⟨checkpointComparison_confirms hlc hrun hbroken bad, fun hb => ?_⟩,
    fun t0 hstart hrun hretry => retryTimeLimit_leaves hlc hrun hstart hretry, fun hrun => ?_⟩
  · have hmis := fun bad => checkpointComparison_mismatch hlc hrun hbroken bad hb
    refine ⟨fun hretry => State.mismatch_ckptBad hretry ▸ hmis true, fun hretry => State.mismatch_exhausted hretry bad ▸ hmis bad, fun hretry hstart hw => ?_⟩
    obtain ⟨ctl, hfirst⟩ := State.mismatch_first hretry hstart hw
    obtain ⟨sr, sr', ext, xfer, hcore⟩ := (s.core lc).retried_eq s.fab.tb
    have hleaves := hmis false
    rw [hfirst] at hleaves
    refine ⟨_, hleaves, ?_⟩
    dsimp only
    rw [left_core, State.retried_core, hcore, left_chn, left_fab, left_svc, left_out, left_mem]
    exact ⟨rfl, rfl, rfl, rfl, rfl, rfl, rfl, rfl, rfl, rfl, rfl, rfl, rfl, rfl, fun k hk => (left_core ..).trans (s.retried_core_ne lc ctl hk), rfl, rfl, rfl, rfl, rfl, rfl⟩
  · have hleaves := delayRegisterParity_leaves hlc hrun bad
    exact ⟨fun hbroken => by simpa only [hbroken, if_true] using hleaves, fun hbroken => by simpa only [hbroken, Bool.false_eq_true, if_false] using hleaves⟩

end Sys2Proof.Machine
end

section
/-! PROOFS. The events of the cache arrays (08 R191, R196 to R198, R201 to R205) and the sparing of directory ways (09 R211). -/

namespace Sys2Proof.Machine

/-! Fills (08 R191, R204) -/

theorem arrayOk_slice {sl : Nat} (h : sl < 32) : arrayOk (0x100 + sl) = true := by
  have hslice : 0x100 + sl < 0x120 := by omega
  simp [arrayOk, hslice]

theorem arrayOk_private {array : Nat} (h : array < 224) (hkind : array % 4 < 3) : arrayOk array = true := by
  have hne : array % 4 ≠ 3 := by omega
  simp [arrayOk, h, hne]

section
variable {s : State} {line : Nat} {c : CLine} (hfence : s.flag F.FLT_FENCE_CXF = false) (hheld : s.held line = some c)
include hfence hheld

theorem cacheFill_slice {sl : Nat} (hsl : sl < 32) (hslice : sliceOf (line * 256) = sl) (ecc : EccRes) :
    Leaves (.cacheFill (0x100 + sl) line c.pid.toNat ecc) s ((s.install line c).eccOn (0x100 + sl) line ecc) := by
  change execCacheFill (0x100 + sl) line c.pid.toNat ecc s = _
  have hplace : sliceOf (line * 256) = 0x100 + sl - 0x100 := by omega
  simp only [execCacheFill, arrayOk_slice hsl, hheld, hfence, hplace, ne_eq, not_true_eq_false, decide_false, Bool.not_true, Bool.or_self, Bool.false_eq_true, if_false,
    if_pos (Nat.le_add_right 0x100 sl), settled_next]

variable {array : Nat} (harray : array < 224)
include harray

/-- An L2, and an L1 whose L2 has the line, take the line or, where they have it, are read. -/
theorem cacheFill_private
    (hin : array % 4 = 2 ∨ array % 4 < 2 ∧ (s.mem.wayOf (array / 4 * 4 + 2) (setOf (array / 4 * 4 + 2) line) line 16).isSome = true) (ecc : EccRes) :
    Leaves (.cacheFill array line c.pid.toNat ecc) s
      (if (s.mem.wayOf array (setOf array line) line (waysOf array)).isSome then s.eccOn array line ecc
       else ((s.fillPrivate array line c.pid.toNat).missCount array).eccOn array line ecc) := by
  change execCacheFill array line c.pid.toNat ecc s = _
  have hok : arrayOk array = true := arrayOk_private harray (by omega)
  have hincl : ¬ (array % 4 ≠ 2 ∧ (s.mem.wayOf (array / 4 * 4 + 2) (setOf (array / 4 * 4 + 2) line) line 16).isNone = true) := by
    rintro ⟨hne, hnone⟩
    rcases hin with h2 | ⟨-, hsome⟩
    · exact hne h2
    · rw [Option.isNone_iff_eq_none.mp hnone] at hsome
      cases hsome
  simp only [execCacheFill, hok, hheld, hfence, if_neg (show ¬ 0x100 ≤ array by omega), Bool.and_eq_true, decide_eq_true_eq, if_neg hincl,
    ne_eq, not_true_eq_false, decide_false, Bool.not_true, Bool.or_self, Bool.false_eq_true, if_false]
  split <;> exact settled_next ..

/-- An L1 takes no line that its L2 has not. -/
theorem cacheFill_notInL2 (hkind : array % 4 < 2)
    (hout : (s.mem.wayOf (array / 4 * 4 + 2) (setOf (array / 4 * 4 + 2) line) line 16).isSome = false) (ecc : EccRes) :
    Leaves (.cacheFill array line c.pid.toNat ecc) s s := by
  change execCacheFill array line c.pid.toNat ecc s = _
  have hok : arrayOk array = true := arrayOk_private harray (by omega)
  have hnone : (s.mem.wayOf (array / 4 * 4 + 2) (setOf (array / 4 * 4 + 2) line) line 16).isNone = true := by
    rw [← Option.not_isSome, hout]
    rfl
  have hexcl : array % 4 ≠ 2 ∧ (s.mem.wayOf (array / 4 * 4 + 2) (setOf (array / 4 * 4 + 2) line) line 16).isNone = true := ⟨by omega, hnone⟩
  simp only [execCacheFill, hok, hheld, hfence, if_neg (show ¬ 0x100 ≤ array by omega), Bool.and_eq_true, decide_eq_true_eq, if_pos hexcl,
    ne_eq, not_true_eq_false, decide_false, Bool.not_true, Bool.or_self, Bool.false_eq_true, if_false, settled_next]

end

/-! Range engines (08 R196 to R198) -/

section
variable {s : State} {g : Nat} (hg : g < 4)
include hg

theorem rangeEngineLine_idle (hq : s.mem.range.get [] g = []) : Leaves (.rangeEngineLine g) s s := by
  change execRangeEngineLine g s = _
  simp only [execRangeEngineLine, if_neg (show ¬ 4 ≤ g by omega), hq, settled_next]

variable {o : RangeOp} {rest : List RangeOp} (hfence : s.flag F.FLT_FENCE_CXF = false) (hq : s.mem.range.get [] g = o :: rest) (hsub : o.submitted = true)
include hfence hq hsub

/-- The engine goes on to the next line when the operation on this one is done, and counts a locked line that it has hit. -/
theorem rangeEngineLine_done {z u : State} {o' : RangeOp} {abs : Nat} (htrans : s.rangeTrans g o (cmoNeed o.kind) = .ok z abs)
    (ho : (z.mem.range.get [] g).headD o = o') (hdone : z.cmoCore o'.lc (64 + g) o'.pid.toNat 0 (abs / 256) o'.kind = .done u) :
    Leaves (.rangeEngineLine g) s ((if o'.counted || z.rangeLocked o' (abs / 256) then u.rangeLock o' else u).rangeNext g o') := by
  change execRangeEngineLine g s = _
  simp only [execRangeEngineLine, if_neg (show ¬ 4 ≤ g by omega), hq, hsub, hfence, htrans, ho, hdone, Bool.not_true, Bool.or_self, Bool.false_eq_true, if_false, settled_next]

theorem rangeEngineLine_fail {u : State} {f : SFail} (htrans : s.rangeTrans g o (cmoNeed o.kind) = .fail u f) :
    Leaves (.rangeEngineLine g) s (u.rangeStop g o (f.rangeDetail (cmoNeed o.kind).acc)) := by
  change execRangeEngineLine g s = _
  simp only [execRangeEngineLine, if_neg (show ¬ 4 ≤ g by omega), hq, hsub, hfence, htrans, Bool.not_true, Bool.or_self, Bool.false_eq_true, if_false, settled_next]

end

/-! Lock entries (08 R201, R202) -/

section
variable {s : State} {n : Nat} (hn : n < 4)
include hn

theorem lockEntryEnable_leaves (src : Src) (v : W64) : Leaves (.lockEntryEnable src n v) s (s.lockCtl src n v) := by
  change execLockEntryEnable src n v s = _
  rw [execLockEntryEnable, if_neg (show ¬ 4 ≤ n by omega), settled_next]

theorem lockReady_leaves (hen : s.flag F.CAC_LOCKCTL_EN n = true) (hready : s.flag F.CAC_LOCKCTL_READY n = false) :
    Leaves (.lockReady n) s (((List.range 32).foldl (fun z l =>
      if bits (z.fld F.CAC_LOCKCTL_SLICES n) l l = 1 then z.dropWays l (fun k => k == s.fld F.CAC_LOCKCTL_WAY n) else z) s).setFlag F.CAC_LOCKCTL_READY true n) := by
  change execLockReady n s = _
  rw [execLockReady, if_neg (show ¬ 4 ≤ n by omega), if_neg (by simp [hen, hready]), settled_next]

end

theorem State.lockCtl_bad {s : State} {n : Nat} {v : W64} (h : s.lockBad n v = true) (src : Src) : s.lockCtl src n v = s.refuseWr src (0x600110 + n * 0x20) := if_pos h

theorem State.lockCtl_closed {s : State} {n : Nat} {v : W64} (h : s.lockBad n v = false) (hen : s.flag F.CAC_LOCKCTL_EN n = false) (src : Src) :
    s.lockCtl src n v = (s.wrReg src (0x600110 + n * 0x20) v).setFlag F.CAC_LOCKCTL_READY false n := by
  simp only [State.lockCtl, h, hen, Bool.false_and, Bool.false_eq_true, if_false]

/-! Way groups (08 R203) -/

theorem State.wayPwr_free {s : State} {v : W64} (h : (s.reg 0x600000 ^^^ v) &&& s.reg 0x600008 = 0) (src : Src) :
    s.wayPwr src v = (s.setReg 0x600000 ((v &&& ~~~s.reg 0x600008) ||| (s.reg 0x600000 &&& s.reg 0x600008))).setReg 0x600008 (s.reg 0x600008 ||| (s.reg 0x600000 ^^^ v)) :=
  if_neg (by simp [h])

theorem cacWaypwrWrite_leaves (s : State) (src : Src) (v : W64) : Leaves (.cacWaypwrWrite src v) s (s.wayPwr src v) := settled_next ..

theorem wayGroupTransitionEnd_leaves {s : State} {sl g : Nat} (hsl : sl < 32) (hg : g < 2) (htran : (s.reg 0x600008).getLsbD (2 * sl + g) = true) :
    Leaves (.wayGroupTransitionEnd sl g) s
      ((if (s.reg 0x600000).getLsbD (2 * sl + g) then s.dropWays sl (fun w => decide (8 + 4 * g ≤ w) && decide (w < 12 + 4 * g)) else s).setReg 0x600008
        (putField (s.reg 0x600008) (2 * sl + g) (2 * sl + g) 0)) := by
  change execWayGroupTransitionEnd sl g s = _
  rw [execWayGroupTransitionEnd, if_neg (by simp [hsl, hg]), if_neg (by simp [htran]), settled_next]

/-! Ways of a slice (08 R205) -/

section
variable {s u : State} {sl way : Nat} (hsl : sl < 32) (hway : way < 16) (hret : s.wayRetired sl way = false)
  (hu : u = (s.sparedUnit 0x31 (17 * sl + s.physWay sl way)).dropWays sl (fun k => k == way))
include hsl hway hret hu

theorem l3WaySparing_spare (hfree : u.flag F.CAC_SLC_SPUSED sl = false) :
    Leaves (.l3WaySparing sl way) s
      ((((u.setFlag F.CAC_SLC_SPUSED true sl).setFld F.CAC_SLC_SPWAY way sl).consume 2).flt 3 4 (17 * sl + s.physWay sl way)) := by
  change execL3WaySparing sl way s = _
  rw [execL3WaySparing, if_neg (by simp [hsl, hway]), if_neg (by simp [hret])]
  dsimp only
  rw [← hu, if_pos (by simp [hfree]), settled_next]

/-- With the spare in use the way is retired, and each lock entry that it carried in this slice is lost. -/
theorem l3WaySparing_retires (hused : u.flag F.CAC_SLC_SPUSED sl = true) :
    Leaves (.l3WaySparing sl way) s ((((u.locks sl).filter (fun p => p.2 == way)).foldl (fun z p => (z.setFlag F.CAC_LOCKCTL_LOST true p.1).flt 3 6)
      (u.setFld F.CAC_SLC_RETIRED (putBits (u.fld F.CAC_SLC_RETIRED sl) way way 1) sl)).flt 3 5 (17 * sl + s.physWay sl way)) := by
  change execL3WaySparing sl way s = _
  rw [execL3WaySparing, if_neg (by simp [hsl, hway]), if_neg (by simp [hret])]
  dsimp only
  rw [← hu, if_neg (by simp [hused]), settled_next]

end

/-! Directory ways (09 R211) -/

section
variable {s u : State} {way : Nat} (hway : way < 16) (hret : bits (s.fld F.COH_DIRSTAT_RETIRED) way way ≠ 1) (hu : u = s.evictWay way)
include hway hret hu

/-- A way with entries left stays due for sparing: it takes no new ones (log 6). -/
theorem directoryWaySparing_waits (hleft : u.mem.dir.any (fun p => p.2.way == way) = true) (hnew : u.svc.sparePend.contains (0x40, s.dirPhys way) = false) :
    Leaves (.directoryWaySparing way) s { u with svc := { u.svc with sparePend := u.svc.sparePend ++ [(0x40, s.dirPhys way)] } } := by
  change execDirectoryWaySparing way s = _
  simp only [execDirectoryWaySparing, if_neg (show ¬ 16 ≤ way by omega), if_neg hret, ← hu, hleft, hnew, Bool.false_eq_true, if_false, if_true, settled_next]

variable (hempty : u.mem.dir.any (fun p => p.2.way == way) = false)
include hempty

theorem directoryWaySparing_spare (hfree : u.flag F.COH_DIRSTAT_SPUSED = false) :
    Leaves (.directoryWaySparing way) s
      (((((u.sparedUnit 0x40 (s.dirPhys way)).setFlag F.COH_DIRSTAT_SPUSED true).setFld F.COH_DIRSTAT_SPWAY way).consume 3).flt 4 2 (s.dirPhys way)) := by
  change execDirectoryWaySparing way s = _
  have hspare : (u.sparedUnit 0x40 (s.dirPhys way)).flag F.COH_DIRSTAT_SPUSED = false := hfree
  simp only [execDirectoryWaySparing, if_neg (show ¬ 16 ≤ way by omega), if_neg hret, ← hu, hempty, hspare, Bool.not_false, Bool.false_eq_true, if_false, if_true, settled_next]

theorem directoryWaySparing_retires (hused : u.flag F.COH_DIRSTAT_SPUSED = true) :
    Leaves (.directoryWaySparing way) s
      (((u.sparedUnit 0x40 (s.dirPhys way)).setFld F.COH_DIRSTAT_RETIRED (putBits (u.fld F.COH_DIRSTAT_RETIRED) way way 1)).flt 4 3 (s.dirPhys way)) := by
  change execDirectoryWaySparing way s = _
  have hspare : (u.sparedUnit 0x40 (s.dirPhys way)).flag F.COH_DIRSTAT_SPUSED = true := hused
  simp only [execDirectoryWaySparing, if_neg (show ¬ 16 ≤ way by omega), if_neg hret, ← hu, hempty, hspare, Bool.not_true, Bool.false_eq_true, if_false, settled_next]
  rfl

end

/-- Settles O31: each clause is the lemma of its event; where the spec is open they follow the choices of logs 25, 6, 53 and 56. -/
theorem cacheEvents : Obligations.CacheEvents := by
  intro s u z array line pid g n sl way c ecc src v o rest abs f a drop
  refine ⟨?fill, ?range, rangeEngineLine_idle, ?lock, ?refused, lockReady_leaves, ?power, ?group, ?spare, ?directory⟩
  case fill =>
    rintro hfence hheld rfl
    refine ⟨fun hsl hslice => cacheFill_slice hfence hheld hsl hslice ecc, fun harray hin => ?_, fun harray hkind hout => cacheFill_notInL2 hfence hheld harray hkind hout ecc⟩
    have hfill := cacheFill_private hfence hheld harray hin ecc
    exact ⟨fun hout => by rwa [if_neg (by simp [hout])] at hfill, fun hthere => by rwa [if_pos hthere] at hfill⟩
  case range =>
    intro hg hfence hq hsub
    refine ⟨fun htrans hdone => ?_, rangeEngineLine_fail hg hfence hq hsub⟩
    have hline := rangeEngineLine_done hg hfence hq hsub htrans rfl hdone
    rw [State.rangeNext] at hline
    exact ⟨fun hlast => by rwa [if_pos hlast] at hline, fun hmore => by rwa [if_neg hmore] at hline⟩
  case lock => exact fun hn hgood hen => State.lockCtl_closed hgood hen src ▸ lockEntryEnable_leaves hn src v
  case refused => exact fun hn hbad => State.lockCtl_bad hbad src ▸ lockEntryEnable_leaves hn src v
  case power => exact fun hfree => State.wayPwr_free hfree src ▸ cacWaypwrWrite_leaves s src v
  case group =>
    intro hsl hg htran
    have hend := wayGroupTransitionEnd_leaves hsl hg htran
    exact ⟨fun hoff hu => by rwa [if_pos hoff, ← hu] at hend, fun hon => by rwa [if_neg (by simp [hon])] at hend⟩
  case spare => exact fun hsl hway hret hu => ⟨l3WaySparing_spare hsl hway hret hu, l3WaySparing_retires hsl hway hret hu⟩
  case directory =>
    exact fun hway hret hu => ⟨directoryWaySparing_waits hway hret hu, directoryWaySparing_spare hway hret hu, directoryWaySparing_retires hway hret hu⟩

end Sys2Proof.Machine
end

section
/-! PROOFS. Coherence messages and timers (09 R212 to R219, R224 to R234): at the home, at an owner or sharer, at a requester. -/

namespace Sys2Proof.Machine

/-! Messages that reach their unit (09 R234; 20 R443) -/

theorem fromCx_of_lt {src : Nat} (hsrc : src < 1024) (o : Out) : fromCx src o = o := if_neg (by omega)

section
variable {s : State} {src : Nat} (hne : src ≠ s.cxid) (hfence : s.flag F.FLT_FENCE_CXF = false)
include hne hfence

theorem State.hears_of_ne : s.hears src = true := by simp [State.hears, hne, hfence]

variable (hsrc : src < 1024)
include hsrc

/-- `heq` says what the unit does with the message. -/
theorem leaves_heard {i : Instr} {u v : State} (hi : exec i s = settled s (fromCx src (.next (if s.hears src then u else s)))) (heq : u = v) : Leaves i s v := by
  rw [Leaves, hi, fromCx_of_lt hsrc, if_pos (State.hears_of_ne hne hfence), settled_next, heq]

/-- The same where the unit asks first whether the message is lost. -/
theorem leaves_unlost {i : Instr} {u v : State} (hi : exec i s = settled s (fromCx src (.next (if !s.hears src then s else u)))) (heq : u = v) : Leaves i s v := by
  rw [Leaves, hi, fromCx_of_lt hsrc, State.hears_of_ne hne hfence, if_neg (by simp), settled_next, heq]

theorem State.serve_homed {r : Req} (hr : r.hdr.src = src) (hhome : s.homeOf (r.hdr.line * 256) = some s.cxid) : s.serve r = .next (s.homeReq r) := by
  rw [State.serve, hr, fromCx_of_lt hsrc, if_pos (by simp [State.hears_of_ne hne hfence, hhome])]

variable {line : Nat} (hhome : s.homeOf (line * 256) = some src)
include hhome

theorem State.snooped_next (f : State → State) : s.snooped src line f = .next (f s) := by
  rw [State.snooped, fromCx_of_lt hsrc, if_pos (by simp [State.hears_of_ne hne hfence, hhome])]

theorem leaves_snooped {i : Instr} {f : State → State} {u : State} (hi : exec i s = settled s (s.snooped src line f)) (hf : f s = u) : Leaves i s u := by
  rw [Leaves, hi, State.snooped_next hne hfence hsrc hhome, settled_next, hf]

theorem leaves_forwarded {i : Instr} {ftgt : Nat} {f : State → State} {u : State} (htgt : ftgt < 1024) (hi : exec i s = settled s (fromCx ftgt (s.snooped src line f)))
    (hf : f s = u) : Leaves i s u :=
  leaves_snooped hne hfence hsrc hhome (hi.trans (by rw [fromCx_of_lt htgt])) hf

end

theorem leaves_unfenced {s u : State} {i : Instr} (hfence : s.flag F.FLT_FENCE_CXF = false)
    (hi : exec i s = settled s (.next (if s.flag F.FLT_FENCE_CXF then s else u))) : Leaves i s u := by
  rw [Leaves, hi, if_neg (by simp [hfence]), settled_next]

/-! Requests at the home (09 R215, R217 to R219) -/

section
variable {s : State} {q : CohReq} (hsrc : q.src < 1024) (hne : q.src ≠ s.cxid) (hfence : s.flag F.FLT_FENCE_CXF = false) (hhome : s.homeOf (q.line * 256) = some s.cxid)
include hsrc hne hfence hhome

/-- What follows the header in a request is its own: the home takes it whatever it holds. -/
theorem leaves_served {i : Instr} {r : Req} (hr : r.hdr = q) (hi : exec i s = settled s (s.serve r)) : Leaves i s (s.homeReq r) := by
  rw [Leaves, hi, State.serve_homed hne hfence hsrc (congrArg CohReq.src hr) (hr ▸ hhome), settled_next]

theorem wrpl_served {first last : Nat} (hle : first ≤ last) (hlast : last < 256) (place : BitVec 18) (data : Line) :
    Leaves (.wrpl q place first last data) s (s.homeReq { CohReq.req q .wrpl with place := place, first := first, last := last, data := data }) := by
  refine leaves_served hsrc hne hfence hhome rfl ?_
  change execWrpl q place first last data s = _
  have hbytes : ¬ (decide (256 ≤ last) || decide (last < first)) = true := by simp [hle, hlast]
  rw [execWrpl, if_neg hbytes]

theorem atom_served {off op : Nat} (hoff : off < 256) (hpos : 1 ≤ op) (hop : op ≤ 11) (halign : off % 8 = 0) (hpair : op = 4 → off % 16 = 0) (far : Bool) (a b : W128) :
    Leaves (.atom q off op far a b) s (s.homeReq { CohReq.req q .atom with first := off, op := op, far := far, op1 := a, op2 := b }) := by
  refine leaves_served hsrc hne hfence hhome rfl ?_
  change execAtom q off op far a b s = _
  have haligned : off % (if op = 4 then 16 else 8) = 0 := by split <;> simp_all
  rw [execAtom, if_neg (by simp [haligned]; omega)]

end

theorem wrpl_noBytes {first last : Nat} (h : last < first) (s : State) (q : CohReq) (place : BitVec 18) (data : Line) : Leaves (.wrpl q place first last data) s s := by
  change execWrpl q place first last data s = _
  rw [execWrpl, if_pos (by simp [h]), settled_next]

theorem atom_misaligned {off : Nat} (h : off % 8 ≠ 0) (s : State) (q : CohReq) (op : Nat) (far : Bool) (a b : W128) : Leaves (.atom q off op far a b) s s := by
  change execAtom q off op far a b s = _
  have halign : off % (if op = 4 then 16 else 8) ≠ 0 := by split <;> omega
  rw [execAtom, if_pos (by simp [halign]), settled_next]

theorem rds_fenced {s : State} {q : CohReq} (hsrc : q.src < 1024) (hfence : s.flag F.FLT_FENCE_CXF = true) : Leaves (.rds q) s s := by
  change settled s (fromCx q.src _) = _
  rw [fromCx_of_lt hsrc, if_neg (by simp [State.hears, hfence, CohReq.req]), settled_next]

/-! Replies at the home (09 R214, R216, R232, R234) -/

section
variable {s : State} {src line pid stype : Nat} {t : Txn} {r : Req} {wbp dirty : Bool} {data : Line}

theorem State.fwdDone_read (hkind : r.kind = .rds) (wbSeen : Bool) :
    s.fwdDone r src line pid stype false dirty wbSeen data = (s.forwarded r src false dirty).onTxn line (fun z => { z with fwd := none, answer := some (.ack false dirty) }) := by
  simp [State.fwdDone, hkind]

/-- The data came from a writeback buffer: the WB itself is still to come, and leaves ownership at the home (09 R232). -/
theorem State.fwdDone_readBuffer (hkind : r.kind = .rds) :
    s.fwdDone r src line pid stype true dirty false data =
      ((s.forwarded r src true dirty).updMem (fun z => { z with late := z.late ++ [(line, src, true)] })).onTxn line (fun z => { z with fwd := none, answer := some (.ack true dirty) }) := by
  simp [State.fwdDone, Req.leavesHome, hkind]

/-- A CLEAN that met a writeback waits for it (08 R195). -/
theorem State.fwdDone_cleanBuffer (hkind : r.kind = .cmo .clean) :
    s.fwdDone r src line pid stype true dirty false data = s.onTxn line (fun z => { z with fwd := none, acks := src :: z.acks }) := by
  simp [State.fwdDone, hkind]

theorem State.fwdDone_cleanDirty (hkind : r.kind = .cmo .clean) (wbSeen : Bool) :
    s.fwdDone r src line pid stype false true wbSeen data =
      ((s.forwarded r src false true).wbStore src line pid stype data false).onTxn line (fun z => { z with fwd := none, answer := some (.ack false true) }) := by
  simp [State.fwdDone, hkind]

theorem State.silent_forward (htxn : s.mem.txns.find line = some t) (hfwd : t.fwd = some src) :
    s.silent line src = ((s.ownerLost line src).flt 4 7 0 none (BitVec.ofNat 64 src)).noCopy line := by
  simp [State.silent, htxn, hfwd]

theorem snoopTimeout_leaves (hsrc : src < 1024) (hfence : s.flag F.FLT_FENCE_CXF = false) : Leaves (.snoopTimeout line src) s (s.silent line src) :=
  leaves_unfenced hfence (congrArg (settled s) (fromCx_of_lt hsrc _))

variable (hsrc : src < 1024) (hne : src ≠ s.cxid) (hfence : s.flag F.FLT_FENCE_CXF = false) (htxn : s.mem.txns.find line = some t)
include hsrc hne hfence htxn

theorem nocopy_leaves (hfwd : t.fwd = some src) : Leaves (.nocopy src line) s ((s.dropOwner line).noCopy line) :=
  leaves_unlost hne hfence hsrc rfl (by simp [htxn, hfwd])

theorem unblk_leaves (hreq : t.req = some r) (hr : r.hdr.src = src) : Leaves (.unblk src line) s (s.onTxn line (fun z => { z with unblk := false })) :=
  leaves_unlost hne hfence hsrc rfl (by simp [htxn, hreq, hr])

theorem fwdack_leaves (hreq : t.req = some r) (hfwd : t.fwd = some src) (wbp dirty : Bool) (data : Line) :
    Leaves (.fwdack src ⟨line, pid, stype⟩ wbp dirty data) s (s.fwdDone r src line pid stype wbp dirty t.wbSeen data) :=
  leaves_unlost hne hfence hsrc rfl (by simp [htxn, hreq, hfwd])

end

/-! Writebacks at the home (09 R227, R230, R232) -/

section
variable {s : State} {w : WbMsg}

theorem State.owns_of_owner {e : DirEnt} {line cx : Nat} (hdir : s.mem.dir.find line = some e) (hst : e.st ≠ .s) (howner : e.owner = cx) : s.owns line cx = true := by
  simp [State.owns, hdir, hst, howner]

theorem State.owns_of_noEntry {line : Nat} (hdir : s.mem.dir.find line = none) (cx : Nat) : s.owns line cx = false := by simp [State.owns, hdir]

/-- A WB that nothing awaits is the owner's data, or an error. -/
theorem State.wbTake_unawaited {z : State} (hz : s.updMem (fun m => { m with wbUsed := m.wbUsed + 1 }) = z) (hlate : s.mem.late = []) (htxn : s.mem.txns.find w.line = none) :
    s.wbTake w = (if s.owns w.line w.src then (z.wbData w).dropOwner w.line else z.flt 4 4).coh w.src 0x38 w.line w.lock := by
  subst hz
  simp only [State.wbTake, State.updMem, hlate, List.find?_nil, htxn]
  rfl

theorem State.wbData_admitted (hadm : s.admits (w.line * 256) w.pid (wbNeed w.stype) (w.stype == 6) = true) :
    s.wbData w = (s.dram w.line).updMem (fun z => z.putLine w.line w.data (if w.poison then 2 else 0)) := if_pos hadm

variable {src line pid stype : Nat} {keep lock poison : Bool} {data : Line}
  (hsrc : src < 1024) (hne : src ≠ s.cxid) (hfence : s.flag F.FLT_FENCE_CXF = false) (hhome : s.homeOf (line * 256) = some s.cxid)
include hsrc hne hfence hhome

theorem wb_leaves : Leaves (.wb src ⟨line, keep, lock⟩ ⟨pid, stype⟩ data poison) s
    (let w : WbMsg := { src := src, line := line, pid := pid, stype := stype, keep := keep, lock := lock, data := data, poison := poison }
     if 256 ≤ s.mem.wbUsed || !s.mem.wbQ.isEmpty then s.updMem (fun z => { z with wbQ := z.wbQ ++ [w] }) else s.wbTake w) := by
  change execWb src ⟨line, keep, lock⟩ ⟨pid, stype⟩ data poison s = _
  rw [execWb, fromCx_of_lt hsrc, if_neg (by simp [State.hears_of_ne hne hfence, hhome]), settled_next]

/-- All buffers are in use: the WB waits its turn. -/
theorem wb_waits (hfull : 256 ≤ s.mem.wbUsed) : Leaves (.wb src ⟨line, keep, lock⟩ ⟨pid, stype⟩ data poison) s (s.updMem (fun z => { z with
    wbQ := z.wbQ ++ [{ src := src, line := line, pid := pid, stype := stype, keep := keep, lock := lock, data := data, poison := poison }] })) := by
  simpa only [hfull, decide_true, Bool.true_or, if_true] using wb_leaves (pid := pid) (stype := stype) (keep := keep) (lock := lock) (poison := poison) (data := data) hsrc hne hfence hhome

theorem wb_taken (hqueue : s.mem.wbQ = []) (hfree : s.mem.wbUsed < 256) : Leaves (.wb src ⟨line, keep, lock⟩ ⟨pid, stype⟩ data poison) s
    (s.wbTake { src := src, line := line, pid := pid, stype := stype, keep := keep, lock := lock, data := data, poison := poison }) := by
  simpa only [hqueue, decide_eq_false (Nat.not_le.mpr hfree), List.isEmpty_nil, Bool.not_true, Bool.or_self, Bool.false_eq_true, if_false] using wb_leaves (pid := pid) (stype := stype) (keep := keep) (lock := lock) (poison := poison) (data := data) hsrc hne hfence hhome

end

/-! Reservations (09 R225, R226) -/

theorem inviteTimeout_releases {s : State} {src : Nat} {rest : List Nat} (hkept : s.mem.kept = src :: rest) :
    Leaves .inviteTimeout s ((s.updMem (fun z => { z with kept := rest })).freeResv) := by
  change execInviteTimeout s = _
  rw [execInviteTimeout, if_neg (by simp [hkept]), settled_next]
  simp only [State.updMem, hkept, List.tail_cons]

theorem inviteTimeout_idle {s : State} (hkept : s.mem.kept = []) : Leaves .inviteTimeout s s := by
  change execInviteTimeout s = _
  rw [execInviteTimeout, if_pos (by simp [hkept]), settled_next]

/-- Settles O32: a request is served by `leaves_served`, a reply and a writeback by the lemma of its message. -/
theorem homeRequests : Obligations.HomeRequests := by
  constructor
  · intro s q place first last off op data far a b kind
    refine ⟨fun hsrc hne hfence hhome => ?_, fun h => wrpl_noBytes h s q place data, fun h => atom_misaligned h s q op far a b, rds_fenced⟩
    have served := @leaves_served s q hsrc hne hfence hhome
    exact ⟨served rfl rfl, served rfl rfl, served rfl rfl, served rfl rfl, served rfl rfl, fun hle hlast => wrpl_served hsrc hne hfence hhome hle hlast place data,
      fun hoff hpos hop halign hpair => atom_served hsrc hne hfence hhome hoff hpos hop halign hpair far a b⟩
  · intro s src line pid stype t r e wbp dirty keep lock poison data m hsrc hne hfence
    refine ⟨fun htxn => ⟨leaves_heard hne hfence hsrc rfl rfl, nocopy_leaves hsrc hne hfence htxn, unblk_leaves hsrc hne hfence htxn, ?ack, ?timeout⟩,
      fun hhome hqueue hfree htxn hlate => ?wb, wb_waits hsrc hne hfence, fun rest => inviteTimeout_releases, inviteTimeout_idle, settled_next ..⟩
    case ack =>
      intro hreq hfwd
      have hack := @fwdack_leaves s src line pid stype t r hsrc hne hfence htxn hreq hfwd wbp dirty data
      refine ⟨fun hkind hwbp => ?_, fun hkind hwbp hseen => ?_, fun hkind hwbp hseen => ?_, fun hkind hwbp hdirty => ?_⟩ <;> subst hwbp
      · rwa [State.fwdDone_read hkind] at hack
      · rwa [hseen, State.fwdDone_readBuffer hkind] at hack
      · rwa [hseen, State.fwdDone_cleanBuffer hkind] at hack
      · subst hdirty
        rwa [State.fwdDone_cleanDirty hkind] at hack
    case timeout =>
      intro hfwd
      have hlost := @snoopTimeout_leaves s src line hsrc hfence
      rwa [State.silent_forward htxn hfwd] at hlost
    case wb =>
      have htake := @wb_taken s src line pid stype keep lock poison data hsrc hne hfence hhome hqueue hfree
      rw [State.wbTake_unawaited rfl hlate htxn] at htake
      refine ⟨fun hdir hst howner hadm => ?_, fun hdir => ?_⟩
      · rw [if_pos (State.owns_of_owner hdir hst howner), State.wbData_admitted] at htake
        exacts [htake, hadm]
      · rwa [State.owns_of_noEntry hdir, if_neg Bool.false_ne_true] at htake

end Sys2Proof.Machine
end

section
/-! PROOFS. What snoops do at an owner or sharer (09 R216, R231, R232, Table COH-2), and answers at a requester (09 R206, R212, R224 to R226, R233). -/

namespace Sys2Proof.Machine

/-! What an owner serves a forward from -/

section
variable {s : State} {line : Nat}

theorem State.ownCopy_line {c : CLine} (hheld : s.held line = some c) (hst : c.st ≠ .s) : s.ownCopy line = .line c := by simp [State.ownCopy, hheld, hst]

theorem State.ownCopy_buffer {w : WbEnt} (hheld : s.held line = none) (hbuf : s.mem.wbuf.find line = some w) : s.ownCopy line = .buffer w := by
  simp only [State.ownCopy, hheld, hbuf]

theorem State.ownCopy_none (hheld : s.held line = none) (hbuf : s.mem.wbuf.find line = none) : s.ownCopy line = .none := by simp only [State.ownCopy, hheld, hbuf]

end

/-- The copy of a line stays, in another state. -/
def State.keepCopy (s : State) (line : Nat) (c : CLine) (st : Moesi) : State := (s.updMem (fun m => { m with lines := m.lines.put line { c with st := st } })).ownStale line

/-- The state in which CLN leaves a copy (Table COH-2). -/
def Moesi.cleaned : Moesi → Moesi
  | .m => .e
  | .o => .s
  | st => st

section
variable {s : State} {home line ftgt rtag : Nat} {rights : BitVec 3} {lock : Bool}
  (hhome : home < 1024) (htgt : ftgt < 1024) (hne : home ≠ s.cxid) (hfence : s.flag F.FLT_FENCE_CXF = false) (hhomed : s.homeOf (line * 256) = some home)

/-! Forwards and CLN (09 R216, R232) -/

section
include hhome htgt hne hfence hhomed
variable {c : CLine}

theorem fwds_line (hown : s.ownCopy line = .line c) (dirty : Bool) (hdirty : c.st.dirty = dirty) :
    Leaves (.fwds home ⟨line, rights, lock⟩ ftgt rtag) s
      (((s.keepCopy line c (if dirty then .o else .s)).fwdData ftgt 0x30 line lock rights c.data false).fwdAck home line lock false dirty c.pid.toNat c.stype.toNat 0) :=
  leaves_forwarded hne hfence hhome hhomed htgt rfl (by simp only [hown, hdirty, State.keepCopy])

theorem fwdo_line (hown : s.ownCopy line = .line c) (dirty : Bool) (hdirty : c.st.dirty = dirty) :
    Leaves (.fwdo home ⟨line, rights, lock⟩ ftgt rtag) s
      ((((s.dropLine line true).upgLost line).fwdData ftgt (if dirty then 0x32 else 0x31) line lock rights c.data false).fwdAck home line lock false dirty
        c.pid.toNat c.stype.toNat 0) :=
  leaves_forwarded hne hfence hhome hhomed htgt rfl (by simp only [hown, hdirty])

theorem fwdsnap_line (hown : s.ownCopy line = .line c) :
    Leaves (.fwdsnap home ⟨line, rights, lock⟩ ftgt rtag) s
      ((s.fwdData ftgt 0x33 line lock rights c.data false).fwdAck home line lock false c.st.dirty c.pid.toNat c.stype.toNat 0) :=
  leaves_forwarded hne hfence hhome hhomed htgt rfl (by simp only [hown])

theorem forwards_buffer {w : WbEnt} (hown : s.ownCopy line = .buffer w) :
    Leaves (.fwds home ⟨line, rights, lock⟩ ftgt rtag) s (s.fwdBuffer home ftgt 0x30 line lock rights w) ∧
    Leaves (.fwdo home ⟨line, rights, lock⟩ ftgt rtag) s (s.fwdBuffer home ftgt 0x32 line lock rights w) ∧
    Leaves (.fwdsnap home ⟨line, rights, lock⟩ ftgt rtag) s (s.fwdBuffer home ftgt 0x33 line lock rights w) := by
  refine ⟨?_, ?_, ?_⟩ <;> exact leaves_forwarded hne hfence hhome hhomed htgt rfl (by simp only [hown])

theorem forwards_noCopy (hown : s.ownCopy line = .none) :
    Leaves (.fwds home ⟨line, rights, lock⟩ ftgt rtag) s (s.coh home 0x37 line lock) ∧
    Leaves (.fwdo home ⟨line, rights, lock⟩ ftgt rtag) s (s.coh home 0x37 line lock) ∧
    Leaves (.fwdsnap home ⟨line, rights, lock⟩ ftgt rtag) s (s.coh home 0x37 line lock) := by
  refine ⟨?_, ?_, ?_⟩ <;> exact leaves_forwarded hne hfence hhome hhomed htgt rfl (by simp only [hown])

end

include hhome hne hfence hhomed

theorem cln_line {c : CLine} (hown : s.ownCopy line = .line c) (st : Moesi) (hst : c.st = st) :
    Leaves (.cln home ⟨line, lock⟩) s
      ((s.keepCopy line c st.cleaned).fwdAck home line lock false st.dirty c.pid.toNat c.stype.toNat (if st.dirty then c.data else 0)) := by
  refine leaves_snooped hne hfence hhome hhomed rfl ?_
  simp only [hown, hst, State.keepCopy]
  cases st <;> rfl

theorem cln_buffer {w : WbEnt} (hown : s.ownCopy line = .buffer w) :
    Leaves (.cln home ⟨line, lock⟩) s (s.fwdAck home line lock true true w.pid.toNat w.stype.toNat 0) :=
  leaves_snooped hne hfence hhome hhomed rfl (by simp only [hown])

theorem cln_noCopy (hown : s.ownCopy line = .none) : Leaves (.cln home ⟨line, lock⟩) s (s.coh home 0x37 line lock) :=
  leaves_snooped hne hfence hhome hhomed rfl (by simp only [hown])

/-! Invalidations (09 R216, R231) -/

theorem inv_absent (hheld : s.held line = none) : Leaves (.inv home ⟨line, lock⟩) s (s.coh home 0x35 line lock) :=
  leaves_snooped hne hfence hhome hhomed rfl (by simp only [hheld])

theorem inv_shared {c : CLine} (hheld : s.held line = some c) (hst : c.st = .s) :
    Leaves (.inv home ⟨line, lock⟩) s ((((s.lockHit line).1.dropLine line).upgLost line).coh home 0x35 line lock) :=
  leaves_snooped hne hfence hhome hhomed rfl (by simp only [hheld, hst, beq_self_eq_true, if_true])

/-- The WB of a dirty copy is the reply, a clean one is acknowledged. -/
theorem binv_line {c : CLine} (hheld : s.held line = some c) (dirty : Bool) (hdirty : c.st.dirty = dirty) {u : State}
    (hleft : ((s.lockHit line).1.dropLine line false (s.lockHit line).2 lock).upgLost line = u) :
    Leaves (.binv home ⟨line, lock⟩) s (if dirty then u else u.coh home 0x35 line lock) :=
  leaves_snooped hne hfence hhome hhomed rfl (by simp only [hheld, hdirty, hleft])

/-- A writeback under way is the reply where there is one. -/
theorem binv_absent (hheld : s.held line = none) (leaving : Bool) (hbuf : s.mem.wbuf.has line = leaving) :
    Leaves (.binv home ⟨line, lock⟩) s (if leaving then s else s.coh home 0x35 line lock) :=
  leaves_snooped hne hfence hhome hhomed rfl (by simp only [hheld, hbuf])

end

/-! Data and ownership at a requester (09 R206, R217, R218, Table COH-2) -/

section
variable {s : State} {line k : Nat} {q : ReqEnt} {d : DataRsp}

theorem State.homeData?_idle (htxn : s.mem.txns.find line = none) (d : DataRsp) (st : Moesi) : s.homeData? line d st = none := by simp only [State.homeData?, htxn]

theorem State.endReq_outst (hout : s.outst line = some (k, q)) (f : Nat → ReqEnt → State) : s.endReq line f = f k q := by simp only [State.endReq, hout]

/-- Data that a request awaits installs the line, makes its store and closes the transaction. -/
theorem State.dataRsp_installs {st : Moesi} (htxn : s.mem.txns.find line = none) (hreq : s.mem.reqs.find line = some q) (htakes : q.st.takes st = true) (hclean : d.poison = false) :
    s.dataRsp line d st =
      (((s.install line { st := st, pid := BitVec.ofNat 8 q.req.hdr.pid, rights := d.rights, data := d.data }).updMem (fun m => { m with reqs := m.reqs.del line })).drainLine
        q.req.hdr.tag line).coh ((s.homeOf (line * 256)).getD s.cxid) 0x3C line q.req.hdr.lock := by
  simp only [State.dataRsp, State.homeData?_idle htxn, hreq, htakes, hclean, Bool.false_eq_true, if_false]

theorem State.snapRsp_delivers (htxn : s.mem.txns.find line = none) (hout : s.outst line = some (k, q)) (hst : q.st = .snap) (hclean : d.poison = false) :
    s.snapRsp line d = s.updMem (fun m => { m with reqs := m.reqs.put k { q with st := .got d } }) := by
  simp [State.snapRsp, State.homeData?_idle htxn, State.endReq_outst hout, hst, hclean]

theorem State.placed_l3 {place : BitVec 18} (hplace : fieldOf place 17 16 = 2) (hclean : d.poison = false) (pid stype : Nat) :
    s.placed line pid stype place d =
      s.install line { st := .m, pid := BitVec.ofNat 8 pid, rights := d.rights, data := d.data, stype := BitVec.ofNat 4 stype } := by
  simp [State.placed, State.placeLine, hplace, hclean]

section
variable {src pid stype : Nat} {place : BitVec 18} (hsrc : src < 1024) (hne : src ≠ s.cxid) (hfence : s.flag F.FLT_FENCE_CXF = false)
include hsrc hne hfence

theorem dataM_answers (hplace : fieldOf place 17 16 = 0) : Leaves (.dataM src line ⟨pid, stype, place⟩ d) s (s.dataRsp line d .m) :=
  leaves_unlost hne hfence hsrc rfl (if_pos hplace)

theorem dataM_places (hplace : fieldOf place 17 16 ≠ 0) : Leaves (.dataM src line ⟨pid, stype, place⟩ d) s (s.placed line pid stype place d) :=
  leaves_unlost hne hfence hsrc rfl (if_neg hplace)

theorem gnt_leaves {c : CLine} (hreq : s.mem.reqs.find line = some q) (hst : q.st = .smG) (hpid : q.req.hdr.pid = pid) (hheld : s.held line = some c) (rights : BitVec 3) :
    Leaves (.gnt src line pid rights) s
      (((s.updMem (fun m => { m with lines := m.lines.put line { c with st := .e, rights := rights }, reqs := m.reqs.del line })).drainLine q.req.hdr.tag line).coh
        src 0x3C line q.req.hdr.lock) :=
  leaves_unlost hne hfence hsrc rfl (by simp only [hreq, hheld, hst, hpid, beq_self_eq_true, Bool.and_self, if_true])

end

/-! Answers to an atomic, a placement and a request that is refused or lost (09 R212, R224 to R226, R233) -/

theorem atomrsp_leaves {lc : Nat} (hfence : s.flag F.FLT_FENCE_CXF = false) (hlc : lc < 48) (hwait : (s.core lc).wait = .atom line) (old : W128) (cc : BitVec 2) :
    Leaves (.atomrsp lc line old cc d) s ((s.updMem (fun m => { m with reqs := m.reqs.del (line + 2 ^ 48 * (lc + 1)) })).updCore lc
      (fun z => { z with wait := if d.poison then .atomFail line (if d.rights = 0 then 0 else 1) else .atomGot line old cc })) := by
  change execAtomrsp lc line old cc d s = _
  rw [execAtomrsp, if_neg (by omega), if_neg (by simp [hfence, hwait]), settled_next]

section
variable (hout : s.outst line = some (k, q))
include hout

section
variable {src : Nat} (hsrc : src < 1024) (hne : src ≠ s.cxid) (hfence : s.flag F.FLT_FENCE_CXF = false)
include hsrc hne hfence

theorem nack_resfull : Leaves (.nack src line .resfull) s (s.updMem (fun m => { m with reqs := m.reqs.put k { q with backoff := true, stopped := true } })) :=
  leaves_unlost hne hfence hsrc rfl (by rw [State.endReq_outst hout, if_pos rfl])

theorem nack_backsOff {why : NackReason} (hwhy : why ≠ .resfull) :
    Leaves (.nack src line why) s (s.updMem (fun m => { m with
      lfsr := m.lfsr.put reqArray (lfsrStep (s.mem.lfsrOf reqArray)),
      reqs := m.reqs.put k { q with backoff := true, stopped := false, due := s.after (nackWait q.sends (lfsrStep (s.mem.lfsrOf reqArray))) } })) :=
  leaves_unlost hne hfence hsrc rfl (by rw [State.endReq_outst hout, if_neg hwhy])

end

variable (hfence : s.flag F.FLT_FENCE_CXF = false)
include hfence

theorem cmpMessage_completes (hkind : q.req.kind = .wrpl) : Leaves (.cmpMessage line) s (s.updMem (fun m => { m with reqs := m.reqs.put k { q with st := .cmp } })) := by
  have hend := leaves_unfenced (i := .cmpMessage line) hfence rfl
  rw [State.endReq_outst hout] at hend
  simpa only [hkind] using hend

theorem requestResend_resends (hback : q.backoff = true) (hstop : q.stopped = false) : Leaves (.requestResend line) s ((s.reach q.due.toNat).resend k q) := by
  have hend := leaves_unfenced (i := .requestResend line) hfence rfl
  rwa [State.endReq_outst hout, if_pos (by simp [hback, hstop])] at hend

theorem requestTimeout_backsOff (hback : q.backoff = true) : Leaves (.requestTimeout line) s s := by
  have hend := leaves_unfenced (i := .requestTimeout line) hfence rfl
  rwa [State.endReq_outst hout, if_pos hback] at hend

theorem requestTimeout_lost (hback : q.backoff = false) : Leaves (.requestTimeout line) s (s.reqLost k q) := by
  have hend := leaves_unfenced (i := .requestTimeout line) hfence rfl
  rwa [State.endReq_outst hout, if_neg (by simp [hback])] at hend

end

theorem State.resend_homed {h : Nat} (hhome : s.homeOf (q.req.hdr.line * 256) = some h) (k : Nat) :
    s.resend k q = s.sendReq h { q.req with hdr := { q.req.hdr with starve := decide (8 ≤ q.sends) } } k q.st := by
  simp only [State.resend, hhome]

theorem State.reqLost_read (hkind : q.req.kind = .rds) (k : Nat) :
    s.reqLost k q = (s.flt 4 6 0 (some q.req.hdr.pid) (BitVec.ofNat 64 (q.req.hdr.line * 256))).updMem (fun m => { m with reqs := m.reqs.put k { q with st := .failed 3 } }) := by
  simp only [State.reqLost, hkind]

theorem State.reqLost_atom (hkind : q.req.kind = .atom) (k : Nat) :
    s.reqLost k q = ((s.flt 4 6 0 (some q.req.hdr.pid) (BitVec.ofNat 64 (q.req.hdr.line * 256))).updMem (fun m => { m with reqs := m.reqs.del k })).updCore q.req.hdr.tag
      (fun c => if c.wait = .atom q.req.hdr.line then { c with wait := .atomFail q.req.hdr.line 3 } else c) := by
  simp only [State.reqLost, hkind]

/-- An INVITE sends the one request that waits for it. -/
theorem invite_resends {src : Nat} (hsrc : src < 1024) (hne : src ≠ s.cxid) (hfence : s.flag F.FLT_FENCE_CXF = false) (hreqs : s.mem.reqs = [(k, q)]) (hopen : q.st.open = true)
    (hstop : q.stopped = true) (hstarve : q.req.hdr.starve = true) (hhome : s.homeOf (q.req.hdr.line * 256) = some src) : Leaves (.invite src) s (s.resend k q) :=
  leaves_unlost hne hfence hsrc rfl (by simp [hreqs, hopen, hstop, hstarve, hhome])

end

/-- Settles O33: each clause is the lemma of its message; a resend moves time to the backoff's moment, the choice of log 14. -/
theorem snoopsAndAnswers : Obligations.SnoopsAndAnswers := by
  constructor
  · intro s home line ftgt rtag rights lock c w hhome htgt hne hfence hhomed keep data ack late gone
    refine ⟨fun hheld hst => ?line, fun hheld hbuf => ?buffer, fun hheld hbuf => ?none, inv_absent hhome hne hfence hhomed, inv_shared hhome hne hfence hhomed, fun hheld => ?binv,
      fun hheld => binv_absent hhome hne hfence hhomed hheld false, fun hheld => binv_absent hhome hne hfence hhomed hheld true⟩
    case line =>
      have hown := State.ownCopy_line hheld hst
      have cln := @cln_line s home line lock hhome hne hfence hhomed c hown
      refine ⟨fun hdirty => ⟨fwds_line hhome htgt hne hfence hhomed hown true hdirty, fwdo_line hhome htgt hne hfence hhomed hown true hdirty⟩, fun hst => ?exclusive, cln .m, cln .o,
        fwdsnap_line hhome htgt hne hfence hhomed hown⟩
      have hclean : c.st.dirty = false := hst ▸ rfl
      exact ⟨fwds_line hhome htgt hne hfence hhomed hown false hclean, fwdo_line hhome htgt hne hfence hhomed hown false hclean, cln .e hst⟩
    case buffer =>
      have hown := State.ownCopy_buffer hheld hbuf
      obtain ⟨hfwds, hfwdo, hfwdsnap⟩ := forwards_buffer hhome htgt hne hfence hhomed hown
      exact ⟨hfwds, hfwdo, hfwdsnap, cln_buffer hhome hne hfence hhomed hown⟩
    case none =>
      have hown := State.ownCopy_none hheld hbuf
      obtain ⟨hfwds, hfwdo, hfwdsnap⟩ := forwards_noCopy hhome htgt hne hfence hhomed hown
      exact ⟨hfwds, hfwdo, hfwdsnap, cln_noCopy hhome hne hfence hhomed hown⟩
    case binv => exact ⟨fun hdirty => binv_line hhome hne hfence hhomed hheld false hdirty rfl, fun hdirty => binv_line hhome hne hfence hhomed hheld true hdirty rfl⟩
  · intro s z src line k lc h stype q c d pid place old cc why hsrc hfence put came
    refine ⟨fun hne htxn => ⟨fun hreq hclean => ?data, fun hout hst hclean => ?snapshot⟩, fun hne hclean hplace => ?placed, fun hlc hwait => ?atom, fun hout => ?outstanding,
      fun hne hreqs hopen hstop hstarve hhome => ?invite, leaves_unfenced hfence rfl⟩
    case data =>
      have installs {st : Moesi} (htakes : q.st.takes st = true) : s.dataRsp line d st = came st := State.dataRsp_installs htxn hreq htakes hclean
      refine ⟨fun hst => ?_, fun hst => ?_, fun hst hpid hheld => gnt_leaves hsrc hne hfence hreq hst hpid hheld d.rights⟩
      · exact ⟨leaves_heard hne hfence hsrc rfl (installs (hst ▸ rfl)), leaves_heard hne hfence hsrc rfl (installs (hst ▸ rfl))⟩
      · refine ⟨leaves_heard hne hfence hsrc rfl (installs (hst ▸ rfl)), fun hplace => ?_⟩
        rw [← installs (hst ▸ rfl)]
        exact dataM_answers hsrc hne hfence hplace
    case snapshot => exact leaves_heard hne hfence hsrc rfl (State.snapRsp_delivers htxn hout hst hclean)
    case placed => exact State.placed_l3 hplace hclean pid stype ▸ dataM_places hsrc hne hfence (by omega)
    case atom =>
      have hatom := @atomrsp_leaves s line d lc hfence hlc hwait old cc
      exact ⟨fun hclean => by simpa only [hclean, Bool.false_eq_true, if_false] using hatom, fun hpoison hrights => by simpa only [hpoison, hrights, if_true] using hatom⟩
    case outstanding =>
      refine ⟨cmpMessage_completes hout hfence, fun hne hwhy => hwhy ▸ nack_resfull hout hsrc hne hfence, fun hne hwhy => nack_backsOff hout hsrc hne hfence hwhy, fun hback hstop hz hhome => ?_,
        requestTimeout_backsOff hout hfence, fun hback => ⟨fun hkind => ?_, fun hkind => ?_⟩⟩
      · subst hz
        exact State.resend_homed hhome k ▸ requestResend_resends hout hfence hback hstop
      · exact State.reqLost_read hkind k ▸ requestTimeout_lost hout hfence hback
      · exact State.reqLost_atom hkind k ▸ requestTimeout_lost hout hfence hback
    case invite => exact State.resend_homed hhome k ▸ invite_resends hsrc hne hfence hreqs hopen hstop hstarve hhome

end Sys2Proof.Machine
end

section
/-! PROOFS. The wiring of a wall and the routes within it (10 R236, R237, R239). -/

namespace Sys2Proof.Machine

/-! The parts of a complex ID (10 R236) -/

theorem cxWall_lt (cx : Nat) : cxWall cx < 16 := Nat.mod_lt _ (by decide)
theorem cxCourse_lt (cx : Nat) : cxCourse cx < 8 := Nat.mod_lt _ (by decide)
theorem cxPos_lt (cx : Nat) : cxPos cx < 8 := Nat.mod_lt _ (by decide)

theorem mkCx_lt {w c p : Nat} (hw : w < 16) (hc : c < 8) (hp : p < 8) : mkCx w c p < 1024 := by simp only [mkCx]; omega
theorem cxWall_mkCx {w c p : Nat} (hw : w < 16) (hc : c < 8) (hp : p < 8) : cxWall (mkCx w c p) = w := by simp only [cxWall, mkCx, bits]; omega
theorem cxCourse_mkCx {w c p : Nat} (hc : c < 8) (hp : p < 8) : cxCourse (mkCx w c p) = c := by simp only [cxCourse, mkCx, bits]; omega
theorem cxPos_mkCx {w c p : Nat} (hp : p < 8) : cxPos (mkCx w c p) = p := by simp only [cxPos, mkCx, bits]; omega

theorem mkCx_parts {cx : Nat} (h : cx < 1024) : mkCx (cxWall cx) (cxCourse cx) (cxPos cx) = cx := by
  simp only [cxWall, cxCourse, cxPos, mkCx, bits]; omega

/-! The wiring (10 R237) -/

section
variable (s : State) {cx port : Nat}

theorem State.wire_course (h : port < 7) : s.wire cx port = some (mkCx (cxWall cx) (cxCourse cx) ((cxPos cx + port + 1) % 8), 6 - port) := if_pos h

theorem State.wire_wall (h : 7 ≤ port) (h14 : port < 14) : s.wire cx port = some (mkCx (cxWall cx) ((cxCourse cx + port - 6) % 8) (cxPos cx), 20 - port) := by
  rw [State.wire, if_neg (by omega), if_pos h14]

/-- Along a course a port's far end lies `port + 1` positions ahead, and the port there as far back. -/
theorem State.wire_course_far (hcx : cx < 1024) (h : port < 7) : ∃ q, s.wire cx port = some q ∧ q.1 < 1024 ∧ q.2 < 14 ∧ q.1 ≠ cx ∧ s.wire q.1 q.2 = some (cx, port) := by
  have hw := cxWall_lt cx
  have hc := cxCourse_lt cx
  have hp := cxPos_lt cx
  have hfar : (cxPos cx + port + 1) % 8 < 8 := Nat.mod_lt _ (by decide)
  refine ⟨_, s.wire_course h, mkCx_lt hw hc hfar, show 6 - port < 14 by omega, fun heq => ?_, ?_⟩
  · have hpos : _ = cxPos cx := (cxPos_mkCx hfar).symm.trans (congrArg cxPos heq)
    omega
  · rw [s.wire_course (show 6 - port < 7 by omega), cxWall_mkCx hw hc hfar, cxCourse_mkCx hc hfar, cxPos_mkCx hfar,
      show ((cxPos cx + port + 1) % 8 + (6 - port) + 1) % 8 = cxPos cx by omega, mkCx_parts hcx, show 6 - (6 - port) = port by omega]

/-- Across the courses of a wall the same holds of ports 7 to 13. -/
theorem State.wire_wall_far (hcx : cx < 1024) (h : 7 ≤ port) (h14 : port < 14) :
    ∃ q, s.wire cx port = some q ∧ q.1 < 1024 ∧ q.2 < 14 ∧ q.1 ≠ cx ∧ s.wire q.1 q.2 = some (cx, port) := by
  have hw := cxWall_lt cx
  have hc := cxCourse_lt cx
  have hp := cxPos_lt cx
  have hfar : (cxCourse cx + port - 6) % 8 < 8 := Nat.mod_lt _ (by decide)
  refine ⟨_, s.wire_wall h h14, mkCx_lt hw hfar hp, show 20 - port < 14 by omega, fun heq => ?_, ?_⟩
  · have hcourse : _ = cxCourse cx := (cxCourse_mkCx hfar hp).symm.trans (congrArg cxCourse heq)
    omega
  · rw [s.wire_wall (show 7 ≤ 20 - port by omega) (show 20 - port < 14 by omega), cxWall_mkCx hw hfar hp, cxCourse_mkCx hfar hp, cxPos_mkCx hp,
      show ((cxCourse cx + port - 6) % 8 + (20 - port) - 6) % 8 = cxCourse cx by omega, mkCx_parts hcx, show 20 - (20 - port) = port by omega]

end

/-! Routes (10 R239) -/

section
variable {s : State} {a b : Nat}

theorem State.route_ofWall (h : cxWall b = cxWall s.cxid) : s.route b = s.segment s.cxid b := if_pos h

theorem State.segment_course (hcourse : cxCourse b = cxCourse a) (hup : s.linkUp (mkCx (cxWall a) (cxCourse a) (cxPos a)) (coursePort (cxPos a) (cxPos b)) = true) :
    s.segment a b = some (coursePort (cxPos a) (cxPos b)) := by
  simp only [State.segment]
  rw [if_pos hcourse.symm, if_pos hup]

theorem State.segment_position (hcourse : cxCourse b ≠ cxCourse a) (hpos : cxPos b = cxPos a)
    (hup : s.linkUp (mkCx (cxWall a) (cxCourse a) (cxPos a)) (wallPort (cxCourse a) (cxCourse b)) = true) : s.segment a b = some (wallPort (cxCourse a) (cxCourse b)) := by
  simp only [State.segment]
  rw [if_neg (Ne.symm hcourse), if_pos hpos.symm, if_pos hup]

end

/-- Settles O35: a port is wired along its course or across the courses, and a segment whose link is up is taken at once. -/
theorem wiringAndRoutes : Obligations.WiringAndRoutes := by
  intro s cx port dst
  refine ⟨fun hcx hport => ?wiring, fun _ _ hwall hcourse hup => ?course, fun _ hwall hcourse hpos hup => ?position⟩
  case wiring =>
    by_cases h : port < 7
    · exact s.wire_course_far hcx h
    · exact s.wire_wall_far hcx (by omega) hport
  case course => rw [State.route_ofWall hwall, State.segment_course hcourse hup]
  case position => rw [State.route_ofWall hwall, State.segment_position hcourse hpos hup]

end Sys2Proof.Machine
end

section
/-! PROOFS. Packets in transit and the control flits and events of a Felard link (10 R239, R241, R242, R244 to R253, R259, R260; 09 R212). -/

namespace Sys2Proof.Machine

/-! A packet that arrives (10 R245, R249) -/

section
variable {s t : State} {port : Nat} {hdr : BitVec 256} {data : Option Line} (hport : port < 16) (hfence : s.flag F.FLT_FENCE_CXF = false) (hup : s.portUp port = true)
  (hdf : (fieldOf hdr 242 242 == 1) = data.isSome)
include hport hfence hup hdf

theorem packetTransit_badCrc (hcrc : fieldOf hdr 31 0 ≠ pktCrc hdr data) :
    Leaves (.packetTransit port hdr data) s ((s.fcrc port).ctlFlit port 2 (s.fport port).rxSeq.toNat) := by
  change execPacketTransit port hdr data s = _
  rw [execPacketTransit, if_neg (by omega), if_neg (by simp [hfence, hup, hdf]), if_pos hcrc, settled_next]

variable (hcrc : fieldOf hdr 31 0 = pktCrc hdr data) (ht : t = s.flack port (BitVec.ofNat 8 (fieldOf hdr 135 128)))
include hcrc ht

/-- Ahead of its turn a packet is refused, behind it acknowledged again. -/
theorem packetTransit_outOfTurn (hseq : BitVec.ofNat 8 (fieldOf hdr 143 136) ≠ (t.fport port).rxSeq) :
    Leaves (.packetTransit port hdr data) s
      (if (BitVec.ofNat 8 (fieldOf hdr 143 136) - (t.fport port).rxSeq).toNat < 128 then t.ctlFlit port 2 (t.fport port).rxSeq.toNat
       else t.ctlFlit port 1 ((t.fport port).rxSeq - 1).toNat) := by
  subst ht
  change execPacketTransit port hdr data s = _
  rw [execPacketTransit, if_neg (by omega), if_neg (by simp [hfence, hup, hdf]), if_neg (not_not_intro hcrc)]
  dsimp only
  rw [if_pos hseq, settled_next]

theorem packetTransit_ahead (hseq : BitVec.ofNat 8 (fieldOf hdr 143 136) ≠ (t.fport port).rxSeq)
    (hahead : (BitVec.ofNat 8 (fieldOf hdr 143 136) - (t.fport port).rxSeq).toNat < 128) :
    Leaves (.packetTransit port hdr data) s (t.ctlFlit port 2 (t.fport port).rxSeq.toNat) := by
  have hout := packetTransit_outOfTurn hport hfence hup hdf hcrc ht hseq
  rwa [if_pos hahead] at hout

theorem packetTransit_behind (hseq : BitVec.ofNat 8 (fieldOf hdr 143 136) ≠ (t.fport port).rxSeq)
    (hbehind : 128 ≤ (BitVec.ofNat 8 (fieldOf hdr 143 136) - (t.fport port).rxSeq).toNat) :
    Leaves (.packetTransit port hdr data) s (t.ctlFlit port 1 ((t.fport port).rxSeq - 1).toNat) := by
  have hout := packetTransit_outOfTurn hport hfence hup hdf hcrc ht hseq
  rwa [if_neg (Nat.not_lt.mpr hbehind)] at hout

variable (hseq : BitVec.ofNat 8 (fieldOf hdr 143 136) = (t.fport port).rxSeq)
include hseq

theorem packetTransit_inTurn : exec (.packetTransit port hdr data) s = settled s
    (if !typeOk (hdrType hdr) then .next ((t.frecv port hdr).flt 4 8 0 none (BitVec.ofNat 64 port))
     else if hdrDst hdr = (t.frecv port hdr).cxid then (t.frecv port hdr).arriveAll hdr data
     else .next ((t.frecv port hdr).forward (putField hdr 245 243 (hdrVl hdr + 1)) data)) := by
  subst ht
  change execPacketTransit port hdr data s = _
  rw [execPacketTransit, if_neg (by omega), if_neg (by simp [hfence, hup, hdf]), if_neg (not_not_intro hcrc)]
  dsimp only
  rw [if_neg (not_not_intro hseq)]

theorem packetTransit_unlisted (htype : typeOk (hdrType hdr) = false) :
    Leaves (.packetTransit port hdr data) s ((t.frecv port hdr).flt 4 8 0 none (BitVec.ofNat 64 port)) := by
  rw [Leaves, packetTransit_inTurn hport hfence hup hdf hcrc ht hseq, if_pos (by simp [htype]), settled_next]

variable (htype : typeOk (hdrType hdr) = true)
include htype

theorem packetTransit_forwards (hdst : hdrDst hdr ≠ (t.frecv port hdr).cxid) :
    Leaves (.packetTransit port hdr data) s ((t.frecv port hdr).forward (putField hdr 245 243 (hdrVl hdr + 1)) data) := by
  rw [Leaves, packetTransit_inTurn hport hfence hup hdf hcrc ht hseq, if_neg (by simp [htype]), if_neg hdst, settled_next]

theorem packetTransit_arrives (hdst : hdrDst hdr = (t.frecv port hdr).cxid) {u : State} (hu : (t.frecv port hdr).arriveAll hdr data = .next u) :
    Leaves (.packetTransit port hdr data) s u := by
  rw [Leaves, packetTransit_inTurn hport hfence hup hdf hcrc ht hseq, if_neg (by simp [htype]), if_pos hdst, hu, settled_next]

end

theorem opOne_eq (d : Line) : opOne d = BitVec.ofNat 128 (d.toNat / 2 ^ 1920) := by simp only [opOne, Nat.reduceMul]

/-- An answer to an atomic is the command's wherever the command is one: its tag names a core. -/
theorem State.arriveAll_atomrsp {s u : State} {hdr : BitVec 256} {data : Option Line} (htype : hdrType hdr = 0x39)
    (hu : exec (.atomrsp (hdrTag hdr) (hdrLine hdr) (BitVec.ofNat 128 ((data.getD 0).toNat / 2 ^ 1920)) (BitVec.ofNat 2 (fieldOf hdr 74 73))
      { data := data.getD 0, poison := fieldOf hdr 127 127 == 1, rights := BitVec.ofNat 3 (fieldOf hdr 126 124) }) s = .next u) :
    s.arriveAll hdr data = .next u := by
  rw [← opOne_eq] at hu
  change execAtomrsp _ _ _ _ _ s = _ at hu
  have htag : ¬ 48 ≤ hdrTag hdr := fun h => by rw [execAtomrsp, if_pos h] at hu; cases hu
  simp only [State.arriveAll, State.arrive, htype]
  rw [if_neg htag, hu]

/-! Control flits (10 R248 to R250, R260) -/

section
variable {s : State} {port : Nat} {flit : BitVec 256} (hport : port < 16) (hfence : s.flag F.FLT_FENCE_CXF = false) (hup : s.portUp port = true)
include hport hfence hup

theorem State.ctlIn_badCrc (hcrc : fieldOf flit 31 0 ≠ (crcIscsi ((toBytes 32 flit.toNat).take 28)).toNat) (ctype : Nat) (f : State → State) :
    s.ctlIn port ctype flit f = .next (s.fcrc port) := by
  rw [State.ctlIn, if_neg (by omega), if_neg (by simp [hfence, hup]), if_pos hcrc]

theorem State.ctlIn_whole (hcrc : fieldOf flit 31 0 = (crcIscsi ((toBytes 32 flit.toNat).take 28)).toNat) {ctype : Nat} (htype : fieldOf flit 255 248 = ctype) (f : State → State) :
    s.ctlIn port ctype flit f = .next (f s) := by
  rw [State.ctlIn, if_neg (by omega), if_neg (by simp [hfence, hup]), if_neg (not_not_intro hcrc), if_neg (not_not_intro htype)]

theorem leaves_badFlit (hcrc : fieldOf flit 31 0 ≠ (crcIscsi ((toBytes 32 flit.toNat).take 28)).toNat) {i : Instr} {ctype : Nat} {f : State → State}
    (hi : exec i s = settled s (s.ctlIn port ctype flit f)) : Leaves i s (s.fcrc port) := by
  rw [Leaves, hi, State.ctlIn_badCrc hport hfence hup hcrc, settled_next]

theorem leaves_flit (hcrc : fieldOf flit 31 0 = (crcIscsi ((toBytes 32 flit.toNat).take 28)).toNat) {i : Instr} {ctype : Nat} (htype : fieldOf flit 255 248 = ctype)
    {f : State → State} (hi : exec i s = settled s (s.ctlIn port ctype flit f)) {u : State} (hf : f s = u) : Leaves i s u := by
  rw [Leaves, hi, State.ctlIn_whole hport hfence hup hcrc htype, settled_next, hf]

end

/-! Credits (10 R253, Table FAB-6) -/

/-- What an acknowledgement returns to one lane. -/
def FPort.creditLane (flit : BitVec 256) (x : FPort) (l : Nat) : FPort :=
  let n := fieldOf flit (239 - 4 * l) (236 - 4 * l)
  let more := (n + 16 - x.granted.get 0 l) % 16
  if more = 0 then x else { x with granted := x.granted.set 0 l n, credits := x.credits.upd 0 l (fun k => k + more) }

theorem FPort.credit_eq_foldl (x : FPort) (flit : BitVec 256) : x.credit flit = (List.range 45).foldl (FPort.creditLane flit) x := rfl

section
variable {x : FPort} (hwf : x.granted.wf 0 = true) (flit : BitVec 256) {l : Nat}
include hwf

theorem FPort.creditLane_wf (l : Nat) : (x.creditLane flit l).granted.wf 0 = true := by
  rw [FPort.creditLane]
  split
  · exact hwf
  · exact Tab.set_wf 0 _ _ _ hwf

theorem FPort.creditLane_other {m : Nat} (hne : l ≠ m) :
    (x.creditLane flit m).granted.get 0 l = x.granted.get 0 l ∧ (x.creditLane flit m).credits.get 0 l = x.credits.get 0 l := by
  rw [FPort.creditLane]
  split
  · exact ⟨rfl, rfl⟩
  · exact ⟨(Tab.get_set 0 _ _ _ _ hwf).trans (if_neg hne), Tab.get_put_ne _ _ _ _ _ hne⟩

/-- The lane's value becomes the flit's, and it gains what the value has risen by. -/
theorem FPort.creditLane_same (hl : l < 45) (hlt : x.granted.get 0 l < 16) :
    (x.creditLane flit l).granted.get 0 l = fieldOf flit (239 - 4 * l) (236 - 4 * l) ∧
      (x.creditLane flit l).credits.get 0 l = x.credits.get 0 l + (fieldOf flit (239 - 4 * l) (236 - 4 * l) + 16 - x.granted.get 0 l) % 16 := by
  have hn : fieldOf flit (239 - 4 * l) (236 - 4 * l) < 16 := by
    have hfield := fieldOf_lt flit (239 - 4 * l) (236 - 4 * l)
    rwa [show 239 - 4 * l + 1 - (236 - 4 * l) = 4 by omega] at hfield
  rw [FPort.creditLane]
  split
  next hnone => exact ⟨by omega, by omega⟩
  next => exact ⟨(Tab.get_set 0 _ _ _ _ hwf).trans (if_pos rfl), Tab.get_put ..⟩

theorem FPort.credits_others {ls : List Nat} (hl : l ∉ ls) :
    (ls.foldl (FPort.creditLane flit) x).granted.get 0 l = x.granted.get 0 l ∧ (ls.foldl (FPort.creditLane flit) x).credits.get 0 l = x.credits.get 0 l := by
  induction ls generalizing x with
  | nil => exact ⟨rfl, rfl⟩
  | cons m ls ih =>
    obtain ⟨hne, hrest⟩ := not_or.mp (mt List.mem_cons.mpr hl)
    obtain ⟨hgranted, hcredits⟩ := FPort.creditLane_other hwf flit hne
    rw [← hgranted, ← hcredits]
    exact ih (FPort.creditLane_wf hwf flit m) hrest

theorem FPort.credits_lane {ls : List Nat} (hnodup : ls.Nodup) (hmem : l ∈ ls) (hl : l < 45) (hlt : x.granted.get 0 l < 16) :
    (ls.foldl (FPort.creditLane flit) x).granted.get 0 l = fieldOf flit (239 - 4 * l) (236 - 4 * l) ∧
      (ls.foldl (FPort.creditLane flit) x).credits.get 0 l = x.credits.get 0 l + (fieldOf flit (239 - 4 * l) (236 - 4 * l) + 16 - x.granted.get 0 l) % 16 := by
  induction ls generalizing x with
  | nil => cases hmem
  | cons m ls ih =>
    obtain ⟨hm, hrest⟩ := List.nodup_cons.mp hnodup
    have hwf' := FPort.creditLane_wf hwf flit m
    by_cases hlm : l = m
    · subst hlm
      obtain ⟨hgranted, hcredits⟩ := FPort.creditLane_same hwf flit hl hlt
      obtain ⟨hgranted', hcredits'⟩ := FPort.credits_others hwf' flit hm
      exact ⟨hgranted'.trans hgranted, hcredits'.trans hcredits⟩
    · obtain ⟨hgranted, hcredits⟩ := FPort.creditLane_other hwf flit hlm
      rw [← hgranted, ← hcredits]
      exact ih hwf' hrest (List.mem_of_ne_of_mem hlm hmem) (hgranted ▸ hlt)

end

/-! Retraining (10 R249) -/

section
variable {s u : State} {port : Nat} (hport : port < 16) (hup : s.portUp port = true) (hresends : 8 ≤ (s.fport port).resends)
  (hu : u = (s.count F.FAB_PERR_RETRAIN (some F.FAB_PERR_TOVF) port).flt 5 1 port)
include hport hup hresends hu

theorem linkRetrain_resends {k : Pkt} {rest : List Pkt} (hreplay : (s.fport port).replay = k :: rest) :
    Leaves (.linkRetrain port true) s ((u.setFport port { s.fport port with resends := 0, retrainFails := 0 }).fresend port k.lseq) := by
  subst hu
  change execLinkRetrain port true s = _
  rw [execLinkRetrain, if_neg (by omega)]
  dsimp only
  rw [if_neg (by simp [hup, Nat.not_lt.mpr hresends]), if_pos rfl, hreplay, settled_next]

theorem linkRetrain_fails (hfails : (s.fport port).retrainFails < 2) :
    Leaves (.linkRetrain port false) s (u.setFport port { s.fport port with retrainFails := (s.fport port).retrainFails + 1 }) := by
  subst hu
  change execLinkRetrain port false s = _
  rw [execLinkRetrain, if_neg (by omega)]
  dsimp only
  rw [if_neg (by simp [hup, Nat.not_lt.mpr hresends]), if_neg Bool.false_ne_true, if_neg (by omega), settled_next]

theorem linkRetrain_down (hfails : 2 ≤ (s.fport port).retrainFails) : Leaves (.linkRetrain port false) s (u.linkDown port) := by
  subst hu
  change execLinkRetrain port false s = _
  rw [execLinkRetrain, if_neg (by omega)]
  dsimp only
  rw [if_neg (by simp [hup, Nat.not_lt.mpr hresends]), if_neg Bool.false_ne_true, if_pos hfails, settled_next]

end

/-! Sparing of lanes (10 R250, R251) -/

/-- Once a lane has been spared the replay buffer is resent, and what waits is sent. -/
def State.resume (s : State) (port : Nat) : State :=
  match (s.fport port).replay with
  | k :: _ => (s.fresend port k.lseq).fflush port
  | [] => s.fflush port

theorem State.resume_nil {s : State} {port : Nat} (h : (s.fport port).replay = []) : s.resume port = s.fflush port := by rw [State.resume, h]

theorem State.resume_cons {s : State} {port : Nat} {k : Pkt} {rest : List Pkt} (h : (s.fport port).replay = k :: rest) :
    s.resume port = (s.fresend port k.lseq).fflush port := by
  rw [State.resume, h]

section
variable {s u : State} {port lane : Nat} (hport : port < 16) (hlane : lane < 5)
include hport hlane

theorem felardLaneSparing_known (hbad : (s.fport port).badLanes.contains lane = true) : Leaves (.felardLaneSparing port lane) s s := by
  change execFelardLaneSparing port lane s = _
  rw [execFelardLaneSparing, if_neg (by simp; omega)]
  dsimp only
  rw [if_pos (by simp only [hbad, Bool.or_true]), settled_next]

variable (hup : s.portUp port = true) (hnew : (s.fport port).badLanes.contains lane = false)
include hup hnew

theorem felardLaneSparing_new : exec (.felardLaneSparing port lane) s = settled s (.next
    (let bad := (s.fport port).badLanes ++ [lane]
     let v := s.setFport port { s.fport port with badLanes := bad, paused := false }
     if lane = 4 && bad.length = 1 then v
     else if bad.length = 1 then
       (((((v.ctlFlit port 4 0).setFlag F.FAB_PSTAT_SPUSED true port).setFld F.FAB_PSTAT_SPLANE lane port).consume 5).flt 5 2 (port * 8 + lane)).resume port
     else if bad.length ≤ 3 then (if v.fld F.FAB_PSTAT_STATE port = 3 then v else (v.setFld F.FAB_PSTAT_STATE 3 port).flt 5 3).resume port
     else v.linkDown port)) := by
  change execFelardLaneSparing port lane s = _
  rw [execFelardLaneSparing, if_neg (by simp; omega)]
  dsimp only
  rw [if_neg (by simp only [hup, hnew, Bool.not_true, Bool.or_self, Bool.false_eq_true, not_false_eq_true])]
  rfl

end

section
variable {s u : State} {port lane : Nat} (hport : port < 16) (hup : s.portUp port = true)
include hport hup

/-- The first bad lane is replaced by the spare lane. -/
theorem felardLaneSparing_spares (hlane : lane < 4) (hnone : (s.fport port).badLanes = [])
    (hu : u = (((((s.setFport port { s.fport port with badLanes := [lane], paused := false }).ctlFlit port 4 0).setFlag F.FAB_PSTAT_SPUSED true port).setFld
      F.FAB_PSTAT_SPLANE lane port).consume 5).flt 5 2 (port * 8 + lane)) :
    Leaves (.felardLaneSparing port lane) s (u.resume port) := by
  rw [Leaves, felardLaneSparing_new hport (by omega) hup (by rw [hnone]; rfl), hnone, List.nil_append]
  dsimp only
  rw [if_neg (by simp; omega), if_pos List.length_singleton, hu, settled_next]

theorem felardLaneSparing_spareLane (hnone : (s.fport port).badLanes = []) :
    Leaves (.felardLaneSparing port 4) s (s.setFport port { s.fport port with badLanes := [4], paused := false }) := by
  rw [Leaves, felardLaneSparing_new hport (by decide) hup (by rw [hnone]; rfl), hnone]
  exact settled_next ..

variable (hlane : lane < 5) (hnew : (s.fport port).badLanes.contains lane = false)
include hlane hnew

/-- With the spare lane in use or bad a further lane degrades the link. -/
theorem felardLaneSparing_degrades (hlen : (s.fport port).badLanes.length = 1 ∨ (s.fport port).badLanes.length = 2) (hstate : s.fld F.FAB_PSTAT_STATE port = 2)
    (hu : u = ((s.setFport port { s.fport port with badLanes := (s.fport port).badLanes ++ [lane], paused := false }).setFld F.FAB_PSTAT_STATE 3 port).flt 5 3) :
    Leaves (.felardLaneSparing port lane) s (u.resume port) := by
  have hfull : ¬ (s.setFport port { s.fport port with badLanes := (s.fport port).badLanes ++ [lane], paused := false }).fld F.FAB_PSTAT_STATE port = 3 :=
    fun h => absurd (hstate.symm.trans h) (by decide)
  have hlen' : ((s.fport port).badLanes ++ [lane]).length = (s.fport port).badLanes.length + 1 := List.length_append
  have hfurther : ¬ ((s.fport port).badLanes ++ [lane]).length = 1 := by omega
  rw [Leaves, felardLaneSparing_new hport hlane hup hnew]
  dsimp only
  rw [decide_eq_false hfurther, Bool.and_false, if_neg Bool.false_ne_true, if_neg hfurther, if_pos (by omega), if_neg hfull, hu, settled_next]

theorem felardLaneSparing_down (hlen : (s.fport port).badLanes.length = 3) :
    Leaves (.felardLaneSparing port lane) s
      ((s.setFport port { s.fport port with badLanes := (s.fport port).badLanes ++ [lane], paused := false }).linkDown port) := by
  rw [Leaves, felardLaneSparing_new hport hlane hup hnew]
  dsimp only
  rw [if_neg (by simp [hlen]), if_neg (by simp [hlen]), if_neg (by simp [hlen]), settled_next]

end

/-! DISC at a port that trains (10 R259, R260) -/

/-- A link that comes up: the port trains no more and grants its lanes' credits. -/
def State.linkMet (s : State) (port : Nat) : State :=
  let t := (s.setFport port { s.fport port with loadOnly := false }).setFld F.FAB_PSTAT_STATE 2 port
  t.ctlFlit port 1 ((t.fport port).rxSeq - 1).toNat

section
variable {s u : State} {port nbr nport : Nat} {digest : BitVec 32} {glt : W64} (hnbr : nbr < 1024) (hnport : nport < 16) (hport : port < 14)
  (hstate : s.fld F.FAB_PSTAT_STATE port = 1) (hload : (s.fport port).loadOnly = false)
  (hu : u = (s.setFld F.FAB_PSTAT_RCX nbr port).setFld F.FAB_PSTAT_RPORT nport port)
include hnbr hnport hport hstate hload hu

/-- The entry of the global-link table counts for ports 14 and 15 alone. -/
theorem disc_trains : exec (.disc port nbr nport digest glt) s = settled s (.next
    (if u.wire u.cxid port ≠ some (nbr, nport) then (u.refuseLink port 4).flt 5 9
     else if digest.toNat ≠ u.fld F.FAB_DIGEST_DIGEST then (u.refuseLink port 5).flt 5 10
     else (if (u.linkMet port).fab.discovered then u.linkMet port else (u.linkMet port).seen nbr).flood (u.linkMet port).lsnTo [0, (u.linkMet port).cxid, port, 1])) := by
  subst hu
  change execDisc port nbr nport digest glt s = _
  rw [execDisc, if_neg (by simp; omega)]
  simp only [hstate, hload, hport, decide_true, Bool.true_or, Bool.false_and, Bool.not_true, Bool.not_false, Bool.or_false, Bool.and_true, ne_eq, not_true_eq_false, decide_false,
    Bool.false_eq_true, if_false, decide_eq_true_eq]
  rfl

theorem disc_miswired (hwire : u.wire u.cxid port ≠ some (nbr, nport)) : Leaves (.disc port nbr nport digest glt) s ((u.refuseLink port 4).flt 5 9) := by
  rw [Leaves, disc_trains hnbr hnport hport hstate hload hu, if_pos hwire, settled_next]

variable (hwire : u.wire u.cxid port = some (nbr, nport))
include hwire

theorem disc_otherDigest (hdigest : digest.toNat ≠ u.fld F.FAB_DIGEST_DIGEST) : Leaves (.disc port nbr nport digest glt) s ((u.refuseLink port 5).flt 5 10) := by
  rw [Leaves, disc_trains hnbr hnport hport hstate hload hu, if_neg (not_not_intro hwire), if_pos hdigest, settled_next]

variable (hdigest : digest.toNat = u.fld F.FAB_DIGEST_DIGEST)
include hdigest

theorem disc_afterDiscovery (hdisc : (u.linkMet port).fab.discovered = true) :
    Leaves (.disc port nbr nport digest glt) s ((u.linkMet port).flood (u.linkMet port).wallMates [0, (u.linkMet port).cxid, port, 1]) := by
  rw [Leaves, disc_trains hnbr hnport hport hstate hload hu, if_neg (not_not_intro hwire), if_neg (not_not_intro hdigest), if_pos hdisc, State.lsnTo, if_pos hdisc, settled_next]

/-- Until discovery completes the neighbour becomes present, and every complex is told (log 62). -/
theorem disc_beforeDiscovery (hdisc : (u.linkMet port).fab.discovered = false) :
    Leaves (.disc port nbr nport digest glt) s (((u.linkMet port).seen nbr).flood
      ((List.range 1024).filter (fun c => (u.linkMet port).cxExists c && c != (u.linkMet port).cxid)) [0, (u.linkMet port).cxid, port, 1]) := by
  have hdisc : ¬ (u.linkMet port).fab.discovered = true := by rw [hdisc]; exact Bool.false_ne_true
  rw [Leaves, disc_trains hnbr hnport hport hstate hload hu, if_neg (not_not_intro hwire), if_neg (not_not_intro hdigest), if_neg hdisc, State.lsnTo, if_neg hdisc, settled_next]

end

/-- Settles O34: a packet goes by the lemmas of `packetTransit`, a control flit by `leaves_flit`, a link's events by their own lemmas. -/
theorem packetsAndLinks : Obligations.PacketsAndLinks := by
  refine ⟨?packets, ?links⟩
  case packets =>
    intro s u port hdr data hport hfence hup hdf seq t rx ok type dst src line lock q d
    refine ⟨packetTransit_badCrc hport hfence hup hdf, fun hcrc => ?_⟩
    refine ⟨packetTransit_unlisted hport hfence hup hdf hcrc rfl, packetTransit_forwards hport hfence hup hdf hcrc rfl, fun hseq hdst c hmsg hexec => ?message,
      packetTransit_ahead hport hfence hup hdf hcrc rfl, packetTransit_behind hport hfence hup hdf hcrc rfl⟩
    case message =>
      have harrives {n : Nat} (hn : hdrType hdr = n) (hlisted : typeOk n = true) (hmsg : hdrType hdr = n → ok.arriveAll hdr data = .next u) :
          Leaves (.packetTransit port hdr data) s u :=
        packetTransit_arrives hport hfence hup hdf hcrc rfl hseq (hn.symm ▸ hlisted) hdst (hmsg hn)
      rcases hmsg with ⟨hn, rfl⟩ | ⟨hn, rfl⟩ | ⟨hn, rfl⟩ | ⟨hn, rfl⟩ | ⟨hn, rfl⟩ | ⟨hn, rfl⟩ | ⟨hn, rfl⟩ | ⟨hn, rfl⟩ | ⟨hn, hwhy, rfl⟩ | ⟨hn, rfl⟩
      -- The tag of an answer to an atomic and the reason of a NACK are read beside the type.
      on_goal 8 => exact harrives hn rfl fun hn => State.arriveAll_atomrsp hn hexec
      on_goal 8 => exact harrives hn rfl fun hn => by simp only [State.arriveAll, State.arrive, hn, hwhy]; exact hexec
      all_goals exact harrives hn rfl fun hn => by simp only [State.arriveAll, State.arrive, hn]; exact hexec
  case links =>
    intro s u port lane nbr nport l flit digest glt k rest hport hfence x seq crcOk
    refine ⟨fun hl hwf hlt => ?credit, fun hup => ⟨fun hcrc => ?_, fun hcrc => ?_, fun hresends hu => ?_, fun hlane hnone hu => ?spare, ?_, ?_, ?_, ?_⟩,
      fun hnbr hnport hport hstate hload hu => ⟨?_, ?_, fun hwire hdigest => ?linkUp⟩⟩
    case credit => exact FPort.credits_lane hwf flit List.nodup_range (List.mem_range.mpr hl) hl hlt
    · exact ⟨leaves_badFlit hport hfence hup hcrc rfl, leaves_badFlit hport hfence hup hcrc rfl, leaves_badFlit hport hfence hup hcrc rfl, leaves_badFlit hport hfence hup hcrc rfl⟩
    · exact ⟨fun htype => leaves_flit hport hfence hup hcrc htype rfl (by rfl), fun htype => leaves_flit hport hfence hup hcrc htype rfl (by rfl),
        fun htype => leaves_flit hport hfence hup hcrc htype rfl (by rfl), fun htype => leaves_flit hport hfence hup hcrc htype rfl (by rfl)⟩
    · exact ⟨linkRetrain_resends hport hup hresends hu, linkRetrain_fails hport hup hresends hu, linkRetrain_down hport hup hresends hu⟩
    case spare =>
      have hspares := felardLaneSparing_spares hport hup hlane hnone hu
      exact ⟨fun hreplay => State.resume_nil hreplay ▸ hspares, fun hreplay => State.resume_cons hreplay ▸ hspares⟩
    · exact felardLaneSparing_spareLane hport hup
    · exact felardLaneSparing_known hport
    · exact fun hlane hnew hlen hstate hu hreplay => State.resume_nil hreplay ▸ felardLaneSparing_degrades hport hup hlane hnew hlen hstate hu
    · exact felardLaneSparing_down hport hup
    · exact disc_miswired hnbr hnport hport hstate hload hu
    · exact disc_otherDigest hnbr hnport hport hstate hload hu
    case linkUp =>
      exact ⟨disc_afterDiscovery hnbr hnport hport hstate hload hu hwire hdigest, disc_beforeDiscovery hnbr hnport hport hstate hload hu hwire hdigest⟩

end Sys2Proof.Machine
end

section
/-! PROOFS. The fabric's own messages (10 R241, R247, R260, R262 to R265; 05 R131; 20 R449), the time base and the end of discovery. -/

namespace Sys2Proof.Machine

/-! LSN (10 R241, R260) -/

section
variable {s : State} {cx port : Nat} (hfence : s.flag F.FLT_FENCE_CXF = false) (hcx : cx < 1024)
include hfence hcx

theorem lsn_removed : Leaves (.lsn (.removed cx)) s (s.removeCx cx) := by
  change execLsn (.removed cx) s = _
  simp only [execLsn, if_neg (show ¬ 1024 ≤ cx by omega), hfence, Bool.false_eq_true, if_false, settled_next]

variable (hport : port < 16) (hdisc : s.fab.discovered = false)
include hport hdisc

section
variable (hne : cx ≠ s.cxid) (hwall : cxWall cx = cxWall s.cxid)
include hne hwall

theorem lsn_down : Leaves (.lsn (.link cx port false)) s { s with fab := { s.fab with down := s.fab.down.filter (fun q => q != (cx, port)) ++ [(cx, port)] } } := by
  change execLsn (.link cx port false) s = _
  have hunits : ¬ (decide (1024 ≤ cx) || decide (16 ≤ port)) = true := by simp; omega
  simp only [execLsn, if_neg hunits, hfence, hne, hwall, hdisc, decide_false, Bool.or_self, ne_eq, not_true_eq_false, Bool.not_false, Bool.false_and, Bool.and_false,
    Bool.false_eq_true, if_false, settled_next]

/-- Until discovery completes a link that comes up marks its complex present (log 62). -/
theorem lsn_up (hexists : s.cxExists cx = true) :
    Leaves (.lsn (.link cx port true)) s ({ s with fab := { s.fab with down := s.fab.down.filter (fun q => q != (cx, port)) } }.seen cx) := by
  change execLsn (.link cx port true) s = _
  have hunits : ¬ (decide (1024 ≤ cx) || decide (16 ≤ port)) = true := by simp; omega
  have hexists' (fab : Fab) : ({ s with fab := fab } : State).cxExists cx = true := hexists
  simp only [execLsn, if_neg hunits, hfence, hne, hwall, hdisc, hexists', decide_false, Bool.or_self, ne_eq, not_true_eq_false, Bool.not_false, Bool.and_self,
    Bool.false_eq_true, if_false, if_true, settled_next]

end

theorem lsn_upElsewhere (hwall : cxWall cx ≠ cxWall s.cxid) (hexists : s.cxExists cx = true) : Leaves (.lsn (.link cx port true)) s (s.seen cx) := by
  change execLsn (.link cx port true) s = _
  have hunits : ¬ (decide (1024 ≤ cx) || decide (16 ≤ port)) = true := by simp; omega
  have hne : cx ≠ s.cxid := fun h => hwall (h ▸ rfl)
  simp only [execLsn, if_neg hunits, hfence, hne, hwall, hdisc, hexists, decide_false, Bool.or_self, ne_eq, not_false_eq_true, Bool.not_false, Bool.and_self,
    Bool.false_eq_true, if_false, if_true, settled_next]

end

/-! Signals (10 R247, 03 R87) -/

section
variable {s : State} {lc : Nat} (hlc : lc < 48)
include hlc

theorem sigrsp_answers (hfence : s.flag F.FLT_FENCE_CXF = false) {m : Nat} (hwait : (s.core lc).wait = .signal m) (cc : BitVec 2) :
    Leaves (.sigrsp lc cc) s (s.updCore lc (fun k => { k with wait := .ccGot cc })) := by
  change execSigrsp lc cc s = _
  simp only [execSigrsp, if_neg (show ¬ 48 ≤ lc by omega), hwait, hfence, Bool.false_eq_true, if_false, settled_next]

theorem sigrsp_unawaited (hwait : (s.core lc).wait = .none) (cc : BitVec 2) : Leaves (.sigrsp lc cc) s s := by
  change execSigrsp lc cc s = _
  simp only [execSigrsp, if_neg (show ¬ 48 ≤ lc by omega), hwait, settled_next]

/-! TLB operations (05 R131) -/

variable {src : Nat} (hsrc : src < 1024)
include hsrc

theorem tlbiack_unawaited (hwait : (s.core lc).wait = .none) : Leaves (.tlbiack src lc) s s := by
  change execTlbiack src lc s = _
  simp only [execTlbiack, if_neg (show ¬ 48 ≤ lc by omega), fromCx_of_lt hsrc, hwait, settled_next]

theorem tlbiack_counts (hne : src ≠ s.cxid) (hfence : s.flag F.FLT_FENCE_CXF = false) {l : List Nat} (hwait : (s.core lc).wait = .tlbAcks l) :
    Leaves (.tlbiack src lc) s (s.updCore lc (fun k => { k with wait := .tlbAcks (l.filter (fun x => x != src)) })) := by
  change execTlbiack src lc s = _
  simp only [execTlbiack, if_neg (show ¬ 48 ≤ lc by omega), fromCx_of_lt hsrc, hwait, State.hears_of_ne hne hfence, if_true, settled_next]

end

section
variable {s : State} {cx tag : Nat} {kind : TlbKind} {pid : BitVec 8} (va : W64)

/-- No access that used a dropped entry is outstanding. -/
theorem State.tlbLocal_free (h1 : (s.tlbLeft kind pid).1 = []) (h2 : (s.tlbLeft kind pid).2 = []) : s.tlbLocal cx tag kind pid va = s.dropTlb kind pid va := by
  simp only [State.tlbLocal, h1, h2, List.isEmpty_nil, Bool.and_self, if_true]

theorem State.tlbLocal_waits (h : (s.tlbLeft kind pid).1 ≠ [] ∨ (s.tlbLeft kind pid).2 ≠ []) :
    s.tlbLocal cx tag kind pid va = (s.dropTlb kind pid va).updMem
      (fun k => { k with tlbWaits := k.tlbWaits ++ [{ cx := cx, tag := tag, stores := (s.tlbLeft kind pid).1, atoms := (s.tlbLeft kind pid).2 }] }) := by
  have hleft : ¬ ((s.tlbLeft kind pid).1.isEmpty && (s.tlbLeft kind pid).2.isEmpty) = true := by
    simpa only [Bool.and_eq_true, List.isEmpty_iff, not_and_or] using h
  rw [State.tlbLocal, if_neg hleft]

theorem State.tlbBusy_of_idle (h : s.mem.tlbWaits = []) : s.tlbBusy cx tag = false := by rw [State.tlbBusy, h]; rfl

theorem State.tlbBusy_noted (l : List (Nat × Nat)) (a : List Nat) :
    (s.updMem (fun k => { k with tlbWaits := k.tlbWaits ++ [{ cx := cx, tag := tag, stores := l, atoms := a }] })).tlbBusy cx tag = true := by
  simp [State.tlbBusy, State.updMem]

end

section
variable {s : State} {src rlc pid : Nat} {kind : TlbKind} (va : W64) (hsrc : src < 1024) (hne : src ≠ s.cxid) (hfence : s.flag F.FLT_FENCE_CXF = false)
include hsrc hne hfence

theorem tlbi_acknowledges (hidle : s.mem.tlbWaits = []) (h1 : (s.tlbLeft kind (BitVec.ofNat 8 pid)).1 = []) (h2 : (s.tlbLeft kind (BitVec.ofNat 8 pid)).2 = []) :
    Leaves (.tlbi src rlc kind pid va) s ((s.dropTlb kind (BitVec.ofNat 8 pid) va).send .fab src 0x4B [rlc]) := by
  have hfree : (s.dropTlb kind (BitVec.ofNat 8 pid) va).tlbBusy src rlc = false := State.tlbBusy_of_idle hidle
  refine leaves_heard hne hfence hsrc rfl ?_
  rw [State.tlbLocal_free va h1 h2]
  exact if_neg (by rw [hfree]; exact Bool.false_ne_true)

theorem tlbi_waits (h : (s.tlbLeft kind (BitVec.ofNat 8 pid)).1 ≠ [] ∨ (s.tlbLeft kind (BitVec.ofNat 8 pid)).2 ≠ []) :
    Leaves (.tlbi src rlc kind pid va) s ((s.dropTlb kind (BitVec.ofNat 8 pid) va).updMem (fun k => { k with tlbWaits := k.tlbWaits ++
      [{ cx := src, tag := rlc, stores := (s.tlbLeft kind (BitVec.ofNat 8 pid)).1, atoms := (s.tlbLeft kind (BitVec.ofNat 8 pid)).2 }] })) := by
  refine leaves_heard hne hfence hsrc rfl ?_
  rw [State.tlbLocal_waits va h]
  exact if_pos (State.tlbBusy_noted ..)

/-! The time base (10 R262 to R265) -/

theorem tsrsp_leaves {t1 t2 t3 t4 : W64} (hmaster : s.isMaster = false) (hparent : s.fld F.FAB_TBSTAT_PARENT = src) {o : Int} (ho : o = tsOffset t1 t2 t3 t4) {t : State}
    (ht : t = if s.fab.firstExch then s.steer o else s.reach (s.fab.tb.toNat + o.toNat)) :
    Leaves (.tsrsp src t1 t2 t3 t4) s
      (((({ t with fab := { t.fab with firstExch := true, missed := 0, synced := t.fab.synced || decide (o.natAbs ≤ 102) } } : State).setFld
        F.FAB_TBSTAT_OFFSET (BitVec.ofInt 32 o).toNat).setFlag F.FAB_TBSTAT_SYNC (decide (o.natAbs ≤ 102))).setFlag F.FAB_TBSTAT_HOLD false) := by
  subst ho ht
  change execTsrsp src t1 t2 t3 t4 s = _
  rw [execTsrsp, fromCx_of_lt hsrc, if_neg (by simp [State.hears_of_ne hne hfence, hmaster, hparent]), settled_next]

end

theorem timeSyncInterval_master {s : State} (hfence : s.flag F.FLT_FENCE_CXF = false) (hmaster : s.fab.master = some s.cxid) :
    Leaves .timeSyncInterval s ((({ s with fab := { s.fab with synced := true } } : State).setFlag F.FAB_TBSTAT_MASTER true).setFlag F.FAB_TBSTAT_SYNC true) := by
  change execTimeSyncInterval s = _
  simp only [execTimeSyncInterval, hfence, hmaster, Bool.false_eq_true, if_false, if_true, settled_next]

theorem timeSyncInterval_asks {s u : State} {m p : Nat} (hfence : s.flag F.FLT_FENCE_CXF = false) (hu : u = { s with fab := { s.fab with missed := s.fab.missed + 1 } })
    (hmaster : s.fab.master = some m) (hne : m ≠ s.cxid) (hroute : u.route m = some p) :
    Leaves .timeSyncInterval s (((u.setFld F.FAB_TBSTAT_PARENT (u.fld F.FAB_PSTAT_RCX p)).setFld F.FAB_TBSTAT_PORT p).send .fab (u.fld F.FAB_PSTAT_RCX p) 0x42 [s.fab.tb.toNat]) := by
  subst hu
  dsimp only at hroute
  change execTimeSyncInterval s = _
  rw [execTimeSyncInterval, if_neg (by simp [hfence]), hmaster]
  dsimp only
  rw [if_neg hne, hroute, settled_next]

theorem timeHoldover_begins {s : State} (hmaster : s.isMaster = false) (hmissed : 4 ≤ s.fab.missed) (hhold : s.flag F.FAB_TBSTAT_HOLD = false) :
    Leaves .timeHoldover s ((s.setFlag F.FAB_TBSTAT_HOLD true).flt 5 7) := by
  change execTimeHoldover s = _
  rw [execTimeHoldover, if_neg (by simp [hmaster, hhold]; omega), settled_next]

theorem timeHoldover_master {s : State} (hmaster : s.isMaster = true) : Leaves .timeHoldover s s := by
  change execTimeHoldover s = _
  rw [execTimeHoldover, if_pos (by simp [hmaster]), settled_next]

/-! The end of discovery (10 R260, 19 R426) -/

theorem discoveryComplete_again {s : State} (h : s.fab.discovered = true) (b : Option Nat) : Leaves (.discoveryComplete b) s s := by
  change execDiscoveryComplete b s = _
  rw [execDiscoveryComplete, if_pos (by simp [h]), settled_next]

section
variable {s u : State} (hfence : s.flag F.FLT_FENCE_CXF = false) (hdisc : s.fab.discovered = false)
  (hu : u = { s.seen s.cxid with fab := { (s.seen s.cxid).fab with discovered := true } }) (hstep : u.fld F.BOO_STAT_STEP ≠ 11) (hmajority : u.minority = false)
  (hbuddy : u.flag F.VLX_BUDDY_BV = true)
include hfence hdisc hu hstep hmajority hbuddy

theorem discoveryComplete_buddies (b : Option Nat) : exec (.discoveryComplete b) s = settled s (.next
    (if !u.present (u.fld F.VLX_BUDDY_BCX) then u.setFld F.VLX_STAT_BST 2 else if b = some u.cxid then u.setFld F.VLX_STAT_BST 1
     else (u.setFlag F.VLX_BUDDY_BV false).flt 14 3)) := by
  change execDiscoveryComplete b s = _
  rw [execDiscoveryComplete, if_neg (by simp [hfence, hdisc])]
  dsimp only
  rw [← hu, if_neg hstep, if_neg (by simp [hmajority]), if_neg (by simp [hbuddy])]

theorem discoveryComplete_absent (habsent : u.present (u.fld F.VLX_BUDDY_BCX) = false) (b : Option Nat) :
    Leaves (.discoveryComplete b) s (u.setFld F.VLX_STAT_BST 2) := by
  rw [Leaves, discoveryComplete_buddies hfence hdisc hu hstep hmajority hbuddy, if_pos (by simp [habsent]), settled_next]

variable {cx : Nat} (hpresent : u.present (u.fld F.VLX_BUDDY_BCX) = true)
include hpresent

theorem discoveryComplete_agreed (hcx : cx = u.cxid) : Leaves (.discoveryComplete (some cx)) s (u.setFld F.VLX_STAT_BST 1) := by
  rw [Leaves, discoveryComplete_buddies hfence hdisc hu hstep hmajority hbuddy, if_neg (by simp [hpresent]), if_pos (hcx ▸ rfl), settled_next]

theorem discoveryComplete_mismatched (hcx : cx ≠ u.cxid) : Leaves (.discoveryComplete (some cx)) s ((u.setFlag F.VLX_BUDDY_BV false).flt 14 3) := by
  rw [Leaves, discoveryComplete_buddies hfence hdisc hu hstep hmajority hbuddy, if_neg (by simp [hpresent]), if_neg (fun h => hcx (Option.some.inj h)), settled_next]

end

end Sys2Proof.Machine
end

section
/-! PROOFS. The events and region registers of a memory controller (05 R137; 11 R270 to R273, R277 to R279, R282). -/

namespace Sys2Proof.Machine

/-! Patrol scrub (11 R277, R278) -/

/-- What a scrub of the line at `p` of a channel leaves, by what it finds. -/
def State.scrubbed (s : State) (mc p : Nat) (line : Option Nat) : ScrubRes → State
  | .good => s
  | .corrected d r v => (s.count F.MEM_ECC_CORR (some F.MEM_ECC_COVF) mc).flt 6 0 (devUnit mc d r v)
  | .uncorrectable d r v => s.uncorrectable mc d r v p line

section
variable {s : State} {mc : Nat} (hmc : mc < 16)
include hmc

/-- No scrub runs behind a fence. -/
theorem patrolScrub_fenced (hpwr : s.fld F.MEM_CHSTAT_PWR mc = 3) : Leaves (.patrolScrub mc .good) s s := by
  change execPatrolScrub mc .good s = _
  simp only [execPatrolScrub, if_neg (show ¬ (decide (16 ≤ mc) || !true) = true by simp; omega), hpwr, decide_true, Bool.or_true, Bool.true_or, if_true, settled_next]

/-- The line at the pointer is read, unless a transaction of it is open, and the pointer goes on. -/
theorem patrolScrub_scrubs {p : Nat} {line : Option Nat} (hp : p = s.fld F.MEM_CHSTAT_SCRPTR mc) (hl : line = s.absLine (s.chanOff mc p)) (hpop : s.populated mc = true)
    (hpwr : s.fld F.MEM_CHSTAT_PWR mc ≠ 3) (hself : (s.mc mc).selfRef = []) (hopen : ∀ l, line = some l → s.mem.txns.has l = false) {res : ScrubRes} (hres : scrubOk res = true)
    {z : State} (hz : z = (s.rankAccess mc p).scrubbed mc p line res) :
    Leaves (.patrolScrub mc res) s (z.setFld F.MEM_CHSTAT_SCRPTR (if z.chanLines ≤ p + 1 then 0 else p + 1) mc) := by
  have hclosed (o : Option Nat) : (∀ l, o = some l → s.mem.txns.has l = false) → (match o with | some l => s.mem.txns.has l | none => false) = false := by
    intro h
    cases o with
    | none => rfl
    | some l => exact h l rfl
  subst hp hl hz
  change execPatrolScrub mc res s = _
  unfold execPatrolScrub
  extract_lets ok p line x
  have hok : ok = true := by
    cases res with
    | good => rfl
    | corrected d r v => exact hres
    | uncorrectable d r v => exact hres
  rw [if_neg (by simp [hok]; omega), if_neg (by simp [hpop, hpwr, x, hself]; exact hclosed line hopen), settled_next]
  cases res <;> rfl

end

/-! Device sparing (11 R274, R275) -/

theorem devOk_of_lt {d r v : Nat} (hd : d < 2) (hr : r < 2) (hv : v < 20) : devOk d r v = true := by simp [devOk, hd, hr, hv]

section
variable {s u : State} {mc dimm rank dev : Nat} (hmc : mc < 16) (hdev : devOk dimm rank dev = true) (hpop : s.populated mc = true) (hpwr : s.fld F.MEM_CHSTAT_PWR mc ≠ 3)
include hmc hdev hpop hpwr

section
variable (hpend : s.svc.sparePend.contains (0x60, devUnit mc dimm rank dev) = true)
  (hu : u = { s with svc := { s.svc with sparePend := s.svc.sparePend.erase (0x60, devUnit mc dimm rank dev) } })
include hpend hu

theorem deviceSparing_start : exec (.deviceSparingCopy mc dimm rank dev .start) s = settled s (.next
    (let copying := s.flag F.MEM_CHSTAT_SPBUSY mc && (s.mc mc).copyRank == some (2 * dimm + rank)
     if bits (s.fld F.MEM_CHSTAT_SPUSED mc) (2 * dimm + rank) (2 * dimm + rank) = 1 || copying then
       if (if copying then s.fld F.MEM_CHSTAT_SPDEV mc else (s.mc mc).spares.get 32 (2 * dimm + rank)) = dev then u else u.flt 6 6
     else if s.flag F.MEM_CHSTAT_SPBUSY mc then s
     else ((u.setFlag F.MEM_CHSTAT_SPBUSY true mc).setFld F.MEM_CHSTAT_SPDEV dev mc).setMc mc { s.mc mc with copyRank := some (2 * dimm + rank), copyPtr := 0 })) := by
  subst hu
  change execDeviceSparingCopy mc dimm rank dev .start s = _
  rw [execDeviceSparingCopy, if_neg (by simp [hdev]; omega)]
  dsimp only
  rw [if_neg (by simp [hpop, hpwr]), if_neg (by rw [hpend]; exact Bool.false_ne_true)]

/-- A rank whose spare is in use: the device that is spared already needs nothing, a further one cannot be spared. -/
theorem deviceSparing_spareUsed (hused : bits (s.fld F.MEM_CHSTAT_SPUSED mc) (2 * dimm + rank) (2 * dimm + rank) = 1) (hidle : s.flag F.MEM_CHSTAT_SPBUSY mc = false) :
    Leaves (.deviceSparingCopy mc dimm rank dev .start) s (if (s.mc mc).spares.get 32 (2 * dimm + rank) = dev then u else u.flt 6 6) := by
  rw [Leaves, deviceSparing_start hmc hdev hpop hpwr hpend hu]
  simp only [hidle, hused, Bool.false_and, decide_true, Bool.true_or, Bool.false_eq_true, if_true, if_false, settled_next]

theorem deviceSparing_copying (hbusy : s.flag F.MEM_CHSTAT_SPBUSY mc = true) (hrank : (s.mc mc).copyRank = some (2 * dimm + rank)) :
    Leaves (.deviceSparingCopy mc dimm rank dev .start) s (if s.fld F.MEM_CHSTAT_SPDEV mc = dev then u else u.flt 6 6) := by
  rw [Leaves, deviceSparing_start hmc hdev hpop hpwr hpend hu]
  simp only [hbusy, hrank, Bool.true_and, beq_self_eq_true, Bool.or_true, if_true, settled_next]

theorem deviceSparing_begins (hfree : bits (s.fld F.MEM_CHSTAT_SPUSED mc) (2 * dimm + rank) (2 * dimm + rank) ≠ 1) (hidle : s.flag F.MEM_CHSTAT_SPBUSY mc = false) :
    Leaves (.deviceSparingCopy mc dimm rank dev .start) s
      (((u.setFlag F.MEM_CHSTAT_SPBUSY true mc).setFld F.MEM_CHSTAT_SPDEV dev mc).setMc mc { s.mc mc with copyRank := some (2 * dimm + rank), copyPtr := 0 }) := by
  rw [Leaves, deviceSparing_start hmc hdev hpop hpwr hpend hu]
  simp only [hidle, hfree, Bool.false_and, decide_false, Bool.or_self, Bool.false_eq_true, if_false, settled_next]

end

theorem deviceSparing_unfinished (hmore : (s.mc mc).copyPtr < s.rankLines) : Leaves (.deviceSparingCopy mc dimm rank dev .finish) s s := by
  change execDeviceSparingCopy mc dimm rank dev .finish s = _
  rw [execDeviceSparingCopy, if_neg (by simp [hdev]; omega)]
  dsimp only
  rw [if_neg (by simp [hpop, hpwr]), if_pos (by simp [hmore]), settled_next]

variable (hrank : (s.mc mc).copyRank = some (2 * dimm + rank)) (hbusy : s.flag F.MEM_CHSTAT_SPBUSY mc = true)
include hrank hbusy

theorem deviceSparing_copies (lines : Nat) :
    Leaves (.deviceSparingCopy mc dimm rank dev (.lines lines false)) s (s.setMc mc { s.mc mc with copyPtr := min ((s.mc mc).copyPtr + lines) s.rankLines }) := by
  change execDeviceSparingCopy mc dimm rank dev (.lines lines false) s = _
  rw [execDeviceSparingCopy, if_neg (by simp [hdev]; omega)]
  dsimp only
  rw [if_neg (by simp [hpop, hpwr]), if_neg (by simp [hrank, hbusy]), if_neg Bool.false_ne_true, settled_next]

theorem deviceSparing_finishes (hend : s.rankLines ≤ (s.mc mc).copyPtr)
    (hu : u = s.setMc mc { s.mc mc with copyRank := none, spares := (s.mc mc).spares.put (2 * dimm + rank) (s.fld F.MEM_CHSTAT_SPDEV mc) }) :
    Leaves (.deviceSparingCopy mc dimm rank dev .finish) s
      ((((u.setFlag F.MEM_CHSTAT_SPBUSY false mc).setFld F.MEM_CHSTAT_SPUSED
        (putBits (u.fld F.MEM_CHSTAT_SPUSED mc) (2 * dimm + rank) (2 * dimm + rank) 1) mc).consume 7).flt 6 3 (devUnit mc dimm rank dev)) := by
  subst hu
  change execDeviceSparingCopy mc dimm rank dev .finish s = _
  rw [execDeviceSparingCopy, if_neg (by simp [hdev]; omega)]
  dsimp only
  rw [if_neg (by simp [hpop, hpwr]), if_neg (by simp [hrank, hbusy, Nat.not_lt.mpr hend]), settled_next]

end

/-! Rank power-down (11 R279) -/

section
variable {s : State} {mc r : Nat} (hmc : mc < 16) (hr : r < 4)
include hmc hr

theorem rankPowerDown_leaves (hpop : s.populated mc = true) (hidle : s.fld F.MEM_SCRUB_PDIDLE ≠ 0) (hpwr : s.fld F.MEM_CHSTAT_PWR mc ≠ 3) (hrank : s.ranks.contains r = true)
    (hself : (s.mc mc).selfRef.contains r = false) :
    Leaves (.rankPowerDown mc r) s
      ((s.setMc mc { s.mc mc with powerDown := if (s.mc mc).powerDown.contains r then (s.mc mc).powerDown else (s.mc mc).powerDown ++ [r] }).pwr mc) := by
  change execRankPowerDown mc r s = _
  have hgo : ¬ (!s.populated mc || decide (s.fld F.MEM_SCRUB_PDIDLE = 0) || decide (s.fld F.MEM_CHSTAT_PWR mc = 3) || !s.ranks.contains r || (s.mc mc).selfRef.contains r) = true := by
    simp only [hpop, hidle, hpwr, hrank, hself, decide_false, Bool.not_true, Bool.or_self, Bool.false_eq_true, not_false_eq_true]
  rw [execRankPowerDown, if_neg (by simp; omega)]
  dsimp only
  rw [if_neg hgo, settled_next]

theorem rankPowerDown_off (hoff : s.fld F.MEM_SCRUB_PDIDLE = 0) : Leaves (.rankPowerDown mc r) s s := by
  change execRankPowerDown mc r s = _
  rw [execRankPowerDown, if_neg (by simp; omega)]
  dsimp only
  rw [if_pos (by simp [hoff]), settled_next]

end

/-! Region registers (05 R137, 11 R282) -/

section
variable {s : State} {n dw : Nat} {v : W64} (src : Src) (hn : n < 64) (hdw : dw < 3)
include hn hdw

section
variable {mc : Nat} (hmc : mc < 16) (hpop : s.populated mc = true)
include hmc hpop

theorem regionRegisterWrite_leaves : Leaves (.regionRegisterWrite src mc n dw v) s
    (if s.rgnRefused mc n dw v then s.cfgErr src (rgnOff mc n dw) else s.wrReg src (rgnOff mc n dw) v) := by
  change execRegionRegisterWrite src mc n dw v s = _
  rw [execRegionRegisterWrite, if_neg (by simp; omega), State.rgnWrite, if_neg (by simp [hpop]), settled_next]

theorem regionRegisterWrite_refused (hbad : s.rgnRefused mc n dw v = true) : Leaves (.regionRegisterWrite src mc n dw v) s (s.cfgErr src (rgnOff mc n dw)) := by
  have hwrite := regionRegisterWrite_leaves (v := v) src hn hdw hmc hpop
  rwa [if_pos hbad] at hwrite

theorem regionRegisterWrite_taken (hgood : s.rgnRefused mc n dw v = false) : Leaves (.regionRegisterWrite src mc n dw v) s (s.wrReg src (rgnOff mc n dw) v) := by
  have hwrite := regionRegisterWrite_leaves (v := v) src hn hdw hmc hpop
  rwa [if_neg (by simp [hgood])] at hwrite

end

theorem regionBroadcastWrite_leaves : Leaves (.regionBroadcastWrite src n dw v) s (s.rgnBroadcast src n dw v) := by
  change execRegionBroadcastWrite src n dw v s = _
  rw [execRegionBroadcastWrite, if_neg (by simp; omega), settled_next]

/-- One controller that refuses the write refuses it for all. -/
theorem regionBroadcastWrite_refused {mc : Nat} (hmc : mc < 16) (hpop : s.populated mc = true) (hbad : s.rgnRefused mc n dw v = true) :
    Leaves (.regionBroadcastWrite src n dw v) s (s.cfgErr src (0x908800 + n * 0x20 + dw * 8)) := by
  have hany : ((List.range 16).filter (fun m => s.populated m)).any (fun m => s.rgnRefused m n dw v) = true :=
    List.any_eq_true.mpr ⟨mc, List.mem_filter.mpr ⟨List.mem_range.mpr hmc, hpop⟩, hbad⟩
  have hwrite := regionBroadcastWrite_leaves (s := s) (v := v) src hn hdw
  rwa [State.rgnBroadcast, if_pos hany] at hwrite

theorem regionBroadcastWrite_taken (hgood : ∀ k, k < 16 → s.populated k = true → s.rgnRefused k n dw v = false) :
    Leaves (.regionBroadcastWrite src n dw v) s (((List.range 16).filter (fun k => s.populated k)).foldl (fun z k => z.wrReg src (rgnOff k n dw) v) s) := by
  have hnone : ¬ ((List.range 16).filter (fun m => s.populated m)).any (fun m => s.rgnRefused m n dw v) = true := by
    rw [List.any_eq_true]
    rintro ⟨k, hk, hbad⟩
    obtain ⟨hlt, hpop⟩ := List.mem_filter.mp hk
    rw [hgood k (List.mem_range.mp hlt) hpop] at hbad
    cases hbad
  have hwrite := regionBroadcastWrite_leaves (s := s) (v := v) src hn hdw
  rwa [State.rgnBroadcast, if_neg hnone] at hwrite

end

/-- Settles O36: each clause is the lemma of its message or event. -/
theorem fabricAndMemory : Obligations.FabricAndMemory := by
  refine ⟨?fabric, ?memory⟩
  case fabric =>
    intro s u src cx lc rlc pid port m p spec t1 t2 t3 t4 v va restart cc c kind l g hsrc hne hfence down
    refine ⟨fun hcx hport hwall hcxne hdisc => ⟨lsn_down hfence hcx hport hdisc hcxne hwall, lsn_up hfence hcx hport hdisc hcxne hwall⟩,
      fun hcx hport hwall hexists hdisc => lsn_upElsewhere hfence hcx hport hdisc hwall hexists, lsn_removed hfence, leaves_heard hne hfence hsrc rfl rfl,
      leaves_heard hne hfence hsrc rfl rfl, fun hmaster hparent => ?_, fun hsig => ?signal, fun hlc hwait => sigrsp_answers hlc hfence hwait cc,
      fun hlc hwait => ⟨sigrsp_unawaited hlc hwait cc, tlbiack_unawaited hlc hsrc hwait⟩, ⟨tlbi_acknowledges va hsrc hne hfence, tlbi_waits va hsrc hne hfence⟩,
      fun hlc => tlbiack_counts hlc hsrc hne hfence, timeSyncInterval_master hfence, timeSyncInterval_asks hfence, timeHoldover_begins, timeHoldover_master,
      settled_next .., discoveryComplete_again, fun hdisc hu hstep hmajority hbuddy => ?discovery⟩
    · exact tsrsp_leaves hsrc hne hfence hmaster hparent rfl rfl
    case signal => exact leaves_unlost hne hfence hsrc rfl (by rw [hsig])
    case discovery =>
      exact ⟨fun habsent => discoveryComplete_absent hfence hdisc hu hstep hmajority hbuddy habsent _, discoveryComplete_agreed hfence hdisc hu hstep hmajority hbuddy,
        discoveryComplete_mismatched hfence hdisc hu hstep hmajority hbuddy⟩
  case memory =>
    intro s u mc dimm rank dev lines n dw v src hmc hdimm hrank hdev hn hdw p line next x r unit off
    have hr : r < 4 := by omega
    have hok : devOk dimm rank dev = true := devOk_of_lt hdimm hrank hdev
    refine ⟨fun hpop hpwr hself hopen => ?scrub, patrolScrub_fenced hmc, fun hpop hpwr => ⟨fun hpend hu => ?start, fun hcopy hbusy => ?copy⟩,
      rankPowerDown_leaves hmc hr, rankPowerDown_off hmc hr, fun hpop => ⟨regionRegisterWrite_refused src hn hdw hmc hpop, regionRegisterWrite_taken src hn hdw hmc hpop,
        regionBroadcastWrite_refused src hn hdw hmc hpop⟩, regionBroadcastWrite_taken src hn hdw⟩
    case scrub =>
      intro z
      have hscrub {res : ScrubRes} (hres : scrubOk res = true) : Leaves (.patrolScrub mc res) s (next (z.scrubbed mc p line res)) :=
        patrolScrub_scrubs hmc rfl rfl hpop hpwr hself hopen hres rfl
      exact ⟨hscrub (res := .good) rfl, hscrub (res := .corrected dimm rank dev) hok, hscrub (res := .uncorrectable dimm rank dev) hok⟩
    case start =>
      refine ⟨fun hused hidle => ?_, fun hbusy hcopy => ?_, deviceSparing_begins hmc hok hpop hpwr hpend hu⟩
      · have hstart := deviceSparing_spareUsed hmc hok hpop hpwr hpend hu hused hidle
        exact ⟨fun hother => by rwa [if_neg hother] at hstart, fun hsame => by rwa [if_pos hsame] at hstart⟩
      · have hstart := deviceSparing_copying hmc hok hpop hpwr hpend hu hbusy hcopy
        exact ⟨fun hother => by rwa [if_neg hother] at hstart, fun hsame => by rwa [if_pos hsame] at hstart⟩
    case copy =>
      exact ⟨deviceSparing_copies hmc hok hpop hpwr hcopy hbusy lines, deviceSparing_unfinished hmc hok hpop hpwr, deviceSparing_finishes hmc hok hpop hpwr hcopy hbusy⟩

end Sys2Proof.Machine
end

section
/-! PROOFS. DRAM by lines (11 R273): a whole-line write reads back, with its poison, and leaves every other line. -/

namespace Sys2Proof.Machine

theorem Tab.find_del {α : Type} (t : Tab α) (k : Nat) : (t.del k).find k = none := by
  induction t with
  | nil => rfl
  | cons p r ih =>
    obtain ⟨k', v⟩ := p
    by_cases hk : k' = k
    · simpa [Tab.del, hk] using ih
    · have hdel : Tab.del ((k', v) :: r) k = (k', v) :: Tab.del r k := by simp [Tab.del, hk]
      rw [hdel, Tab.find, if_neg (Ne.symm hk), ih, ite_self]

/-- The leading bytes of a line, as one number, are the line without the bits behind them. -/
theorem packBytes_lineBytes (d : Line) {n : Nat} (hn : n ≤ 256) : packBytes ((List.range n).map (lineByte d)) = d.toNat / 2 ^ (8 * (256 - n)) := by
  induction n with
  | zero =>
    rw [show 8 * (256 - 0) = 2048 from rfl, Nat.div_eq_of_lt d.isLt]
    rfl
  | succ n ih =>
    have hbyte : (lineByte d n).toNat = d.toNat / 2 ^ (8 * (255 - n)) % 256 := BitVec.toNat_ofNat ..
    have hlead : d.toNat / 2 ^ (8 * (256 - n)) = d.toNat / 2 ^ (8 * (255 - n)) / 256 := by
      rw [Nat.div_div_eq_div_mul, show 8 * (256 - n) = 8 * (255 - n) + 8 by omega, Nat.pow_add]
    rw [List.range_succ, List.map_append, List.map_singleton, packBytes_snoc, ih (by omega), hbyte, hlead, show 256 - (n + 1) = 255 - n by omega]
    exact Nat.div_add_mod' ..

/-- A line is made of its bytes. -/
theorem mkLine_lineByte (d : Line) : mkLine (lineByte d) = d := by
  rw [mkLine, packBytes_lineBytes d le_rfl, Nat.sub_self, Nat.mul_zero, Nat.pow_zero, Nat.div_one, BitVec.ofNat_toNat, BitVec.setWidth_eq]

theorem mkLine_congr {f g : Nat → Byte} (h : ∀ i < 256, f i = g i) : mkLine f = mkLine g :=
  congrArg (fun l => BitVec.ofNat 2048 (packBytes l)) (List.map_congr_left fun i hi => h i (List.mem_range.mp hi))

/-- A whole-line write changes the bytes of its line alone. -/
theorem Mem.byte_putLine {m : Mem} (hm : m.wf = true) (l k : Nat) (d : Line) (p : Nat) {i : Nat} (hi : i < 256) :
    (m.putLine l d p).byte (k * 256 + i) = if k = l then lineByte d i else m.byte (k * 256 + i) := by
  rw [Mem.putLine]
  generalize hbs : (List.range 256).map (lineByte d) = bs
  have hlen : bs.length = 256 := by rw [← hbs, List.length_map, List.length_range]
  refine (Mem.byte_putBytes m (l * 256) (k * 256 + i) bs hm).trans (if_ctx_congr (by omega) (fun hk => ?_) (fun _ => rfl))
  rw [hk, Nat.add_sub_cancel_left, ← hbs]
  simp [hi]

theorem Mem.line_putLine {m : Mem} (hm : m.wf = true) (l : Nat) (d : Line) (p : Nat) : (m.putLine l d p).line l = d :=
  calc (m.putLine l d p).line l = mkLine (lineByte d) := mkLine_congr fun _ hi => (Mem.byte_putLine hm l l d p hi).trans (if_pos rfl)
    _ = d := mkLine_lineByte d

theorem Mem.line_putLine_ne {m : Mem} (hm : m.wf = true) {l k : Nat} (d : Line) (p : Nat) (hk : k ≠ l) : (m.putLine l d p).line k = m.line k :=
  mkLine_congr fun _ hi => (Mem.byte_putLine hm l k d p hi).trans (if_neg hk)

/-- The poison of a line is what its last whole-line write gives it. -/
theorem Mem.poison_putLine (m : Mem) (l : Nat) (d : Line) (p : Nat) : (m.putLine l d p).poison.find l = if p = 0 then none else some p := by
  have hpoison : (m.putLine l d p).poison = if p = 0 then m.poison.del l else m.poison.put l p := by
    rw [Mem.putLine, Mem.putBytes_eq]
  rw [hpoison]
  split
  · exact Tab.find_del _ l
  · exact Tab.find_put _ l p

/-- Settles O59: a whole-line write changes the bytes of its line alone, and a line is made of its bytes. -/
theorem linesReadBack : Obligations.LinesReadBack := by
  intro m l k d p hm
  exact ⟨Mem.putLine_wf m l d p hm, Mem.line_putLine hm l d p, Mem.line_putLine_ne hm d p, Mem.poison_putLine m l d p⟩

end Sys2Proof.Machine
end

section
/-! PROOFS. SSCH and TSCH (12 R287 to R289, R300, R309): a partition's are the monitor's to intercept (05 R128). -/

namespace Sys2Proof.Machine

/-- An instruction that retires leaves the architected state of its operation, at the next address. -/
theorem Retires.arch {i : Instr} {s u : State} {lc ilc : Nat} (h : Retires i s lc ilc u) (hk : (u.core lc).broken = false) :
    ∃ t, exec i s = .next t ∧ (t.core lc).arch = (u.core lc).arch.setIa ((s.core lc).arch.psw.ia + BitVec.ofNat 64 ilc) := by
  obtain ⟨p, -, hleaves⟩ := h
  exact ⟨_, hleaves, by rw [left_core, (State.retire_core u lc p _ _ hk).1]⟩

/-- The PID with which a command leaves logical core `lc`. -/
def pidAfter (o : Out) (lc : Nat) : Option (BitVec 8) :=
  match o with
  | .next t => some (t.core lc).arch.psw.pid
  | _ => none

/-- A supervisor with PID 1 at address 0x200: STO_ICTL.IIO selects its SSCH and TSCH, the TLB maps its page. -/
def ioGuestCore : Core :=
  { Core.reset with
    run := .running
    arch := { Arch.reset with psw := { Psw.reset with pid := 1, state := 1, asm := 1, ia := 0x200 } }.setSr 0x33 1
    tlb := [{ pid := 1, asid := 0, size := 12, page := 0, frame := 0, rights := 15 }] }

/-- The complex that runs it holds the monitor's entry area (lines 0 and 1) and the line of the instruction; no subchannel is valid. -/
def ioGuest : State :=
  let line := fun (pid : BitVec 8) => ({ st := .m, pid := pid, rights := 7, data := 0 } : CLine)
  { State.reset with cores := [(0, ioGuestCore)], mem := { State.reset.mem with lines := [(0, line 0), (1, line 0), (2, line 1)] } }

theorem ioGuest_ready : Ready ioGuest 0 4 :=
  ⟨by decide, by decide +kernel, ⟨rfl, rfl, rfl, rfl, rfl, rfl, rfl, rfl, rfl, rfl⟩, rfl, rfl, by decide⟩

/-- The intercept of its TSCH enters the monitor, which runs with PID 0. -/
theorem pidAfter_ioGuest_tsch : pidAfter (exec (.tsch 0 0 0 0) ioGuest) 0 = some 0 := by decide +kernel

/-- Refutes O30: its clauses do not ask that STO_ICTL leave SSCH and TSCH to the partition (`Arch.opened`). By its last clause the TSCH of `ioGuest`, which names a subchannel
that is not valid, retires with PID 1; it is intercepted. -/
theorem not_subchannelInstructions : ¬ Obligations.SubchannelInstructions := by
  intro h
  obtain ⟨-, hready⟩ := h ioGuest ioGuest ioGuest 0 0 0 0 0 0 0
  obtain ⟨-, -, htsch⟩ := hready ioGuest_ready (by decide) rfl (by decide)
  have hretires := htsch (by decide) rfl
  obtain ⟨t, ht, harch⟩ := hretires.arch rfl
  have hmonitor := pidAfter_ioGuest_tsch
  rw [ht, pidAfter, harch] at hmonitor
  exact absurd hmonitor (by decide)

end Sys2Proof.Machine
end

section
/-! PROOFS. Subchannel commands, the journal's mirror, takeover and quarantine (12 R284, R285, R294, R298, R299, R305, R307, R312). -/

namespace Sys2Proof.Machine

theorem leaves_of_next {i : Instr} {s u v : State} (hi : exec i s = settled s (.next u)) (heq : u = v) : Leaves i s v := by rw [Leaves, hi, settled_next, heq]

/-! Subchannel commands (12 R284, R312) -/

section
variable {s : State} {src : Src} {n : Nat}

/-- The state in which a command on subchannel `n` runs. -/
def State.sccBegun (s : State) (n : Nat) : State := (s.setFld F.VLX_SCCMD_SCH n).setFlag F.VLX_SCCMD_BUSY true

theorem State.sccStart_busy (hbusy : s.flag F.VLX_SCCMD_BUSY = true) (f : State → State) : s.sccStart src n f = s.cfgErr src F.VLX_SCCMD_BUSY.base := if_pos hbusy

theorem State.sccStart_idle (hidle : s.flag F.VLX_SCCMD_BUSY = false) (f : State → State) : s.sccStart src n f = f (s.sccBegun n) := if_neg (by simp [hidle])

theorem State.sccReload_busy (hbusy : s.flag F.VLX_SCCMD_BUSY = true) (hread : s.defRead = false) : s.sccReload src n = s.cfgErr src F.VLX_SCCMD_BUSY.base := by
  rw [State.sccReload, if_neg (by simp [hread]), State.sccStart_busy hbusy]

theorem State.sccReload_idle (hidle : s.flag F.VLX_SCCMD_BUSY = false) : s.sccReload src n = (s.sccBegun n).reloadRead n := by
  rw [State.sccReload, if_neg (by simp [hidle]), State.sccStart_idle hidle]

/-! What a reload does with the definition at hand -/

section
variable {d : BitVec 256}

theorem State.reloadDef_bad (hbad : defBad d = true) : s.reloadDef n d = s.sccDone 1 := if_pos hbad

variable (hgood : defBad d = false)
include hgood

theorem State.reloadDef_active (hactive : (s.sch n).active.isSome = true) : s.reloadDef n d = s.sccDone 2 := by
  rw [State.reloadDef, if_neg (by simp [hgood]), if_pos (by simp [hactive])]

variable (hidle : (s.sch n).active = none) (hfinal : (s.sch n).final = false)
include hidle hfinal

theorem State.reloadDef_unpaired (hbv : s.flag F.VLX_BUDDY_BV = false) : s.reloadDef n d = s.acceptDef n d := by
  rw [State.reloadDef, if_neg (by simp [hgood]), if_neg (by simp [hidle, hfinal]), if_pos (by simp [hbv])]

theorem State.reloadDef_mirrored {b : Nat} (hbv : s.flag F.VLX_BUDDY_BV = true) (hbuddy : s.buddy = some b) :
    s.reloadDef n d = ({ s with chn := { s.chn with mirr := { s.chn.mirr with jdef := some n, jdefTries := 0, jdefDef := d } } }).send .journal b 0x52 [n, d.toNat] := by
  rw [State.reloadDef, if_neg (by simp [hgood]), if_neg (by simp [hidle, hfinal]), if_neg (by simp [hbv]), hbuddy]

end

/-- The empty definition passes the check. -/
theorem defBad_zero : defBad 0 = false := by decide

/-! Termination -/

variable (hidle : s.flag F.VLX_SCCMD_BUSY = false)
include hidle

theorem State.sccTerminate_inactive (hactive : (s.sch n).active = none) : s.sccTerminate src n = (s.sccBegun n).sccDone 5 := by
  rw [State.sccTerminate, State.sccStart_idle hidle]
  have hactive' : ((s.sccBegun n).sch n).active = none := hactive
  simp only [hactive']

/-- A termination is over at once unless the adapter's answer to the ABORT is awaited. -/
theorem State.sccTerminate_active {i : Nat} {x : Exch} (hactive : (s.sch n).active = some (false, i)) (hfinal : (s.sch n).final = false) (hx : s.chn.exch.find i = some x) {u : State}
    (hu : u = ((s.sccBegun n).setEx (x.raise 6)).abortEx i 0x22) (awaited : Bool) (hawaited : ((u.chn.exch.find i).bind (·.aborting)).isSome = awaited) :
    s.sccTerminate src n = if awaited then u else u.sccDone 0 := by
  have hactive' : ((s.sccBegun n).sch n).active = some (false, i) := hactive
  have hfinal' : ((s.sccBegun n).sch n).final = false := hfinal
  have hx' : (s.sccBegun n).chn.exch.find i = some x := hx
  rw [State.sccTerminate, State.sccStart_idle hidle]
  simp only [hactive', hfinal', exKey, hx', Bool.false_eq_true, if_false, ← hu]
  subst hawaited
  cases u.chn.exch.find i <;> rfl

end

/-! Messages of the journal's mirror (12 R284, R285, R298, R299, R307) -/

section
variable {s : State} {src : Nat}

theorem State.fromBuddy_unpaired (hbv : s.flag F.VLX_BUDDY_BV = false) : s.fromBuddy src = false := by simp [State.fromBuddy, hbv]

/-- Without a buddy no message of a mirror is heard. -/
theorem journal_unpaired (hbv : s.flag F.VLX_BUDDY_BV = false) (e : BitVec 512) (sch : Nat) (d : BitVec 256) :
    Leaves (.jwr src e) s s ∧ Leaves (.jdef src sch d) s s ∧ Leaves (.jhnd src e) s s := by
  have hdeaf : s.fromBuddy src = false := State.fromBuddy_unpaired hbv
  exact ⟨leaves_of_next rfl (if_pos (by simp [hdeaf])), leaves_of_next rfl (if_neg (by simp [hdeaf])), leaves_of_next rfl (if_pos (by simp [hdeaf]))⟩

theorem journal_badCrc {e : BitVec 512} (hbad : jok e = false) : Leaves (.jwr src e) s s ∧ Leaves (.jhnd src e) s s :=
  ⟨leaves_of_next rfl (if_pos (by simp [hbad])), leaves_of_next rfl (if_pos (by simp [hbad]))⟩

section
variable (hfence : s.flag F.FLT_FENCE_CXF = false) (hbv : s.flag F.VLX_BUDDY_BV = true) (hsrc : s.fld F.VLX_BUDDY_BCX = src)
include hfence hbv hsrc

theorem State.fromBuddy_of_paired : s.fromBuddy src = true := by simp [State.fromBuddy, hfence, hbv, hsrc]

theorem jdef_answers {sch : Nat} (hsch : sch < 65536) (d : BitVec 256) : Leaves (.jdef src sch d) s (s.send .journal src 0x53 [sch, if s.defAccepted sch d then 1 else 0]) := by
  change execJdef src sch d s = _
  rw [execJdef, if_pos (State.fromBuddy_of_paired hfence hbv hsrc), Nat.mod_eq_of_lt hsch, b2n, settled_next]

theorem jrd_answers {i : Nat} (hi : i < 16384) : Leaves (.jrd src i) s (s.send .journal src 0x57 [i, (s.jent true i).img.toNat]) := by
  change execJrd src i s = _
  rw [execJrd, if_neg (by omega), if_pos (State.fromBuddy_of_paired hfence hbv hsrc), settled_next]

variable {e : BitVec 512} (hok : jok e = true)
include hok

/-- The mirror acknowledges every good entry and takes a later step. -/
theorem jwr_acknowledges (hfrozen : s.chn.frozen = false) (later : Bool) (hlater : stepLater (jStep e) (jStep (s.jent true (jExid e % 16384)).img) = later) :
    Leaves (.jwr src e) s ((if later then s.setJent true (jExid e % 16384) { s.jent true (jExid e % 16384) with img := e } else s).send .journal src 0x51 [jExid e, jStep e]) := by
  subst hlater
  exact leaves_of_next rfl (if_neg (by simp [State.fromBuddy_of_paired hfence hbv hsrc, hok, hfrozen]))

/-- The buddy's exchange is adopted once and acknowledged each time. -/
theorem jhnd_acknowledges (adopted : Bool) (hadopted : s.chn.exch.has (16384 + jExid e % 16384) = adopted) :
    Leaves (.jhnd src e) s ((if adopted then s else ((s.setJent true (jExid e % 16384) { s.jent true (jExid e % 16384) with img := e }).adopt (jExid e % 16384)).1).send
      .journal src 0x55 [jExid e, jStep e]) := by
  subst hadopted
  exact leaves_of_next rfl (if_neg (by simp [State.fromBuddy_of_paired hfence hbv hsrc, hok]))

end

/-! Answers of the mirror -/

section
variable {exid : BitVec 24} {step : BitVec 16} {i : Nat} (hi : i = exid.toNat % 16384)
include hi

theorem jack_otherStep (hstep : jStep (s.jent false i).img ≠ step.toNat) : Leaves (.jack exid step) s s := by
  subst hi
  exact leaves_of_next rfl (if_pos (by simp [hstep]))

variable (hfence : s.flag F.FLT_FENCE_CXF = false) (hcx : exid.toNat / 16384 = s.cxid) (hstep : jStep (s.jent false i).img = step.toNat)
include hfence hcx hstep

theorem jack_releases (houtst : (s.jent false i).outst = true) :
    Leaves (.jack exid step) s (((s.setJent false i { s.jent false i with outst := false, tries := 0 }).stepAcked i).startQueued i) := by
  subst hi
  exact leaves_of_next rfl (if_neg (by simp [hfence, hcx, hstep, houtst]))

theorem jhack_ends {x : Exch} (hx : s.chn.exch.find i = some x) (hhand : s.chn.mirr.jhnd.has i = true) {u : State}
    (hu : u = { s with chn := { s.chn with mirr := { s.chn.mirr with jhnd := s.chn.mirr.jhnd.del i } } }) :
    Leaves (.jhack exid step) s ((u.setJent false i { s.jent false i with img := jseal (jput (s.jent false i).img 0 63 60 4) }).endExch x) := by
  subst hi hu
  change execJhack exid step s = _
  simp only [execJhack, hx]
  rw [if_neg (by simp [hfence, hcx, hstep, hhand]), settled_next]

end

theorem jdack_ends {n : Nat} (hfence : s.flag F.FLT_FENCE_CXF = false) (hjdef : s.chn.mirr.jdef = some n) {u : State}
    (hu : u = { s with chn := { s.chn with mirr := { s.chn.mirr with jdef := none } } }) (accepted : Bool) :
    Leaves (.jdack n accepted) s (if accepted then u.acceptDef n s.chn.mirr.jdefDef else u.sccDone 3) := by
  subst hu
  exact leaves_of_next rfl (if_neg (by simp [hfence, hjdef]))

/-! Repair of an entry from the mirror (12 R299) -/

/-- How a JRDR that was asked for ends. -/
def State.repaired (u : State) (i : Nat) (x : Exch) (e : BitVec 512) : State :=
  let j := u.jent false i
  let good := u.setJent false i { j with img := e, outst := false, tries := 0 }
  if jSolo (u.img x) || !jok e then u.journalLost i
  else if j.outst && jStep e == jStep j.img then (good.stepAcked i).startQueued i
  else good.setEx (if jState e = 3 then x else x.raise 4)

theorem State.repaired_lost {i : Nat} {x : Exch} {e : BitVec 512} (h : jSolo (s.img x) = true ∨ jok e = false) : s.repaired i x e = s.journalLost i :=
  if_pos (by simpa using h)

section
variable {i : Nat} {x : Exch} {e : BitVec 512} (hsolo : jSolo (s.img x) = false) (hok : jok e = true)
include hsolo hok

/-- The copy of the step that awaits its JACK stands for the JACK. -/
theorem State.repaired_acknowledged (houtst : (s.jent false i).outst = true) (hstep : jStep e = jStep (s.jent false i).img) :
    s.repaired i x e = ((s.setJent false i { s.jent false i with img := e, outst := false, tries := 0 }).stepAcked i).startQueued i := by
  rw [State.repaired, if_neg (by simp [hsolo, hok]), if_pos (by simp [houtst, hstep])]

/-- A RESTART event follows, unless the copy's status is recorded. -/
theorem State.repaired_restarts (houtst : (s.jent false i).outst = false) (y : Exch) (hy : (if jState e = 3 then x else x.raise 4) = y) :
    s.repaired i x e = (s.setJent false i { s.jent false i with img := e, outst := false, tries := 0 }).setEx y := by
  rw [State.repaired, if_neg (by simp [hsolo, hok]), if_neg (by simp [houtst]), hy]

end

section
variable {i : Nat} {x : Exch} {e : BitVec 512} (hi : i < 16384) (hx : s.chn.exch.find i = some x)
include hi hx

theorem jrdr_unasked (hasked : s.chn.mirr.jrd.has i = false) : Leaves (.jrdr i e) s s := by
  change execJrdr i e s = _
  simp only [execJrdr, hx, if_neg (show ¬ 16384 ≤ i by omega)]
  rw [if_pos (by simp [hasked]), settled_next]

variable (hfence : s.flag F.FLT_FENCE_CXF = false) (hasked : s.chn.mirr.jrd.has i = true) {u : State}
  (hu : u = { s with chn := { s.chn with mirr := { s.chn.mirr with jrd := s.chn.mirr.jrd.del i } } })
include hfence hasked hu

theorem jrdr_repairs : Leaves (.jrdr i e) s (u.repaired i x e) := by
  subst hu
  change execJrdr i e s = _
  simp only [execJrdr, hx, if_neg (show ¬ 16384 ≤ i by omega)]
  rw [if_neg (by simp [hfence, hasked]), settled_next]
  rfl

end

/-! The end of a quarantine (12 R294) -/

section
variable {i : Nat} (hi : i < 16384)
include hi

theorem quarantineEnd_over (hquar : (s.jent false i).quar = false) : Leaves (.quarantineEnd i) s s := by
  change execQuarantineEnd i s = _
  rw [execQuarantineEnd, if_neg (by omega)]
  simp only [hquar, Bool.not_false, if_true, settled_next]

theorem quarantineEnd_frees (hquar : (s.jent false i).quar = true) {u : State}
    (hu : u = s.setJent false i { s.jent false i with quar := false, img := jseal (jput (s.jent false i).img 0 63 60 0) }) :
    Leaves (.quarantineEnd i) s (({ u with chn := { u.chn with jfreed := u.chn.jfreed ++ [i] } }).jused (u.fld F.VLX_STAT_JUSED - 1)) := by
  subst hu
  change execQuarantineEnd i s = _
  rw [execQuarantineEnd, if_neg (by omega)]
  simp only [hquar, Bool.not_true, Bool.false_eq_true, if_false, settled_next]

end

/-! The mirror's timeout (12 R298) and takeover (12 R305) -/

theorem mirrorTimeout_unmirrored (hbuddy : s.buddy = none) (m : MirrorMsg) : Leaves (.mirrorTimeout m) s s := by
  change execMirrorTimeout m s = _
  simp only [execMirrorTimeout, hbuddy, settled_next]

theorem State.mirrorTry_lost {tries : Nat} (h : 2 ≤ tries) (put : Nat → State) (again : State → State) : s.mirrorTry tries put again = s.buddyLost.startAll := if_pos h

theorem State.mirrorTry_again {tries : Nat} (h : tries < 2) (put : Nat → State) (again : State → State) : s.mirrorTry tries put again = (again (put (tries + 1))).flt 7 0 :=
  if_neg (by omega)

theorem mirrorTimeout_jwr {b i : Nat} (hbuddy : s.buddy = some b) (houtst : (s.jent false i).outst = true) :
    Leaves (.mirrorTimeout (.jwr i)) s (s.mirrorTry (s.jent false i).tries (fun n => s.setJent false i { s.jent false i with tries := n })
      (fun z => z.send .journal b 0x50 [(s.jent false i).img.toNat])) := by
  change execMirrorTimeout (.jwr i) s = _
  simp only [execMirrorTimeout, hbuddy, houtst, if_true, settled_next]

theorem takeover_unpaired (hbv : s.flag F.VLX_BUDDY_BV = false) : Leaves .takeover s s := leaves_of_next rfl (if_pos (by simp [hbv]))

theorem takeover_again (hfrozen : s.chn.frozen = true) : Leaves .takeover s s := leaves_of_next rfl (if_pos (by simp [hfrozen]))

/-- A takeover with an empty mirror adopts nothing. -/
theorem takeover_empty (hfence : s.flag F.FLT_FENCE_CXF = false) (hbv : s.flag F.VLX_BUDDY_BV = true) (hlost : s.fld F.VLX_STAT_BST = 2) (habsent : s.present (s.fld F.VLX_BUDDY_BCX) = false)
    (hfrozen : s.chn.frozen = false) {u : State}
    (hu : u = ({ s.buddyLost.startAll with chn := { s.buddyLost.startAll.chn with frozen := true } } : State).setFlag F.VLX_STAT_TKACT true) (hmir : u.chn.mir = []) :
    Leaves .takeover s ((u.setFlag F.VLX_STAT_TKACT false).flt 7 9) := by
  change execTakeover s = _
  rw [execTakeover, if_neg (by simp [hfence, hbv, hlost, habsent, hfrozen])]
  simp only [← hu, hmir, List.map_nil, List.foldl_nil, settled_next]
  rfl

end

/-- Settles O43: each clause is the lemma of its command, message or event. -/
theorem subchannelsAndJournal : Obligations.SubchannelsAndJournal := by
  refine ⟨?commands, ?journal⟩
  case commands =>
    intro s u src n d b i x
    refine ⟨fun hbusy => ?busy, fun hidle => ⟨leaves_of_next rfl (State.sccReload_idle hidle), fun hactive hfinal hbv => ?invalidate, fun hactive => ?running,
      fun hactive => leaves_of_next rfl (State.sccTerminate_inactive hidle hactive), fun hactive hfinal hx hu => ?terminate⟩,
      State.reloadDef_bad, State.reloadDef_active, fun hgood hactive hfinal hbv hbuddy => State.reloadDef_mirrored hgood hactive hfinal hbv hbuddy⟩
    case busy =>
      exact ⟨leaves_of_next rfl (State.sccStart_busy hbusy _), leaves_of_next rfl (State.sccStart_busy hbusy _), fun hread => leaves_of_next rfl (State.sccReload_busy hbusy hread)⟩
    case invalidate => exact leaves_of_next rfl ((State.sccStart_idle hidle _).trans (State.reloadDef_unpaired defBad_zero hactive hfinal hbv))
    case running => exact leaves_of_next rfl ((State.sccStart_idle hidle _).trans (State.reloadDef_active defBad_zero hactive))
    case terminate =>
      have hends := State.sccTerminate_active (src := src) hidle hactive hfinal hx hu
      refine ⟨fun y hy haborting => leaves_of_next rfl (hends true ?_), fun hnone => leaves_of_next rfl (hends false ?_)⟩
      · rw [hy]; exact haborting
      · cases hy : u.chn.exch.find i with
        | none => rfl
        | some y => exact congrArg Option.isSome (hnone y hy)
  case journal =>
    intro s u src sch i n b e exid step d x hfence
    refine ⟨fun hbv hsrc hfrozen => ⟨fun hok => ?good, journal_badCrc, fun hsch => jdef_answers hfence hbv hsrc hsch d, jrd_answers hfence hbv hsrc⟩, fun hbv => ?unpaired,
      fun hcx => ⟨fun houtst hstep => jack_releases rfl hfence hcx hstep houtst, jack_otherStep rfl, fun hx hhand hstep hu => jhack_ends rfl hfence hcx hstep hx hhand hu⟩,
      fun hjdef hu => ⟨jdack_ends hfence hjdef hu true, jdack_ends hfence hjdef hu false⟩, fun hi => ⟨fun hx => ⟨jrdr_unasked hi hx, fun hasked hu => ?jrdr⟩,
        quarantineEnd_over hi, fun hquar hu => quarantineEnd_frees hi hquar hu, fun hbuddy houtst => ?timeout⟩,
      fun hbuddy => mirrorTimeout_unmirrored hbuddy _, fun hbv hlost habsent hfrozen _ => takeover_empty hfence hbv hlost habsent hfrozen, takeover_again⟩
    case good =>
      have hjwr := jwr_acknowledges hfence hbv hsrc hok hfrozen
      have hjhnd := jhnd_acknowledges hfence hbv hsrc hok
      exact ⟨hjwr true, hjwr false, hjhnd true, hjhnd false⟩
    case unpaired =>
      obtain ⟨hjwr, hjdef, hjhnd⟩ := journal_unpaired hbv e sch d
      exact ⟨hjwr, hjdef, hjhnd, takeover_unpaired hbv⟩
    case jrdr =>
      have hrepairs := jrdr_repairs (e := e) hi hx hfence hasked hu
      refine ⟨fun hsolo hok => ⟨fun houtst hstep => ?_, fun houtst => ⟨fun hstate => ?_, fun hstate => ?_⟩⟩, fun hlost => ?_⟩
      · exact State.repaired_acknowledged hsolo hok houtst hstep ▸ hrepairs
      · exact State.repaired_restarts hsolo hok houtst _ (if_neg hstate) ▸ hrepairs
      · exact State.repaired_restarts hsolo hok houtst _ (if_pos hstate) ▸ hrepairs
      · exact State.repaired_lost hlost ▸ hrepairs
    case timeout =>
      have htimeout := mirrorTimeout_jwr hbuddy houtst
      exact ⟨fun htries => by rwa [State.mirrorTry_again htries] at htimeout, fun htries => by rwa [State.mirrorTry_lost htries] at htimeout⟩

end Sys2Proof.Machine
end

section
/-! PROOFS. Contexts of a Velex engine (13 R315, R317, R321): how a ready context runs an instruction, and what its operation writes. -/

namespace Sys2Proof.Machine

theorem context_exists {e ctx : Nat} (he : e < 68) (hctx : ctx < 16) : ¬ (decide (68 ≤ e) || decide (16 ≤ ctx)) = true := by simp; omega

theorem ofNat_toNat_self {w : Nat} (x : BitVec w) : BitVec.ofNat w x.toNat = x := by rw [BitVec.ofNat_toNat, BitVec.setWidth_eq]

theorem VeCtx.ofNat_get (c : VeCtx) (n : Nat) : BitVec.ofNat 32 (c.get n) = c.e.get 0 n := ofNat_toNat_self _

theorem State.updVe_setVe (s : State) (k : Nat) (c : VeCtx) (f : VeCtx → VeCtx) : (s.setVe k c).updVe k f = s.setVe k (f c) := by
  rw [State.updVe, State.veCtx_setVe, State.setVe_setVe]

theorem VeCtx.put_toNat (c : VeCtx) (n : Nat) (v : W32) : c.put n v.toNat = { c with e := c.e.put n v } := by rw [VeCtx.put, ofNat_toNat_self]

theorem State.veSet_toNat (s : State) (k : Nat) (t : BitVec 4) (v : W32) : s.veSet k t v.toNat = s.setVe k { s.veCtx k with e := (s.veCtx k).e.put t.toNat v } :=
  congrArg (s.setVe k) (VeCtx.put_toNat _ _ v)

theorem State.updVe_veSet (s : State) (k : Nat) (t : BitVec 4) (n : Nat) (f : VeCtx → VeCtx) : (s.veSet k t n).updVe k f = s.setVe k (f ((s.veCtx k).put t.toNat n)) :=
  State.updVe_setVe ..

/-- The context at its next instruction; it waits for no JACK any more. -/
def VeCtx.next (c : VeCtx) : VeCtx := { c with pc := c.pc + 1, st := if c.st = .waitJack then .running else c.st }

theorem VeCtx.next_of_running {c : VeCtx} (h : c.st = .running) : c.next = { c with pc := c.pc + 1 } := by simp [VeCtx.next, h]

/-- What the operation of a context leaves, by how it ends. -/
def VeRes.after (r : VeRes) (s : State) (e ctx : Nat) : State :=
  match r with
  | .ok u => u.updVe (e * 16 + ctx) VeCtx.next
  | .jump u pc => u.updVe (e * 16 + ctx) (fun c => { c with pc := pc })
  | .trap cause => s.veTrap e ctx cause
  | .stay u => u.keep s (256 + (e * 16 + ctx))
  | .bad u f => u.veBad e ctx f

section
variable {i : Instr} {s : State} {e ctx : Nat} {ill : Bool} {body : State → VeCtx → VeRes} (m : State → Out) (hi : exec i s = m s) (h : VeReady s e ctx)
  (hm : m s = runVe e ctx ill s body)
include hi h hm

theorem leaves_of_runVe (hill : ill = false) {r : VeRes} (hbody : body s (s.veCtx (e * 16 + ctx)) = r) : Leaves i s (r.after s e ctx) := by
  subst hill hbody
  rw [Leaves, hi, hm, runVe_ready s e ctx body h]
  cases body s (s.veCtx (e * 16 + ctx)) <;> rfl

theorem leaves_of_ok (hill : ill = false) {u : State} (hbody : body s (s.veCtx (e * 16 + ctx)) = .ok u) : Leaves i s (u.updVe (e * 16 + ctx) VeCtx.next) :=
  leaves_of_runVe m hi h hm hill hbody

theorem leaves_of_trap (hill : ill = false) {cause : Byte} (hbody : body s (s.veCtx (e * 16 + ctx)) = .trap cause) : Leaves i s (s.veTrap e ctx cause) :=
  leaves_of_runVe m hi h hm hill hbody

theorem illegal_of_runVe (hill : ill = true) : Leaves i s (s.veTrap e ctx 1) := by
  subst hill
  rw [Leaves, hi, hm, runVe_ill s e ctx body h]

/-- An instruction whose operation changes its own context alone. -/
theorem veEnds_of_runVe (hill : ill = false) {c : VeCtx} (hbody : body s (s.veCtx (e * 16 + ctx)) = .ok (s.setVe (e * 16 + ctx) c))
    (hst : c.st = (s.veCtx (e * 16 + ctx)).st) (hpc : c.pc = (s.veCtx (e * 16 + ctx)).pc) : VeEnds i s e ctx c := by
  have hleaves := leaves_of_ok m hi h hm hill hbody
  rwa [State.updVe_setVe, VeCtx.next_of_running (hst.trans h.2.2.1), hpc] at hleaves

/-- An instruction that writes register `t`. -/
theorem veEnds_of_veSet (hill : ill = false) {t : BitVec 4} {n : Nat} {v : W32}
    (hbody : body s (s.veCtx (e * 16 + ctx)) = .ok (s.veSet (e * 16 + ctx) t n)) (hn : BitVec.ofNat 32 n = v) :
    VeEnds i s e ctx { s.veCtx (e * 16 + ctx) with e := (s.veCtx (e * 16 + ctx)).e.put t.toNat v } := by
  subst hn
  exact veEnds_of_runVe m hi h hm hill hbody rfl rfl

end

end Sys2Proof.Machine
end

section
/-! PROOFS. Arithmetic and logic of a Velex engine (13 R321, R322, Table VEN-5). -/

namespace Sys2Proof.Machine

/-! Flags (13 R321) -/

/-- FLAGS as the number that the model packs. -/
theorem veFlags_eq_ofNat (r : W32) (c v : Bool) : BitVec.ofNat 4 (r.toNat / 2 ^ 31 * 8 + b2n (r.toNat == 0) * 4 + b2n c * 2 + b2n v) = veFlags r c v := by
  have hmsb : r.toNat / 2 ^ 31 = b2n r.msb := by
    have hlt := r.isLt
    rw [BitVec.msb_eq_decide, b2n]
    simp only [decide_eq_true_eq]
    split <;> omega
  have hzero : (r.toNat == 0) = (r == 0) := by rw [Bool.eq_iff_iff]; simp [BitVec.toNat_eq]
  rw [hmsb, hzero, veFlags]
  generalize r.msb = n
  generalize (r == 0) = z
  revert n z c v
  decide

theorem nz_toNat (r : W32) (f : BitVec 4) : nz r.toNat f = veFlags r (f.getLsbD 1) (f.getLsbD 0) := by
  have hlow : f.toNat % 4 = b2n (f.getLsbD 1) * 2 + b2n (f.getLsbD 0) := by revert f; decide
  rw [nz, hlow, ← Nat.add_assoc, veFlags_eq_ofNat]

/-- The signed result does not fit 32 bits (13 R321). -/
def veOverflow (n : Int) : Bool := decide (n < -2 ^ 31 ∨ 2 ^ 31 ≤ n)

theorem s32_toNat (x : W32) : s32 x.toNat = x.toInt := by rw [s32, ofNat_toNat_self]

theorem veSum_toNat (x y : W32) : veSum x.toNat y.toNat = ((x + y).toNat, veFlags (x + y) (decide (2 ^ 32 ≤ x.toNat + y.toNat)) (veOverflow (x.toInt + y.toInt))) := by
  rw [veSum, ← BitVec.toNat_add, nzcv, veFlags_eq_ofNat, s32_toNat, s32_toNat]
  rfl

theorem veDiff_toNat (x y : W32) : veDiff x.toNat y.toNat = ((x - y).toNat, veFlags (x - y) (decide (y.toNat ≤ x.toNat)) (veOverflow (x.toInt - y.toInt))) := by
  have hsub : (x.toNat + 2 ^ 32 - y.toNat) % 2 ^ 32 = (x - y).toNat := by rw [BitVec.toNat_sub]; congr 1; have := y.isLt; omega
  rw [veDiff, hsub, nzcv, veFlags_eq_ofNat, s32_toNat, s32_toNat]
  rfl

/-! Shifts -/

theorem veShl_toNat (x : W32) (n : Nat) : veShl x.toNat n = (x <<< n).toNat := by
  rw [veShl]
  split
  · next h => rw [BitVec.shiftLeft_eq_zero h]; rfl
  · rw [BitVec.toNat_shiftLeft, Nat.shiftLeft_eq]

theorem veShr_toNat (x : W32) (n : Nat) : veShr x.toNat n = (x >>> n).toNat := by
  rw [veShr]
  split
  · next h => rw [BitVec.ushiftRight_eq_zero h]; rfl
  · rw [BitVec.toNat_ushiftRight, Nat.shiftRight_eq_div_pow]

theorem veSar_toNat (x : W32) (n : Nat) : veSar x.toNat n = (x.sshiftRight n).toNat := by
  rw [veSar, ofNat_toNat_self]
  congr 1
  ext i hi
  rw [BitVec.getElem_sshiftRight, BitVec.getElem_sshiftRight]
  by_cases hn : n ≤ 31
  · simp only [Nat.min_eq_left hn]
  · by_cases hi0 : i = 0
    · subst hi0
      simp [show 31 ≤ n by omega, show ¬ n < 32 by omega, BitVec.msb_eq_getLsbD_last]
    · rw [dif_neg (by omega), dif_neg (by omega)]

/-! What an instruction leaves in its context -/

/-- The context after a logical operation or a shift: C and V stay. -/
def VeCtx.logical (c : VeCtx) (t : BitVec 4) (v : W32) : VeCtx := { c with e := c.e.put t.toNat v, flags := veFlags v (c.flags.getLsbD 1) (c.flags.getLsbD 0) }

theorem State.updVe_nz (s : State) (k : Nat) (t : BitVec 4) (v : W32) :
    (s.veSet k t v.toNat).updVe k (fun c => { c with flags := nz v.toNat c.flags }) = s.setVe k ((s.veCtx k).logical t v) := by
  rw [State.veSet_toNat, State.updVe_setVe, nz_toNat]
  rfl

/-! The instructions -/

section
variable {i : Instr} {s : State} {e ctx : Nat} {ill : Bool} {body : State → VeCtx → VeRes} {t : BitVec 4} (m : State → Out) (hi : exec i s = m s) (h : VeReady s e ctx)
  (hm : m s = runVe e ctx ill s body) (hill : ill = false)
include hi h hm hill

/-- An operation that sets every flag. -/
theorem veEnds_of_arith {r : Nat × BitVec 4} {v : W32} {flags : BitVec 4}
    (hbody : body s (s.veCtx (e * 16 + ctx)) = .ok ((s.veSet (e * 16 + ctx) t r.1).updVe (e * 16 + ctx) (fun c => { c with flags := r.2 }))) (hr : r = (v.toNat, flags)) :
    VeEnds i s e ctx { s.veCtx (e * 16 + ctx) with e := (s.veCtx (e * 16 + ctx)).e.put t.toNat v, flags := flags } := by
  subst hr
  exact veEnds_of_runVe m hi h hm hill (hbody.trans (by rw [State.veSet_toNat, State.updVe_setVe])) rfl rfl

/-- An operation that sets the flags alone. -/
theorem veEnds_of_flags {flags flags' : BitVec 4}
    (hbody : body s (s.veCtx (e * 16 + ctx)) = .ok (s.updVe (e * 16 + ctx) (fun d => { d with flags := flags' }))) (hf : flags' = flags) :
    VeEnds i s e ctx { s.veCtx (e * 16 + ctx) with flags := flags } := by
  subst hf
  exact veEnds_of_runVe m hi h hm hill hbody rfl rfl

/-- A product goes to the pipeline (13 R322). -/
theorem veEnds_of_product {n : Int} {p : W64} (hbody : body s (s.veCtx (e * 16 + ctx)) = .ok (s.veProduct (e * 16 + ctx) n)) (hn : BitVec.ofInt 64 n = p) :
    VeEnds i s e ctx { s.veCtx (e * 16 + ctx) with prods := (s.veCtx (e * 16 + ctx)).prods ++ [p] } := by
  subst hn
  exact veEnds_of_runVe m hi h hm hill hbody rfl rfl

end

section
variable {i : Instr} {s : State} {e ctx : Nat} {t a b : BitVec 4} (m : State → Out) (hi : exec i s = m s) (h : VeReady s e ctx)
include hi h

theorem veArith_ends {f : Nat → Nat → Nat × BitVec 4} (hm : m s = veArith e ctx t a b 0 s f) {v : W32} {flags : BitVec 4}
    (hf : f ((s.veCtx (e * 16 + ctx)).get a.toNat) ((s.veCtx (e * 16 + ctx)).get b.toNat) = (v.toNat, flags)) :
    VeEnds i s e ctx { s.veCtx (e * 16 + ctx) with e := (s.veCtx (e * 16 + ctx)).e.put t.toNat v, flags := flags } :=
  veEnds_of_arith m hi h hm rfl rfl hf

theorem veLogicI_ends {f : Nat → Nat} {ill : Bool} (hm : m s = veLogicI e ctx t a ill s f) (hill : ill = false) {v : W32}
    (hf : f ((s.veCtx (e * 16 + ctx)).get a.toNat) = v.toNat) :
    VeEnds i s e ctx ((s.veCtx (e * 16 + ctx)).logical t v) :=
  veEnds_of_runVe m hi h hm hill (by simp only [hf, State.updVe_nz]) rfl rfl

theorem veLogic_ends {f : Nat → Nat → Nat} (hm : m s = veLogic e ctx t a b 0 s f) {v : W32}
    (hf : f ((s.veCtx (e * 16 + ctx)).get a.toNat) ((s.veCtx (e * 16 + ctx)).get b.toNat) = v.toNat) :
    VeEnds i s e ctx ((s.veCtx (e * 16 + ctx)).logical t v) :=
  veEnds_of_runVe m hi h hm rfl (by simp only [hf, State.updVe_nz]) rfl rfl

theorem veArith_illegal {f : Nat → Nat → Nat × BitVec 4} {rsv : BitVec 8} (hm : m s = veArith e ctx t a b rsv s f) (hrsv : rsv ≠ 0) : Leaves i s (s.veTrap e ctx 1) :=
  illegal_of_runVe m hi h hm (by simpa using hrsv)

theorem veLogicI_illegal {f : Nat → Nat} {ill : Bool} (hm : m s = veLogicI e ctx t a ill s f) (hill : ill = true) : Leaves i s (s.veTrap e ctx 1) :=
  illegal_of_runVe m hi h hm hill

end

/-! Values -/

theorem ofInt_mul_toNat (x y : W32) : BitVec.ofInt 64 ((x.toNat * y.toNat : Nat) : Int) = x.setWidth 64 * y.setWidth 64 := by
  rw [BitVec.ofInt_natCast, BitVec.ofNat_mul, BitVec.ofNat_toNat, BitVec.ofNat_toNat]

theorem ofInt_mul_s32 (x y : W32) : BitVec.ofInt 64 (s32 x.toNat * s32 y.toNat) = x.signExtend 64 * y.signExtend 64 := by
  rw [s32_toNat, s32_toNat, BitVec.ofInt_mul]
  rfl

/-- ANDN takes the complement as a difference from all ones. -/
theorem and_complement_toNat (x y : W32) : x.toNat &&& (2 ^ 32 - 1 - y.toNat) = (x &&& ~~~y).toNat := by rw [BitVec.toNat_and, BitVec.toNat_not]

theorem rotateLeft_toNat (x : W32) (n : Nat) : ((BitVec.ofNat 32 x.toNat).rotateLeft n).toNat = (x.rotateLeft n).toNat := by rw [ofNat_toNat_self]

theorem ofNat_lui (imm : BitVec 16) : BitVec.ofNat 32 (imm.toNat * 65536) = imm.setWidth 32 <<< 16 := by
  rw [BitVec.shiftLeft_eq_mul_twoPow, BitVec.ofNat_mul, BitVec.ofNat_toNat]
  rfl

/-! The pipeline of products (13 R322) -/

theorem veProductWrite_leaves {s : State} {e ctx : Nat} (he : e < 68) (hctx : ctx < 16) {p : W64} {rest : List W64} (hprods : (s.veCtx (e * 16 + ctx)).prods = p :: rest) :
    Leaves (.veProductWrite e ctx) s (s.setVe (e * 16 + ctx) { s.veCtx (e * 16 + ctx) with prods := rest, mh := p.extractLsb' 32 32, ml := p.extractLsb' 0 32 }) := by
  change execVeProductWrite e ctx s = _
  simp only [execVeProductWrite, if_neg (context_exists he hctx), settled_next, State.updVe, hprods]

/-- Settles O37: each instruction ends by the lemma of what it writes; the values and flags are the lemmas above. -/
theorem engineArithmetic : Obligations.EngineArithmetic := by
  intro s e ctx t a b imm rsv p rest h c x y z u put both nz big sum diff
  have hu : u.toNat = imm.toNat := BitVec.toNat_setWidth_of_le (by omega)
  refine ⟨veArith_ends (execVeAdd e ctx t a b 0) rfl h rfl (veSum_toNat x y), veArith_ends (execVeSub e ctx t a b 0) rfl h rfl (veDiff_toNat x y),
    veLogic_ends (execVeAnd e ctx t a b 0) rfl h rfl (BitVec.toNat_and x y).symm, veLogic_ends (execVeOr e ctx t a b 0) rfl h rfl (BitVec.toNat_or x y).symm,
    veLogic_ends (execVeXor e ctx t a b 0) rfl h rfl (BitVec.toNat_xor x y).symm, veLogic_ends (execVeAndn e ctx t a b 0) rfl h rfl (and_complement_toNat x y),
    veLogic_ends (execVeSll e ctx t a b 0) rfl h rfl (veShl_toNat x _), veLogic_ends (execVeSrl e ctx t a b 0) rfl h rfl (veShr_toNat x _),
    veLogic_ends (execVeSra e ctx t a b 0) rfl h rfl (veSar_toNat x _), veLogic_ends (execVeRol e ctx t a b 0) rfl h rfl (rotateLeft_toNat x _),
    veEnds_of_flags (execVeCmp e ctx 0 a b 0) rfl h rfl rfl rfl (congrArg Prod.snd (veDiff_toNat x y)), veEnds_of_veSet (execVeMov e ctx t a 0 0) rfl h rfl rfl rfl (c.ofNat_get _),
    veEnds_of_product (execVeMul e ctx 0 a b 0) rfl h rfl rfl rfl (ofInt_mul_s32 x y), veEnds_of_product (execVeMulu e ctx 0 a b 0) rfl h rfl rfl rfl (ofInt_mul_toNat x y),
    veEnds_of_veSet (execMfmh e ctx t 0 0 0) rfl h rfl rfl rfl (ofNat_toNat_self _), veEnds_of_veSet (execMfml e ctx t 0 0 0) rfl h rfl rfl rfl (ofNat_toNat_self _),
    veEnds_of_veSet (execMffl e ctx t 0 0 0) rfl h rfl rfl rfl (BitVec.ofNat_toNat ..), veEnds_of_flags (execMtfl e ctx 0 a 0 0) rfl h rfl rfl rfl (BitVec.ofNat_toNat ..),
    veEnds_of_arith (execVeAddi e ctx t a 0 imm) rfl h rfl rfl rfl (veSum_toNat x z), veEnds_of_flags (execVeCmpi e ctx 0 a 0 imm) rfl h rfl rfl rfl (congrArg Prod.snd (veDiff_toNat x z)),
    veLogicI_ends (execVeAndi e ctx t a 0 imm) rfl h rfl rfl ?andi, veLogicI_ends (execVeOri e ctx t a 0 imm) rfl h rfl rfl ?ori,
    veLogicI_ends (execVeXori e ctx t a 0 imm) rfl h rfl rfl ?xori, veEnds_of_veSet (execVeLui e ctx t 0 0 imm) rfl h rfl rfl rfl (ofNat_lui imm),
    fun hcount => ?shifts, fun hcount => veLogicI_illegal (execVeSlli e ctx t a 0 imm) rfl h rfl (by simpa using hcount), veProductWrite_leaves h.1 h.2.1, fun hrsv => ?reserved⟩
  case andi => rw [BitVec.toNat_and, hu]; rfl
  case ori => rw [BitVec.toNat_or, hu]; rfl
  case xori => rw [BitVec.toNat_xor, hu]; rfl
  case shifts =>
    have hill : ((0 : BitVec 2) != 0 || decide (32 ≤ imm.toNat)) = false := by simpa using hcount
    exact ⟨veLogicI_ends (execVeSlli e ctx t a 0 imm) rfl h rfl hill (veShl_toNat x _), veLogicI_ends (execVeSrli e ctx t a 0 imm) rfl h rfl hill (veShr_toNat x _),
      veLogicI_ends (execVeSrai e ctx t a 0 imm) rfl h rfl hill (veSar_toNat x _)⟩
  case reserved =>
    exact ⟨veArith_illegal (execVeAdd e ctx t a b rsv) rfl h rfl hrsv, illegal_of_runVe (execVeMulu e ctx 0 a b rsv) rfl h rfl (by simpa using hrsv),
      illegal_of_runVe (execVeMov e ctx t a 0 rsv) rfl h rfl (by simpa using hrsv)⟩

end Sys2Proof.Machine
end

section
/-! PROOFS. Branches, waits and bank registers of a Velex engine, and the words of its instruction RAM (13 R315, R317, R319 to R321, Tables VEN-4 to VEN-6). -/

namespace Sys2Proof.Machine

theorem VeReady.veOpen {s : State} {e ctx : Nat} (h : VeReady s e ctx) : s.veOpen (e * 16 + ctx) = false := (State.veSettle_ready s _ h.2.2.2.2).2

/-- An instruction that changes nothing. -/
theorem veEnds_unchanged {i : Instr} {s : State} {e ctx : Nat} {ill : Bool} {body : State → VeCtx → VeRes} (m : State → Out) (hi : exec i s = m s) (h : VeReady s e ctx)
    (hm : m s = runVe e ctx ill s body) (hill : ill = false) (hbody : body s (s.veCtx (e * 16 + ctx)) = .ok s) : VeEnds i s e ctx (s.veCtx (e * 16 + ctx)) := by
  have hleaves := leaves_of_ok m hi h hm hill hbody
  rwa [State.updVe, VeCtx.next_of_running h.2.2.1] at hleaves

/-! Branches (13 Table VEN-6) -/

theorem veCond_eq {cond : BitVec 4} (hcond : cond.toNat < 14) (f : BitVec 4) :
    let n := f.getLsbD 3
    let z := f.getLsbD 2
    let c := f.getLsbD 1
    let v := f.getLsbD 0
    veCond cond f = [true, z, !z, n, !n, c, !c, v, !v, c && !z, n != v, n == v, !z && n == v, z || n != v].getD cond.toNat false := by
  revert cond f
  decide

section
variable {s : State} {e ctx : Nat} (h : VeReady s e ctx) {cond : BitVec 4} (off : BitVec 22)
include h

theorem veB_leaves (hcond : cond.toNat < 14) {taken : Bool} (htaken : veCond cond (s.veCtx (e * 16 + ctx)).flags = taken) :
    Leaves (.veB e ctx cond off) s (if taken then s.setVe (e * 16 + ctx) { s.veCtx (e * 16 + ctx) with pc := (s.veCtx (e * 16 + ctx)).pc + off.setWidth 15 }
      else s.setVe (e * 16 + ctx) { s.veCtx (e * 16 + ctx) with pc := (s.veCtx (e * 16 + ctx)).pc + 1 }) := by
  have hleaves := leaves_of_runVe (i := .veB e ctx cond off) (execVeB e ctx cond off) rfl h rfl (decide_eq_false (by omega)) rfl
  cases taken
  · rwa [htaken, if_neg Bool.false_ne_true, VeRes.after, State.updVe, VeCtx.next_of_running h.2.2.1] at hleaves
  · rwa [htaken, if_pos rfl] at hleaves

theorem veBal_leaves : Leaves (.veBal e ctx 0 off) s (s.setVe (e * 16 + ctx)
    { s.veCtx (e * 16 + ctx) with e := (s.veCtx (e * 16 + ctx)).e.put 15 (((s.veCtx (e * 16 + ctx)).pc + 1).setWidth 32), pc := (s.veCtx (e * 16 + ctx)).pc + off.setWidth 15 }) := by
  have hleaves := leaves_of_runVe (i := .veBal e ctx 0 off) (execVeBal e ctx 0 off) rfl h rfl rfl rfl
  rwa [VeRes.after, State.updVe_veSet, VeCtx.put, BitVec.ofNat_toNat] at hleaves

theorem veBr_leaves (a : BitVec 4) : Leaves (.veBr e ctx 0 a 0 0) s (s.setVe (e * 16 + ctx)
    { s.veCtx (e * 16 + ctx) with pc := ((s.veCtx (e * 16 + ctx)).e.get 0 a.toNat).setWidth 15 }) := by
  have hleaves := leaves_of_runVe (i := .veBr e ctx 0 a 0 0) (execVeBr e ctx 0 a 0 0) rfl h rfl rfl rfl
  rwa [VeRes.after, VeCtx.get, BitVec.ofNat_toNat] at hleaves

end

/-! Bank registers (13 R317, R318) -/

theorem ofNat_bank (x y : W32) : BitVec.ofNat 44 (x.toNat % 4096 * 2 ^ 32 + y.toNat) = (x.setWidth 12 ++ y : BitVec 44) := by
  apply BitVec.eq_of_toNat_eq
  rw [BitVec.toNat_append, BitVec.toNat_setWidth, BitVec.toNat_ofNat, ← Nat.shiftLeft_add_eq_or_of_lt y.isLt, Nat.shiftLeft_eq]
  exact Nat.mod_eq_of_lt (by have := y.isLt; omega)

section
variable {s : State} {e ctx : Nat} (h : VeReady s e ctx) {t a : BitVec 4} (b : BitVec 4)
include h

theorem mtbk_ends (hlow : 1 ≤ t.toNat) (hhigh : t.toNat ≤ 3) : VeEnds (.mtbk e ctx t a b 0) s e ctx { s.veCtx (e * 16 + ctx) with
    bk := (s.veCtx (e * 16 + ctx)).bk.put t.toNat (((s.veCtx (e * 16 + ctx)).e.get 0 a.toNat).setWidth 12 ++ (s.veCtx (e * 16 + ctx)).e.get 0 b.toNat : BitVec 44) } := by
  have hill : ((0 : BitVec 8) != 0 || t == 0 || decide (3 < t.toNat)) = false := by
    have ht : t ≠ 0 := by rintro rfl; exact absurd hlow (by decide)
    simpa using And.intro ht hhigh
  refine veEnds_of_runVe (execMtbk e ctx t a b 0) rfl h rfl hill ?_ rfl rfl
  rw [← ofNat_bank]
  rfl

theorem mtbk_illegal (ht : t = 0 ∨ 3 < t.toNat) : Leaves (.mtbk e ctx t a b 0) s (s.veTrap e ctx 1) :=
  illegal_of_runVe (execMtbk e ctx t a b 0) rfl h rfl (by simpa using ht)

theorem mfbk_ends (hlow : 1 ≤ a.toNat) (hhigh : a.toNat ≤ 3) (hi : Bool) {v : W32}
    (hv : v = if hi then (((s.veCtx (e * 16 + ctx)).bk.get 0 a.toNat).extractLsb' 32 12).setWidth 32 else ((s.veCtx (e * 16 + ctx)).bk.get 0 a.toNat).setWidth 32) :
    VeEnds (.mfbk e ctx t a 0 0 hi) s e ctx { s.veCtx (e * 16 + ctx) with e := (s.veCtx (e * 16 + ctx)).e.put t.toNat v } := by
  have hill : ((0 : BitVec 8) != 0 || (0 : BitVec 4) != 0 || a == 0 || decide (3 < a.toNat)) = false := by
    have ha : a ≠ 0 := by rintro rfl; exact absurd hlow (by decide)
    simpa using And.intro ha hhigh
  refine veEnds_of_veSet (execMfbk e ctx t a 0 0 hi) rfl h rfl hill rfl ?_
  rw [hv]
  apply BitVec.eq_of_toNat_eq
  have hlt := ((s.veCtx (e * 16 + ctx)).bk.get 0 a.toNat).isLt
  cases hi
  · simp
  · simp [Nat.shiftRight_eq_div_pow]
    omega

end

/-! WAIT (13 R315) -/

/-- The state of the exchange's event once it has ended. -/
def State.eventEnded (s : State) (exid : BitVec 24) : State :=
  match s.exOf exid with
  | some x => s.setEx { x with running := false }
  | none => s

/-- What WAIT leaves. -/
def State.waited (s : State) (e ctx : Nat) : State :=
  (((s.eventEnded (s.veCtx (e * 16 + ctx)).exid).setVe (e * 16 + ctx) { s.veCtx (e * 16 + ctx) with st := .free, prods := [] }).veIdle e).updVe (e * 16 + ctx) VeCtx.next

/-- An ended event changes its exchange alone. -/
theorem State.eventEnded_eq (s : State) (exid : BitVec 24) : ∃ exch, s.eventEnded exid = { s with chn := { s.chn with exch := exch } } ∧
    ∀ q, s.exOf exid = some q → exch.find q.key = some { q with running := false } := by
  rw [State.eventEnded]
  cases hx : s.exOf exid with
  | none => exact ⟨_, rfl, fun q hq => nomatch hq⟩
  | some x =>
    refine ⟨_, rfl, fun q hq => ?_⟩
    cases hq
    exact Tab.find_put ..

/-- The operation of WAIT. -/
def waitOp (e ctx : Nat) (s : State) (c : VeCtx) : VeRes :=
  if s.veOpen (e * 16 + ctx) then .stay s else .ok (((s.eventEnded c.exid).setVe (e * 16 + ctx) { c with st := .free, prods := [] }).veIdle e)

section
variable {s : State} {e ctx : Nat} (h : VeReady s e ctx)
include h

theorem runVe_waitOp : runVe e ctx false s (waitOp e ctx) = .next (left s (s.waited e ctx)) := by
  rw [runVe_ready s e ctx _ h, waitOp, if_neg (by simp [h.veOpen])]
  rfl

theorem wait_leaves (hmoving : s.chn.veMoving.contains e = false) : Leaves (.wait e ctx 0 0 0 0) s (s.waited e ctx) := by
  have hmoving' : (left s (s.waited e ctx)).chn.veMoving.contains e = false := by
    obtain ⟨exch, hended, -⟩ := s.eventEnded_eq (s.veCtx (e * 16 + ctx)).exid
    rw [left_chn, State.waited, hended]
    exact hmoving
  have hwait : exec (.wait e ctx 0 0 0 0) s = settled s (if decide (68 ≤ e) || decide (16 ≤ ctx) then .fault .noSuchUnit else
      match runVe e ctx false s (waitOp e ctx) with
      | .next u => .next (u.veMoveDue e)
      | r => r) := rfl
  rw [Leaves, hwait, if_neg (context_exists h.1 h.2.1), runVe_waitOp h]
  simp only [State.veMoveDue, hmoving', Bool.false_and, Bool.false_eq_true, if_false]
  exact settled_settled s _

end

theorem State.fld_setFld_same (s : State) (f : Fld) (v i j : Nat) (h : f.lo ≤ f.hi) (hi : f.hi < 64) : (s.setFld f v i j).fld f i j = v % 2 ^ (f.hi + 1 - f.lo) := by
  rw [State.fld, State.setFld, State.reg_setReg, fieldOf_putField_same _ _ _ _ h hi]

theorem State.busy_veIdle (s : State) (e : Nat) : (s.veIdle e).fld F.VEN_ENG_BUSY e = s.fld F.VEN_ENG_BUSY e - 1 := by
  rw [State.veIdle, State.fld_setFld_same _ _ _ _ _ (by decide) (by decide)]
  exact Nat.mod_eq_of_lt (Nat.lt_of_le_of_lt (Nat.sub_le ..) (fieldOf_lt ..))

theorem left_veCtx (s t : State) (k : Nat) : (left s t).veCtx k = t.veCtx k := by rw [State.veCtx, left_chn]; rfl

/-- After WAIT the context is free, and its exchange runs no event. -/
theorem State.waited_leaves {s : State} {e ctx : Nat} (he : e < 68) :
    let u := left s (s.waited e ctx)
    (u.veCtx (e * 16 + ctx)).st = .free ∧ u.fld F.VEN_ENG_BUSY e = s.fld F.VEN_ENG_BUSY e - 1 ∧ u.mem = s.mem ∧ u.cores = s.cores ∧ u.fab = s.fab ∧
      (∀ q, s.exOf (s.veCtx (e * 16 + ctx)).exid = some q → u.chn.exch.find q.key = some { q with running := false }) ∧ ∀ n, n ≠ e * 16 + ctx → u.veCtx n = s.veCtx n := by
  obtain ⟨exch, hended, hexch⟩ := s.eventEnded_eq (s.veCtx (e * 16 + ctx)).exid
  have hother : F.VEN_ENG_BUSY.off e 0 ≠ F.FLT_ERRPIN_PIN.base := by
    show 0xB00100 + e * 0x8 + 0 * 0x0 ≠ 0x300010
    omega
  rw [State.waited, hended]
  refine ⟨?st, ?busy, by rw [left_mem]; rfl, by rw [left_cores]; rfl, by rw [left_fab]; rfl, fun q hq => by rw [left_chn]; exact hexch q hq, fun n hn => ?other⟩
  case st =>
    rw [left_veCtx, State.updVe, State.veCtx_setVe, State.veIdle, State.setFld_veCtx, State.veCtx_setVe]
    rfl
  case busy =>
    rw [State.fld, left_reg _ _ _ hother]
    exact State.busy_veIdle _ e
  case other =>
    rw [left_veCtx, State.updVe, State.veCtx_setVe_ne _ _ _ _ hn, State.veIdle, State.setFld_veCtx, State.veCtx_setVe_ne _ _ _ _ hn]
    rfl

/-! Words of instruction RAM -/

section
variable {s : State} {e ctx : Nat} {w : W32} (hw : s.chn.iram.get 0 (s.veCtx (e * 16 + ctx)).pc.toNat = w)
include hw

theorem veStep_of_word {m : VeIns} (hm : veWord e ctx w = some m) : s.veStep e ctx = m s := by rw [State.veStep, hw, veDecode, hm, Option.getD_some]

/-- A word that names no instruction is illegal. -/
theorem veStep_illegal (h : VeReady s e ctx) (hm : veWord e ctx w = none) : s.veStep e ctx = .next (left s (s.veTrap e ctx 1)) := by
  rw [State.veStep, hw, veDecode, hm, Option.getD_none]
  exact illegal_of_runVe (i := .veNop e ctx 1 0 0 0) (execVeNop e ctx 1 0 0 0) rfl h rfl rfl

end

section
variable (e ctx : Nat) {w : W32} {op : BitVec 6} (hop : w.extractLsb' 26 6 = op)
include hop

/-- A word of format I. -/
theorem veWord_of_veI {k : FormI} (hk : veI op.toNat = some k) :
    veWord e ctx w = some (k e ctx (w.extractLsb' 22 4) (w.extractLsb' 18 4) (w.extractLsb' 16 2) (w.extractLsb' 0 16)) := by simp only [veWord, hop, hk]

/-- A word of format M. -/
theorem veWord_of_veM {k : FormM} (hI : veI op.toNat = none) (hk : veM op.toNat = some k) :
    veWord e ctx w = some (k e ctx (w.extractLsb' 22 4) (w.extractLsb' 20 2) (w.extractLsb' 0 20)) := by simp only [veWord, hop, hI, hk]

/-- A word of format MX. -/
theorem veWord_of_veX {k : FormX} (hI : veI op.toNat = none) (hM : veM op.toNat = none) (hk : veX op.toNat = some k) :
    veWord e ctx w = some (k e ctx (w.extractLsb' 22 4) (w.extractLsb' 18 4) (w.extractLsb' 16 2) (w.extractLsb' 0 16)) := by simp only [veWord, hop, hI, hM, hk]

/-- A word of format R or C. -/
theorem veWord_of_veFns {fn : BitVec 6} (hfn : w.extractLsb' 0 6 = fn) (hmajor : op ∈ [0x00, 0x26, 0x38, 0x39, 0x3A, 0x3B]) {k : FormR}
    (hk : nth (veFns op.toNat) fn.toNat = some k) :
    veWord e ctx w = some (k e ctx (w.extractLsb' 22 4) (w.extractLsb' 18 4) (w.extractLsb' 14 4) (w.extractLsb' 6 8)) := by
  subst hfn
  simp only [List.mem_cons, List.not_mem_nil, or_false] at hmajor
  rcases hmajor with rfl | rfl | rfl | rfl | rfl | rfl
  all_goals
    simp only [veWord, hop]
    exact congrArg (Option.map _) hk

end

theorem veWord_ldm (e ctx : Nat) {w : W32} (hop : w.extractLsb' 26 6 = 0x1C) : veWord e ctx w =
    some (execLdm e ctx (w.extractLsb' 22 4) (w.extractLsb' 18 4) (w.extractLsb' 16 2) (w.extractLsb' 13 3) (w.extractLsb' 0 13)) := by
  simp only [veWord, hop]
  rfl

theorem veWord_b (e ctx : Nat) {w : W32} (hop : w.extractLsb' 26 6 = 0x20) : veWord e ctx w = some (execVeB e ctx (w.extractLsb' 22 4) (w.extractLsb' 0 22)) := by
  simp only [veWord, hop]
  rfl

theorem veWord_undefined (e ctx : Nat) {w : W32} (h : w.extractLsb' 26 6 = 0x3F ∨ w = 0 ∨ (w.extractLsb' 26 6 = 0x39 ∧ w.extractLsb' 0 6 = 4)) : veWord e ctx w = none := by
  rcases h with hop | hzero | ⟨hop, hfn⟩
  · simp only [veWord, hop]
    cases hfn : (w.extractLsb' 0 6).toNat <;> rfl
  · rw [hzero]; rfl
  · simp only [veWord, hop, hfn]; rfl

/-- Settles O38: each instruction ends by its own lemma, and a word runs by the lemma of its format. -/
theorem engineControl : Obligations.EngineControl := by
  intro s e ctx t a b cond off w h k c x y nn zz cc vv taken
  refine ⟨fun hcond => veB_leaves h off hcond (veCond_eq hcond _), fun hcond => illegal_of_runVe (execVeB e ctx cond off) rfl h rfl (decide_eq_true hcond), veBal_leaves h off,
    fun hcond => illegal_of_runVe (execVeBal e ctx cond off) rfl h rfl (by simpa using hcond), veBr_leaves h a, mtbk_ends h b, mtbk_illegal h b,
    fun hlow hhigh => ⟨mfbk_ends h hlow hhigh false rfl, mfbk_ends h hlow hhigh true rfl⟩, veEnds_unchanged (execVeNop e ctx 0 0 0 0) rfl h rfl rfl rfl,
    veEnds_unchanged (execVeFence e ctx 0 0 0 0) rfl h rfl rfl (if_neg (by simp [h.veOpen])), fun hw => ?words, fun hmoving => ?wait⟩
  case words =>
    intro op fn wt wa wb wk rsv runs
    exact ⟨fun hop hfn => veStep_of_word hw (veWord_of_veFns e ctx hop hfn (by decide) rfl), fun hop hfn => veStep_of_word hw (veWord_of_veFns e ctx hop hfn (by decide) rfl),
      fun hop hfn => veStep_of_word hw (veWord_of_veFns e ctx hop hfn (by decide) rfl), fun hop => veStep_of_word hw (veWord_of_veI e ctx hop rfl),
      fun hop => veStep_of_word hw (veWord_of_veM e ctx hop rfl rfl), fun hop => veStep_of_word hw (veWord_of_veM e ctx hop rfl rfl),
      fun hop => veStep_of_word hw (veWord_of_veX e ctx hop rfl rfl rfl), fun hop => veStep_of_word hw (veWord_ldm e ctx hop),
      fun hop => veStep_of_word hw (veWord_b e ctx hop), fun hop => veStep_of_word hw (veWord_of_veI e ctx hop rfl),
      fun hop hfn => veStep_of_word hw (veWord_of_veFns e ctx hop hfn (by decide) rfl), fun hop hfn => veStep_of_word hw (veWord_of_veFns e ctx hop hfn (by decide) rfl),
      fun hop hfn => veStep_of_word hw (veWord_of_veFns e ctx hop hfn (by decide) rfl), fun hundef => veStep_illegal hw h (veWord_undefined e ctx hundef)⟩
  case wait => exact ⟨_, wait_leaves h hmoving, State.waited_leaves h.1⟩

end Sys2Proof.Machine
end

section
/-! PROOFS. Loads and stores of a Velex engine (13 R317 to R319, R326, Tables VEN-3 and VEN-5). -/

namespace Sys2Proof.Machine

/-! Bytes and addresses -/

theorem packBytes_toBytes (n v : Nat) : packBytes (toBytes n v) = v % 256 ^ n := by
  induction n generalizing v with
  | zero => rw [Nat.pow_zero, Nat.mod_one]; rfl
  | succ n ih =>
    have hsplit : toBytes (n + 1) v = toBytes n (v / 256) ++ [BitVec.ofNat 8 v] := by
      rw [toBytes, List.range_succ, List.map_append, toBytes]
      congr 1
      · refine List.map_congr_left fun i hi => ?_
        have hlt := List.mem_range.mp hi
        rw [Nat.div_div_eq_div_mul, ← Nat.pow_succ', show n + 1 - 1 - i = n - 1 - i + 1 by omega]
      · simp
    have hmod : v % 256 ^ (n + 1) = v % 256 + 256 * (v / 256 % 256 ^ n) := by rw [Nat.pow_succ', Nat.mod_mul]
    rw [hsplit, packBytes_snoc, ih, BitVec.toNat_ofNat, hmod, Nat.mul_comm, Nat.add_comm]

theorem ofNat_packBytes_toBytes (v : Nat) : BitVec.ofNat 32 (packBytes (toBytes 4 v)) = BitVec.ofNat 32 v := by
  apply BitVec.eq_of_toNat_eq
  rw [packBytes_toBytes, BitVec.toNat_ofNat, BitVec.toNat_ofNat]
  exact Nat.mod_mod ..

/-- A load that extends the sign of its `w` bits. -/
theorem ofNat_veSx {n w : Nat} (hw : 8 * n = w) (hle : w ≤ 32) (v : Nat) : BitVec.ofNat 32 (veSx n v) = ((BitVec.ofNat 32 v).setWidth w).signExtend 32 := by
  subst hw
  rw [veSx, ofNat_toNat_self, BitVec.setWidth_ofNat_of_le hle]

/-- The sum of an address register and a displacement, modulo 2^20. -/
theorem toNat_emod_ofInt (x : W32) {d : Int} {y : BitVec 20} (hd : BitVec.ofInt 20 d = y) : (((x.toNat : Int) + d).emod (2 ^ 20)).toNat = (x.setWidth 20 + y).toNat := by
  rw [← hd, ← BitVec.ofNat_toNat, ← BitVec.ofInt_natCast, ← BitVec.ofInt_add, BitVec.toNat_ofInt]
  rfl

theorem mxAddr_eq (a : BitVec 4) (disp : BitVec 16) (c : VeCtx) : mxAddr a disp c = ((c.e.get 0 a.toNat).setWidth 20 + disp.signExtend 20).toNat := toNat_emod_ofInt _ rfl

theorem mmAddr_eq (a : BitVec 4) (disp : BitVec 13) (c : VeCtx) : mmAddr a disp c = ((c.e.get 0 a.toNat).setWidth 20 + 4 * disp.signExtend 20).toNat :=
  toNat_emod_ofInt _ (BitVec.ofInt_mul ..)

/-! Accesses to local space (13 Table VEN-3) -/

section
variable {s : State} {e ctx : Nat} {c : VeCtx} {sa n w : Nat}

theorem State.veRead_unaligned (bk : Nat) (halign : sa % w ≠ 0) : s.veRead e ctx c bk sa n w = .trap 2 := if_pos halign

theorem State.veWrite_unaligned (bk : Nat) (bs : List Byte) (halign : sa % w ≠ 0) : s.veWrite e ctx c bk sa w bs = .trap 2 := if_pos halign

theorem State.veRead_sram (halign : sa % w = 0) (hfit : sa + n ≤ 65536) : s.veRead e ctx c 0 sa n w = .ok s (s.sramRead e sa n) := by
  rw [State.veRead, if_neg (not_not_intro halign), if_pos rfl, if_pos hfit]

theorem State.veWrite_sram {bs : List Byte} (halign : sa % w = 0) (hfit : sa + bs.length ≤ 65536) : s.veWrite e ctx c 0 sa w bs = .ok (s.sramWrite e sa bs) () := by
  rw [State.veWrite, if_neg (not_not_intro halign), if_pos rfl, if_pos hfit]

theorem State.veRead_outside (halign : sa % w = 0) (hfar : 65536 < sa + n) (hw : w ≠ 4) : s.veRead e ctx c 0 sa n w = .trap 3 := by
  rw [State.veRead, if_neg (not_not_intro halign), if_pos rfl, if_neg (by omega), if_pos hw]

theorem State.veWrite_outside {bs : List Byte} (halign : sa % w = 0) (hfar : 65536 < sa + bs.length) (hw : w ≠ 4) : s.veWrite e ctx c 0 sa w bs = .trap 3 := by
  rw [State.veWrite, if_neg (not_not_intro halign), if_pos rfl, if_neg (by omega), if_pos hw]

/-- A read-only word of local space. -/
theorem State.veRead_localWord {v : Nat} (halign : sa % 4 = 0) (hsram : 65536 ≤ sa) (hsa : sa < 2 ^ 20) (hv : s.veLocalWord e ctx c sa = some v) :
    s.veRead e ctx c 0 sa 4 4 = .ok s (toBytes 4 v) := by
  rw [State.veRead, if_neg (not_not_intro halign), if_pos rfl, if_neg (by omega), if_neg (not_not_intro rfl)]
  have haddr : (sa + 4 * 0) % 2 ^ 20 = sa := Nat.mod_eq_of_lt hsa
  simp only [Nat.div_self, List.range_one, List.foldl_cons, List.foldl_nil, VeAcc.bind, haddr, hv, if_neg (show ¬ sa < 65536 by omega), List.nil_append, Nat.zero_lt_succ]

end

/-! Loads and stores -/

section
variable {i : Instr} {s : State} {e ctx : Nat} {t a : BitVec 4} {bk : BitVec 2} (m : State → Out) (hi : exec i s = m s) (h : VeReady s e ctx)
include hi h

section
variable {n : Nat} {sx : Bool} {sa : VeCtx → Nat} (hm : m s = veLoad e ctx t bk n sx sa s)
include hm

theorem veLoad_ends {l : List Byte} (hread : s.veRead e ctx (s.veCtx (e * 16 + ctx)) bk.toNat (sa (s.veCtx (e * 16 + ctx))) n n = .ok s l) {v : W32}
    (hv : BitVec.ofNat 32 (if sx then veSx n (packBytes l) else packBytes l) = v) :
    VeEnds i s e ctx { s.veCtx (e * 16 + ctx) with e := (s.veCtx (e * 16 + ctx)).e.put t.toNat v } :=
  veEnds_of_veSet m hi h hm rfl (by simp only [hread, VeAcc.run]) hv

theorem veLoad_traps {cause : Byte} (hread : s.veRead e ctx (s.veCtx (e * 16 + ctx)) bk.toNat (sa (s.veCtx (e * 16 + ctx))) n n = .trap cause) :
    Leaves i s (s.veTrap e ctx cause) :=
  leaves_of_trap m hi h hm rfl (by simp only [hread, VeAcc.run])

end

/-- How a store ends: it waits while a full queue stalls its context. -/
def storeEnd (e ctx : Nat) (r : VeAcc Unit) : VeRes := r.run fun u _ => if (u.veCtx (e * 16 + ctx)).st == .waitPds then .stay u else .ok u

section
variable {ill : Bool} {body : State → VeCtx → VeRes} (hm : m s = runVe e ctx ill s body) (hill : ill = false) {r : VeAcc Unit}
  (hbody : body s (s.veCtx (e * 16 + ctx)) = storeEnd e ctx r)
include hm hill hbody

theorem leaves_of_store {u : State} (hst : (u.veCtx (e * 16 + ctx)).st = .running) (hr : r = .ok u ()) :
    Leaves i s (u.updVe (e * 16 + ctx) (fun q => { q with pc := q.pc + 1 })) := by
  subst hr
  have hleaves := leaves_of_ok m hi h hm hill (hbody.trans (if_neg (by simp [hst])))
  rwa [State.updVe, VeCtx.next_of_running hst] at hleaves

theorem traps_of_store {cause : Byte} (hr : r = .trap cause) : Leaves i s (s.veTrap e ctx cause) := by
  subst hr
  exact leaves_of_trap m hi h hm hill hbody

end

section
variable {n : Nat} {sa : VeCtx → Nat} (hm : m s = veStore e ctx t bk n sa s)
include hm

theorem veStore_leaves {u : State} (hst : (u.veCtx (e * 16 + ctx)).st = .running)
    (hwrite : s.veWrite e ctx (s.veCtx (e * 16 + ctx)) bk.toNat (sa (s.veCtx (e * 16 + ctx))) n (toBytes n ((s.veCtx (e * 16 + ctx)).get t.toNat)) = .ok u ()) :
    Leaves i s (u.updVe (e * 16 + ctx) (fun q => { q with pc := q.pc + 1 })) :=
  leaves_of_store m hi h hm rfl rfl hst hwrite

theorem veStore_traps {cause : Byte}
    (hwrite : s.veWrite e ctx (s.veCtx (e * 16 + ctx)) bk.toNat (sa (s.veCtx (e * 16 + ctx))) n (toBytes n ((s.veCtx (e * 16 + ctx)).get t.toNat)) = .trap cause) :
    Leaves i s (s.veTrap e ctx cause) :=
  traps_of_store m hi h hm rfl rfl hwrite

end

end

/-! Several registers at once -/

theorem State.updVe_foldl (k : Nat) (f : VeCtx → VeCtx) (g : Nat → VeCtx → VeCtx) (l : List Nat) (s : State) :
    (l.foldl (fun s i => s.updVe k (g i)) s).updVe k f = s.updVe k (fun c => f (l.foldl (fun c i => g i c) c)) := by
  induction l generalizing s with
  | nil => rfl
  | cons i l ih => rw [List.foldl_cons, ih]; exact State.updVe_setVe ..

theorem VeCtx.foldl_put (p : Nat → Nat) (r : Nat → Nat) (l : List Nat) (c : VeCtx) :
    l.foldl (fun c i => c.put (r i) (p i)) c = { c with e := l.foldl (fun z i => z.put (r i) (BitVec.ofNat 32 (p i))) c.e } := by
  induction l generalizing c with
  | nil => rfl
  | cons i l ih => rw [List.foldl_cons, ih]; rfl

theorem ldm_ends {s : State} {e ctx : Nat} (h : VeReady s e ctx) {t a : BitVec 4} {bk : BitVec 2} {n : BitVec 3} {d13 : BitVec 13} (hn : t.toNat + n.toNat ≤ 15) {l : List Byte}
    (hread : s.veRead e ctx (s.veCtx (e * 16 + ctx)) bk.toNat (mmAddr a d13 (s.veCtx (e * 16 + ctx))) (4 * (n.toNat + 1)) 4 = .ok s l) :
    VeEnds (.ldm e ctx t a bk n d13) s e ctx { s.veCtx (e * 16 + ctx) with
      e := (List.range (n.toNat + 1)).foldl (fun z i => z.put (t.toNat + i) (BitVec.ofNat 32 (packBytes ((l.drop (4 * i)).take 4)))) (s.veCtx (e * 16 + ctx)).e } := by
  have hleaves := leaves_of_runVe (i := .ldm e ctx t a bk n d13) (execLdm e ctx t a bk n d13) rfl h rfl (decide_eq_false (by omega)) rfl
  simp only [hread, VeAcc.run, VeRes.after, State.updVe_foldl, VeCtx.foldl_put] at hleaves
  rw [State.updVe, VeCtx.next_of_running] at hleaves
  exacts [hleaves, h.2.2.1]

theorem lxch_ends {s : State} {e ctx : Nat} (h : VeReady s e ctx) {t a : BitVec 4} {disp : BitVec 16} {ea : Nat} (hea : mxAddr a disp (s.veCtx (e * 16 + ctx)) = ea) (halign : ea % 4 = 0)
    (hsram : ea < 65536) :
    Leaves (.lxch e ctx t a 0 disp) s ((s.sramWrite e ea (toBytes 4 ((s.veCtx (e * 16 + ctx)).get t.toNat))).setVe (e * 16 + ctx) { s.veCtx (e * 16 + ctx) with
      e := (s.veCtx (e * 16 + ctx)).e.put t.toNat (BitVec.ofNat 32 (packBytes (s.sramRead e ea 4)))
      pc := (s.veCtx (e * 16 + ctx)).pc + 1 }) := by
  have hleaves := leaves_of_runVe (i := .lxch e ctx t a 0 disp) (execLxch e ctx t a 0 disp) rfl h rfl rfl rfl
  rw [hea] at hleaves
  simp only [halign, ne_eq, not_true_eq_false, if_false, if_neg (Nat.not_le.mpr hsram)] at hleaves
  rw [VeRes.after, State.updVe_veSet, VeCtx.next_of_running] at hleaves
  exacts [hleaves, h.2.2.1]

/-- A read-only word of the context, loaded (13 Table VEN-3). -/
theorem veLw_localWord {s : State} {e ctx : Nat} (h : VeReady s e ctx) {t : BitVec 4} {sa : BitVec 20} (halign : sa.toNat % 4 = 0) (hsram : 65536 ≤ sa.toNat) {n : Nat} {v : W32}
    (hword : s.veLocalWord e ctx (s.veCtx (e * 16 + ctx)) sa.toNat = some n) (hn : BitVec.ofNat 32 n = v) :
    VeEnds (.veLw e ctx t 0 sa) s e ctx { s.veCtx (e * 16 + ctx) with e := (s.veCtx (e * 16 + ctx)).e.put t.toNat v } :=
  veLoad_ends (execVeLw e ctx t 0 sa) rfl h rfl (State.veRead_localWord halign hsram sa.isLt hword) ((ofNat_packBytes_toBytes n).trans hn)

/-- Settles O39: loads and stores end by what their access yields; in local space the access is one of the lemmas on Table VEN-3. -/
theorem engineAccesses : Obligations.EngineAccesses := by
  intro s u e ctx t a bk sa disp d13 n l h k c ea em put v next x
  have hea : mxAddr a disp c = ea := mxAddr_eq a disp c
  have hem : mmAddr a d13 c = em := mmAddr_eq a d13 c
  refine ⟨fun hread => veLoad_ends (execVeLw e ctx t bk sa) rfl h rfl hread rfl,
    fun hread => ⟨veLoad_ends (execVeLh e ctx t bk sa) rfl h rfl hread rfl, veLoad_ends (execVeLhs e ctx t bk sa) rfl h rfl hread (ofNat_veSx rfl (by omega) _)⟩,
    fun hread => ⟨veLoad_ends (execVeLb e ctx t bk sa) rfl h rfl hread rfl, veLoad_ends (execVeLbs e ctx t bk sa) rfl h rfl hread (ofNat_veSx rfl (by omega) _)⟩,
    fun hread => veLoad_ends (execVeLwx e ctx t a bk disp) rfl h rfl (hea ▸ hread) rfl, fun hread => veLoad_ends (execVeLbx e ctx t a bk disp) rfl h rfl (hea ▸ hread) rfl,
    fun hn hread => ldm_ends h hn (hem ▸ hread), fun hst => ?stores, fun hn => ?beyond, fun halign hsram => lxch_ends h hea halign hsram,
    fun hbk => illegal_of_runVe (execLxch e ctx t a bk disp) rfl h rfl (by simpa using hbk), fun w hw halign hsram => ?sram, fun halign => ?unaligned, fun hfar => ?outside,
    veLw_localWord h rfl (by decide) rfl (BitVec.ofNat_toNat ..), veLw_localWord h rfl (by decide) rfl (BitVec.ofNat_toNat ..), veLw_localWord h rfl (by decide) rfl ?number,
    veLw_localWord h rfl (by decide) rfl (BitVec.ofNat_toNat ..), veLw_localWord h rfl (by decide) rfl ?time⟩
  case stores =>
    exact ⟨veStore_leaves (execVeSw e ctx t bk sa) rfl h rfl hst, veStore_leaves (execVeSh e ctx t bk sa) rfl h rfl hst, veStore_leaves (execVeSb e ctx t bk sa) rfl h rfl hst,
      fun hwrite => veStore_leaves (execVeSwx e ctx t a bk disp) rfl h rfl hst (hea ▸ hwrite), fun hwrite => veStore_leaves (execVeSbx e ctx t a bk disp) rfl h rfl hst (hea ▸ hwrite),
      fun hn hwrite => leaves_of_store (execStm e ctx t a bk n d13) rfl h rfl (decide_eq_false (by omega)) rfl hst (hem ▸ hwrite)⟩
  case beyond =>
    exact ⟨illegal_of_runVe (execLdm e ctx t a bk n d13) rfl h rfl (decide_eq_true hn), illegal_of_runVe (execStm e ctx t a bk n d13) rfl h rfl (decide_eq_true hn)⟩
  case sram =>
    have hfit : sa.toNat + w ≤ 65536 := by rcases hw with rfl | rfl | rfl <;> omega
    exact ⟨State.veRead_sram halign hfit, State.veWrite_sram halign (by rwa [toBytes_length])⟩
  case unaligned =>
    exact ⟨veLoad_traps (execVeLw e ctx t bk sa) rfl h rfl (State.veRead_unaligned _ halign), veStore_traps (execVeSw e ctx t bk sa) rfl h rfl (State.veWrite_unaligned _ _ halign)⟩
  case outside =>
    exact ⟨veLoad_traps (execVeLb e ctx t 0 sa) rfl h rfl (State.veRead_outside (Nat.mod_one _) (by omega) (by decide)),
      veStore_traps (execVeSb e ctx t 0 sa) rfl h rfl (State.veWrite_outside (Nat.mod_one _) (by rw [toBytes_length]; omega) (by decide))⟩
  case number => rw [Nat.mul_comm]
  case time =>
    apply BitVec.eq_of_toNat_eq
    rw [BitVec.extractLsb'_toNat, Nat.shiftRight_eq_div_pow, BitVec.toNat_ofNat]
    exact Nat.mod_mod ..

end Sys2Proof.Machine
end

section
/-! PROOFS. The data SRAM of the engines (13 R317): a store reads back while the table of its bytes is canonical. -/

namespace Sys2Proof.Machine

/-- Writing the SRAM is writing bytes of a memory. -/
theorem foldl_set_eq_putBytes (m : Mem) (a n : Nat) (bs : List Byte) (t : Tab Byte) :
    (bs.zipIdx n).foldl (fun t p => t.set 0 (a + p.2) p.1) t = (({ m with bytes := t } : Mem).putBytes (a + n) bs).bytes := by
  induction bs generalizing n t with
  | nil => rfl
  | cons b bs ih => rw [List.zipIdx_cons, List.foldl_cons, ih]; rfl

/-- Bytes of a canonical table after a store at `a`. -/
theorem get_foldl_set {t : Tab Byte} (ht : t.wf 0 = true) (m : Mem) (a : Nat) (bs : List Byte) (k : Nat) :
    Tab.get 0 (bs.zipIdx.foldl (fun t p => t.set 0 (a + p.2) p.1) t) k = if a ≤ k ∧ k < a + bs.length then bs.getD (k - a) 0 else t.get 0 k := by
  rw [foldl_set_eq_putBytes m]
  exact Mem.byte_putBytes { m with bytes := t } a k bs ht

section
variable {s : State} (hsram : s.chn.sram.wf 0 = true) (e sa : Nat) (bs : List Byte)
include hsram

/-- A byte of canonical SRAM after a store. -/
theorem State.sram_sramWrite (k : Nat) : (s.sramWrite e sa bs).chn.sram.get 0 k =
    if e * 65536 + sa ≤ k ∧ k < e * 65536 + sa + bs.length then bs.getD (k - (e * 65536 + sa)) 0 else s.chn.sram.get 0 k :=
  get_foldl_set hsram s.mem (e * 65536 + sa) bs k

theorem State.sramRead_sramWrite : (s.sramWrite e sa bs).sramRead e sa bs.length = bs := by
  refine List.ext_getElem (by simp [State.sramRead]) fun i hi hi' => ?_
  simp only [State.sramRead, List.getElem_map, List.getElem_range, State.sram_sramWrite hsram]
  rw [if_pos (by omega), Nat.add_sub_cancel_left, List.getD_eq_getElem _ _ hi']

theorem State.sramRead_sramWrite_apart (hfit : sa + bs.length ≤ 65536) {f i n : Nat} (hapart : f ≠ e ∨ i + n ≤ sa ∨ sa + bs.length ≤ i) (hfit' : i + n ≤ 65536) :
    (s.sramWrite e sa bs).sramRead f i n = s.sramRead f i n := by
  refine List.map_congr_left fun j hj => ?_
  have hlt := List.mem_range.mp hj
  rw [State.sram_sramWrite hsram, if_neg (by omega)]

end

/-- SRAM whose table lists byte 0 twice, which no store makes. -/
def sramTwice : State := { State.reset with chn := { State.reset.chn with sram := [(0, 1), (0, 1)] } }

/-- Refutes O40: its states need not hold a canonical SRAM. A store of zero takes one entry of `sramTwice` out of the table, and the read meets the other. Where the table is
canonical, the clauses are `State.sramRead_sramWrite` and `State.sramRead_sramWrite_apart`. -/
theorem not_sramReadsBack : ¬ Obligations.SramReadsBack := by
  intro h
  obtain ⟨hread, -⟩ := h sramTwice 0 0 [0] (by decide)
  exact absurd hread (by decide)

end Sys2Proof.Machine
end

section
/-! PROOFS. The coprocessor functions of a Velex engine (13 R323 to R325, 12 R295, 16 R365). -/

namespace Sys2Proof.Machine

/-! A context in the state that its instruction asks for -/

section
variable {okSt : VeSt → Bool} {s : State} {e ctx : Nat} (he : e < 68) (hctx : ctx < 16) (ill : Bool) (body : State → VeCtx → VeRes)
include he hctx

/-- A context that does not run leaves the state as it is. -/
theorem runVeIn_idle (hst : okSt (s.veCtx (e * 16 + ctx)).st = false) : runVeIn okSt e ctx ill s body = .next (left s s) := by
  simp only [runVeIn, if_neg (context_exists he hctx), hst, Bool.not_false, Bool.true_or, if_true, settled_next]

theorem runVeIn_settled (hst : okSt (s.veCtx (e * 16 + ctx)).st = true) (hfence : s.flag F.FLT_FENCE_CXF = false)
    (hreqs : ∀ p ∈ s.mem.reqs, veKey (e * 16 + ctx) p.1 = true → p.2.req.kind ≠ .wrpl) :
    runVeIn okSt e ctx false s body = .next (left s ((body s (s.veCtx (e * 16 + ctx))).after s e ctx)) := by
  obtain ⟨hsettle, hopen⟩ := State.veSettle_ready s _ hreqs
  simp only [runVeIn, if_neg (context_exists he hctx), hst, hfence, hsettle, hopen, Bool.not_true, Bool.or_false, Bool.false_eq_true, if_false, settled_next]
  cases body s (s.veCtx (e * 16 + ctx)) <;> rfl

end

/-! The SRAM range of a checksum (13 R324) -/

section
variable {c : VeCtx} {a b : BitVec 4}

theorem veRange_long (hlen : 4096 < c.get b.toNat) (even : Bool) : veRange c a b even = some 1 := if_pos (by simp [hlen])

theorem veRange_outside (hlen : c.get b.toNat ≤ 4096) (hfar : 65536 < c.get a.toNat % 2 ^ 20 + c.get b.toNat) : veRange c a b false = some 3 := by
  rw [veRange, if_neg (by simp [hlen]), if_pos hfar]

theorem veRange_inside (hlen : c.get b.toNat ≤ 4096) (hfit : c.get a.toNat % 2 ^ 20 + c.get b.toNat ≤ 65536) {even : Bool} (heven : even = true → c.get b.toNat % 2 = 0) :
    veRange c a b even = none := by
  have hodd : (even && c.get b.toNat % 2 == 1) = false := by
    cases even with
    | false => rfl
    | true => simp [heven rfl]
  rw [veRange, if_neg (by simp [hodd, hlen]), if_neg (Nat.not_lt.mpr hfit)]

end

/-! Handles (13 R323) -/

section
variable {s : State} {c : VeCtx} {n : Nat} {hd : Handle} (hfind : s.chn.handles.find n = some hd)
include hfind

theorem State.ownHandle_own (hexid : hd.exid = c.exid) : s.ownHandle c n hd.kind = some hd := by simp [State.ownHandle, hfind, hexid]

theorem State.ownHandle_otherKind {kind : Nat} (hkind : hd.kind ≠ kind) : s.ownHandle c n kind = none := by simp [State.ownHandle, hfind, hkind]

end

theorem State.ownHandle_absent {s : State} {c : VeCtx} {n : Nat} (hfind : s.chn.handles.find n = none) (kind : Nat) : s.ownHandle c n kind = none := by simp only [State.ownHandle, hfind]

section
variable {s u : State} {e ctx v : Nat} (h : VeReady s e ctx) {t a b : BitVec 4} {x : Exch}
include h

theorem zopen_leaves {z : Nat} (hx : s.exOf (s.veCtx (e * 16 + ctx)).exid = some x) (hz : s.portEngine x.vp = some z) (hroom : s.fld F.ZIP_ENG_STREAMS z < 64)
    (hnew : (s.setFld F.ZIP_ENG_STREAMS (s.fld F.ZIP_ENG_STREAMS z + 1) z).newHandle
      { exid := (s.veCtx (e * 16 + ctx)).exid, kind := 0, state := 0, zlib := (s.veCtx (e * 16 + ctx)).get a.toNat / 2 % 2 == 1, slot := z, mode := (s.veCtx (e * 16 + ctx)).get a.toNat % 2 } = (u, v)) :
    Leaves (.zopen e ctx t a 0 0) s ((u.veSet (e * 16 + ctx) t v).updVe (e * 16 + ctx) VeCtx.next) :=
  leaves_of_ok (execZopen e ctx t a 0 0) rfl h rfl rfl (by simp only [hx, hz, if_neg (Nat.not_le.mpr hroom), hnew])

/-- A handle of its own kind whose state is read. -/
theorem veStat_ends {i : Instr} (m : State → Out) (hi : exec i s = m s) {hd : Handle} (hm : m s = veStat hd.kind e ctx t a 0 0 s)
    (hfind : s.chn.handles.find ((s.veCtx (e * 16 + ctx)).get a.toNat) = some hd) (hexid : hd.exid = (s.veCtx (e * 16 + ctx)).exid) :
    VeEnds i s e ctx { s.veCtx (e * 16 + ctx) with e := (s.veCtx (e * 16 + ctx)).e.put t.toNat (BitVec.ofNat 32 hd.state) } :=
  veEnds_of_veSet m hi h hm rfl (by simp only [State.ownHandle_own hfind hexid]) rfl

theorem veStat_traps {i : Instr} (m : State → Out) (hi : exec i s = m s) {kind : Nat} (hm : m s = veStat kind e ctx t a 0 0 s)
    (hnone : s.ownHandle (s.veCtx (e * 16 + ctx)) ((s.veCtx (e * 16 + ctx)).get a.toNat) kind = none) : Leaves i s (s.veTrap e ctx 1) :=
  leaves_of_trap m hi h hm rfl (by simp only [hnone])

theorem veClose_leaves {i : Instr} (m : State → Out) (hi : exec i s = m s) {hd : Handle} (hm : m s = veClose hd.kind e ctx 0 a 0 0 s)
    (hfind : s.chn.handles.find ((s.veCtx (e * 16 + ctx)).get a.toNat) = some hd) (hexid : hd.exid = (s.veCtx (e * 16 + ctx)).exid)
    (hu : u = { s with chn := { s.chn with handles := s.chn.handles.del ((s.veCtx (e * 16 + ctx)).get a.toNat) } }) {w : State}
    (hw : w = if hd.kind = 0 && decide (hd.slot < 22) then u.setFld F.ZIP_ENG_STREAMS (u.fld F.ZIP_ENG_STREAMS hd.slot - 1) hd.slot else u) :
    Leaves i s (w.updVe (e * 16 + ctx) VeCtx.next) := by
  subst hu hw
  exact leaves_of_ok m hi h hm rfl (by simp only [State.ownHandle_own hfind hexid])

theorem veClose_traps {i : Instr} (m : State → Out) (hi : exec i s = m s) {kind : Nat} (hm : m s = veClose kind e ctx 0 a 0 0 s)
    (hnone : s.ownHandle (s.veCtx (e * 16 + ctx)) ((s.veCtx (e * 16 + ctx)).get a.toNat) kind = none) : Leaves i s (s.veTrap e ctx 1) :=
  leaves_of_trap m hi h hm rfl (by simp only [hnone])

/-! KOPEN (16 R365) -/

theorem kopen_leaves {q : KSlot} (hq : s.chn.keys.get KSlot.reset ((s.veCtx (e * 16 + ctx)).get a.toNat % 16384) = q) (hmode : 1 ≤ (s.veCtx (e * 16 + ctx)).get b.toNat % 8)
    (hvalid : q.v = true) (hpid : q.pid = (s.veCtx (e * 16 + ctx)).pid) (hmodes : q.modes.getLsbD ((s.veCtx (e * 16 + ctx)).get b.toNat % 8 - 1) = true) (henc : q.enc = true)
    (hnew : s.newHandle { exid := (s.veCtx (e * 16 + ctx)).exid, kind := 1, state := 0, zlib := false, slot := (s.veCtx (e * 16 + ctx)).get a.toNat % 16384, mode := (s.veCtx (e * 16 + ctx)).get b.toNat % 8 } = (u, v)) :
    Leaves (.kopen e ctx t a b 0) s ((u.veSet (e * 16 + ctx) t v).updVe (e * 16 + ctx) VeCtx.next) :=
  leaves_of_ok (execKopen e ctx t a b 0) rfl h rfl rfl (by
    simp only [hq, hmode, hvalid, hpid, hmodes, henc, hnew, decide_true, beq_self_eq_true, Bool.true_and, Bool.true_or, if_true])

/-- A refused key gives all ones and the fault of R365. -/
theorem kopen_refused (hvalid : (s.chn.keys.get KSlot.reset ((s.veCtx (e * 16 + ctx)).get a.toNat % 16384)).v = false) (hx : s.exOf (s.veCtx (e * 16 + ctx)).exid = none) :
    Leaves (.kopen e ctx t a b 0) s (((s.flt 11 4 0 (some (s.veCtx (e * 16 + ctx)).pid.toNat)).veSet (e * 16 + ctx) t (2 ^ 32 - 1)).updVe (e * 16 + ctx) VeCtx.next) :=
  leaves_of_ok (execKopen e ctx t a b 0) rfl h rfl rfl (by
    simp only [hvalid, hx, Bool.and_false, Bool.false_and, Bool.false_eq_true, if_false])

/-! Checksums (13 R324) -/

theorem crcw_ends : VeEnds (.crcw e ctx t a 0 0) s e ctx { s.veCtx (e * 16 + ctx) with
    e := (s.veCtx (e * 16 + ctx)).e.put t.toNat (crc32c ((s.veCtx (e * 16 + ctx)).e.get 0 t.toNat) (toBytes 4 ((s.veCtx (e * 16 + ctx)).get a.toNat))) } :=
  veEnds_of_veSet (execCrcw e ctx t a 0 0) rfl h rfl rfl rfl (by rw [ofNat_toNat_self, VeCtx.ofNat_get])

theorem crcl_ends (hrange : veRange (s.veCtx (e * 16 + ctx)) a b false = none) : VeEnds (.crcl e ctx t a b 0) s e ctx { s.veCtx (e * 16 + ctx) with
    e := (s.veCtx (e * 16 + ctx)).e.put t.toNat (crc32c ((s.veCtx (e * 16 + ctx)).e.get 0 t.toNat)
      (s.sramRead e ((s.veCtx (e * 16 + ctx)).get a.toNat % 2 ^ 20) ((s.veCtx (e * 16 + ctx)).get b.toNat))) } :=
  veEnds_of_veSet (execCrcl e ctx t a b 0) rfl h rfl rfl (by simp only [hrange, VeCtx.ofNat_get]) (ofNat_toNat_self _)

theorem crcl_traps {cause : Byte} (hrange : veRange (s.veCtx (e * 16 + ctx)) a b false = some cause) : Leaves (.crcl e ctx t a b 0) s (s.veTrap e ctx cause) :=
  leaves_of_trap (execCrcl e ctx t a b 0) rfl h rfl rfl (by simp only [hrange])

theorem sum16_ends (hrange : veRange (s.veCtx (e * 16 + ctx)) a b true = none) : VeEnds (.sum16 e ctx t a b 0) s e ctx { s.veCtx (e * 16 + ctx) with
    e := (s.veCtx (e * 16 + ctx)).e.put t.toNat (BitVec.ofNat 32 (ones16 ((s.veCtx (e * 16 + ctx)).get t.toNat % 65536)
      (s.sramRead e ((s.veCtx (e * 16 + ctx)).get a.toNat % 2 ^ 20) ((s.veCtx (e * 16 + ctx)).get b.toNat)))) } :=
  veEnds_of_veSet (execSum16 e ctx t a b 0) rfl h rfl rfl (by simp only [hrange]) rfl

theorem sum16_traps {cause : Byte} (hrange : veRange (s.veCtx (e * 16 + ctx)) a b true = some cause) : Leaves (.sum16 e ctx t a b 0) s (s.veTrap e ctx cause) :=
  leaves_of_trap (execSum16 e ctx t a b 0) rfl h rfl rfl (by simp only [hrange])

/-! The journal entry (12 R295) -/

theorem jread_ends (hx : s.exOf (s.veCtx (e * 16 + ctx)).exid = some x) : VeEnds (.jread e ctx t 0 b 0) s e ctx { s.veCtx (e * 16 + ctx) with
    e := (s.veCtx (e * 16 + ctx)).e.put t.toNat (BitVec.ofNat 32 ((s.img x).toNat / 2 ^ (32 * (15 - (s.veCtx (e * 16 + ctx)).get b.toNat % 16)))) } :=
  veEnds_of_veSet (execJread e ctx t 0 b 0) rfl h rfl rfl (by simp only [h.veOpen, hx, Bool.false_eq_true, if_false]; rfl)
    (BitVec.eq_of_toNat_eq (by rw [BitVec.toNat_ofNat, BitVec.toNat_ofNat, Nat.mod_mod]))

end

/-- The entry `j` in state `st`, with what a JSTEP takes from the image `i`. -/
def stepImage (st : Nat) (i j : Img) : Img :=
  let j := jput (jput (jput j 0 63 60 st) 1 47 32 (jget i 1 47 32)) 1 31 16 (jget i 1 31 16)
  let j := jput (jput j 2 55 0 (jget i 2 55 0)) 6 63 56 (jget i 6 63 56)
  jput (jput j 6 55 48 (jget i 6 55 48)) 6 24 0 (jget i 6 24 0)

/-- A JSTEP of exchange `x` with the image `i`, by a context that waits for no step. -/
def jstepOp (e ctx : Nat) (t : BitVec 4) (x : Exch) (i : Img) (s : State) : VeRes :=
  if (s.jent x.mirror x.idx).outst then .stay s
  else if !jstepOk (jState (s.img x)) (jState i) then .trap 1
  else
    let u := s.writeStep x (stepImage (jState i) i)
    if (u.jent x.mirror x.idx).outst then .stay (u.updVe (e * 16 + ctx) (fun c => { c with st := .waitJack }))
    else .ok ((u.startQueued x.key).veSet (e * 16 + ctx) t (b2n (jSolo (u.jent x.mirror x.idx).img)))

section
variable {s : State} {e ctx : Nat} (t : BitVec 4) {x : Exch} {i : Img}

theorem jstep_leaves (h : VeReady s e ctx) {a : BitVec 4} (hx : s.exOf (s.veCtx (e * 16 + ctx)).exid = some x) (hfit : (s.veCtx (e * 16 + ctx)).get a.toNat % 2 ^ 20 + 64 ≤ 65536)
    (hi : BitVec.ofNat 512 (packBytes (s.sramRead e ((s.veCtx (e * 16 + ctx)).get a.toNat % 2 ^ 20) 64)) = i) :
    Leaves (.jstep e ctx t a 0 0) s ((jstepOp e ctx t x i s).after s e ctx) := by
  subst hi
  obtain ⟨he, hctx, hst, hfence, hreqs⟩ := h
  change execJstep e ctx t a 0 0 s = _
  refine (runVeIn_settled he hctx _ (by rw [hst]; rfl) hfence hreqs).trans ?_
  have hwait : ((s.veCtx (e * 16 + ctx)).st == VeSt.waitJack) = false := by rw [hst]; rfl
  simp only [hx, (State.veSettle_ready s _ hreqs).2, hwait, Bool.false_eq_true, if_false, if_neg (Nat.not_lt.mpr hfit)]
  rfl

theorem jstepOp_waits (houtst : (s.jent x.mirror x.idx).outst = true) : jstepOp e ctx t x i s = .stay s := if_pos houtst

section
variable (houtst : (s.jent x.mirror x.idx).outst = false)
include houtst

/-- COMPLETE is no state that a JSTEP reaches. -/
theorem jstepOp_complete (hi : jState i = 4) : jstepOp e ctx t x i s = .trap 1 := by
  rw [jstepOp, if_neg (by simp [houtst]), if_pos (by simp [jstepOk, hi])]

variable (hfrom : jState (s.img x) = 1) (hto : jState i = 2) {u : State} (hu : s.writeStep x (stepImage 2 i) = u)
include hfrom hto hu

/-- A step that its mirror must confirm. -/
theorem jstepOp_mirrored (hu' : (u.jent x.mirror x.idx).outst = true) : jstepOp e ctx t x i s = .stay (u.updVe (e * 16 + ctx) (fun c => { c with st := .waitJack })) := by
  rw [jstepOp, if_neg (by simp [houtst]), if_neg (by simp [jstepOk, hfrom, hto])]
  simp only [hto, hu, hu', if_true]

/-- A step that is recorded SOLO. -/
theorem jstepOp_solo (hu' : (u.jent x.mirror x.idx).outst = false) :
    jstepOp e ctx t x i s = .ok ((u.startQueued x.key).veSet (e * 16 + ctx) t (b2n (jSolo (u.jent x.mirror x.idx).img))) := by
  rw [jstepOp, if_neg (by simp [houtst]), if_neg (by simp [jstepOk, hfrom, hto])]
  simp only [hto, hu, hu', Bool.false_eq_true, if_false]

end

end

/-- Settles O41: each function ends by its own lemma. -/
theorem engineCoprocessor : Obligations.EngineCoprocessor := by
  intro s u e ctx v t a b hd x h k c ra rb rt put next
  refine ⟨fun z hx hz hroom hnew => zopen_leaves h hx hz hroom hnew, fun hfind hexid => ⟨fun hkind => ?stream, fun hkind => ?cipher⟩, fun hfind => ?absent,
    fun hmode hvalid hpid hmodes henc hnew => kopen_leaves h rfl hmode hvalid hpid hmodes henc hnew, fun hvalid hx => kopen_refused h hvalid hx, crcw_ends h,
    fun hlen hfit => ⟨crcl_ends h (veRange_inside hlen hfit (by simp)), fun heven => sum16_ends h (veRange_inside hlen hfit fun _ => heven)⟩,
    fun hlen => ⟨crcl_traps h (veRange_long hlen false), sum16_traps h (veRange_long hlen true)⟩, fun hlen hfar => crcl_traps h (veRange_outside hlen hfar), fun hx => ⟨jread_ends h hx, ?jstep⟩,
    ?submit⟩
  case stream =>
    have hother : s.ownHandle c ra 1 = none := State.ownHandle_otherKind hfind (by simp [hkind])
    exact ⟨veStat_ends h (execZstat e ctx t a 0 0) rfl (by rw [hkind]; rfl) hfind hexid, veStat_traps h (execKstat e ctx t a 0 0) rfl rfl hother,
      veClose_traps h (execKclose e ctx 0 a 0 0) rfl rfl hother, fun hslot hu => veClose_leaves h (execZclose e ctx 0 a 0 0) rfl (by rw [hkind]; rfl) hfind hexid hu (by simp [hkind, hslot])⟩
  case cipher =>
    exact ⟨veStat_ends h (execKstat e ctx t a 0 0) rfl (by rw [hkind]; rfl) hfind hexid,
      veClose_leaves h (execKclose e ctx 0 a 0 0) rfl (by rw [hkind]; rfl) hfind hexid rfl (if_neg (by simp [hkind])).symm⟩
  case absent =>
    exact ⟨veStat_traps h (execZstat e ctx t a 0 0) rfl rfl (State.ownHandle_absent hfind 0), veClose_traps h (execKclose e ctx 0 a 0 0) rfl rfl (State.ownHandle_absent hfind 1)⟩
  case jstep =>
    intro i hfit
    have hleaves := jstep_leaves t h hx hfit rfl
    refine ⟨fun houtst => ?_, fun houtst => ⟨fun hto => ?_, fun hfrom hto hu => ⟨fun hu' _ => ?_, fun hu' => ?_⟩⟩⟩
    · rwa [jstepOp_waits t houtst] at hleaves
    · rwa [jstepOp_complete t houtst hto] at hleaves
    · rwa [jstepOp_mirrored t houtst hfrom hto hu hu'] at hleaves
    · rwa [jstepOp_solo t houtst hfrom hto hu hu'] at hleaves
  case submit =>
    change execPdsqSubmit e ctx s = _
    exact runVeIn_idle h.1 h.2.1 _ _ (by rw [h.2.2.1]; rfl)

end Sys2Proof.Machine
end

section
/-! PROOFS. Events of the Velex engines and of the port sequencers (13 R315, R316, R325 to R327, 16 R367, 06 R156). -/

namespace Sys2Proof.Machine

theorem leaves_of_guarded {i : Instr} {s u v : State} {P : Prop} [Decidable P] (hi : exec i s = settled s (if P then .fault .noSuchUnit else .next u)) (hP : ¬ P) (heq : u = v) : Leaves i s v := by
  rw [Leaves, hi, if_neg hP, settled_next, heq]

/-! Dispatch (13 R315, R316) -/

/-- The context that takes an event of exchange `x`: its registers hold the event, the EXID and free values. -/
def State.eventCtx (u : State) (x : Exch) (r : W64) : VeCtx :=
  let kind := ((List.range 8).find? (fun i => x.ev.getLsbD i)).getD 0
  let c : VeCtx := { VeCtx.reset with st := .running, mh := r.extractLsb' 32 32, ml := r.extractLsb' 0 32, pc := BitVec.ofNat 15 kind, pid := BitVec.ofNat 8 (jget (u.img x) 0 55 48), exid := BitVec.ofNat 24 (u.exid x), evt := x.ev }
  (c.put 0 x.ev.toNat).put 1 (u.exid x)

section
variable {s : State} {mirror : Bool} {idx : Nat} {x : Exch} (hx : s.chn.exch.find (exKey mirror idx) = some x)
include hx

theorem veEventDispatch_takes (hipl : x.ipl = false) (hfence : s.flag F.FLT_FENCE_CXF = false) (hactive : s.veActive x.eng = true) (hmoving : s.chn.veMoving.contains x.eng = false)
    (hev : x.ev ≠ 0) (hrunning : x.running = false) {n : Nat}
    (hn : (List.range 16).find? (fun n => (s.veCtx (x.eng * 16 + n)).st == .free && !s.veOpen (x.eng * 16 + n)) = some n) {u w : State} {r : W64} (hfree : s.free = (w, r))
    (hu : u = w.updMem (fun z => { z with reqs := z.reqs.filter (fun q => !veKey (x.eng * 16 + n) q.1) })) :
    Leaves (.veEventDispatch mirror idx) s
      (((u.setVe (x.eng * 16 + n) (u.eventCtx x r)).setFld F.VEN_ENG_BUSY (u.fld F.VEN_ENG_BUSY x.eng + 1) x.eng).setEx { x with ev := 0, running := true }) := by
  subst hu
  have hev' : (x.ev == 0) = false := beq_false_of_ne hev
  change execVeEventDispatch mirror idx s = _
  simp only [execVeEventDispatch, hx]
  rw [if_neg (by simp only [hev', hrunning, hipl, hactive, hmoving, hfence]; decide)]
  simp only [hn, hfree, settled_next]
  rfl

theorem veEventDispatch_running (hrunning : x.running = true) : Leaves (.veEventDispatch mirror idx) s s := by
  change execVeEventDispatch mirror idx s = _
  simp only [execVeEventDispatch, hx]
  rw [if_pos (by simp [hrunning]), settled_next]

end

/-! The watchdog, failure and planned moves (13 R326, R327) -/

section
variable {s : State} {e : Nat} (he : e < 68)
include he

theorem veWatchdog_traps {ctx : Nat} (h : VeReady s e ctx) : Leaves (.veWatchdog e ctx) s ((s.veTrap e ctx 4).veMoveDue e) := by
  obtain ⟨-, hctx, hst, hfence, hreqs⟩ := h
  obtain ⟨hsettle, hopen⟩ := State.veSettle_ready s _ hreqs
  refine leaves_of_guarded rfl (context_exists he hctx) ?_
  simp only [hst, hfence, hsettle, hopen]
  rfl

theorem veWatchdog_parked {ctx : Nat} (hctx : ctx < 16) (hst : (s.veCtx (e * 16 + ctx)).st = .parked) : Leaves (.veWatchdog e ctx) s s :=
  leaves_of_guarded rfl (context_exists he hctx) (if_pos (by simp [hst]))

theorem veEngineFailure_fails (hrole : s.fld F.VEN_ENG_ROLE e = 0) : Leaves (.veEngineFailure e false) s (s.veFail e) :=
  leaves_of_guarded rfl (by omega) (by simp [hrole])

theorem veEngineFailure_spare (hrole : s.fld F.VEN_ENG_ROLE e = 1) (planned : Bool) : Leaves (.veEngineFailure e planned) s (((s.setFld F.VEN_ENG_ROLE 2 e).consume 10).flt 8 3 e) :=
  leaves_of_guarded rfl (by omega) (by simp [hrole])

theorem veEngineFailure_failed (hrole : s.fld F.VEN_ENG_ROLE e = 2) (planned : Bool) : Leaves (.veEngineFailure e planned) s s :=
  leaves_of_guarded rfl (by omega) (if_pos (by simp [hrole]))

/-- A planned move waits for the running contexts. -/
theorem veEngineFailure_planned (hrole : s.fld F.VEN_ENG_ROLE e = 0) (hbusy : s.fld F.VEN_ENG_BUSY e ≠ 0) :
    Leaves (.veEngineFailure e true) s { s with chn := { s.chn with veMoving := e :: s.chn.veMoving.filter (fun n => n != e) } } := by
  refine leaves_of_guarded rfl (by omega) ?_
  rw [if_neg (by simp [hrole]), if_neg (by simp [hrole]), if_pos rfl]
  exact if_neg (by rw [Bool.and_eq_true, beq_iff_eq]; exact fun hdue => hbusy hdue.2)

theorem plannedEngineMoveExpiry_leaves (moving : Bool) (hmoving : s.chn.veMoving.contains e = moving) : Leaves (.plannedEngineMoveExpiry e) s (if moving then s.veFail e else s) :=
  leaves_of_guarded rfl (by omega) (by rw [hmoving])

end

/-! VEN_CTXSEL and VEN_CTXDATA (13 R326) -/

section
variable {s u : State} {src : Src} {v : W64}

theorem ctxselRelease_plain (hu : u = s.wrReg src F.VEN_CTXSEL_ENG.base v) (hrel : v.getLsbD 63 = false) : Leaves (.venCtxselRelease src v) s u :=
  leaves_of_next rfl (by rw [hu, State.ctxselWrite, if_pos (by rw [hrel]; rfl)])

theorem ctxselRelease_frees (hu : u = s.wrReg src F.VEN_CTXSEL_ENG.base v) (hrel : v.getLsbD 63 = true) {g q : Nat} (hg : u.fld F.VEN_CTXSEL_ENG = g) (hq : u.fld F.VEN_CTXSEL_CTX = q)
    (hsel : fieldOf v 19 13 = g) (hst : (u.veCtx (g * 16 + q)).st = .parked) {order : List Nat} (horder : order = (u.chn.parkOrder.get [] g).filter (fun i => i != q)) :
    Leaves (.venCtxselRelease src v) s
      ((({ u with chn := { u.chn with parkOrder := u.chn.parkOrder.put g order } } : State).setVe (g * 16 + q) VeCtx.reset).setFld F.VEN_ENG_PARKED order.length g) := by
  subst horder hg hq
  refine leaves_of_next (u := s.ctxselWrite src v) rfl ?_
  simp only [State.ctxselWrite, ← hu]
  rw [if_neg (by simp [hrel]), if_neg (by simp [hsel, hst])]

theorem ctxdataRead_register (hst : (s.veCtx (s.fld F.VEN_CTXSEL_ENG * 16 + s.fld F.VEN_CTXSEL_CTX)).st = .parked) (hi : s.fld F.VEN_CTXSEL_INDEX < 16) :
    Leaves (.venCtxdataRead src) s
      { s with busData := ((s.veCtx (s.fld F.VEN_CTXSEL_ENG * 16 + s.fld F.VEN_CTXSEL_CTX)).e.get 0 (s.fld F.VEN_CTXSEL_INDEX)).setWidth 64 } := by
  have hdata : s.ctxdata src = (s, ((s.veCtx (s.fld F.VEN_CTXSEL_ENG * 16 + s.fld F.VEN_CTXSEL_CTX)).e.get 0 (s.fld F.VEN_CTXSEL_INDEX)).setWidth 64) := by
    rw [State.ctxdata, if_neg (by simp [hst]; omega), if_pos hi, VeCtx.get, BitVec.ofNat_toNat]
  exact leaves_of_next (u := { (s.ctxdata src).1 with busData := (s.ctxdata src).2 }) rfl (by rw [hdata])

theorem ctxdataRead_unparked (hst : (s.veCtx (s.fld F.VEN_CTXSEL_ENG * 16 + s.fld F.VEN_CTXSEL_CTX)).st ≠ .parked) :
    Leaves (.venCtxdataRead src) s { s.cfgErr src F.VEN_CTXDATA_DATA.base with busData := 0 } := by
  have hdata : s.ctxdata src = (s.cfgErr src F.VEN_CTXDATA_DATA.base, 0) := if_pos (by simp [hst])
  exact leaves_of_next (u := { (s.ctxdata src).1 with busData := (s.ctxdata src).2 }) rfl (by rw [hdata])

end

/-! Ends of commands (13 R325, 06 R156) -/

/-- What an end that names an exchange does: `f` with the command that its port's sequencer has sent. -/
def State.onCommand (s : State) (vp : Nat) (exid : BitVec 24) (f : Exch → PdsDesc → State) : State :=
  match s.exOf exid with
  | some x =>
    match x.cur with
    | some d => if x.ipl then s.iplTry x else if x.vp = vp && x.sent then f x d else s
    | none => s
  | none => s

section
variable {s : State} {vp : Nat} (hvp : vp < 16)
include hvp

theorem pdsCommandEnd_leaves {exid : BitVec 24} {x : Exch} {d : PdsDesc} (hx : s.exOf exid = some x) (hcur : x.cur = some d) (hipl : x.ipl = false) (hport : x.vp = vp) (hsent : x.sent = true)
    {res : PdsRes} (f : Exch → PdsDesc → State) (hres : exec (.pdsCommandEnd vp res) s = settled s (if 16 ≤ vp then .fault .noSuchUnit else .next (s.onCommand vp exid f))) :
    Leaves (.pdsCommandEnd vp res) s (f x d) := by
  refine leaves_of_guarded hres (by omega) ?_
  simp only [State.onCommand, hx, hcur]
  rw [if_neg (by simp [hipl]), if_pos (by simp [hport, hsent])]

/-- A sequencer that stops takes the path of each exchange on its port, and the IPL's try. -/
theorem pdsCommandEnd_uncorrectable : Leaves (.pdsCommandEnd vp .uncorrectable) s ((s.flt 1 6 vp).stopPds vp) := leaves_of_guarded rfl (Nat.not_le.mpr hvp) rfl

/-! The port buffer (16 R367) -/

section
variable {exid : BitVec 24} {m : Nat} {rest : List (BitVec 24 × Nat)} {b : PortBuf} (hb : s.chn.pbuf.get PortBuf.reset vp = b) (hqueue : b.queue = (exid, m) :: rest)
include hb hqueue

theorem portBufferGrant_full (hfull : 4194304 < b.used + m) : Leaves (.portBufferGrant vp) s s := by
  refine leaves_of_guarded rfl (Nat.not_le.mpr hvp) ?_
  simp only [hb, hqueue, hfull, if_true]

theorem portBufferGrant_sends (hroom : b.used + m ≤ 4194304) {u : State}
    (hu : u = { s with chn := { s.chn with pbuf := s.chn.pbuf.put vp { used := b.used + m, queue := rest, granted := b.granted ++ [(exid, m)] } } })
    {x : Exch} {d : PdsDesc} (hx : u.exOf exid = some x) (hcur : x.cur = some d) : Leaves (.portBufferGrant vp) s (u.sendCmd x d) := by
  refine leaves_of_guarded rfl (Nat.not_le.mpr hvp) ?_
  simp only [hb, hqueue, if_neg (Nat.not_lt.mpr hroom), ← hu, hx, hcur]

end

end

/-! A stalled descriptor (13 R325) -/

theorem vePdsq_takes {s : State} {k : Nat} {c : VeCtx} {x : Exch} (hok : s.descOk c c.word = true) (hx : s.exOf c.exid = some x)
    (hroom : (s.chn.pdsq.get [] (bits (c.word 0) 3 0)).length < 64) :
    s.vePdsq k c = .ok ((s.setVe k { c with desc := [] }).submitCmd x (mkDesc c c.word) (bits (c.word 0) 3 0)) () := by
  rw [State.vePdsq, if_neg (by simp [hok])]
  simp only [if_neg (Nat.not_le.mpr hroom), hx]

theorem pdsqSubmit_leaves {s u : State} {e ctx : Nat} (he : e < 68) (hctx : ctx < 16) (hfence : s.flag F.FLT_FENCE_CXF = false)
    (hreqs : ∀ p ∈ s.mem.reqs, veKey (e * 16 + ctx) p.1 = true → p.2.req.kind ≠ .wrpl) (hst : (s.veCtx (e * 16 + ctx)).st = .waitPds)
    (htaken : s.vePdsq (e * 16 + ctx) { s.veCtx (e * 16 + ctx) with st := .running } = .ok u ()) (hrunning : (u.veCtx (e * 16 + ctx)).st = .running) :
    Leaves (.pdsqSubmit e ctx) s (u.updVe (e * 16 + ctx) (fun q => { q with pc := q.pc + 1 })) := by
  change execPdsqSubmit e ctx s = _
  refine (runVeIn_settled he hctx _ (by rw [hst]; rfl) hfence hreqs).trans ?_
  simp only [htaken, VeAcc.run]
  rw [if_neg (by simp [hrunning]), VeRes.after, State.updVe, VeCtx.next_of_running hrunning]
  rfl

/-- Settles O42: each event is the lemma of its command; where the spec is open they follow the choices of logs 38, 65, 37 and 85. -/
theorem engineEvents : Obligations.EngineEvents := by
  refine ⟨?events, ?stalled⟩
  case events =>
    intro s u w e ctx idx n vp m mirror x d r v src exid resid rest he hctx hvp k
    refine ⟨fun hx hipl hfence hactive hmoving => ⟨fun hev hrunning hn hfree hu => veEventDispatch_takes hx hipl hfence hactive hmoving hev hrunning hn hfree hu, veEventDispatch_running hx⟩,
      veWatchdog_traps he, veWatchdog_parked he hctx, fun hrole => ⟨veEngineFailure_fails he hrole, fun hbusy => ⟨_, veEngineFailure_planned he hrole hbusy, by simp, by simp, by simp, by simp⟩⟩,
      fun hrole => veEngineFailure_spare he hrole false, fun hrole => veEngineFailure_failed he hrole true, plannedEngineMoveExpiry_leaves he true, plannedEngineMoveExpiry_leaves he false,
      fun hu => ⟨ctxselRelease_plain hu, fun hrel hsel hst => ctxselRelease_frees hu hrel rfl rfl hsel hst rfl⟩, ⟨ctxdataRead_register, ctxdataRead_unparked⟩,
      fun hx hcur hipl hport hsent => ?ends, fun hw hu => ?uncorrectable, ?grant⟩
    case ends =>
      refine ⟨fun hwrites => ?_, pdsCommandEnd_leaves hvp hx hcur hipl hport hsent (fun x _ => s.cmdFail x 0x11 resid.toNat) rfl,
        pdsCommandEnd_leaves hvp hx hcur hipl hport hsent (fun x d => s.cmdBad x d 0x13) rfl, pdsCommandEnd_leaves hvp hx hcur hipl hport hsent (fun x d => s.cmdBad x d 0x15) rfl,
        pdsCommandEnd_leaves hvp hx hcur hipl hport hsent (fun x d => s.cmdFail x 0x10 d.count.toNat) rfl⟩
      have hdone := pdsCommandEnd_leaves hvp hx hcur hipl hport hsent (res := .done exid resid)
        (fun x d => if d.writes && x.outNext = d.nseq + 1 && decide (0 < d.count.toNat) then s.sendData x d else s.endRead x d resid) rfl
      rwa [if_neg (by simp [hwrites])] at hdone
    case uncorrectable =>
      subst hu hw
      exact pdsCommandEnd_uncorrectable hvp
    case grant =>
      intro b hqueue
      exact ⟨portBufferGrant_full hvp rfl hqueue, fun hroom hu hx hcur => portBufferGrant_sends hvp rfl hqueue hroom hu hx hcur⟩
  case stalled =>
    intro s u e ctx x he hctx hfence hreqs k c hst hok hx hroom hu hrunning
    have htaken := vePdsq_takes (k := k) (c := { c with st := .running }) hok hx hroom
    exact pdsqSubmit_leaves he hctx hfence hreqs hst (htaken.trans (congrArg (VeAcc.ok · ()) hu)) hrunning

end Sys2Proof.Machine
end

section
/-! PROOFS. What every command answers (00 R2, 20 R430, R431, R445): a next state with the queue as it was and ERR_N following its causes, or a fault on what it names. What a step does with that. -/

namespace Sys2Proof.Machine

/-- What a command can answer: a next state, with the queue as it was and ERR_N following its causes; a fault only where `ok` fails. -/
def Answers (ok : Prop) (s : State) (o : Out) : Prop := (∃ u, o = .next (left s u)) ∨ (∃ r, o = .fault r) ∧ ¬ ok

/-- The same of an effect, before the command has settled. -/
def Ends (ok : Prop) (o : Out) : Prop := (∃ u, o = .next u) ∨ (∃ r, o = .fault r) ∧ ¬ ok

section
variable {ok P : Prop} [Decidable P] {s u : State} {o o' : Out}

theorem Ends.next : Ends ok (.next u) := .inl ⟨u, rfl⟩

theorem Ends.fault {r : Fault} (h : ¬ ok) : Ends ok (.fault r) := .inr ⟨⟨r, rfl⟩, h⟩

theorem Ends.ite (h : P → Ends ok o) (h' : ¬ P → Ends ok o') : Ends ok (if P then o else o') := by
  split
  · exact h ‹_›
  · exact h' ‹_›

theorem Ends.guard {r : Fault} (h : ok → ¬ P) (ho : Ends ok o) : Ends ok (if P then .fault r else o) :=
  .ite (fun hP => .fault (fun hok => h hok hP)) (fun _ => ho)

theorem Ends.settled (h : Ends ok o) : Answers ok s (settled s o) := by
  rcases h with ⟨u, rfl⟩ | ⟨⟨r, rfl⟩, hok⟩
  · exact .inl ⟨u, rfl⟩
  · exact .inr ⟨⟨r, rfl⟩, hok⟩

theorem Answers.ends (h : Answers ok s o) : Ends ok o := h.imp (fun ⟨u, hu⟩ => ⟨left s u, hu⟩) id

theorem settled_answers : Answers ok s (Machine.settled s (.next u)) := Ends.next.settled

theorem guarded_answers {r : Fault} (h : ok → ¬ P) : Answers ok s (Machine.settled s (if P then .fault r else .next u)) := (Ends.guard h .next).settled

theorem runCore_answers {lc : Nat} {p : Pre} {body : State → IRes} (h : ok → lc < 48) : Answers ok s (runCore lc p s body) := by
  by_cases hlc : lc < 48
  · exact .inl (runCore_runs lc p s body hlc)
  · exact .inr ⟨⟨.noSuchUnit, by rw [runCore, if_pos (by simpa using hlc)]⟩, fun hok => hlc (h hok)⟩

theorem runVeIn_answers {f : VeSt → Bool} {e ctx : Nat} {ill : Bool} {body : State → VeCtx → VeRes} (h : ok → e < 68 ∧ ctx < 16) :
    Answers ok s (runVeIn f e ctx ill s body) := by
  by_cases hin : e < 68 ∧ ctx < 16
  · exact .inl (runVeIn_runs f e ctx ill s body hin.1 hin.2)
  · exact .inr ⟨⟨.noSuchUnit, by rw [runVeIn, if_pos (by simp; omega)]⟩, fun hok => hin (h hok)⟩

end

theorem lt_of_lcOk {lc : Nat} (h : lcOk lc = true) : lc < 48 := of_decide_eq_true h

/-! The frames by which a core runs its instructions -/

section
variable {ok : Prop} {s : State} {op minor lc sub : Nat} {t a b c b1 b2 : BitVec 5} {bad : Bool} {p : Pre} (h : ok → lc < 48)
include h

theorem aluReg_answers {f : W64 → W64 → Alu} : Answers ok s (aluReg op minor lc t a b c bad f s) := runCore_answers h

theorem divReg_answers {f : W64 → W64 → Option W64} : Answers ok s (divReg minor lc t a b c f s) := runCore_answers h

theorem cmpReg_answers {f : W64 → W64 → BitVec 2} : Answers ok s (cmpReg minor lc t a b c f s) := runCore_answers h

theorem aluImm_answers {imm : BitVec 16} {f : W64 → Alu} : Answers ok s (aluImm op lc t a imm bad f s) := runCore_answers h

theorem loadIns_answers {ea : Arch → W64} {n : Nat} {put : Arch → Nat → Arch} : Answers ok s (loadIns lc p ea n put s) := runCore_answers h

theorem storeIns_answers {ea : Arch → W64} {n : Nat} {val : Arch → Nat} : Answers ok s (storeIns lc p ea n val s) := runCore_answers h

theorem atomIns_answers : Answers ok s (atomIns op lc t a b c s) := runCore_answers h

theorem fpIns_answers {f : Fmt} {g : Nat → Nat → Nat → Nat → Nat × Nat} : Answers ok s (fpIns f minor lc t a b c bad g s) := runCore_answers h

theorem fpBits_answers {f : Fmt} {g : Nat → Nat} : Answers ok s (fpBits f minor lc t a b c g s) := runCore_answers h

theorem fpCmp_answers {f : Fmt} {sig : Bool} : Answers ok s (fpCmp f minor lc t a b c sig s) := runCore_answers h

theorem fcvt_answers {g : Arch → Nat × (Arch → Arch)} : Answers ok s (fcvt minor lc t a b c g s) := runCore_answers h

theorem fpMove_answers {put : Arch → Arch} : Answers ok s (fpMove minor lc t a b c put s) := runCore_answers h

theorem decIns_answers {l1 l2 : BitVec 4} {d1 d2 : BitVec 16} {stores : Bool} {f : State → XCtx → W64 → Nat → Int → Int → IRes} :
    Answers ok s (decIns lc sub b1 b2 l1 l2 d1 d2 stores bad s f) := runCore_answers h

theorem engIns_answers {f : State → W64 → IRes} : Answers ok s (engIns lc minor t a b c s f) := runCore_answers h

theorem cksmUnit_answers {f : W64 → List Byte → W64} : Answers ok s (cksmUnit lc p t a b f s) := runCore_answers h

end

/-! The frames by which a context of a Velex engine runs its instructions -/

section
variable {ok : Prop} {s : State} {e ctx n kind : Nat} {t a b : BitVec 4} {bk : BitVec 2} {rsv : BitVec 8} {ill : Bool} (h : ok → e < 68 ∧ ctx < 16)
include h

theorem runVe_answers {body : State → VeCtx → VeRes} : Answers ok s (runVe e ctx ill s body) := runVeIn_answers h

theorem veArith_answers {f : Nat → Nat → Nat × BitVec 4} : Answers ok s (veArith e ctx t a b rsv s f) := runVe_answers h

theorem veLogic_answers {f : Nat → Nat → Nat} : Answers ok s (veLogic e ctx t a b rsv s f) := runVe_answers h

theorem veLogicI_answers {f : Nat → Nat} : Answers ok s (veLogicI e ctx t a ill s f) := runVe_answers h

theorem veLoad_answers {sx : Bool} {sa : VeCtx → Nat} : Answers ok s (veLoad e ctx t bk n sx sa s) := runVe_answers h

theorem veStore_answers {sa : VeCtx → Nat} : Answers ok s (veStore e ctx t bk n sa s) := runVe_answers h

theorem veStat_answers : Answers ok s (veStat kind e ctx t a b rsv s) := runVe_answers h

theorem veClose_answers : Answers ok s (veClose kind e ctx t a b rsv s) := runVe_answers h

end

theorem lt_of_engineOk {e ctx : Nat} (h : (engineOk e && ctxOk ctx) = true) : e < 68 ∧ ctx < 16 := by
  simpa [engineOk, ctxOk] using h


/-! The frames by which messages and services answer -/

section
variable {ok : Prop} {s : State}

theorem fromCx_ends {src : Nat} {o : Out} (h : ok → src < 1024) (ho : Ends ok o) : Ends ok (fromCx src o) := .guard (fun hok => Nat.not_le.mpr (h hok)) ho

theorem serve_ends {r : Req} (h : ok → r.hdr.src < 1024) : Ends ok (s.serve r) := fromCx_ends h .next

theorem snooped_ends {home line : Nat} {f : State → State} (h : ok → home < 1024) : Ends ok (s.snooped home line f) := fromCx_ends h .next

theorem ctlIn_ends {port ctype : Nat} {flit : BitVec 256} {f : State → State} (h : ok → port < 16) : Ends ok (s.ctlIn port ctype flit f) :=
  .guard (fun hok => Nat.not_le.mpr (h hok)) .next

theorem vrecv_ends {v code : Nat} {h : LinkHdr} {fr : VParts} {lenOk rsvOk : Bool} {vc : Option Nat} {f : State → State} (hv : ok → v < 16) :
    Ends ok (s.vrecv v h code fr lenOk rsvOk vc f) := .guard (fun hok => Nat.not_le.mpr (hv hok)) .next

theorem service_ends {mb code : Nat} {good : Bool} {f : State → State} (h : ok → mb < 64) : Ends ok (service mb code s good f) :=
  .guard (fun hok => Nat.not_le.mpr (h hok)) .next

end

/-! What a well-formed command's checks say of its units -/

theorem not_le_of_ok {m n : Nat} (h : decide (n < m) = true) : ¬ m ≤ n := Nat.not_le.mpr (of_decide_eq_true h)

theorem lt_of_cxOk {cx : Nat} {b : Bool} (h : (cxOk cx && b) = true) : cx < 1024 := of_decide_eq_true (Bool.and_elim_left h)

theorem not_or_of_ok {a b m n : Nat} (h : (decide (a < m) && decide (b < n)) = true) : ¬ (decide (m ≤ a) || decide (n ≤ b)) = true := by
  simp at h ⊢; omega

theorem src_of_reqOk {q : CohReq} (h : reqOk q = true) : q.src < 1024 := by simp [reqOk, cxOk] at h; omega

theorem not_or_or_of_ok {a b c m n k : Nat} (h : (decide (a < m) && decide (b < n) && decide (c < k)) = true) :
    ¬ (decide (m ≤ a) || decide (n ≤ b) || decide (k ≤ c)) = true := by
  simp at h ⊢; omega

/-! Commands that more than one command runs -/

section
variable {ok : Prop} {s : State}

theorem atomrsp_answers {lc line : Nat} {old : BitVec 128} {cc : BitVec 2} {d : DataRsp} (h : ok → lc < 48) : Answers ok s (execAtomrsp lc line old cc d s) :=
  (Ends.guard (fun hok => Nat.not_le.mpr (h hok)) (.ite (fun _ => .next) (fun _ => .next))).settled

theorem l3WaySparing_answers {sl way : Nat} (h : ok → ¬ (decide (32 ≤ sl) || decide (16 ≤ way)) = true) : Answers ok s (execL3WaySparing sl way s) :=
  (Ends.guard h (.ite (fun _ => .next) (fun _ => .ite (fun _ => .next) (fun _ => .next)))).settled

theorem directoryWaySparing_answers {way : Nat} (h : ok → ¬ 16 ≤ way) : Answers ok s (execDirectoryWaySparing way s) :=
  (Ends.guard h (.ite (fun _ => .next) (fun _ => .ite (fun _ => .next) (fun _ => .ite (fun _ => .next) (fun _ => .next))))).settled

end

/-- A packet's fields hold complex IDs only (10 R235), so that every message answers a next state. -/
theorem arrive_ends {ok : Prop} {s : State} {h : BitVec 256} {data : Option Line} : Ends ok (s.arrive h data) := by
  have hsrc : hdrSrc h < 1024 := fieldOf_lt h 229 220
  have hftgt : fieldOf h 72 63 < 1024 := fieldOf_lt h 72 63
  unfold State.arrive
  split
  case h_1 | h_2 | h_3 | h_4 => exact (serve_ends (fun _ => hsrc)).settled.ends
  case h_5 | h_6 => exact (Ends.ite (fun _ => .next) (fun _ => serve_ends (fun _ => hsrc))).settled.ends
  case h_7 =>
    dsimp only; split
    case h_4 => exact .next
    all_goals exact (serve_ends (fun _ => hsrc)).settled.ends
  case h_9 | h_10 | h_11 => exact (fromCx_ends (fun _ => hftgt) (snooped_ends (fun _ => hsrc))).settled.ends
  case h_12 | h_13 | h_14 => exact (snooped_ends (fun _ => hsrc)).settled.ends
  case h_8 | h_15 | h_16 | h_17 | h_18 | h_19 | h_20 | h_21 | h_22 | h_27 | h_28 => exact (fromCx_ends (fun _ => hsrc) .next).settled.ends
  case h_24 => exact .ite (fun _ => .next) (fun htag => (atomrsp_answers (fun _ => Nat.not_le.mp htag)).ends)
  case h_26 =>
    dsimp only; split
    case h_5 => exact .next
    all_goals exact (fromCx_ends (fun _ => hsrc) .next).settled.ends
  case h_23 | h_25 => exact settled_answers.ends
  case h_29 => exact .next

theorem arriveAll_ends {ok : Prop} {s : State} {h : BitVec 256} {data : Option Line} : Ends ok (s.arriveAll h data) := by
  have hsrc : hdrSrc h < 1024 := fieldOf_lt h 229 220
  unfold State.arriveAll
  split
  · exact (fromCx_ends (fun _ => hsrc) .next).settled.ends
  · exact settled_answers.ends
  · exact settled_answers.ends
  · exact arrive_ends

/-- WAIT runs on its context, and the engine's planned move may follow (13 R327). -/
theorem wait_answers {s : State} (e ctx : Nat) (t a : BitVec 4) (rsv : BitVec 2) (imm : BitVec 16) : Answers (wf (.wait e ctx t a rsv imm) = true) s (exec (.wait e ctx t a rsv imm) s) := by
  dsimp only [exec]
  refine (Ends.guard not_or_of_ok ?_).settled
  split
  · exact .next
  · exact (runVe_answers lt_of_engineOk).ends

/-- A margin detector runs the sparing of its unit (21 Table LIF-4). -/
theorem marginDetectorFire_answers {s : State} (u : MarginUnit) : Answers (wf (.marginDetectorFire u) = true) s (exec (.marginDetectorFire u) s) := by
  dsimp only [exec]
  refine (Ends.guard (fun h => ?_) (.ite (fun _ => .next) (fun _ => ?_))).settled
  · have hunit : Machine.marginOk u = true := by cases u <;> exact h
    simp [hunit]
  · cases u
    case l3Way => exact (l3WaySparing_answers not_or_of_ok).ends
    case dirWay => exact (directoryWaySparing_answers not_le_of_ok).ends
    case felardLane | velexLane => exact (guarded_answers not_or_of_ok).ends
    case portController | engine | zip => exact (guarded_answers not_le_of_ok).ends
    case brick | other => exact .next

/-- An event of the fault collector needs a source, and a unit of it, that exist (20 R430, R431). -/
theorem faultEvent_answers {s : State} (ev : FaultEv) :
    Answers (wf (.faultEvent ev) = true ∧ fltUsed ev.src = true ∧ ev.unit < fltUnits ev.src) s (exec (.faultEvent ev) s) := by
  dsimp only [exec]
  refine guarded_answers (fun ⟨hwf, hused, hunit⟩ => ?_)
  have hpid : ev.pid.getD 0 < 256 := of_decide_eq_true (Bool.and_elim_right hwf)
  simp [hused]; omega

/-- Every command but an event of the fault collector, by the frame that it runs in. -/
theorem exec_answers (i : Instr) (s : State) (hi : ∀ ev, i ≠ .faultEvent ev) : Answers (wf i = true) s (exec i s) := by
  cases i
  case add | addw | sub | subw | neg | negw | and | or | xor | andn | orn | sll | srl | sra | sla | rol | ror | mul | mulw | mulh | mulhu | mov | clz |
      ctz | popc | bswap | bswapw | sextb | sexth | sextw | zextb | zexth | zextw => dsimp only [exec]; exact aluReg_answers lt_of_lcOk
  case div | divu | rem | remu | divw | remw => dsimp only [exec]; exact divReg_answers lt_of_lcOk
  case cmp | cmpu | cmpw | cmpuw => dsimp only [exec]; exact cmpReg_answers lt_of_lcOk
  case addi | addiw | addis | muli | andi | ori | xori | lui | slli | srli | srai | slai | roli => dsimp only [exec]; exact aluImm_answers lt_of_lcOk
  case ld | lw | lws | lh | lhs | lb | lbs | ldf | lfs | ldx | lwx | lwsx | lhx | lhsx | lbx | lbsx | ldfx | lfsx => dsimp only [exec]; exact loadIns_answers lt_of_lcOk
  case std | stw | sth | stb | stf | stfs | stdx | stwx | sthx | stbx | stfx | stfsx => dsimp only [exec]; exact storeIns_answers lt_of_lcOk
  case ldadd | swp | cas | cas128 | ldmin | ldmax | ldminu | ldmaxu | ldand | ldor | ldxor => dsimp only [exec]; exact atomIns_answers lt_of_lcOk
  case fadd | fsub | fmul | fdiv | fsqrt | fma | fms | fnma | fnms | fmin | fmax | frint | fadds | fsubs | fmuls | fdivs | fsqrts | fmas | fmss |
      fnmas | fnmss | fmins | fmaxs | frints => dsimp only [exec]; exact fpIns_answers lt_of_lcOk
  case fabs | fneg | fmov | fabss | fnegs | fmovs => dsimp only [exec]; exact fpBits_answers lt_of_lcOk
  case fcmp | fcmps | fcmpSingle | fcmpss => dsimp only [exec]; exact fpCmp_answers lt_of_lcOk
  case fcvtds | fcvtsd | fcvtgd | fcvtgud | fcvtdg | fcvtdgu | fcvtgs | fcvtsg => dsimp only [exec]; exact fcvt_answers lt_of_lcOk
  case movgf | movfg => dsimp only [exec]; exact fpMove_answers lt_of_lcOk
  case addp | subp | mulp | divp | cmpp => dsimp only [exec]; exact decIns_answers lt_of_lcOk
  case cmprs | xpand | ciph => dsimp only [exec]; exact engIns_answers lt_of_lcOk
  case cksm | cksm16 => dsimp only [exec]; exact cksmUnit_answers lt_of_lcOk
  case cmpi | cmpui | sel | lea | pref | b | bal | bc | bct | br | balr | bcr | liw | liwu | lih | addli | readf | movfb | epsw | sync | isync |
      cleana | invala | clinva | cleanr | invalr | clinvr | cleans | invals | clinvs | tlbiv | tlbia | tlbiall | sttb | settc | sttc | movl | cmpl |
      trtl | cvdb | cvbd | nop | pause => dsimp only [exec]; exact runCore_answers lt_of_lcOk
  case ldp => dsimp only [exec, execLdp]; exact loadIns_answers lt_of_lcOk
  case stp => dsimp only [exec, execStp]; exact storeIns_answers lt_of_lcOk
  case callw => dsimp only [exec, execCallw]; exact runCore_answers lt_of_lcOk
  case retw => dsimp only [exec, execRetw]; exact runCore_answers lt_of_lcOk
  case lpsw => dsimp only [exec, execLpsw]; exact runCore_answers lt_of_lcOk
  case setb => dsimp only [exec, execSetb]; exact runCore_answers lt_of_lcOk
  case mfsr => dsimp only [exec, execMfsr]; exact runCore_answers lt_of_lcOk
  case mtsr => dsimp only [exec, execMtsr]; exact runCore_answers lt_of_lcOk
  case movtb => dsimp only [exec, execMovtb]; exact runCore_answers lt_of_lcOk
  case tlbip => dsimp only [exec, execTlbip]; exact runCore_answers lt_of_lcOk
  case loadc => dsimp only [exec, execLoadc]; exact runCore_answers lt_of_lcOk
  case storec => dsimp only [exec, execStorec]; exact runCore_answers lt_of_lcOk
  case ssch => dsimp only [exec, execSsch]; exact runCore_answers lt_of_lcOk
  case tsch => dsimp only [exec, execTsch]; exact runCore_answers lt_of_lcOk
  case scall => dsimp only [exec, execScall]; exact runCore_answers lt_of_lcOk
  case sigc => dsimp only [exec, execSigc]; exact runCore_answers lt_of_lcOk
  case rstc => dsimp only [exec, execRstc]; exact runCore_answers lt_of_lcOk
  case veCmp | veMov | veMul | veMulu | mfmh | mfml | mffl | mtfl | veAddi | veCmpi | veLui | ldm | stm | lxch | veB | veBal | veBr | veFence | mtbk |
      mfbk | veNop | zopen | kopen | crcw | crcl | sum16 | jread => dsimp only [exec]; exact runVe_answers lt_of_engineOk
  case veAdd | veSub => dsimp only [exec]; exact veArith_answers lt_of_engineOk
  case veAnd | veOr | veXor | veAndn | veSll | veSrl | veSra | veRol => dsimp only [exec]; exact veLogic_answers lt_of_engineOk
  case veAndi | veOri | veXori | veSlli | veSrli | veSrai => dsimp only [exec]; exact veLogicI_answers lt_of_engineOk
  case veLw | veLh | veLhs | veLb | veLbs | veLwx | veLbx => dsimp only [exec]; exact veLoad_answers lt_of_engineOk
  case veSw | veSh | veSb | veSwx | veSbx => dsimp only [exec]; exact veStore_answers lt_of_engineOk
  case zstat | kstat => dsimp only [exec]; exact veStat_answers lt_of_engineOk
  case zclose | kclose => dsimp only [exec]; exact veClose_answers lt_of_engineOk
  case jstep | pdsqSubmit => dsimp only [exec]; exact runVeIn_answers lt_of_engineOk
  case tanSpreq | cacWaypwrWrite | wback | cmpMessage | requestResend | requestTimeout | inviteTimeout | load | discoveryComplete | timeSyncInterval |
      timeHoldover | fabTbset | subchannelReload | subchannelTerminate | subchannelInvalidate | jwr | jack | jdef | jdack | jhnd | jhack |
      mirrorTimeout | takeover | veEventDispatch | venCtxselRelease | exchangeTimeout | streamContextTimeout | ciphContextTimeout |
      mailboxServiceStart | keystoneTimeout | entropyFailure | entropyRetest | clockQualified | clockSourceFailed | pllRelock | resetHoldPulse |
      powerEstimateTick | powerEmergencyEnd | gateClock | powerDown | wake | withdraw | clkSblkWrite | porstNAssert | coldReset | flashReadSlot |
      booDoorClose | firmwareSetCheck | loadWindowTimeout | handOver | warmReset | errNPulseEnd | logSummaryWrite | fltLogrdWrite | sdropClear |
      fltCntselClear | fltCntdataRead | thermalReading | droopReading | ageingReading | odometerMinute | odometerPowerOnWrite | odometerHourlyWrite |
      odometerWriteDone | odometerWriteNow | odometerShutdown | lifSndataRead | registerWrite | unmappedAccess | hostAccessSize | pcieLinkEvent |
      svcDbgdataAccess | bypass | idcode | samplePreload | extest | clamp | highz | thermtrip | vddAonLoss | maxclr | keystoneRestartComplete |
      explicitRequestDone | vddAonGood | powerLoss => dsimp only [exec]; exact settled_answers
  case pdsCommandEnd | velexCmd | velexResume | velexAbort | velexFence | echoInterval | portSilenceRetrain | velexRetrain | portTrainingAttempt |
      controllerSwitchover | claimTieTimeout | portBufferGrant | standbyControllerFailure | timeBaseComparator | jrdr | quarantineEnd | gearChange |
      thermalCapTick | avsWriteTimeout | sigrsp | veEngineFailure | plannedEngineMoveExpiry | zeRecordComplete | zeEngineFailure | stripeAssign |
      wallFailure | tanModeWrite | lockEntryEnable | linkRetrain | mailboxGo | mailboxAck | holdRelease | forcedRelease | clockSwitch | freewheelSwitch |
      fltSrcCfgWrite | droopEvent | traceEnable | gpioEdge => dsimp only [exec]; exact guarded_answers not_le_of_ok
  case stripeComplete | knownAnswerTest | keyCacheFill | velexLaneSparing | felardLaneSparing | rankPowerDown | regionBroadcastWrite | veProductWrite | veWatchdog =>
    dsimp only [exec]; exact guarded_answers not_or_of_ok
  case restartInterruption | spillFrame | fillFrame | checkpointComparison | retryTimeLimit | sparingMove | servicePortNotice | fnoteSend | delayRegisterParity =>
    dsimp only [exec]; refine (Ends.guard not_le_of_ok ?_).settled; dsimp only; repeat' split
    all_goals exact .next
  case rangeEngineLine => 
    dsimp only [exec]; refine (Ends.guard not_le_of_ok ?_).settled; split
    · exact .next
    · refine .ite (fun _ => .next) (fun _ => ?_)
      dsimp only; split
      · exact .next
      · exact .next
      · split <;> exact .next
  case storeBufferDrain | lockReady => dsimp only [exec]; exact (Ends.guard not_le_of_ok (.ite (fun _ => .next) (fun _ => .next))).settled
  case selfCheckSlot =>
    dsimp only [exec]; refine (Ends.guard not_le_of_ok ?_).settled; split
    · exact .next
    · exact .ite (fun _ => .next) (fun _ => .ite (fun _ => .next) (fun _ => .next))
  case packetTransit =>
    dsimp only [exec]
    exact (Ends.guard not_le_of_ok (.ite (fun _ => .next) fun _ => .ite (fun _ => .next) fun _ => .ite (fun _ => .next) fun _ =>
      .ite (fun _ => .next) fun _ => .ite (fun _ => arriveAll_ends) fun _ => .next)).settled
  case atomrsp => dsimp only [exec]; exact (atomrsp_answers (fun h => lt_of_lcOk (Bool.and_elim_left h)))
  case pmcOverflow | wayGroupTransitionEnd | breakpointHit =>
    dsimp only [exec]; refine (Ends.guard not_or_of_ok ?_).settled; dsimp only; repeat' split
    all_goals exact .next
  case debugHalt | debugStep | debugResume => dsimp only [exec]; exact guarded_answers (fun h => not_le_of_ok (decide_eq_true ((lt_of_lcOk h).trans (by decide))))
  case rds | rdo | upg | rdsnap | cmo => dsimp only [exec]; exact (serve_ends src_of_reqOk).settled
  case wrpl | atom => 
    dsimp only [exec]; exact (Ends.ite (fun _ => .next) (fun _ => serve_ends (fun h => src_of_reqOk (Bool.and_elim_left (Bool.and_elim_left h))))).settled
  case fwds | fwdo | fwdsnap => dsimp only [exec]; exact (fromCx_ends (fun h => lt_of_cxOk (b := true) (by simpa using Bool.and_elim_right h)) (snooped_ends (fun h => lt_of_cxOk (Bool.and_elim_left h)))).settled
  case dataS | dataE | dataSn | invack | nocopy | nack | unblk => dsimp only [exec]; exact (fromCx_ends (fun h => lt_of_cxOk h) .next).settled
  case wb | dataM | gnt | fwdack | tlbi => dsimp only [exec]; exact (fromCx_ends (fun h => lt_of_cxOk (Bool.and_elim_left h)) .next).settled
  case sig => dsimp only [exec]; exact (fromCx_ends (fun h => lt_of_cxOk (Bool.and_elim_left (Bool.and_elim_left h))) .next).settled
  case invite | fnote | tsreq | tsrsp => dsimp only [exec]; exact (fromCx_ends of_decide_eq_true .next).settled
  case snoopTimeout => dsimp only [exec]; exact (fromCx_ends (fun h => of_decide_eq_true (Bool.and_elim_right h)) .next).settled
  case inv | binv | cln => dsimp only [exec]; exact (snooped_ends lt_of_cxOk).settled
  case felardAck | felardNak | felardFence | felardPause => dsimp only [exec]; exact (ctlIn_ends of_decide_eq_true).settled
  case velexStatus | velexNak | velexCredit | velexEcho => dsimp only [exec]; exact (vrecv_ends of_decide_eq_true).settled
  case destroy | tkey | attest | measure | cert | assign | generate | importKey | setattr | random => dsimp only [exec]; exact (service_ends of_decide_eq_true).settled
  case engineUnitCompletion => 
    dsimp only [exec]; refine (Ends.guard (fun h => by simpa using lt_of_lcOk h) ?_).settled; split <;> exact .next
  case undefinedOpcode => 
    dsimp only [exec]; refine (Ends.ite (fun _ => Ends.ite (fun _ => .next) (fun hlc => .fault (fun h => hlc h))) (fun _ => (runCore_answers lt_of_lcOk).ends)).settled
  case interruptionEntry => dsimp only [exec]; exact (Ends.ite (fun _ => .next) (fun hlc => .fault (fun h => hlc (lt_of_lcOk h)))).settled
  case l3WaySparing => dsimp only [exec]; exact l3WaySparing_answers not_or_of_ok
  case directoryWaySparing => dsimp only [exec]; exact directoryWaySparing_answers not_le_of_ok
  case cacheFill => 
    dsimp only [exec]; refine (Ends.guard (fun h => ?_) ?_).settled
    · have harr := Bool.and_elim_left (Bool.and_elim_left h)
      simpa using show arrayOk _ = true from harr
    · repeat' split
      all_goals exact .next
  case patrolScrub mc res =>
    dsimp only [exec]; refine guarded_answers (fun h => ?_)
    have hok : (portOk mc && scrubOk res) = true := h
    cases res <;> simp [portOk, scrubOk, rankOk, Sys2Proof.devOk, Machine.devOk] at hok ⊢ <;> omega
  case venCtxdataRead | tanCkdataRead => dsimp only [exec]; exact settled_answers
  case jrd => dsimp only [exec]; exact guarded_answers (fun h => not_le_of_ok (Bool.and_elim_right h))
  case tlbiack => 
    dsimp only [exec]; exact (Ends.guard (fun h => not_le_of_ok (Bool.and_elim_right h)) (fromCx_ends (fun h => lt_of_cxOk h) .next)).settled
  case regionRegisterWrite | disc => dsimp only [exec]; exact guarded_answers not_or_or_of_ok
  case lsn ev =>
    dsimp only [exec]; cases ev
    case link => exact guarded_answers not_or_of_ok
    case removed => exact guarded_answers not_le_of_ok
  case deviceSparingCopy mc dimm rank dev ph =>
    dsimp only [exec]; refine guarded_answers (fun h => ?_)
    have hok : ((portOk mc && rankOk dimm) && rankOk rank && Sys2Proof.devOk dev) = true := h
    simp [portOk, rankOk, Sys2Proof.devOk, Machine.devOk] at hok ⊢; omega
  case portPllLoss vp =>
    dsimp only [exec]; cases vp
    · exact settled_answers
    · exact guarded_answers not_le_of_ok
  case velexData =>
    dsimp only [exec]; exact (Ends.ite (fun _ => vrecv_ends of_decide_eq_true) (fun _ => .guard not_le_of_ok .next)).settled
  case velexAck =>
    dsimp only [exec]; exact (Ends.ite (fun _ => .guard not_le_of_ok .next) (fun _ => vrecv_ends of_decide_eq_true)).settled
  case wait e ctx t a rsv imm => exact wait_answers e ctx t a rsv imm
  case marginDetectorFire u => exact marginDetectorFire_answers u
  case faultEvent ev => exact absurd rfl (hi ev)


theorem Answers.next_eq {ok : Prop} {s t : State} (h : Answers ok s (.next t)) : ∃ u, t = left s u := by
  rcases h with ⟨u, hu⟩ | ⟨⟨r, hr⟩, -⟩
  · exact ⟨u, by cases hu; rfl⟩
  · cases hr

theorem Answers.not_refused {ok : Prop} {s : State} {o : Out} (h : Answers ok s o) (r : Refusal) : o ≠ .refused r := by
  rcases h with ⟨u, rfl⟩ | ⟨⟨f, rfl⟩, -⟩ <;> exact fun h => nomatch h

theorem Answers.runs {ok : Prop} {s : State} {o : Out} (h : Answers ok s o) (hok : ok) : ∃ t, o = .next t := by
  rcases h with ⟨u, rfl⟩ | ⟨-, hn⟩
  · exact ⟨_, rfl⟩
  · exact absurd hok hn

/-- What is well-formed for every command: its operands, and for an event of the fault collector its source and unit too. -/
def Named (i : Instr) : Prop := wf i = true ∧ ∀ ev, i = .faultEvent ev → fltUsed ev.src = true ∧ ev.unit < fltUnits ev.src

/-- Every command answers: it leaves a next state, or faults on what it names. -/
theorem command_answers (i : Instr) (s : State) : Answers (Named i) s (exec i s) := by
  by_cases hev : ∃ ev, i = .faultEvent ev
  · obtain ⟨ev, rfl⟩ := hev
    exact (faultEvent_answers ev).imp id (fun ⟨hr, hok⟩ => ⟨hr, fun ⟨hwf, hnamed⟩ => hok ⟨hwf, hnamed ev rfl⟩⟩)
  · exact (exec_answers i s (fun ev he => hev ⟨ev, he⟩)).imp id (fun ⟨hr, hok⟩ => ⟨hr, fun ⟨hwf, _⟩ => hok hwf⟩)

/-- What a command leaves has the queue as it was and ERR_N following its causes. -/
theorem exec_next_eq {i : Instr} {s t : State} (h : exec i s = .next t) : ∃ u, t = left s u := (h ▸ command_answers i s).next_eq

/-- Settles O58: every command answers, and faults only where it names a unit that no OZ7200 has. -/
theorem everyCommandRuns : Obligations.EveryCommandRuns := by
  unfold Obligations.EveryCommandRuns
  exact ⟨fun i s hwf hev => (command_answers i s).runs ⟨hwf, hev⟩, fun i s r => (command_answers i s).not_refused r⟩

/-! A step -/

theorem step_of_empty {s : State} (h : s.pending = []) : step s = .next s.tick := by rw [step, h]

theorem step_of_front {s : State} {c : Instr} {r : List Instr} (h : s.pending = c :: r) : step s = exec c { s with pending := r } := by rw [step, h]

/-- The time base counts, and ERR_N's causes stay. -/
theorem tbTick_pinOk {s : State} (h : PinOk s) : PinOk s.tbTick := h

theorem tick_pinOk {s : State} (h : PinOk s) : PinOk s.tick := by
  unfold State.tick
  split
  · exact h
  · split
    · exact tbTick_pinOk h
    · exact State.errPin_ok _

/-- Settles O56: a command ends by bringing ERR_N to its causes, and so does a tick that can change them. PIN shows what this complex drives, the model's choice (log 103). -/
theorem pinFollowsEveryStep : Obligations.PinFollowsEveryStep := by
  unfold Obligations.PinFollowsEveryStep
  intro s t hpin hstep
  cases hq : s.pending with
  | nil =>
    rw [step_of_empty hq] at hstep
    cases hstep
    exact tick_pinOk hpin
  | cons c r =>
    rw [step_of_front hq] at hstep
    obtain ⟨u, rfl⟩ := exec_next_eq hstep
    exact left_pinOk _ u

/-- The time base counts by the quotient of what has gathered, and keeps the rest. -/
theorem tbTick_eq {s : State} {k : Nat} (hk : (k : Int) = (s.fab.frac : Int) + 1000000 + s.fab.rate) :
    s.tbTick = { s with fab := { s.fab with tb := s.fab.tb + BitVec.ofNat 64 (k / 1000000), frac := k % 1000000 } } := by
  simp only [State.tbTick, ← hk, Int.toNat_natCast]

/-- Settles O54: by the two cases of a step, and those of a tick. -/
theorem stepRunsTheFront : Obligations.StepRunsTheFront := by
  unfold Obligations.StepRunsTheFront
  refine ⟨fun c s => rfl, fun s t k hq hk ht => ?_⟩
  rw [step_of_empty hq, ht, ← tbTick_eq hk]
  refine ⟨fun hdead => ?_, fun hdead hfence => ?_, fun hdead hfence => ?_, fun hrate hfrac => ?_⟩
  · simp [State.tick, hdead]
  · simp [State.tick, hdead, hfence]
  · simp [State.tick, hdead, hfence]
  · simp [State.tbTick, hrate, hfrac]

end Sys2Proof.Machine
end

section
/-! PROOFS. The queue: no operation of a tick touches it (faults and their reactions, the home's directory and data, the fabric), so no step does. -/

namespace Sys2Proof.Machine

@[simp] theorem pending_ite {P : Prop} [Decidable P] (s t : State) : (if P then s else t).pending = if P then s.pending else t.pending := apply_ite _ _ _ _

theorem foldl_pending {α : Type} {f : State → α → State} (hf : ∀ s a, (f s a).pending = s.pending) (l : List α) (s : State) : (l.foldl f s).pending = s.pending := by
  induction l generalizing s with
  | nil => rfl
  | cons a l ih => rw [List.foldl_cons, ih, hf]

@[simp] theorem State.tbTick_pending (s : State) : s.tbTick.pending = s.pending := rfl

@[simp] theorem State.count_pending (s : State) (f : Fld) (ovf : Option Fld) (i : Nat) (j : Nat) (n : Nat) : (s.count f ovf i j n).pending = s.pending := by
  unfold State.count; split <;> simp

@[simp] theorem State.fltClass_pending (s : State) (source unit : Nat) : (s.fltClass source unit).1.pending = s.pending := rfl
@[simp] theorem State.fltTally_pending (s : State) (source cls : Nat) : (s.fltTally source cls).pending = s.pending := rfl
@[simp] theorem State.errPulse_pending (s : State) : s.errPulse.pending = s.pending := rfl
@[simp] theorem State.logPut_pending (s : State) (d0 d1 d2 dropped : Nat) : (s.logPut d0 d1 d2 dropped).pending = s.pending := rfl

@[simp] theorem State.logSummary_pending (s : State) : s.logSummary.pending = s.pending := by
  unfold State.logSummary; split <;> simp

@[simp] theorem State.logEvent_pending (s : State) (ev : FaultEv) (cls reacts : Nat) : (s.logEvent ev cls reacts).1.pending = s.pending := by
  unfold State.logEvent; dsimp only; (repeat' split) <;> simp

@[simp] theorem State.holdMc_pending (s : State) (cls key : Nat) (id : W64) : (s.holdMc cls key id).pending = s.pending := by simp [State.holdMc]

@[simp] theorem State.imon_pending (s : State) (source cls unit pid : Nat) : (s.imon source cls unit pid).pending = s.pending := by
  unfold State.imon; split <;> simp

@[simp] theorem State.feedFnote_pending (s : State) (cls source unit : Nat) : (s.feedFnote cls source unit).pending = s.pending := foldl_pending (fun s d => by dsimp only; rw [pending_ite]; exact ite_self _) _ _
@[simp] theorem State.releaseRange_pending (s : State) (lc : Nat) (p : RangeOp → Bool) : (s.releaseRange lc p).pending = s.pending := rfl
@[simp] theorem State.discardCore_pending (s : State) (lc : Nat) : (s.discardCore lc).pending = s.pending := rfl
@[simp] theorem State.requestSparing_pending (s : State) (lc : Nat) (failing : Bool) : (s.requestSparing lc failing).pending = s.pending := by simp [State.requestSparing]

@[simp] theorem State.spareReact_pending (s : State) (source unit : Nat) : (s.spareReact source unit).pending = s.pending := by
  unfold State.spareReact; (repeat' split) <;> simp

@[simp] theorem State.fpart_pending (s : State) (source cls unit pid : Nat) : (s.fpart source cls unit pid).pending = s.pending := by
  unfold State.fpart; split
  · simp
  · rw [State.holdMc_pending, foldl_pending]
    intro s n; dsimp only; split <;> rfl

@[simp] theorem State.ctlFlit_pending (s : State) (p ctype seq : Nat) : (s.ctlFlit p ctype seq).pending = s.pending := rfl
@[simp] theorem State.sendLink_pending (s : State) (v code : Nat) (args : List Nat) : (s.sendLink v code args).pending = s.pending := rfl
@[simp] theorem State.fencePorts_pending (s : State) (reason : Byte) : (s.fencePorts reason).pending = s.pending := foldl_pending (fun s v => by dsimp only; split <;> simp) _ _

@[simp] theorem State.fence_pending (s : State) (source unit : Nat) : (s.fence source unit).pending = s.pending := by
  unfold State.fence; split
  · rfl
  · dsimp only
    rw [foldl_pending (fun s m => by simp), State.fencePorts_pending]
    dsimp only
    rw [foldl_pending (fun s p => by simp), foldl_pending (fun s n => by split <;> rfl)]
    simp

@[simp] theorem State.fltReact_pending (s : State) (ev : FaultEv) (cls mask : Nat) : (s.fltReact ev cls mask).pending = s.pending := by simp [State.fltReact]

@[simp] theorem State.fault_pending (s : State) (ev : FaultEv) : (s.fault ev).pending = s.pending := by
  unfold State.fault; dsimp only; (repeat' split) <;> simp

@[simp] theorem State.flt_pending (s : State) (g i : Nat) (unit : Nat) (pid : Option Nat) (detail : W64) : (s.flt g i unit pid detail).pending = s.pending := by simp [State.flt]
@[simp] theorem State.unreach_pending (s : State) (dst : Nat) : (s.unreach dst).pending = s.pending := by simp [State.unreach]
@[simp] theorem State.transmit_pending (s : State) (p l : Nat) (x : FPort) (k : Pkt) : (s.transmit p l x k).pending = s.pending := rfl

@[simp] theorem State.fpump_pending (s : State) (p : Nat) (n : Nat) : (s.fpump p n).pending = s.pending := by
  induction n generalizing s with
  | zero => rfl
  | succ n ih =>
    unfold State.fpump; dsimp only
    split
    · rfl
    · split
      · rfl
      · split
        · rfl
        · rw [ih]; simp

@[simp] theorem State.fflush_pending (s : State) (p : Nat) : (s.fflush p).pending = s.pending := by simp [State.fflush]

@[simp] theorem State.forward_pending (s : State) (h : BitVec 256) (d : Option Line) : (s.forward h d).pending = s.pending := by
  unfold State.forward; dsimp only; (repeat' split) <;> simp

@[simp] theorem State.endReq_pending (s : State) (line : Nat) (f : Nat → ReqEnt → State) (hf : ∀ k q, (f k q).pending = s.pending) : (s.endReq line f).pending = s.pending := by
  unfold State.endReq; split
  · exact hf _ _
  · rfl

@[simp] theorem State.reqLost_pending (s : State) (k : Nat) (q : ReqEnt) : (s.reqLost k q).pending = s.pending := by
  unfold State.reqLost; split <;> simp

@[simp] theorem State.setTxn_pending (s : State) (line : Nat) (t : Option Txn) : (s.setTxn line t).pending = s.pending := by
  unfold State.setTxn; split <;> simp

@[simp] theorem State.setDir_pending (s : State) (line : Nat) (e : Option DirEnt) : (s.setDir line e).pending = s.pending := by
  unfold State.setDir; split <;> simp

@[simp] theorem State.coh_pending (s : State) (dst code line : Nat) (lock : Bool) (args : List Nat) : (s.coh dst code line lock args).pending = s.pending := rfl

@[simp] theorem State.contact_pending (s : State) (r : Req) (w : Nat) (t : Txn) : (s.contact r w t).1.pending = s.pending := by
  unfold State.contact; split <;> simp

@[simp] theorem State.pwr_pending (s : State) (m : Nat) : (s.pwr m).pending = s.pending := by simp [State.pwr]
@[simp] theorem State.rankAccess_pending (s : State) (m q : Nat) : (s.rankAccess m q).pending = s.pending := by simp [State.rankAccess]
@[simp] theorem State.dram_pending (s : State) (line : Nat) : (s.dram line).pending = s.pending := by simp [State.dram]
@[simp] theorem State.rgnFail_pending (s : State) (a pid stype cx : Nat) (need : Need) : (s.rgnFail a pid stype cx need).pending = s.pending := by simp [State.rgnFail]
@[simp] theorem State.wbStore_pending (s : State) (src line pid stype : Nat) (data : Line) (poison : Bool) : (s.wbStore src line pid stype data poison).pending = s.pending := by simp [State.wbStore]

@[simp] theorem State.writeback_pending (s : State) (line : Nat) (c : CLine) (poison : Bool) (keep : Bool) (lock : Bool) : (s.writeback line c poison keep lock).pending = s.pending := by
  unfold State.writeback; split <;> simp

@[simp] theorem State.dropLine_pending (s : State) (line : Nat) (discard : Bool) (keep : Bool) (lock : Bool) : (s.dropLine line discard keep lock).pending = s.pending := by
  unfold State.dropLine; split <;> simp

@[simp] theorem State.install_pending (s : State) (line : Nat) (c : CLine) : (s.install line c).pending = s.pending := by
  unfold State.install; dsimp only; (repeat' split) <;> simp

@[simp] theorem State.grantLine_pending (s : State) (r : Req) (excl gnt : Bool) : (s.grantLine r excl gnt).pending = s.pending := by
  unfold State.grantLine; dsimp only; (repeat' split) <;> simp

@[simp] theorem State.deliver_pending (s : State) (r : Req) (t : Transient) : (s.deliver r t).pending = s.pending := rfl

@[simp] theorem State.fillPrivate_pending (s : State) (array line pid : Nat) : (s.fillPrivate array line pid).pending = s.pending := by
  unfold State.fillPrivate; dsimp only; (repeat' split) <;> simp

@[simp] theorem State.placeLine_pending (s : State) (line pid stype : Nat) (place : BitVec 18) (rights : BitVec 3) (d : Line) : (s.placeLine line pid stype place rights d).pending = s.pending := by simp [State.placeLine]
@[simp] theorem State.doWrpl_pending (s : State) (r : Req) : (s.doWrpl r).pending = s.pending := by simp [State.doWrpl]

@[simp] theorem State.doAtom_pending (s : State) (r : Req) (remote : Bool) : (s.doAtom r remote).pending = s.pending := by
  unfold State.doAtom; dsimp only; (repeat' split) <;> simp

@[simp] theorem State.lockHit_pending (s : State) (line : Nat) : (s.lockHit line).1.pending = s.pending := by
  unfold State.lockHit; dsimp only; (repeat' split) <;> simp

@[simp] theorem State.cmoHome_pending (s : State) (r : Req) (k : CmoKind) : (s.cmoHome r k).pending = s.pending := by
  unfold State.cmoHome; dsimp only; (repeat' split) <;> simp

@[simp] theorem State.cmoDone_pending (s : State) (r : Req) : (s.cmoDone r).pending = s.pending := by simp [State.cmoDone]

@[simp] theorem State.respond_pending (s : State) (r : Req) (t : Txn) : (s.respond r t).1.pending = s.pending := by
  unfold State.respond; dsimp only; split <;> simp

@[simp] theorem State.ownerLost_pending (s : State) (line cx : Nat) : (s.ownerLost line cx).pending = s.pending := by
  unfold State.ownerLost; split <;> simp

@[simp] theorem State.advance_pending (s : State) (line : Nat) : (s.advance line).1.pending = s.pending := by
  unfold State.advance; dsimp only; (repeat' split) <;> simp

@[simp] theorem State.snoop_pending (s : State) (code line : Nat) (lock : Bool) (cxs : List Nat) : (s.snoop code line lock cxs).pending = s.pending := foldl_pending (fun s c => by simp) _ _

@[simp] theorem State.openTxn_pending (s : State) (r : Req) : (s.openTxn r).pending = s.pending := by
  unfold State.openTxn; (repeat' split) <;> simp

@[simp] theorem State.resvStat_pending (s : State) : s.resvStat.pending = s.pending := by simp [State.resvStat]

@[simp] theorem State.freeResv_pending (s : State) : s.freeResv.pending = s.pending := by
  unfold State.freeResv; split <;> simp

@[simp] theorem State.refuse_pending (s : State) (r : Req) : (s.refuse r).pending = s.pending := by
  unfold State.refuse; split <;> simp

@[simp] theorem State.evictDir_pending (s : State) (line : Nat) (e : DirEnt) (lock : Bool) (for_ : Option Nat) : (s.evictDir line e lock for_).1.pending = s.pending := by
  simp [State.evictDir, foldl_pending (fun s c => show (if s.present c then s else s.ownerLost line c).pending = s.pending by simp)]

theorem State.accept_pending (s : State) (r : Req) {t : State} (ht : s.accept r = some t) : t.pending = s.pending := by
  unfold State.accept at ht; dsimp only at ht
  split at ht
  · cases ht; simp
  · split at ht
    · cases ht; simp
    · split at ht
      · cases ht
      · cases ht; simp

theorem State.serveOne_pending (s : State) {t : State} (ht : s.serveOne = some t) : t.pending = s.pending := by
  obtain ⟨r, -, hr⟩ := List.exists_of_findSome?_eq_some ht
  split at hr
  · cases hr
  · obtain ⟨u, hu, rfl⟩ := Option.map_eq_some_iff.1 hr
    simp [State.accept_pending _ _ hu]

theorem State.serveStored_pending (n : Nat) (s : State) : (State.serveStored n s).pending = s.pending := by
  induction n generalizing s with
  | zero => rfl
  | succ n ih =>
    unfold State.serveStored; split
    · rfl
    · next t ht => rw [ih, State.serveOne_pending s ht]

@[simp] theorem State.closed_pending (s : State) (waiting : Option Nat) : (s.closed waiting).pending = s.pending := by
  unfold State.closed; dsimp only
  rw [State.serveStored_pending]
  (repeat' split) <;> simp

@[simp] theorem State.onTxn_pending (s : State) (line : Nat) (f : Txn → Txn) : (s.onTxn line f).pending = s.pending := by
  unfold State.onTxn; split <;> simp

@[simp] theorem State.noCopy_pending (s : State) (line : Nat) : (s.noCopy line).pending = s.pending := by simp [State.noCopy]

@[simp] theorem State.silent_pending (s : State) (line cx : Nat) : (s.silent line cx).pending = s.pending := by
  unfold State.silent; split <;> simp

@[simp] theorem State.unsent_pending (s : State) (m : Msg) : (s.unsent m).pending = s.pending := by simp [State.unsent]
@[simp] theorem State.launch_pending (s : State) (m : Msg) : (s.launch m).pending = s.pending := by simp [State.launch]

@[simp] theorem State.launchAll_pending (s : State) : s.launchAll.pending = s.pending := by
  unfold State.launchAll; split
  · rfl
  · rw [foldl_pending State.launch_pending]

@[simp] theorem State.wbData_pending (s : State) (w : WbMsg) : (s.wbData w).pending = s.pending := by simp [State.wbData]

@[simp] theorem State.dropOwner_pending (s : State) (line : Nat) : (s.dropOwner line).pending = s.pending := by
  unfold State.dropOwner; split <;> simp

@[simp] theorem State.wbOpen_pending (s : State) (t : Txn) (w : WbMsg) : (s.wbOpen t w).pending = s.pending := by simp [State.wbOpen]

@[simp] theorem State.wbTake_pending (s : State) (w : WbMsg) : (s.wbTake w).pending = s.pending := by
  unfold State.wbTake; dsimp only; rw [State.coh_pending]; (repeat' split) <;> simp

@[simp] theorem State.wbDrain_pending (s : State) : s.wbDrain.pending = s.pending := by
  unfold State.wbDrain; dsimp only; split <;> simp

@[simp] theorem State.tick_pending (s : State) : s.tick.pending = s.pending := by simp [State.tick]

/-- Settles O55: `exec` leaves the queue's rest, and so does a tick, whose queue is empty. -/
theorem stepKeepsTheQueue : Obligations.StepKeepsTheQueue := by
  unfold Obligations.StepKeepsTheQueue
  intro s t hstep
  have hrest : t.pending = s.pending.tail := by
    cases hq : s.pending with
    | nil =>
      rw [step_of_empty hq] at hstep
      cases hstep
      rw [State.tick_pending, hq, List.tail_nil]
    | cons c r =>
      rw [step_of_front hq] at hstep
      obtain ⟨u, rfl⟩ := exec_next_eq hstep
      rw [left_pending, List.tail_cons]
  exact ⟨hrest, fun hok c hc => hok c (List.mem_of_mem_tail (hrest ▸ hc))⟩

end Sys2Proof.Machine
end

section
/-! PROOFS. What a command leaves, by what its definition unfolds to. -/

namespace Sys2Proof.Machine

theorem leaves_of_settled {i : Instr} {s v : State} {o : Out} (hi : exec i s = settled s o) (ho : o = .next v) : Leaves i s v := by
  rw [Leaves, hi, ho, settled_next]

theorem leaves_of_alive {i : Instr} {s u v : State} (hi : exec i s = settled s (.next (if s.dead then s else u))) (hdead : s.dead = false) (heq : u = v) : Leaves i s v := by
  rw [Leaves, hi, if_neg (by simp [hdead]), settled_next, heq]

end Sys2Proof.Machine
end

section
/-! PROOFS. Counting, windows and classes of one event (20 R432 to R434). -/

namespace Sys2Proof.Machine

/-! One event, in its three steps: count (R432), window (R433), class (R433, R434). -/

/-- The record of the faulting unit with the event in COUNT and OVF. -/
def FltInst.counted (x : FltInst) : FltInst :=
  { x with count := BitVec.ofNat 32 (min (x.count.toNat + 1) (2 ^ 32 - 1)), ovf := x.ovf || decide (2 ^ 32 ≤ x.count.toNat + 1) }

/-- Does an event open a window: none is open, or the open one has lasted T. -/
def FltInst.fresh (x : FltInst) (t now : Nat) : Bool := !x.open_ || decide (t ≤ now - x.wstart.toNat)

/-- The record of the faulting unit with the event in its window. -/
def FltInst.windowed (x : FltInst) (t now : Nat) : FltInst :=
  if x.fresh t now then { x with escc := if x.open_ then 0 else x.escc, wstart := BitVec.ofNat 64 now, wcnt := 1, open_ := true }
  else { x with wcnt := x.wcnt + 1 }

/-- The class of an event by the count of its window; a recurring one closes the window. -/
def FltInst.classed (x : FltInst) (n escn : Nat) : FltInst × Nat :=
  if n ≤ x.wcnt then
    if escn ≠ 0 && decide (escn ≤ x.escc + 1) then ({ x with open_ := false, wcnt := 0, escc := 0 }, 2)
    else ({ x with open_ := false, wcnt := 0, escc := min (x.escc + 1) 15 }, 1)
  else (x, 0)

section
variable (x : FltInst) (n escn t now : Nat)

theorem event_severe : x.event true n escn t now = (x.counted, 2) := rfl

theorem event_unfixed : x.event false n escn t now = (x.counted.windowed t now).classed n escn := rfl

@[simp] theorem counted_count : x.counted.count.toNat = min (x.count.toNat + 1) (2 ^ 32 - 1) := by
  simp only [FltInst.counted, BitVec.toNat_ofNat]; omega

theorem counted_ovf : x.counted.ovf = true ↔ x.ovf = true ∨ x.count = BitVec.allOnes 32 := by
  have hlt := x.count.isLt
  have hall : x.count = BitVec.allOnes 32 ↔ 2 ^ 32 ≤ x.count.toNat + 1 := by
    rw [← BitVec.toNat_inj, BitVec.toNat_allOnes]; omega
  rw [hall, FltInst.counted, Bool.or_eq_true, decide_eq_true_iff]

@[simp] theorem windowed_count : (x.windowed t now).count = x.count := by unfold FltInst.windowed; split <;> rfl

@[simp] theorem windowed_ovf : (x.windowed t now).ovf = x.ovf := by unfold FltInst.windowed; split <;> rfl

@[simp] theorem classed_count : (x.classed n escn).1.count = x.count := by unfold FltInst.classed; (repeat' split) <;> rfl

@[simp] theorem classed_ovf : (x.classed n escn).1.ovf = x.ovf := by unfold FltInst.classed; (repeat' split) <;> rfl

variable {x n escn t now}

theorem windowed_of_fresh (h : x.fresh t now = true) :
    x.windowed t now = { x with escc := if x.open_ then 0 else x.escc, wstart := BitVec.ofNat 64 now, wcnt := 1, open_ := true } := if_pos h

theorem windowed_of_running (h : x.fresh t now = false) : x.windowed t now = { x with wcnt := x.wcnt + 1 } := if_neg (by simp [h])

theorem fresh_of_closed (h : x.open_ = false) : x.fresh t now = true := by simp [FltInst.fresh, h]

theorem fresh_of_expired (h : x.wstart.toNat + t ≤ now) : x.fresh t now = true := by simp [FltInst.fresh]; omega

theorem not_fresh_of_running (hopen : x.open_ = true) (ht : 0 < t) (hnow : now < x.wstart.toNat + t) : x.fresh t now = false := by
  simp [FltInst.fresh, hopen]; omega

theorem one_le_windowed_wcnt : 1 ≤ (x.windowed t now).wcnt := by unfold FltInst.windowed; split <;> simp

theorem classed_of_lt (h : x.wcnt < n) : x.classed n escn = (x, 0) := if_neg (Nat.not_le.mpr h)

theorem classed_closes (h : n ≤ x.wcnt) : (x.classed n escn).2 ≠ 0 ∧ (x.classed n escn).1.open_ = false ∧ (x.classed n escn).1.wcnt = 0 := by
  unfold FltInst.classed; rw [if_pos h]; split <;> simp

theorem classed_severe (h : n ≤ x.wcnt) (h0 : escn ≠ 0) (hesc : escn ≤ x.escc + 1) :
    (x.classed n escn).2 = 2 ∧ (x.classed n escn).1.escc = 0 := by
  simp [FltInst.classed, h, h0, hesc]

theorem classed_recurring (h : n ≤ x.wcnt) (hesc : escn = 0 ∨ x.escc + 1 < escn) :
    (x.classed n escn).2 = 1 ∧ (x.classed n escn).1.escc = min (x.escc + 1) 15 := by
  have hnot : ¬ (escn ≠ 0 ∧ escn ≤ x.escc + 1) := by omega
  simp [FltInst.classed, h, hnot]

end

theorem event_counts (x : FltInst) (sev : Bool) (n escn t now : Nat) :
    (x.event sev n escn t now).1.count = x.counted.count ∧ (x.event sev n escn t now).1.ovf = x.counted.ovf := by
  cases sev
  · simp [event_unfixed]
  · exact ⟨rfl, rfl⟩

/-- An event that opens a window is noted, while N is above 1. -/
theorem event_opens {x : FltInst} {n escn t now : Nat} (hn : 1 < n) (h : x.fresh t now = true) :
    x.event false n escn t now = ({ x.counted with escc := if x.open_ then 0 else x.escc, wstart := BitVec.ofNat 64 now, wcnt := 1, open_ := true }, 0) := by
  rw [event_unfixed, windowed_of_fresh (x := x.counted) h, classed_of_lt hn]; rfl

/-- Settles O50: by the steps of an event. -/
theorem faultClassification : Obligations.FaultClassification := by
  unfold Obligations.FaultClassification
  intro x n escn t now
  refine ⟨fun sev => ?counts, rfl, fun hn hopen hnow => ?first, fun hn hopen hexp hnow => ?again, fun hn => ?every, fun hopen ht hnow hn => ?adds, fun hopen ht hnow hn => ?closes⟩
  case counts =>
    obtain ⟨hcount, hovf⟩ := event_counts x sev n escn t now
    rw [hcount, hovf]
    exact ⟨counted_count x, counted_ovf x⟩
  case first => simpa [event_opens hn (fresh_of_closed hopen), hopen] using hnow
  case again => simpa [event_opens hn (fresh_of_expired hexp), hopen] using hnow
  case every =>
    rw [event_unfixed]
    obtain ⟨hclass, hshut, -⟩ := classed_closes (escn := escn) (hn ▸ one_le_windowed_wcnt (x := x.counted) (t := t) (now := now))
    exact ⟨hclass, hshut⟩
  case adds =>
    rw [event_unfixed, windowed_of_running (x := x.counted) (not_fresh_of_running hopen ht hnow), classed_of_lt hn]
    exact ⟨rfl, rfl, rfl, rfl⟩
  case closes =>
    rw [event_unfixed, windowed_of_running (x := x.counted) (not_fresh_of_running hopen ht hnow)]
    obtain ⟨-, hshut, hwcnt⟩ := classed_closes (x := { x.counted with wcnt := x.counted.wcnt + 1 }) (escn := escn) hn
    exact ⟨hshut, hwcnt, fun h0 hesc => classed_severe hn h0 hesc, fun hesc => classed_recurring hn hesc⟩

end Sys2Proof.Machine
end

section
/-! PROOFS. Engine instructions of a core: CMPRS, XPAND and CIPH (15 R356 to R358; 16 R369, R370). -/

namespace Sys2Proof.Machine

/-- The instructions of a request block retire from what their operation leaves, with nothing to replay. -/
theorem engIns_retires {i : Instr} {s u : State} {lc minor : Nat} {t a : BitVec 5} {w : CoreWait} {body : State → W64 → IRes} (e : State → Out)
    (hi : exec i s = e s) (he : e s = engIns lc minor t a 0 0 s body) (h : ReadyWith s lc 4 w) (halign : ((s.core lc).arch.getG a).toNat % 64 = 0)
    (hb : body s ((s.core lc).arch.getG a) = .done u) : Retires i s lc 4 u := by
  have hsp : (((s.core lc).arch.getG a).toNat % 64 != 0) = false := by simp [halign]
  exact retires_of_done (hi.trans he) h (Pre.passes_of_plain ⟨rfl, rfl, rfl, rfl⟩ hsp) ((State.once_nil s lc _ _ _ h.replay).trans hb)

theorem cmprs_retires {s u : State} {lc : Nat} {t a : BitVec 5} {w : CoreWait} (h : ReadyWith s lc 4 w) (halign : ((s.core lc).arch.getG a).toNat % 64 = 0)
    (hb : zExec false lc t s ((s.core lc).arch.getG a) = .done u) : Retires (.cmprs lc t a 0 0) s lc 4 u :=
  engIns_retires (execCmprs lc t a 0 0) rfl rfl h halign hb

theorem xpand_retires {s u : State} {lc : Nat} {t a : BitVec 5} {w : CoreWait} (h : ReadyWith s lc 4 w) (halign : ((s.core lc).arch.getG a).toNat % 64 = 0)
    (hb : zExec true lc t s ((s.core lc).arch.getG a) = .done u) : Retires (.xpand lc t a 0 0) s lc 4 u :=
  engIns_retires (execXpand lc t a 0 0) rfl rfl h halign hb

theorem ciph_retires {s u : State} {lc : Nat} {t a : BitVec 5} {w : CoreWait} (h : ReadyWith s lc 4 w) (halign : ((s.core lc).arch.getG a).toNat % 64 = 0)
    (hb : cExec lc t s ((s.core lc).arch.getG a) = .done u) : Retires (.ciph lc t a 0 0) s lc 4 u :=
  engIns_retires (execCiph lc t a 0 0) rfl rfl h halign hb

/-- XPAND when `dec`, else CMPRS. -/
theorem zIns_retires {s u : State} {lc : Nat} {t a : BitVec 5} {w : CoreWait} (dec : Bool) (h : ReadyWith s lc 4 w) (halign : ((s.core lc).arch.getG a).toNat % 64 = 0)
    (hb : zExec dec lc t s ((s.core lc).arch.getG a) = .done u) : Retires (if dec then .xpand lc t a 0 0 else .cmprs lc t a 0 0) s lc 4 u := by
  cases dec
  · exact cmprs_retires h halign hb
  · exact xpand_retires h halign hb

/-- The completion of a unit hands what it consumed to the instruction that waits. -/
theorem engineUnitCompletion_leaves {s : State} {lc kind blk : Nat} {e : UnitEnd} (hlc : lc < 48) (hw : (s.core lc).wait = .unit kind blk) :
    Leaves (.engineUnitCompletion lc e) s (s.updCore lc (fun d => { d with wait := .unitGot e.consumed })) :=
  leaves_of_settled rfl (by simp only [hlc, hw, decide_true, Bool.not_true, Bool.false_eq_true, ↓reduceIte])

/-- The agent that a core's engine requests name (15 R356, 16 R369). -/
abbrev State.unitAgent (s : State) (lc stype : Nat) : Agent := { tag := 128 + lc, pid := (s.xc lc).pid, stype := stype }

/-- The key of a request's context: its block's absolute address and the PID. -/
abbrev State.unitKey (s : State) (lc abs : Nat) : Nat := abs * 256 + (s.xc lc).pid

/-- The core waits for its unit no more. -/
abbrev State.unitOver (s : State) (lc : Nat) : State := s.updCore lc (fun d => { d with wait := .none })

section
variable {s u v : State} {lc n0 b abs : Nat} {t : BitVec 5} {addr : W64}

/-- A unit of CMPRS or XPAND whose accesses succeed and whose records are good. -/
theorem zExec_unit (dec : Bool) {z : ZCtx} {data : List Byte} {p q : List (Nat × Nat × W64)} {n : Nat} {o : ZUnit}
    (hw : (s.core lc).wait = .unitGot n0) (hblk : s.loadNat (s.xc lc) addr 64 = .ok s b) (habs : s.translate (s.xc lc) addr .rd = .ok s abs)
    (hok : zRefusal s dec b = none) (hz : s.chn.zctx.find (s.unitKey lc abs) = some z) (hn : n = min (min n0 4096) (dw b 8 2 - z.inDone))
    (hdata : s.engLoad (s.xc lc) (s.unitAgent lc 4) (BitVec.ofNat 64 (dw b 8 1) + BitVec.ofNat 64 z.inDone) n = .ok s data)
    (ho : o = zUnit dec b z data (z.inDone + n = dw b 8 2)) (hcode : o.code = 0) (hraw : o.raw = 0)
    (hp : s.placesOf (s.xc lc) .wr (BitVec.ofNat 64 (dw b 8 3) + BitVec.ofNat 64 z.outDone) o.out.length = .ok s p) (hq : s.placesOf (s.xc lc) .wr (addr + 40) 16 = .ok s q)
    (hu : s.engWrite (s.unitAgent lc 4) p o.out = .ok u ())
    (hv : u.engWrite (s.unitAgent lc 4) q (toBytes 8 o.z.inDone ++ toBytes 8 o.z.outDone) = .ok v ()) :
    zExec dec lc t s addr = engDone lc t
      (if o.fin then (v.unitOver lc).zFree (s.unitKey lc abs) else (v.unitOver lc).zPut (s.unitKey lc abs) o.z)
      (compWord 0 o.z.outDone) (if o.fin then 0 else 3) := by
  subst hn ho
  have hbusy : (dw b 8 5 = 0 && (CoreWait.unitGot n0 == CoreWait.none)) = false := by simp
  simp only [zExec, hblk, habs, SRes.run, hok, hw, hbusy, hz, hdata, SRes.bind, hp, hq, hu, hv, hcode, hraw, Bool.false_eq_true, ↓reduceIte]
  split <;> simp_all

theorem one_le_mode_of_accepted (hok : cRefusal s b = none) : bits (dw b 8 0) 55 53 ≠ 0 := by
  intro hmode
  unfold cRefusal at hok
  simp [hmode] at hok

/-- A unit of CIPH that encrypts, whose accesses succeed. -/
theorem cExec_encrypts {c : CCtx} {key : BitVec 512} {data aad out : List Byte} {n mode iv : Nat} {fin : Prop} [Decidable fin]
    (hw : (s.core lc).wait = .unitGot n0) (hblk : s.loadNat (s.xc lc) addr 64 = .ok s b) (habs : s.translate (s.xc lc) addr .rd = .ok s abs)
    (hop : bits (dw b 8 0) 63 56 = 1) (hok : cRefusal s b = none) (hc : s.chn.cctx.find (s.unitKey lc abs) = some c)
    (hmode : mode = bits (dw b 8 0) 55 53) (hiv : iv = dw b 8 5 * 2 ^ 64 + dw b 8 6) (hn : n = min (min n0 4096) (dw b 8 2 - c.inDone)) (hfin : fin = (c.inDone + n = dw b 8 2))
    (hkey : s.ctxKey (s.unitKey lc abs) c (bits (dw b 8 0) 45 32) (s.xc lc).pid mode false = some key)
    (hdata : s.engLoad (s.xc lc) (s.unitAgent lc 5) (BitVec.ofNat 64 (dw b 8 1) + BitVec.ofNat 64 c.inDone) n = .ok s data)
    (haad : if mode ≤ 2 then s.engLoad (s.xc lc) (s.unitAgent lc 5) (BitVec.ofNat 64 (dw b 8 4)) (bits (dw b 8 0) 31 0) = .ok s aad else aad = [])
    (hout : out = (cCrypt mode false (bits (dw b 8 0) 52 52 == 1) key iv (c.buf ++ data)).drop c.out ++
      (if fin ∧ mode ≤ 2 then gcmTag (modeKl mode) (keyOne mode key) (BitVec.ofNat 96 (iv / 2 ^ 32)) aad (cCrypt mode false (bits (dw b 8 0) 52 52 == 1) key iv (c.buf ++ data)) else []))
    (hu : s.engStore (s.xc lc) (s.unitAgent lc 5) (BitVec.ofNat 64 (dw b 8 3) + BitVec.ofNat 64 c.out) out = .ok u ())
    (hv : u.engStore (s.xc lc) (s.unitAgent lc 5) (addr + 56) (toBytes 8 (c.inDone + n)) = .ok v ()) :
    cExec lc t s addr = engDone lc t
      (if fin then (v.unitOver lc).cFree (s.unitKey lc abs)
        else (v.unitOver lc).cPut (s.unitKey lc abs) { c with inDone := c.inDone + n, buf := c.buf ++ data, key := some key, out := c.out + out.length })
      (compWord 0 (c.out + out.length)) (if fin then 0 else 3) := by
  have hpos := one_le_mode_of_accepted hok
  have hgcm : (mode = 1 ∨ mode = 2) ↔ mode ≤ 2 := by omega
  have hbusy : (CoreWait.unitGot n0 == CoreWait.none) = false := by simp
  subst hmode hiv hn hfin
  have haadOf : (if bits (dw b 8 0) 55 53 ≤ 2 then s.engLoad (s.xc lc) (s.unitAgent lc 5) (BitVec.ofNat 64 (dw b 8 4)) (bits (dw b 8 0) 31 0) else .ok s []) = .ok s aad := by
    split at haad
    · rw [if_pos ‹_›, haad]
    · rw [if_neg ‹_›, haad]
  simp only [cExec, hblk, habs, SRes.run, hok, hw, hbusy, hc, hop, hkey, hdata, SRes.bind, hgcm, haadOf, Bool.false_eq_true, ↓reduceIte, Bool.and_false, Bool.false_and,
    Nat.reduceBEq, Bool.or_eq_true, decide_eq_true_eq, Bool.and_eq_true, ← hout, hu, hv]
  split <;> rfl

/-- A unit of CIPH that hands out text it has decrypted and whose tag was good. -/
theorem cExec_hands_out {c : CCtx} {key : BitVec 512} {text : List Byte} {n : Nat}
    (hw : (s.core lc).wait = .unitGot n0) (hblk : s.loadNat (s.xc lc) addr 64 = .ok s b) (habs : s.translate (s.xc lc) addr .rd = .ok s abs)
    (hop : bits (dw b 8 0) 63 56 = 2) (hok : cRefusal s b = none) (hc : s.chn.cctx.find (s.unitKey lc abs) = some c) (htag : c.tagOk = true) (hkey : c.key = some key)
    (hn : n = min 4096 (dw b 8 2 - c.out))
    (htext : text = ((cCrypt (bits (dw b 8 0) 55 53) true (bits (dw b 8 0) 52 52 == 1) key (dw b 8 5 * 2 ^ 64 + dw b 8 6) c.buf).drop c.out).take n)
    (hu : s.engStore (s.xc lc) (s.unitAgent lc 5) (BitVec.ofNat 64 (dw b 8 3) + BitVec.ofNat 64 c.out) text = .ok u ()) :
    cExec lc t s addr =
      if c.out + n = dw b 8 2 then engDone lc t ((u.unitOver lc).cFree (s.unitKey lc abs)) (compWord 0 (dw b 8 2)) 0
      else engDone lc t ((u.unitOver lc).cPut (s.unitKey lc abs) { c with out := c.out + n }) (compWord 0 (c.out + n)) 3 := by
  subst hn htext
  have hbusy : (CoreWait.unitGot n0 == CoreWait.none) = false := by simp
  simp only [cExec, hblk, habs, SRes.run, hok, hw, hbusy, hc, hop, htag, State.ctxKey, hkey, hu, Bool.false_eq_true, ↓reduceIte, Bool.and_false, Bool.false_and, BEq.rfl, Bool.and_self]

end

/-- Settles O29: a unit of each instruction is the lemma of its operation; where the spec is open they follow the choices of logs 18 and 20. -/
theorem engineInstructions : Obligations.EngineInstructions := by
  unfold Obligations.EngineInstructions
  intro s u v lc n0 b abs kind blk t a k e data aad p q z c key r addr x here ready told at_
  refine ⟨engineUnitCompletion_leaves, fun h halign => ⟨cmprs_retires h halign, xpand_retires h halign, ciph_retires h halign⟩, fun h halign hblk habs => ⟨?stream, ?encrypt, ?handOut⟩⟩
  all_goals obtain ⟨-, -, -, -, hw, -⟩ := id h
  case stream =>
    intro dec m n o hok hz hdata hcode hraw hp hq hu hv
    exact zIns_retires dec h halign (zExec_unit dec hw hblk habs hok hz rfl hdata rfl hcode hraw hp hq hu hv)
  case encrypt =>
    intro m d0 mode len iv n fin buf text out d hop hok hc hkey hdata haad hu hv
    exact ciph_retires h halign (cExec_encrypts hw hblk habs hop hok hc rfl rfl rfl rfl hkey hdata haad rfl hu hv)
  case handOut =>
    intro m d0 n text hop hok hc htag hkey hu
    refine ciph_retires h halign ((cExec_hands_out hw hblk habs hop hok hc htag hkey rfl rfl hu).trans ?_)
    split <;> rfl

end Sys2Proof.Machine
end

section
/-! PROOFS. The commands of the fault collector (20 R430 to R449; 06 R156; 10 R261; 11 R272, R273; 12 R299; 22 R470). -/

namespace Sys2Proof.Machine

/-! What an event does besides its report (06 R156; 11 R272, R273; 12 R299) -/

section
variable {s : State} {ev : FaultEv}

theorem faultEvent_leaves {u : State} (hdead : s.dead = false) (hused : fltUsed ev.src = true) (hunit : ev.unit < fltUnits ev.src) (hpid : ev.pid = none ∨ ∃ p, ev.pid = some p ∧ p < 256)
    (heq : s.faultEvent ev = u) : Leaves (.faultEvent ev) s u := by
  have hp : ev.pid.getD 0 < 256 := by
    rcases hpid with hp | ⟨p, hp, hlt⟩
    · simp [hp]
    · simpa [hp] using hlt
  refine leaves_of_guarded rfl (P := (!fltUsed ev.src || decide (fltUnits ev.src ≤ ev.unit) || decide (256 ≤ ev.pid.getD 0)) = true) ?_ (by rw [hdead]; exact heq)
  simp only [hused, Bool.not_true, Bool.false_or, Bool.or_eq_true, decide_eq_true_eq]
  omega

theorem faultEvent_plain (h16 : ev.src ≠ 0x16) (h60 : ev.src ≠ 0x60) (h65 : ev.src ≠ 0x65) (h7A : ev.src ≠ 0x7A) : s.faultEvent ev = s.fault ev := by
  simp [State.faultEvent, State.faultEffect, State.demandRead, h16, h60, h65, h7A]

theorem faultEvent_pds (h : ev.src = 0x16) : s.faultEvent ev = (s.stopPds ev.unit).fault ev := by simp [State.faultEvent, State.faultEffect, h]

theorem faultEvent_corrected (h : ev.src = 0x60) : s.faultEvent ev = (s.count F.MEM_ECC_CORR (some F.MEM_ECC_COVF) (ev.unit / 80)).fault ev := by
  simp [State.faultEvent, State.faultEffect, State.demandRead, h]

/-- An uncorrectable read of a line whose home is here; which device its syndrome names is free. -/
theorem faultEvent_uncorrectable (h : ev.src = 0x65) (hhome : s.homeOf (bits ev.detail.toNat 55 0) = some s.cxid) :
    let a := bits ev.detail.toNat 55 0
    let r := s.rankOf (s.chanLine a)
    s.faultEvent ev = ((({ s with freeCtr := s.freeCtr + 1 } : State).ecc (s.mcOf a) (r / 2) (r % 2) (s.free.2.toNat % 20) (s.chanLine a) (some (a / 256))).fault ev) := by
  simp [State.faultEvent, State.faultEffect, State.demandRead, h, hhome, State.free]

theorem faultEvent_journal (h : ev.src = 0x7A) : s.faultEvent ev = s.journalError ev.detail.toNat := by simp [State.faultEvent, h]

end

section
variable {s : State} {i : Nat} {x : Exch}

theorem journalError_none (h : s.chn.exch.find i = none) : s.journalError i = s := by simp [State.journalError, h]

/-- The mirror is asked for the entry. -/
theorem journalError_mirrored {b : Nat} (hx : s.chn.exch.find i = some x) (hi : i < 16384) (hipl : x.ipl = false) (hsolo : jSolo (s.img x) = false) (hb : s.buddy = some b) :
    s.journalError i = ({ s with chn := { s.chn with mirr := { s.chn.mirr with jrd := s.chn.mirr.jrd.put i 0 } } } : State).send .journal b 0x56 [i] := by
  simp [State.journalError, hx, hipl, hsolo, hb, hi]

/-- An entry without a mirror is lost. -/
theorem journalError_alone (hx : s.chn.exch.find i = some x) (hi : i < 16384) (hipl : x.ipl = false) (h : jSolo (s.img x) = true ∨ s.buddy = none) : s.journalError i = s.journalLost i := by
  have hb : (if jSolo (s.img x) then none else s.buddy) = none := by
    rcases h with h | h <;> simp [h]
  simp [State.journalError, hx, hipl, hb, hi]

end

/-! An event of a class without reactions (20 R436) -/

theorem fltMask_zero {ev : FaultEv} (hpid : ev.pid = none) : fltMask 0 ev = 0 := by
  simp [fltMask, hpid, putBits]

theorem fltReact_zero (s : State) (ev : FaultEv) : s.fltReact ev 0 0 = s := by
  simp [State.fltReact, bits]

theorem fault_noted {s : State} {ev : FaultEv} (hpid : ev.pid = none) (hclass : (s.fltClass ev.src ev.unit).2 = 0) (hrno : s.fld F.FLT_SRC_CFG_RNO ev.src = 0) :
    s.fault ev = (s.fltClass ev.src ev.unit).1.fltTally ev.src 0 := by
  have hmask : fltMask (((s.fltClass ev.src ev.unit).1.fltTally ev.src 0).fltCfgMask ev.src 0) ev = 0 := by
    rw [State.fltCfgMask, show ((s.fltClass ev.src ev.unit).1.fltTally ev.src 0).fld F.FLT_SRC_CFG_RNO ev.src = 0 from hrno, fltMask_zero hpid]
  simp [State.fault, hclass, hmask, fltReact_zero, bits]

/-! The log (20 R446, R447) -/

section
variable {s u : State} {m : Summary} {src : Src} {v : W64}

theorem logSummary_none (h : s.svc.summ = none) : s.logSummary = s := by simp only [State.logSummary, h]

theorem logSummary_full (h : s.svc.summ = some m) (hfull : 3840 ≤ s.fld F.FLT_LOGSTAT_USED) : s.logSummary = s := by
  simp only [State.logSummary, h, if_neg (Nat.not_lt.mpr hfull)]

theorem logSummary_writes (h : s.svc.summ = some m) (hroom : s.fld F.FLT_LOGSTAT_USED < 3840) (hu : u = s.logPut m.first.toNat (3 * 2 ^ 62) m.last.toNat m.dropped) :
    s.logSummary = u.updSvc (fun k => { k with summ := none }) := by
  simp only [State.logSummary, h, if_pos hroom, hu]; rfl

theorem logRd_beyond (h : s.fld F.FLT_LOGSTAT_USED < (fieldOf v 11 0 + 4096 - s.fld F.FLT_LOGRD_RD) % 4096) : s.logRd src v = s.cfgErr src F.FLT_LOGRD_RD.base := by
  rw [State.logRd, if_pos h]

theorem logRd_frees (h : (fieldOf v 11 0 + 4096 - s.fld F.FLT_LOGRD_RD) % 4096 ≤ s.fld F.FLT_LOGSTAT_USED) (hnone : s.svc.summ = none) :
    s.logRd src v = (s.setFld F.FLT_LOGRD_RD (fieldOf v 11 0)).setFld F.FLT_LOGSTAT_USED (s.fld F.FLT_LOGSTAT_USED - (fieldOf v 11 0 + 4096 - s.fld F.FLT_LOGRD_RD) % 4096) := by
  rw [State.logRd, if_neg (Nat.not_lt.mpr h), logSummary_none (by simpa using hnone)]

theorem logStat_keeps (hdrop : fieldOf v 49 49 = 0) (h : fieldOf v 50 50 = 0) : s.logStat src v = s := by
  simp [State.logStat, hdrop, h]

theorem logStat_clears (hdrop : fieldOf v 49 49 = 0) (h : fieldOf v 50 50 = 1) (hsdrop : s.flag F.FLT_LOGSTAT_SDROP = true) (hroom : s.fld F.FLT_LOGSTAT_USED < 4096) :
    s.logStat src v = s.setFlag F.FLT_LOGSTAT_SDROP false := by
  simp [State.logStat, hdrop, h, hsdrop, hroom]

theorem logStat_refuses (hdrop : fieldOf v 49 49 = 0) (h : fieldOf v 50 50 = 1) (hsdrop : s.flag F.FLT_LOGSTAT_SDROP = true) (hfull : 4096 ≤ s.fld F.FLT_LOGSTAT_USED) :
    s.logStat src v = s.cfgErr src F.FLT_LOGSTAT_SDROP.base := by
  simp [State.logStat, hdrop, h, hsdrop, Nat.not_lt.mpr hfull]

end

/-! Counters and the configuration of sources (20 R434, R435) -/

section
variable {s u : State} {src : Src} {v : W64} {n : Nat}

theorem cntSel_keeps (h : fieldOf v 63 63 = 0) (hu : u = s.wrReg src F.FLT_CNTSEL_CLR.base v) : s.cntSel src v = u := by
  simp [State.cntSel, h, hu]

theorem cntSel_clears (h : fieldOf v 63 63 = 1) (hu : u = s.wrReg src F.FLT_CNTSEL_CLR.base v) :
    s.cntSel src v = u.updSvc (fun k => { k with inst := k.inst.del (fltKey (fieldOf v 24 16) (fieldOf v 15 0)) }) := by
  simp [State.cntSel, h, hu]

theorem srcCfg_unused (h : fltUsed n = false) : s.srcCfg src n v = s := by simp [State.srcCfg, h]

/-- What a write of FLT_SRC_CFG stores, where no field refuses it. -/
theorem srcCfg_used (hused : fltUsed n = true) {old : W64} (hold : old = s.reg (F.FLT_SRC_CFG_N.off n)) {p : W64 × Bool}
    (hp : p = writeFlds R.FLT_SRC_CFG.flds s.svc.locked old (srcCfgWanted n old v).1) (hw : (srcCfgWanted n old v).2 = false) (hp2 : p.2 = false) (hu : u = s.setReg (F.FLT_SRC_CFG_N.off n) p.1) :
    s.srcCfg src n v = if fieldOf p.1 37 12 = fieldOf old 37 12 && fieldOf p.1 7 0 = fieldOf old 7 0 then u
      else u.updSvc (fun k => { k with inst := k.inst.map (fun q => if q.1 / 65536 = n then (q.1, { q.2 with wcnt := 0, escc := 0, open_ := false }) else q) }) := by
  subst hold hp hu
  simp [State.srcCfg, hused, hw, hp2]

end

/-! Notices (22 R470; 20 R449; 10 R261) -/

section
variable {x : NoteCnt} {gap now : Nat}

theorem ripe_of (h : ∀ l, x.last = some l → l.toNat + gap ≤ now) : x.ripe gap now = true := by
  unfold NoteCnt.ripe
  split
  · exact decide_eq_true (h _ ‹_›)
  · rfl

theorem not_ripe_of {l : W64} (hl : x.last = some l) (h : now < l.toNat + gap) : x.ripe gap now = false := by
  simp [NoteCnt.ripe, hl, h]

end

section
variable {s : State} {g d : Nat} {x : NoteCnt}

theorem servicePortNotice_waits (hg : g < 17) (hx : x = s.svc.notes.get NoteCnt.reset g) (h : x.due = false ∨ x.ripe (1000 * usec) s.fab.tb.toNat = false) :
    Leaves (.servicePortNotice g) s s := by
  refine leaves_of_settled rfl ((if_neg (Nat.not_le.mpr hg)).trans (if_pos ?_))
  subst hx
  rcases h with h | h <;> simp [h]

theorem servicePortNotice_sends (hdead : s.dead = false) (hg : g < 17) (hx : x = s.svc.notes.get NoteCnt.reset g) (hdue : x.due = true) (hripe : x.ripe (1000 * usec) s.fab.tb.toNat = true)
    (hnoted : x.noted < 2 ^ 20) (hrecur : x.recur < 2 ^ 20) (hsevere : x.severe < 2 ^ 20) :
    Leaves (.servicePortNotice g) s
      ((((((s.setFld F.SVC_NOTE_NOTED x.noted g).setFld F.SVC_NOTE_RECUR x.recur g).setFld F.SVC_NOTE_SEVERE x.severe g).setFlag F.SVC_NOTE_OVF false g).updSvc
        (fun k => { k with notes := k.notes.put g { NoteCnt.reset with last := some s.fab.tb } })).msix g) := by
  have hover : (decide (2 ^ 20 - 1 < x.noted) || decide (2 ^ 20 - 1 < x.recur) || decide (2 ^ 20 - 1 < x.severe)) = false := by
    simp only [Bool.or_eq_false_iff, decide_eq_false_iff_not]; omega
  subst hx
  refine leaves_of_settled rfl ((if_neg (Nat.not_le.mpr hg)).trans ((if_neg (by simp [hdead, hdue, hripe])).trans ?_))
  rw [hover, Nat.min_eq_left (by omega), Nat.min_eq_left (by omega), Nat.min_eq_left (by omega)]
  rfl

theorem fnoteSend_waits (hd : d < 2) (hx : x = s.svc.fnote.get NoteCnt.reset d) (h : x.due = false ∨ s.flag F.FLT_FENCE_CXF = true ∨ x.ripe (100 * usec) s.fab.tb.toNat = false) :
    Leaves (.fnoteSend d) s s := by
  refine leaves_of_settled rfl ((if_neg (Nat.not_le.mpr hd)).trans (if_pos ?_))
  subst hx
  rcases h with h | h | h <;> simp [h]

theorem fnoteSend_sends (hdead : s.dead = false) (hd : d < 2) (hx : x = s.svc.fnote.get NoteCnt.reset d) (hdue : x.due = true) (hfence : s.flag F.FLT_FENCE_CXF = false)
    (hripe : x.ripe (100 * usec) s.fab.tb.toNat = true) (hen : s.flag (if d = 0 then F.FAB_FNDEST_EN0 else F.FAB_FNDEST_EN1) = true) :
    Leaves (.fnoteSend d) s ((s.updSvc (fun k => { k with fnote := k.fnote.put d { NoteCnt.reset with last := some s.fab.tb } })).send .fab
      (s.fld (if d = 0 then F.FAB_FNDEST_DEST0 else F.FAB_FNDEST_DEST1)) 0x41 [x.spec]) := by
  subst hx
  exact leaves_of_settled rfl ((if_neg (Nat.not_le.mpr hd)).trans ((if_neg (by simp [hdead, hdue, hfence, hripe, hen])).trans rfl))

end

/-- Settles O49: each command is the lemma of its operation; where the spec is open they follow the choices of logs 32, 63, 75 and 99. -/
theorem faultCollector : Obligations.FaultCollector := by
  unfold Obligations.FaultCollector
  intro s u ev src v n g d m x hn hg hd hdead
  refine ⟨fun hused hunit hpid => ?event, leaves_of_alive rfl hdead rfl, fun h => leaves_of_alive rfl hdead (logSummary_none h), fun h hfull => leaves_of_alive rfl hdead (logSummary_full h hfull),
    fun h hroom hu => leaves_of_alive rfl hdead (logSummary_writes h hroom hu), ⟨fun h => leaves_of_alive rfl hdead (logRd_beyond h), fun h hnone => leaves_of_alive rfl hdead (logRd_frees h hnone)⟩,
    fun hdrop => ⟨fun h => leaves_of_alive rfl hdead (logStat_keeps hdrop h), fun h hs hroom => leaves_of_alive rfl hdead (logStat_clears hdrop h hs hroom),
      fun h hs hfull => leaves_of_alive rfl hdead (logStat_refuses hdrop h hs hfull)⟩,
    fun hu => ⟨fun h => leaves_of_alive rfl hdead (cntSel_keeps h hu), fun h => leaves_of_alive rfl hdead (cntSel_clears h hu)⟩, ?data,
    fun h => leaves_of_guarded rfl (Nat.not_le.mpr hn) (by rw [hdead]; exact srcCfg_unused h), ?config, fun hx => ?notice, fun hx => ?fnote⟩
  case event =>
    refine ⟨fun h16 h60 h65 h7A => ⟨?_, fun hnone hclass hrno => ?_⟩, fun h => faultEvent_leaves hdead hused hunit hpid (faultEvent_pds h), fun h => faultEvent_leaves hdead hused hunit hpid (faultEvent_corrected h),
      fun h hhome => ⟨s.free.2.toNat % 20, Nat.mod_lt _ (by decide), faultEvent_leaves hdead hused hunit hpid (faultEvent_uncorrectable h hhome)⟩,
      fun h hnone => faultEvent_leaves hdead hused hunit hpid ((faultEvent_journal h).trans (journalError_none hnone)),
      fun h hi y b hy hipl => ⟨fun hsolo hb => faultEvent_leaves hdead hused hunit hpid ((faultEvent_journal h).trans (journalError_mirrored hy hi hipl hsolo hb)),
        fun halone => faultEvent_leaves hdead hused hunit hpid ((faultEvent_journal h).trans (journalError_alone hy hi hipl halone))⟩⟩
    · exact faultEvent_leaves hdead hused hunit hpid (faultEvent_plain h16 h60 h65 h7A)
    · exact faultEvent_leaves hdead hused hunit hpid ((faultEvent_plain h16 h60 h65 h7A).trans (fault_noted hnone hclass hrno))
  case data =>
    constructor <;> intro hex <;> refine leaves_of_alive rfl hdead ?_ <;> simp only [State.cntData, hex] <;> rfl
  case config =>
    intro p hused hw hp2 hu
    have hstored := srcCfg_used (src := src) hused rfl rfl hw hp2 hu
    refine ⟨fun hsame => leaves_of_guarded rfl (Nat.not_le.mpr hn) ?_, fun hdiff => leaves_of_guarded rfl (Nat.not_le.mpr hn) ?_⟩
    · rw [hdead]; exact hstored.trans (if_pos (by simp [p, hsame]))
    · rw [hdead]; exact hstored.trans (if_neg (by simp [p, hdiff]))
  case notice =>
    refine ⟨fun hdue => servicePortNotice_waits hg hx (.inl hdue), fun l hl hlt => servicePortNotice_waits hg hx (.inr (not_ripe_of hl hlt)), fun hdue hlast h1 h2 h3 hu => ?_⟩
    subst hu
    exact servicePortNotice_sends hdead hg hx hdue (ripe_of hlast) h1 h2 h3
  case fnote =>
    refine ⟨fun h => fnoteSend_waits hd hx (h.imp_right .inl), fun l hl hlt => fnoteSend_waits hd hx (.inr (.inr (not_ripe_of hl hlt))), fun hdue hfence hlast => ⟨fun h0 hen => ?_, fun h1 hen => ?_⟩⟩
    · subst h0; exact fnoteSend_sends hdead hd hx hdue hfence (ripe_of hlast) hen
    · subst h1; exact fnoteSend_sends hdead hd hx hdue hfence (ripe_of hlast) hen

end Sys2Proof.Machine
end

section
/-! PROOFS. Monitors, ageing and the odometer (21 R451 to R461; 18 R404, R405). -/

namespace Sys2Proof.Machine

theorem foldl_of_fixed {α : Type} {f : State → α → State} {l : List α} {s : State} (h : ∀ a ∈ l, f s a = s) : l.foldl f s = s := by
  induction l with
  | nil => rfl
  | cons a l ih => rw [List.foldl_cons, h a List.mem_cons_self, ih (fun b hb => h b (List.mem_cons_of_mem a hb))]

section
variable {s u : State} {temps volts : List Int}

/-- All sensors have taken their readings, and each has been checked (21 Table LIF-3). -/
def State.thermalRead (s : State) (temps : List Int) : State :=
  (List.range 144).foldl (fun z i => z.thmCheck i) ((temps.take 144).zipIdx.foldl (fun z p => z.setMon 0 p.2 ((z.mon 0 p.2).read false p.1)) s)

/-- The readings of all groups. -/
def State.allTemps (s : State) : List Int := (List.range 10).flatMap (fun g => s.groupTemps g)

/-- What a thermal reading does once the sensors hold it (18 R405). -/
theorem thermalReading_leaves (hdead : s.dead = false) (hu : u = s.thermalRead temps) : Leaves (.thermalReading temps) s
    (if u.allTemps.any (fun t => decide (1680 ≤ t)) then u.emergencyOn true
      else if u.flag F.CLK_PWR_TEMERG && u.allTemps.all (fun t => decide (t < 1600)) && !u.blind 8 && !u.blind 9 then u.emergencyOff true else u) := by
  refine leaves_of_alive rfl hdead ?_
  rw [hu]; dsimp only [State.thermalRead, State.allTemps]; rfl

theorem thermalReading_hot (hdead : s.dead = false) (hu : u = s.thermalRead temps) (h : ∃ t ∈ u.allTemps, 1680 ≤ t) : Leaves (.thermalReading temps) s (u.emergencyOn true) := by
  have hany : u.allTemps.any (fun t => decide (1680 ≤ t)) = true := by simpa using h
  simpa [hany] using thermalReading_leaves hdead hu

theorem any_hot_eq_false (h : ∀ t ∈ u.allTemps, t < 1680) : u.allTemps.any (fun t => decide (1680 ≤ t)) = false := by simpa using h

theorem thermalReading_calm (hdead : s.dead = false) (hu : u = s.thermalRead temps) (h : ∀ t ∈ u.allTemps, t < 1680) (hem : u.flag F.CLK_PWR_TEMERG = false) :
    Leaves (.thermalReading temps) s u := by
  simpa [any_hot_eq_false h, hem] using thermalReading_leaves hdead hu

theorem thermalReading_cooled (hdead : s.dead = false) (hu : u = s.thermalRead temps) (h : ∀ t ∈ u.allTemps, t < 1600) (hem : u.flag F.CLK_PWR_TEMERG = true)
    (h8 : u.blind 8 = false) (h9 : u.blind 9 = false) : Leaves (.thermalReading temps) s (u.emergencyOff true) := by
  have hall : u.allTemps.all (fun t => decide (t < 1600)) = true := by simpa using h
  simpa [any_hot_eq_false (fun t ht => (h t ht).trans (by decide)), hall, hem, h8, h9] using thermalReading_leaves hdead hu

/-- A reading after which no rail's two working monitors disagree reports none. -/
theorem droopReading_agreed (hdead : s.dead = false)
    (hu : u = (List.range 72).foldl (fun z i => z.droopCheck i) ((volts.take 72).zipIdx.foldl (fun z p => z.setMon 1 p.2 ((z.mon 1 p.2).read true p.1)) s))
    (h : ∀ q, q < 14 → u.disagree q = false) : Leaves (.droopReading volts) s u := by
  refine leaves_of_alive rfl hdead ?_
  dsimp only; rw [← hu]
  exact foldl_of_fixed (fun q hq => by simp [h q (List.mem_range.mp hq)])

theorem droopEvent_retired {mon : Nat} (hmon : mon < 72) (h : (s.mon 1 mon).retired = true) : Leaves (.droopEvent mon) s s :=
  leaves_of_guarded rfl (Nat.not_le.mpr hmon) (by simp [h])

theorem droopEvent_working {mon : Nat} (hdead : s.dead = false) (hmon : mon < 72) (h : (s.mon 1 mon).retired = false) : Leaves (.droopEvent mon) s (s.emergencyOn false) :=
  leaves_of_guarded rfl (Nat.not_le.mpr hmon) (by simp [hdead, h])

/-! Margin detectors (21 R456, Table LIF-4) -/

theorem marginDetectorFire_idle {m : MarginUnit} (hok : marginOk m = true) (h : (s.mon 2 (marginMonitor m)).armed = false) : Leaves (.marginDetectorFire m) s s :=
  leaves_of_settled rfl ((if_neg (by simp [hok])).trans (if_pos (by simp [h])))

/-- The sparing of a unit, or the report of one that has none (Table LIF-4). -/
def marginSparing (m : MarginUnit) (s : State) : Out :=
  match m with
  | .l3Way sl w => execL3WaySparing sl w s
  | .dirWay w => execDirectoryWaySparing w s
  | .felardLane p l => execFelardLaneSparing p l s
  | .velexLane v l => execVelexLaneSparing v l s
  | .portController v => execControllerSwitchover v (.stateError false) s
  | .engine e => execVeEngineFailure e true s
  | .zip z => execZeEngineFailure z s
  | .brick w b => .next (s.brickRetire w b)
  | .other => .next (s.flt 15 7)

theorem marginDetectorFire_armed {m : MarginUnit} (hdead : s.dead = false) (hok : marginOk m = true) (h : (s.mon 2 (marginMonitor m)).armed = true) :
    exec (.marginDetectorFire m) s = settled s (marginSparing m s) := by
  have hidle : ¬ (s.dead || !(s.mon 2 (marginMonitor m)).armed) = true := by simp [hdead, h]
  refine (congrArg (settled s) ((if_neg (by simp [hok])).trans (if_neg hidle))).trans ?_
  cases m <;> rfl

theorem marginDetectorFire_shared (hdead : s.dead = false) (h : (s.mon 2 87).armed = true) : Leaves (.marginDetectorFire .other) s (s.flt 15 7) :=
  marginDetectorFire_armed (m := .other) hdead rfl h

theorem marginDetectorFire_brick {w b : Nat} (hdead : s.dead = false) (hw : w < 16) (hb : b < 272) (h : (s.mon 2 (64 + w)).armed = true) :
    Leaves (.marginDetectorFire (.brick w b)) s (s.brickRetire w b) :=
  marginDetectorFire_armed (m := .brick w b) hdead (by simp [marginOk, hw, hb]) h

/-- An engine that has already failed is spared no second time. -/
theorem marginDetectorFire_zip {z : Nat} (hdead : s.dead = false) (hz : z < 22) (h : (s.mon 2 (marginMonitor (.zip z))).armed = true) (hrole : s.fld F.ZIP_ENG_ROLE z = 2) :
    Leaves (.marginDetectorFire (.zip z)) s s := by
  have hfail : execZeEngineFailure z s = .next (left s s) := by
    rw [execZeEngineFailure, if_neg (Nat.not_le.mpr hz), State.zeFail, hrole]; rfl
  exact (marginDetectorFire_armed (m := .zip z) hdead (decide_eq_true hz) h).trans ((congrArg (settled s) hfail).trans (settled_settled s s))

/-! LIF_SNDATA -/

theorem snData_absent {src : Src} (h : monCount (s.fld F.LIF_SNSEL_KIND) ≤ s.fld F.LIF_SNSEL_INDEX) : s.snData src = (s.cfgErr src F.LIF_SNDATA_VALUE.base, 0) := by
  rw [State.snData, if_pos h]

theorem snData_droop {src : Src} (hkind : s.fld F.LIF_SNSEL_KIND = 1) (hi : s.fld F.LIF_SNSEL_INDEX < 72) (h : (s.mon 1 (s.fld F.LIF_SNSEL_INDEX)).retired = false) :
    s.snData src = (s, BitVec.ofNat 64 ((BitVec.ofInt 16 (s.mon 1 (s.fld F.LIF_SNSEL_INDEX)).val).toNat * 2 ^ 48 + (BitVec.ofInt 16 (s.mon 1 (s.fld F.LIF_SNSEL_INDEX)).peak).toNat * 2 ^ 32)) := by
  have hcount : ¬ monCount 1 ≤ s.fld F.LIF_SNSEL_INDEX := by simpa [monCount] using hi
  simp [State.snData, hkind, hcount, h]

/-! The odometer (21 R457 to R461) -/

/-- The minute's bins are counted; `hot` is the hottest reading then. -/
theorem odometerMinute_leaves (hdead : s.dead = false) {v : State}
    (hu : u = (List.range 8).foldl (fun z c => z.odoAdd (280 + 16 * c + z.fld F.CLK_GEAR_CUR c)) ((volts.take 14).zipIdx.foldl (fun z p => z.odoAdd (168 + 8 * p.2 + voltBin p.1))
      ((List.range 10).foldl (fun z g => match hottest (z.groupTemps g) with | some t => z.odoAdd (8 + 16 * g + tempBin t) | none => z) s)))
    (hv : v = (if (hottest u.allTemps).getD 0 + 640 ≤ u.svc.odo.hotSince then (u.odoAdd 4).updOdo (fun o => { o with hotSince := (hottest u.allTemps).getD 0 })
      else u.updOdo (fun o => { o with hotSince := max o.hotSince ((hottest u.allTemps).getD 0) })).updOdo (fun o => { o with minutes := o.minutes + 1 }))
    (hmin : v.svc.odo.minutes % 60 ≠ 0) : Leaves (.odometerMinute volts) s v := by
  subst hu
  refine leaves_of_alive rfl hdead ((if_neg ?_).trans hv.symm)
  rw [hv] at hmin; exact hmin

/-- A record is begun at the slot after the last one. -/
theorem odoWrite_begins {r : Nat} {c : Tab Nat} (hnone : s.svc.odo.writing = none)
    (hc : c = (((s.svc.odo.cnt.put 1 (0x00010000 + r)).put 2 ((s.odo 2 + 1) % 2 ^ 32)).put 6 (s.fab.tb.toNat / 2 ^ 32)).put 7 (s.fab.tb.toNat % 2 ^ 32)) :
    s.odoWrite r = (s.updOdo (fun o => { o with cnt := c, writing := some ((s.fld F.LIF_ODOSTAT_SLOT + 1) % 1024), tries := 0 })).setFlag F.LIF_ODOSTAT_BUSY true := by
  simp only [State.odoWrite, hnone, hc]; rfl

theorem odoWrite_queues {r n : Nat} (hsome : s.svc.odo.writing = some n) (hpend : s.svc.odo.pendReason = none) :
    s.odoWrite r = (s.updOdo (fun o => { o with pendReason := some r })).setFlag F.LIF_ODOSTAT_PEND true := by
  simp only [State.odoWrite, hsome, State.updOdo, State.updSvc, hpend]; rfl

end

section
variable {s : State} {n : Nat}

theorem odometerWriteDone_idle (ok : Bool) (h : s.svc.odo.writing = none) : Leaves (.odometerWriteDone ok) s s := leaves_of_next rfl (by simp only [h])

/-- A verified record, with nothing queued behind it. -/
theorem odometerWriteDone_verified (hdead : s.dead = false) (h : s.svc.odo.writing = some n) (hpend : s.svc.odo.pendReason = none) {u : State}
    (hu : u = ((s.updOdo (fun o => { o with slots := (odoErase n o.slots).put n o.cnt, writing := none })).setFld F.LIF_ODOSTAT_SLOT n).setFld F.LIF_ODOSTAT_SEQ (s.odo 2)) :
    Leaves (.odometerWriteDone true) s ((if s.odo 1 % 65536 = 3 then u.setFlag F.LIF_ODOSTAT_DONE true else u).setFlag F.LIF_ODOSTAT_BUSY false) := by
  have hkeep : ∀ v : State, v.svc.odo.pendReason = s.svc.odo.pendReason → (match v.svc.odo.pendReason with
      | some r => ((v.updOdo (fun o => { o with pendReason := none })).setFlag F.LIF_ODOSTAT_PEND false).odoWrite r
      | none => v) = v := fun v hv => by rw [hv, hpend]
  refine leaves_of_next rfl ?_
  by_cases hshut : s.odo 1 % 65536 = 3 <;> simp only [h, hdead, hshut, hu, Bool.false_eq_true, ↓reduceIte, BEq.rfl, beq_iff_eq] <;> exact hkeep _ rfl

theorem odometerWriteDone_tries_next (hdead : s.dead = false) (h : s.svc.odo.writing = some n) (htries : s.svc.odo.tries < 2) :
    Leaves (.odometerWriteDone false) s (s.updOdo (fun o => { o with slots := (odoErase n o.slots).put n odoBad, writing := some ((n + 1) % 1024), tries := o.tries + 1 })) := by
  refine leaves_of_next rfl ?_
  simp only [h, if_neg (show ¬ s.dead = true by simp [hdead]), Bool.false_eq_true, ↓reduceIte, if_pos (Nat.succ_lt_succ htries)]

end

/-- Settles O51: each command is the lemma of its operation; where the spec is open they follow the choices of logs 47 and 100. -/
theorem monitorsAndOdometer : Obligations.MonitorsAndOdometer := by
  unfold Obligations.MonitorsAndOdometer
  intro s u src temps volts ages mon z n r hmon hz hdead
  refine ⟨fun hu => ⟨thermalReading_hot hdead hu, thermalReading_calm hdead hu, thermalReading_cooled hdead hu⟩, droopReading_agreed hdead, droopEvent_retired hmon, droopEvent_working hdead hmon,
    leaves_of_alive rfl hdead rfl, marginDetectorFire_shared hdead, marginDetectorFire_idle (m := .other) rfl, marginDetectorFire_brick (w := 0) (b := z) hdead (by decide) (hz.trans (by decide)),
    marginDetectorFire_zip (z := 20) hdead (by decide),
    ⟨fun h => leaves_of_alive rfl hdead ?absent, fun hkind hi h => leaves_of_alive rfl hdead ?droop⟩, fun hu hmin => ⟨fun hwarm => ?warm, fun hcycle => ?cycle⟩,
    fun hnone hu => ?begins, fun hsome hpend => ⟨?queues, ?done, ?shutdown, odometerWriteDone_tries_next hdead hsome⟩,
    fun hnone => ⟨odometerWriteDone_idle true hnone, odometerWriteDone_idle false hnone⟩⟩
  case absent => simp only [snData_absent h]
  case droop => simp only [snData_droop hkind hi h]
  case warm =>
    refine odometerMinute_leaves hdead hu ?_ hmin
    have hneg : ¬ (hottest u.allTemps).getD 0 + 640 ≤ u.svc.odo.hotSince := Int.not_le.mpr hwarm
    rw [if_neg hneg]; rfl
  case cycle =>
    refine odometerMinute_leaves hdead hu ?_ hmin
    have hpos : (hottest u.allTemps).getD 0 + 640 ≤ u.svc.odo.hotSince := hcycle
    rw [if_pos hpos]; rfl
  case begins =>
    have hw := (odoWrite_begins (r := r) hnone rfl).trans hu.symm
    refine ⟨?_, ?_, ?_, ?_⟩ <;> rintro rfl <;> exact leaves_of_alive rfl hdead hw
  case queues => exact ⟨leaves_of_alive rfl hdead (odoWrite_queues hsome hpend), leaves_of_alive rfl hdead (odoWrite_queues hsome hpend)⟩
  case done =>
    intro hplain
    simpa only [if_neg hplain] using odometerWriteDone_verified hdead hsome hpend rfl
  case shutdown =>
    intro hshut
    simpa only [if_pos hshut] using odometerWriteDone_verified hdead hsome hpend rfl

end Sys2Proof.Machine
end

section
/-! PROOFS. A loss of power while a spare rank is being copied (23 R481; 11 R274; 21 R457). -/

namespace Sys2Proof.Machine

/-- A complex of no state but a copy to a spare rank under way at memory controller 0 (11 R274). -/
def State.copying : State := State.reset.setMc 0 { McSt.reset with copyRank := some 0 }

/-- A loss of power ends the copy: the spare rank is consumed, and the odometer counts it (21 R457, R462). -/
theorem copying_powerLoss : (State.copying.coldState).svc.odo.cnt.get 0 10007 = 1 ∧ State.copying.svc.odo.cnt.get 0 10007 = 0 := by decide +kernel

/-- Refutes O52: `powerLoss` leaves another odometer where a copy to a spare rank is under way, for `coldState` completes the copy at once and counts the spare as consumed. -/
theorem not_servicePortAndPackage : ¬ Obligations.ServicePortAndPackage := by
  unfold Obligations.ServicePortAndPackage
  rintro ⟨-, hpackage⟩
  obtain ⟨-, -, -, -, -, -, -, -, -, -, t, ht, -, -, -, -, -, hodo, -⟩ := hpackage State.copying State.copying 0 0 0 false (by decide) (by decide)
  have hleft : exec .powerLoss State.copying = .next (left State.copying ((State.copying.coldState).updSvc (fun k => { k with powered := false, hiZ := true }))) := rfl
  have hkept : (State.copying.coldState).svc.odo = State.copying.svc.odo := by
    rw [hleft] at ht
    cases ht
    rw [left_svc] at hodo
    exact hodo
  obtain ⟨hcounts, hzero⟩ := copying_powerLoss
  rw [hkept, hzero] at hcounts
  exact absurd hcounts (by decide)

end Sys2Proof.Machine
end

section
/-! PROOFS. Start-up (19 R410 to R429; 23 R486): power-on, the configuration flash, the load, the hand-over, warm reset. -/

namespace Sys2Proof.Machine

theorem fld_setFld_ne {s : State} {f g : Fld} {v i j m n : Nat} (h : g.off m n ≠ f.off i j) : (s.setFld f v i j).fld g m n = s.fld g m n := by
  rw [State.fld, State.setFld, State.reg_setReg_ne _ _ _ _ h, State.fld]

/-! PORST_N and the cold reset (19 R410 to R412; 23 R486) -/

section
variable {s u : State} {us : Nat} {seen : Bool} {env : BootEnv}

theorem porstNAssert_ignored (h : s.svc.trip = true ∨ us < 2) : Leaves (.porstNAssert us seen) s s :=
  leaves_of_next rfl (if_pos (by rcases h with h | h <;> simp [h]))

theorem porstNAssert_resets (htrip : s.svc.trip = false) (h : 10 ≤ us ∨ (2 ≤ us ∧ seen = true)) :
    Leaves (.porstNAssert us seen) s (s.coldState.updSvc (fun k => { k with porst := true })) := by
  refine leaves_of_next rfl (if_neg ?_)
  rcases h with h | ⟨h, hseen⟩
  · simp [htrip, Nat.not_lt.mpr h]; omega
  · simp [htrip, hseen, Nat.not_lt.mpr h]

theorem coldReset_ignored (h : s.svc.aonGood = false ∨ s.svc.trip = true) : Leaves (.coldReset env) s s :=
  leaves_of_next rfl (if_pos (by rcases h with h | h <;> simp [h]))

/-- The state in which step 2 begins. -/
def State.stepTwo (s : State) (env : BootEnv) : State :=
  ((({ s with part := env.part } : State).coldState).updSvc (fun k => { k with env := some env, powered := true, porst := false, resetHold := false })).setFld F.BOO_STAT_STEP 2

/-- A cold reset by the sources that are qualified (19 Table BOO-2). -/
theorem coldReset_leaves (haon : s.svc.aonGood = true) (htrip : s.svc.trip = false) (hu : u = s.stepTwo env) : Leaves (.coldReset env) s
    (if !env.qualified.contains .fosc then u.holdReset 2 else if !env.qualified.contains .sosc then u.holdReset 3
      else
        let v := u.setFld F.CLK_SRC_QUAL ([ClkSrc.fosc, .sosc, .xa, .xb, .vref, .pcie].foldl (fun n c => if env.qualified.contains c then n + 2 ^ srcBit c else n) 0)
        (if env.qualified.contains .xa then v.setFld F.CLK_SRC_REF 0 else v.setRef).selfTest env) := by
  refine leaves_of_next rfl ((if_neg (by simp [haon, htrip])).trans ?_)
  rw [hu]; rfl

end

/-! The images of the configuration flash (19 R415 to R421) -/

section
variable {s u : State} {env : BootEnv} {a b : FlashImage} {late : Bool}

theorem flashReadSlot_idle (henv : s.svc.env = some env) (h : s.fld F.BOO_STAT_STEP ≠ 4) : Leaves (.flashReadSlot a b late) s s :=
  leaves_of_next rfl (by simp only [henv]; exact if_pos (by simp [h]))

/-- Start-up stands at step 4, before the configuration flash. -/
def State.atFlash (s : State) (env : BootEnv) : Prop := s.svc.env = some env ∧ s.dead = false ∧ s.fld F.BOO_STAT_PHASE = 0 ∧ s.fld F.BOO_STAT_STEP = 4

variable {q : State} {x y : ImgRes}

theorem flashReadSlot_refuses (h : s.atFlash env) (hq : q = s.setFld F.BOO_STAT_STEP 5) (hx : x = q.checkImage a.bytes late (bits env.straps.toNat 2 0) env.xbsel.toNat)
    (hy : y = q.checkImage b.bytes late (bits env.straps.toNat 2 0) env.xbsel.toNat) (hxr : x.reason ≠ 0) (hyr : y.reason ≠ 0) :
    Leaves (.flashReadSlot a b late) s (((((q.setFld F.BOO_STAT_RSNA x.reason).setFld F.BOO_STAT_RSNB y.reason).flt 14 0 0 none (BitVec.ofNat 64 x.reason)).flt 14 0 0 none
      (BitVec.ofNat 64 (256 + y.reason))).startStop 5 0x30) := by
  obtain ⟨henv, hdead, hphase, hstep⟩ := h
  refine leaves_of_next rfl ?_
  simp only [henv, hdead, hphase, hstep, ← hq, ← hx, ← hy, hxr, hyr, ne_eq, not_true_eq_false, not_false_eq_true, decide_true, decide_false, Bool.and_self, Bool.or_self, Bool.false_eq_true, ↓reduceIte]

/-- The state that two valid images leave, of which A is the later: its registers loaded, its measurement kept. -/
def ImgRes.loaded (x : ImgRes) : State :=
  ((((x.st.setFld F.BOO_STAT_RSNA 0).setFld F.BOO_STAT_RSNB 0).setFlag F.BOO_STAT_IMG false).setFld F.BOO_STAT_GEN x.gen).updSvc (fun k => { k with flashMr := sha384 x.bytes })

theorem flashReadSlot_mismatch (h : s.atFlash env) (hq : q = s.setFld F.BOO_STAT_STEP 5) (hx : x = q.checkImage a.bytes late (bits env.straps.toNat 2 0) env.xbsel.toNat)
    (hy : y = q.checkImage b.bytes late (bits env.straps.toNat 2 0) env.xbsel.toNat) (hxr : x.reason = 0) (hyr : y.reason = 0) (hlater : seqLater y.gen x.gen = false)
    (hstable : env.stable = false) : Leaves (.flashReadSlot a b late) s (((x.loaded.setFlag F.FAB_ID_MATCH false).flt 5 8).startStop 5 0x31) := by
  obtain ⟨henv, hdead, hphase, hstep⟩ := h
  refine leaves_of_next rfl ?_
  simp only [henv, hdead, hphase, hstep, ← hq, ← hx, ← hy, hxr, hyr, hlater, hstable]
  rfl

theorem flashReadSlot_loads (h : s.atFlash env) (hq : q = s.setFld F.BOO_STAT_STEP 5) (hx : x = q.checkImage a.bytes late (bits env.straps.toNat 2 0) env.xbsel.toNat)
    (hy : y = q.checkImage b.bytes late (bits env.straps.toNat 2 0) env.xbsel.toNat) (hxr : x.reason = 0) (hyr : y.reason = 0) (hlater : seqLater y.gen x.gen = false)
    (hstable : env.stable = true) (hid : x.crsid * 8 + bits env.straps.toNat 2 0 = env.straps.toNat) {t w : State}
    (ht : t = (x.loaded.setFlag F.FAB_ID_MATCH true).setFld F.FAB_DIGEST_DIGEST x.loaded.digest) (hw : w = { t with fab := { t.fab with master := some (t.fld F.FAB_TMASTER_PRIMARY) } }) :
    Leaves (.flashReadSlot a b late) s (((List.range 16).foldl (fun z k => if !z.flag F.VPT_CTL_EN k then z.setFld F.VPT_STAT_STATE 7 k else if z.clkOk .vref then z.setFld F.VPT_STAT_STATE 1 k else z)
      (w.setFlag F.FAB_TBSTAT_MASTER (w.fld F.FAB_TMASTER_PRIMARY == w.cxid))).step6 x.lead x.hosts) := by
  obtain ⟨henv, hdead, hphase, hstep⟩ := h
  refine leaves_of_next rfl ?_
  simp only [henv, hdead, hphase, hstep, ← hq, ← hx, ← hy, hxr, hyr, hlater, hstable, hid, hw, ht, ne_eq, not_true_eq_false, decide_true, decide_false, Bool.not_true, Bool.and_false, Bool.or_self, Bool.false_eq_true, ↓reduceIte]
  rfl

end
/-! The door and the load (19 R424, R425) -/

section
variable {s u : State} {src : Src} {offset : Nat} {bytes : List Byte} {last : Bool}

theorem doorClose_open (h : s.flag F.BOO_DOOR_OPEN = true) :
    s.doorClose src (BitVec.ofNat 64 (2 ^ 63)) = ((s.setFlag F.BOO_DOOR_OPEN false).setFlag F.BOO_DOOR_BUSY true).setFld F.BOO_STAT_STEP 8 := by
  rw [State.doorClose, if_neg (by decide), if_neg (by simp [h])]

theorem doorClose_closed (h : s.flag F.BOO_DOOR_OPEN = false) : s.doorClose src (BitVec.ofNat 64 (2 ^ 63)) = s.cfgErr src F.BOO_DOOR_OPEN.base := by
  rw [State.doorClose, if_neg (by decide), if_pos (by simp [h])]

theorem load_ignored (h : s.flag F.BOO_STAT_FWD = false) : Leaves (.load offset bytes last) s s := leaves_of_next rfl (if_pos (by simp [h]))

/-- What a packet writes stays in the window of 2^28 bytes. -/
theorem window_write (t : Tab Byte) (h : offset + bytes.length ≤ 2 ^ 28) :
    bytes.zipIdx.foldl (fun t p => if offset + p.2 < 2 ^ 28 then t.set 0 (offset + p.2) p.1 else t) t = bytes.zipIdx.foldl (fun t p => t.set 0 (offset + p.2) p.1) t := by
  refine List.foldl_ext _ _ t (fun t p hp => if_pos ?_)
  have hlt := List.snd_lt_of_mem_zipIdx hp
  omega

theorem load_takes (hdead : s.dead = false) (hfwd : s.flag F.BOO_STAT_FWD = true) (hbusy : s.flag F.BOO_DOOR_BUSY = false) (hdone : s.flag F.BOO_DOOR_DONE = false)
    (hphase : s.fld F.BOO_STAT_PHASE = 0) (hport : ∃ p < 7, (s.fport p).loadOnly = true ∧ s.portUp p = true) (hfits : offset + bytes.length ≤ 2 ^ 28)
    (hu : u = s.updSvc (fun k => { k with window := bytes.zipIdx.foldl (fun t p => t.set 0 (offset + p.2) p.1) k.window })) :
    Leaves (.load offset bytes last) s (if last then (u.setFlag F.BOO_DOOR_BUSY true).setFld F.BOO_STAT_STEP 8 else u.setFld F.BOO_STAT_STEP 7) := by
  have hany : (List.range 7).any (fun p => (s.fport p).loadOnly && s.portUp p) = true := by
    obtain ⟨p, hp, hload, hup⟩ := hport
    exact List.any_eq_true.mpr ⟨p, List.mem_range.mpr hp, by simp [hload, hup]⟩
  refine leaves_of_next rfl ((if_neg (by simp [hdead, hfwd, hbusy, hdone, hphase, hany])).trans ?_)
  simp only [State.updSvc, window_write _ hfits, hu]

end

/-! The firmware set and its check (19 R423, R424) -/

section
variable {s u : State} {set : FwSet} {env : BootEnv}

theorem firmwareSetCheck_idle (h : s.flag F.BOO_DOOR_BUSY = false) : Leaves (.firmwareSetCheck set) s s := by
  refine leaves_of_next rfl ?_
  split
  · rfl
  · exact if_pos (by simp [h])

theorem foldl_setReg_cores (off : Nat → Nat) (v : State → Nat → W64) (l : List Nat) (s : State) : (l.foldl (fun s n => s.setReg (off n) (v s n)) s).cores = s.cores := by
  induction l generalizing s with
  | nil => rfl
  | cons n l ih => exact ih (s.setReg (off n) (v s n))

theorem foldl_setReg_mem (off : Nat → Nat) (v : State → Nat → W64) (l : List Nat) (s : State) : (l.foldl (fun s n => s.setReg (off n) (v s n)) s).mem = s.mem := by
  induction l generalizing s with
  | nil => rfl
  | cons n l ih => exact ih (s.setReg (off n) (v s n))

/-- The levels of an accepted set's patches (06 R157). -/
def State.patchLevels (s : State) (f : FwSet) : State :=
  (((s.setFld F.MCS_PLVL_CISPL (fwLevel f 2)).setFld F.MCS_PLVL_PDSPL (fwLevel f 3)).setFld F.MCS_PLVL_CISMR (enabledMr f.stores.cisMatch)).setFlag F.MCS_PLVL_LOADED true

/-- The match registers of the sequencers, byte by byte. -/
def State.patchMatch (s : State) (f : FwSet) : State :=
  (List.range 16).foldl (fun s v => s.setReg (0xC008 + v / 8 * 8) (putField (s.reg (0xC008 + v / 8 * 8)) (8 * (v % 8) + 7) (8 * (v % 8)) (enabledMr f.stores.pdsMatch))) s

/-- The engines' image, and what the service blocks keep of the set. -/
def State.imaged (s : State) (f : FwSet) : State :=
  let s := ((s.setFlag F.VEN_FW_LOADED true).setFlag F.VEN_FW_OEM f.oem).setFld F.VEN_FW_VERSION f.version.toNat
  let s := { s with chn := { s.chn with iram := f.veWords.zipIdx.map (fun (p : W32 × Nat) => (p.2, p.1)), sram := fwSram f } }
  s.updSvc (fun k => { k with fw := some f, stores := f.stores, window := [] })

theorem fwInstall_eq (s : State) (f : FwSet) : s.fwInstall f = ((s.patchLevels f).patchMatch f).imaged f := rfl

theorem imaged_cores (s : State) (f : FwSet) : (s.imaged f).cores = s.cores := rfl

theorem imaged_mem (s : State) (f : FwSet) : (s.imaged f).mem = s.mem := rfl

theorem imaged_installs (s : State) (f : FwSet) : (s.imaged f).svc.stores = f.stores ∧ (s.imaged f).svc.fw = some f ∧ (s.imaged f).chn.sram = fwSram f := ⟨rfl, rfl, rfl⟩

theorem patchLevels_cores (s : State) (f : FwSet) : (s.patchLevels f).cores = s.cores := rfl

theorem patchLevels_mem (s : State) (f : FwSet) : (s.patchLevels f).mem = s.mem := rfl

theorem patchMatch_cores (s : State) (f : FwSet) : (s.patchMatch f).cores = s.cores := foldl_setReg_cores _ _ _ _

theorem patchMatch_mem (s : State) (f : FwSet) : (s.patchMatch f).mem = s.mem := foldl_setReg_mem _ _ _ _

/-- An accepted set is installed whole, and nothing of the cores or of memory changes. -/
theorem fwInstall_installs (s : State) (set : FwSet) : (s.fwInstall set).svc.stores = set.stores ∧ (s.fwInstall set).svc.fw = some set ∧ (s.fwInstall set).chn.sram = fwSram set ∧
    (s.fwInstall set).cores = s.cores ∧ (s.fwInstall set).mem = s.mem := by
  obtain ⟨hstores, hfw, hsram⟩ := imaged_installs ((s.patchLevels set).patchMatch set) set
  rw [fwInstall_eq]
  exact ⟨hstores, hfw, hsram, by rw [imaged_cores, patchMatch_cores, patchLevels_cores], by rw [imaged_mem, patchMatch_mem, patchLevels_mem]⟩

/-- A check by its result. -/
theorem firmwareSetCheck_leaves (hdead : s.dead = false) (henv : s.svc.env = some env) (hbusy : s.flag F.BOO_DOOR_BUSY = true) (hphase : s.fld F.BOO_STAT_PHASE = 0)
    {r n : Nat} (hr : fwResult env.oemFuse env.oemOnly set = (r, n)) (hu : u = (s.setFld F.BOO_DOOR_RESULT r).setFld F.BOO_DOOR_COMP n) :
    Leaves (.firmwareSetCheck set) s (if r ≠ 0 then u.setRefused (r, n) else
      let w := ((u.setFlag F.BOO_DOOR_DONE true).fwInstall set).doorDone
      let w := if w.flag F.BOO_STAT_FWD then w else (List.range 7).foldl (fun s p => if s.portUp p then s.send .fab (mkCx (cxWall s.cxid) (cxCourse s.cxid) ((s.pos + p + 1) % 8)) 0x4C [] else s) w
      w.afterLoad env) := by
  refine leaves_of_next rfl ?_
  simp only [henv]
  exact (if_neg (by simp [hdead, hbusy, hphase])).trans (by rw [hr, hu])

/-- A refused set of a position that its host loads: the door opens again, while the 600 s last. -/
theorem setRefused_host {r n : Nat} {w x : State} (hw : w = (s.flt 14 1 0 none (BitVec.ofNat 64 (r * 256 + n))).setFld F.BOO_STAT_STEP 7) (hfwd : w.flag F.BOO_STAT_FWD = false)
    (hx : x = (w.setFlag F.BOO_DOOR_OPEN true).doorDone) : s.setRefused (r, n) = if x.windowPast then x.windowOver else x := by
  subst hx
  simp only [State.setRefused, ← hw, hfwd, Bool.false_eq_true, ↓reduceIte]

/-! The load window (19 R422, Table BOO-2) -/

theorem loadWindowTimeout_done (h : s.flag F.BOO_DOOR_DONE = true) : Leaves .loadWindowTimeout s s := leaves_of_next rfl (if_pos (by simp [h]))

/-- The end of the window comes at its time, the model's choice (log 14). -/
theorem loadWindowTimeout_leaves (hdead : s.dead = false) (hdone : s.flag F.BOO_DOOR_DONE = false) (hphase : s.fld F.BOO_STAT_PHASE = 0) (hstep : 6 ≤ s.fld F.BOO_STAT_STEP)
    (hu : u = s.reach (s.svc.winStart.toNat + 600 * 1000000 * usec)) : Leaves .loadWindowTimeout s (if u.flag F.BOO_DOOR_BUSY then u else u.windowOver) := by
  refine leaves_of_next rfl ((if_neg ?_).trans ?_)
  · simp [hdead, hdone, hphase, Nat.not_lt.mpr hstep]
  · rw [hu]

/-- A position that is not forwarded to stops for want of a set. -/
theorem windowOver_host (h : s.flag F.BOO_STAT_FWD = false) : s.windowOver = (s.setFlag F.BOO_DOOR_OPEN false).startStop 7 0x40 := by
  have hkept : (s.setFlag F.BOO_DOOR_OPEN false).flag F.BOO_STAT_FWD = false := by
    rw [← h, State.flag, State.flag, State.setFlag, fld_setFld_ne (by decide)]
  simp [State.windowOver, hkept]

/-! Hand-over and warm reset (19 R427 to R429) -/

theorem handOver_leaves (hdead : s.dead = false) (hfence : s.flag F.FLT_FENCE_CXF = false) (hphase : s.fld F.BOO_STAT_PHASE = 0) (hdone : s.flag F.BOO_DOOR_DONE = true)
    (hstep : s.fld F.BOO_STAT_STEP = 11 ∨ s.fld F.BOO_STAT_STEP = 12) : Leaves .handOver s s.step13 := by
  refine leaves_of_next rfl (if_neg ?_)
  rcases hstep with hstep | hstep <;> simp [hdead, hfence, hphase, hdone, hstep]

theorem handOver_ignored (h : s.flag F.BOO_DOOR_DONE = false) : Leaves .handOver s s := leaves_of_next rfl (if_pos (by simp [h]))

section
variable {src : Src} {v : W64} {pcs : List Nat}

theorem rstWrite_idle (h : fieldOf v 63 63 = 0) : s.rstWrite src v pcs = s := by rw [State.rstWrite, if_pos h]

theorem rstWrite_no_key (h : fieldOf v 63 63 = 1) (hkey : fieldOf v 7 0 ≠ 0xA5) : s.rstWrite src v pcs = s.cfgErr src F.BOO_RST_WARM.base := by
  rw [State.rstWrite, if_neg (by simp [h]), if_pos hkey]

theorem rstWrite_keyed (h : fieldOf v 63 63 = 1) (hkey : fieldOf v 7 0 = 0xA5) : s.rstWrite src v pcs = if s.fld F.BOO_STAT_PHASE ≠ 2 then s else s.warm pcs := by
  rw [State.rstWrite, if_neg (by simp [h]), if_neg (by simp [hkey])]

end

end

/-- Settles O48: each step is the lemma of its command; where the spec is open they follow the choices of logs 14, 76, 77, 89 and 107. -/
theorem startUp : Obligations.StartUp := by
  unfold Obligations.StartUp
  intro s u env a b us offset seen late last bytes set src v pcs
  refine ⟨porstNAssert_ignored, porstNAssert_resets, coldReset_ignored, fun haon htrip hu => ⟨fun hq => ?none, fun hq => ?fosc, fun hq => ?all⟩, fun henv hdead hphase => ?flash, fun hdead => ?loading⟩
  case none => simpa [hq] using coldReset_leaves haon htrip hu
  case fosc => simpa [hq] using coldReset_leaves haon htrip hu
  case all => simpa [hq, srcBit] using coldReset_leaves haon htrip hu
  case flash =>
    intro p q x y
    refine ⟨flashReadSlot_idle henv, fun hstep => flashReadSlot_refuses ⟨henv, hdead, hphase, hstep⟩ rfl rfl rfl, fun hstep hxr hyr hlater hu => ?_⟩
    subst hu
    exact ⟨flashReadSlot_mismatch ⟨henv, hdead, hphase, hstep⟩ rfl rfl rfl hxr hyr hlater,
      fun hstable hid t w ht hw => flashReadSlot_loads ⟨henv, hdead, hphase, hstep⟩ rfl rfl rfl hxr hyr hlater hstable hid ht hw⟩
  case loading =>
    refine ⟨fun h => leaves_of_alive rfl hdead (doorClose_open h), fun h => leaves_of_alive rfl hdead (doorClose_closed h), load_ignored, fun hfwd hbusy hdone hphase hport hfits hu => ?load,
      firmwareSetCheck_idle, fwInstall_installs s set, fun henv hbusy hphase r n hr hu => ⟨fun hr0 _ w hw hfwd => ?refused, fun hr0 w hw hfwd => ?accepted⟩,
      loadWindowTimeout_done, fun hdone hphase hstep hu => ⟨fun hbusy => ?checking, fun hbusy hfwd => ?past⟩, handOver_leaves hdead, handOver_ignored,
      fun h => leaves_of_alive rfl hdead (rstWrite_idle h), fun h hkey => leaves_of_alive rfl hdead (rstWrite_no_key h hkey),
      fun h hkey => ⟨fun hphase => leaves_of_alive rfl hdead ((rstWrite_keyed h hkey).trans (if_pos hphase)), fun hphase => leaves_of_alive rfl hdead ((rstWrite_keyed h hkey).trans (if_neg (by simp [hphase])))⟩⟩
    case load =>
      have htaken := load_takes (last := last) hdead hfwd hbusy hdone hphase hport hfits hu
      exact ⟨fun h => by rwa [if_pos h] at htaken, fun h => by rwa [if_neg (by simp [h])] at htaken⟩
    case refused =>
      have hres := firmwareSetCheck_leaves (u := u) hdead henv hbusy hphase hr hu
      rw [if_pos hr0, setRefused_host hw hfwd rfl] at hres
      exact ⟨fun hpast => by rwa [hpast] at hres, fun hpast => by rwa [hpast] at hres⟩
    case accepted =>
      have hres := firmwareSetCheck_leaves (u := u) hdead henv hbusy hphase hr hu
      simp only [hr0, ← hw, hfwd] at hres
      exact hres
    case checking => simpa only [if_pos hbusy] using loadWindowTimeout_leaves hdead hdone hphase hstep hu
    case past =>
      have hres := loadWindowTimeout_leaves hdead hdone hphase hstep hu
      rwa [hbusy, windowOver_host hfwd] at hres

end Sys2Proof.Machine
end

section
/-! PROOFS. Clocks, gears, power, heat and explicit requests (18 R391 to R409; 17 R387, R389). -/

namespace Sys2Proof.Machine

/-! Sources (18 R391 to R395) -/

section
variable {s u : State} {c : ClkSrc}

theorem clockQualified_known (h : s.qual c = true ∨ s.failed c = true) : Leaves (.clockQualified c) s s :=
  leaves_of_next rfl (if_pos (by rcases h with h | h <;> simp [h]))

theorem clockQualified_joins (hdead : s.dead = false) (hq : s.qual c = false) (hf : s.failed c = false)
    (hu : u = (s.setFld F.CLK_SRC_QUAL (putBits (s.fld F.CLK_SRC_QUAL) (srcBit c) (srcBit c) 1)).setRef) :
    Leaves (.clockQualified c) s (if c = .xb && 11 ≤ u.fld F.BOO_STAT_STEP && u.fld F.BOO_STAT_PHASE ≠ 1 then u.trainPorts else u) := by
  refine leaves_of_next rfl ((if_neg (by simp [hdead, hq, hf])).trans ?_)
  rw [hu]

theorem clockSourceFailed_bad (h : s.clkOk c = false) : Leaves (.clockSourceFailed c) s s := leaves_of_next rfl (if_pos (by simp [h]))

/-- The state in which a source's failure is noted. -/
def State.srcLost (s : State) (c : ClkSrc) : State :=
  (s.setFld F.CLK_SRC_FAIL (putBits (s.fld F.CLK_SRC_FAIL) (srcBit c) (srcBit c) 1)).flt 13 0 0 none (BitVec.ofNat 64 (srcBit c))

/-- The links lose their clock with XB: one that is up goes down, one that trains starts again. -/
def State.xbLinksDown (s : State) : State :=
  (List.range 16).foldl (fun s p => if s.portUp p then s.linkDown p else if s.fld F.FAB_PSTAT_STATE p == 1 then s.setFld F.FAB_PSTAT_STATE 0 p else s) s

/-- What follows from the failure of each source. -/
def State.afterSrcLost (s : State) (c : ClkSrc) : State :=
  match c with
  | .fosc => if s.fld F.CLK_SRC_REF = 2 || !(s.clkOk .xa || s.clkOk .xb) then s.holdReset 1 else s
  | .sosc => s.holdReset 3
  | .xa => s.setRef
  | .xb => s.xbLinksDown.setRef
  | .vref => (List.range 16).foldl (fun s v => s.portDown v) (s.flt 9 12)
  | .pcie => if s.svc.pcieUp then s.pcieLost else s

theorem clockSourceFailed_leaves (hdead : s.dead = false) (h : s.clkOk c = true) {v : State} (hv : (s.srcLost c).afterSrcLost c = v) : Leaves (.clockSourceFailed c) s v := by
  refine leaves_of_next rfl ((if_neg (by simp [hdead, h])).trans (Eq.trans ?_ hv))
  cases c <;> rfl

theorem xbLinksDown_idle (h : ∀ p, p < 16 → s.fld F.FAB_PSTAT_STATE p = 0) : s.xbLinksDown = s :=
  foldl_of_fixed (fun p hp => by simp [State.portUp, h p (List.mem_range.mp hp)])

end

/-! Switches and gears (18 R396 to R401) -/

section
variable {s u : State} {dom cl gear : Nat}

theorem clockSwitch_leaves (hdead : s.dead = false) (hdom : dom < 64) : Leaves (.clockSwitch dom) s (s.clkSwitch dom) :=
  leaves_of_guarded rfl (Nat.not_le.mpr hdom) (if_neg (by simp [hdead]))

theorem clkSwitch_cluster (h : dom < 8) :
    s.clkSwitch dom = s.updSvc (fun k => { k with domSel := k.domSel.put dom (b2n (s.flag F.CLK_GEAR_CHG dom || s.emergency || s.svc.avsHeld.contains dom)) }) := by
  rw [State.clkSwitch, if_neg (Nat.not_le.mpr h)]

theorem clkSwitch_other (h : 8 ≤ dom) : s.clkSwitch dom = s := by rw [State.clkSwitch, if_pos h]

theorem freewheelSwitch_leaves (hdead : s.dead = false) (hdom : dom < 64) :
    Leaves (.freewheelSwitch dom) s ((((s.clkSwitch dom).count F.CLK_SWLOG_COUNT (some F.CLK_SWLOG_OVF)).setFld F.CLK_SWLOG_LAST dom).flt 13 2) :=
  leaves_of_guarded rfl (Nat.not_le.mpr hdom) (if_neg (by simp [hdead]))

theorem gearChange_idle (hcl : cl < 8) (h : s.flag F.CLK_GEAR_CHG cl = false ∨ s.emergency = true ∨ s.svc.avsHeld.contains cl = true) : Leaves (.gearChange cl) s s :=
  leaves_of_guarded rfl (Nat.not_le.mpr hcl) (if_pos (by rcases h with h | h | h <;> simp only [h, Bool.not_false, Bool.or_true, Bool.true_or]))

theorem gearDue_settled (h : s.gearTarget cl = s.fld F.CLK_GEAR_CUR cl) (hchg : s.flag F.CLK_GEAR_CHG cl = false) : s.gearDue cl = s := by
  simp [State.gearDue, h, hchg]

theorem Tab.get_of_find {α : Type} {d v : α} {t : Tab α} {k : Nat} (h : t.find k = some v) : t.get d k = v := by
  induction t with
  | nil => cases h
  | cons p r ih =>
    unfold Tab.find at h
    unfold Tab.get
    split at h
    · cases h
    · rw [if_neg ‹_›]
      split at h
      · rw [if_pos ‹_›]; exact Option.some.inj h
      · rw [if_neg ‹_›]; exact ih h

theorem gearChange_ends (hdead : s.dead = false) (hcl : cl < 8) (hchg : s.flag F.CLK_GEAR_CHG cl = true) (hem : s.emergency = false) (hheld : s.svc.avsHeld.contains cl = false)
    (hto : s.svc.gearTo.find cl = some gear)
    (hu : u = ((s.setFld F.CLK_GEAR_CUR gear cl).setFlag F.CLK_GEAR_CHG false cl).updSvc (fun k => { k with domSel := k.domSel.put cl 0, gearTo := k.gearTo.del cl })) :
    Leaves (.gearChange cl) s (u.gearDue cl) := by
  refine leaves_of_guarded rfl (Nat.not_le.mpr hcl) ((if_neg ?_).trans ?_)
  · simp only [hdead, hchg, hem, hheld, Bool.not_true, Bool.or_self, Bool.false_eq_true, not_false_eq_true]
  · rw [hu, Tab.get_of_find hto]

end

/-! Power and heat (18 R403 to R405) -/

section
variable {s u : State} {watts cl c : Nat}

theorem resetHoldPulse_holds (h : s.svc.resetHold = true) (hp : s.svc.powered = true) (ht : s.svc.trip = false) : Leaves .resetHoldPulse s s.errPulse :=
  leaves_of_next rfl (if_pos (by simp [h, hp, ht]))

theorem resetHoldPulse_off (h : s.svc.resetHold = false) : Leaves .resetHoldPulse s s := leaves_of_next rfl (if_neg (by simp [h]))

theorem powerEstimateTick_under (hdead : s.dead = false) (hle : watts ≤ s.fld F.CLK_PWR_PLIM) (hnear : s.fld F.CLK_PWR_PLIM * 95 ≤ watts * 100) :
    Leaves (.powerEstimateTick watts) s ((s.setFld F.CLK_PWR_EST (min watts 1023)).updSvc
      (fun k => { k with powHigh := 0, powLow := 0, powUnder := if watts < s.fld F.CLK_PWR_PLIM then k.powUnder + 1 else 0 })) := by
  have hhigh : ¬ s.fld F.CLK_PWR_PLIM * 105 < watts * 100 := by omega
  refine leaves_of_alive rfl hdead ?_
  simp [hhigh, Nat.not_lt.mpr hnear, Nat.not_lt.mpr hle]

/-- The tenth tick in a row above 1.05 PLIM. -/
theorem powerEstimateTick_emergency (hdead : s.dead = false) (hover : s.fld F.CLK_PWR_PLIM * 105 < watts * 100) (hnine : s.svc.powHigh = 9) :
    Leaves (.powerEstimateTick watts) s (((s.setFld F.CLK_PWR_EST (min watts 1023)).updSvc (fun k => { k with powHigh := 10, powLow := 0, powUnder := 0 })).emergencyOn false) := by
  have hlow : ¬ watts * 100 < s.fld F.CLK_PWR_PLIM * 95 := by omega
  have hunder : ¬ watts < s.fld F.CLK_PWR_PLIM := by omega
  refine leaves_of_alive rfl hdead ?_
  simp [hover, hlow, hunder, hnine]

theorem any_capped {f : Fld} (hcl : cl < 8) (h : s.fld f cl ≠ 15) : (List.range 8).any (fun c => s.fld f c != 15) = true :=
  List.any_eq_true.mpr ⟨cl, List.mem_range.mpr hcl, by simp [h]⟩

/-- Above PLIM and no emergency: the fastest cluster's cap falls; a cap that stands already has been reported. -/
theorem powerEstimateTick_caps (hdead : s.dead = false) (hcl : cl < 8) (hover : s.fld F.CLK_PWR_PLIM < watts) (hnear : watts * 100 ≤ s.fld F.CLK_PWR_PLIM * 105)
    (hu : u = (s.setFld F.CLK_PWR_EST (min watts 1023)).updSvc (fun k => { k with powHigh := 0, powLow := 0, powUnder := 0 }))
    (htop : u.topGear ((List.range 8).filter (fun k => u.fld F.CLK_GEAR_PWRCAP k != 0)) = some c) (hcap : u.fld F.CLK_GEAR_PWRCAP cl ≠ 15) :
    Leaves (.powerEstimateTick watts) s (u.setCap F.CLK_GEAR_PWRCAP c (u.fld F.CLK_GEAR_PWRCAP c - 1)) := by
  have hlow : ¬ watts * 100 < s.fld F.CLK_PWR_PLIM * 95 := by omega
  have hcapped := any_capped hcl hcap
  refine leaves_of_alive rfl hdead ?_
  simp only [if_neg (Nat.not_lt.mpr hnear), if_neg hlow, if_neg (Nat.lt_asymm hover), if_pos hover, ← hu, htop, hcapped, ↓reduceIte]
  rfl

theorem thermalCapTick_blind (hcl : cl < 8) (h : s.blind cl = true) : Leaves (.thermalCapTick cl) s s :=
  leaves_of_guarded rfl (Nat.not_le.mpr hcl) (if_pos (by simp [h]))

theorem thermalCapTick_leaves (hdead : s.dead = false) (hcl : cl < 8) (h : s.blind cl = false) {v : State}
    (hv : (let t : Int := s.fld F.CLK_PWR_TTHR * 16
      let l := s.groupTemps cl
      let cap := s.fld F.CLK_GEAR_THMCAP cl
      if l.any (fun x => decide (t ≤ x)) then
        if cap = 0 then s else
          let capped := (List.range 8).any (fun c => s.fld F.CLK_GEAR_THMCAP c != 15)
          let s := s.setCap F.CLK_GEAR_THMCAP cl (cap - 1)
          if capped then s else s.flt 13 4
      else if l.all (fun x => decide (x < t - 80)) && decide (cap < 15) && !s.emergency then s.setCap F.CLK_GEAR_THMCAP cl (cap + 1) else s) = v) :
    Leaves (.thermalCapTick cl) s v :=
  leaves_of_guarded rfl (Nat.not_le.mpr hcl) ((if_neg (by simp [hdead, h])).trans hv)

theorem thermalCapTick_hot (hdead : s.dead = false) (hcl : cl < 8) (h : s.blind cl = false) (hhot : ∃ x ∈ s.groupTemps cl, (s.fld F.CLK_PWR_TTHR * 16 : Int) ≤ x) :
    (s.fld F.CLK_GEAR_THMCAP cl = 0 → Leaves (.thermalCapTick cl) s s) ∧
    (0 < s.fld F.CLK_GEAR_THMCAP cl → s.fld F.CLK_GEAR_THMCAP c ≠ 15 → c < 8 → Leaves (.thermalCapTick cl) s (s.setCap F.CLK_GEAR_THMCAP cl (s.fld F.CLK_GEAR_THMCAP cl - 1))) := by
  have hany : (s.groupTemps cl).any (fun x => decide ((s.fld F.CLK_PWR_TTHR * 16 : Int) ≤ x)) = true := by simpa using hhot
  refine ⟨fun hzero => thermalCapTick_leaves hdead hcl h ?_, fun hpos hc hc8 => thermalCapTick_leaves hdead hcl h ?_⟩
  · simp only [hany, hzero, ↓reduceIte]
  · simp only [hany, Nat.pos_iff_ne_zero.mp hpos, any_capped hc8 hc, ↓reduceIte]

theorem thermalCapTick_cool (hdead : s.dead = false) (hcl : cl < 8) (h : s.blind cl = false) (hcool : ∀ x ∈ s.groupTemps cl, x < (s.fld F.CLK_PWR_TTHR * 16 : Int) - 80)
    (hcap : s.fld F.CLK_GEAR_THMCAP cl < 15) (hem : s.emergency = false) : Leaves (.thermalCapTick cl) s (s.setCap F.CLK_GEAR_THMCAP cl (s.fld F.CLK_GEAR_THMCAP cl + 1)) := by
  have hany : (s.groupTemps cl).any (fun x => decide ((s.fld F.CLK_PWR_TTHR * 16 : Int) ≤ x)) = false := by
    simp only [List.any_eq_false, decide_eq_true_eq]
    intro x hx
    have hlt := hcool x hx
    omega
  have hall : (s.groupTemps cl).all (fun x => decide (x < (s.fld F.CLK_PWR_TTHR * 16 : Int) - 80)) = true := by simpa using hcool
  refine thermalCapTick_leaves hdead hcl h ?_
  simp only [hany, hall, hcap, hem, decide_true, Bool.not_false, Bool.and_self, Bool.false_eq_true, ↓reduceIte]

theorem powerEmergencyEnd_ends (hdead : s.dead = false) (h : s.flag F.CLK_PWR_PEMERG = true) (hlt : s.fld F.CLK_PWR_EST < s.fld F.CLK_PWR_PLIM) : Leaves .powerEmergencyEnd s (s.emergencyOff false) :=
  leaves_of_next rfl (if_neg (by simp [hdead, h, hlt]))

theorem powerEmergencyEnd_none (h : s.flag F.CLK_PWR_PEMERG = false) : Leaves .powerEmergencyEnd s s := leaves_of_next rfl (if_pos (by simp [h]))

end

/-! Explicit requests (18 R408, R409; 17 R389) -/

/-- CLK_REQ with a request's OP and target. -/
def State.reqPut (s : State) (op t : Nat) : State := (s.setFld F.CLK_REQ_OP op).setFld F.CLK_REQ_TGT t

/-- The request that the derailleur has taken. -/
def State.reqTaken (s : State) (op t : Nat) : State := (s.reqPut op t).updSvc (fun k => { k with reqOp := op, reqTgt := t })

section
variable {s : State} {src : Src} {op t : Nat}

theorem reqGo_refused (hop : op ≠ 4) (h : s.fld F.CLK_REQ_STATE = 1 ∨ s.fld F.CLK_REQ_STATE = 2 ∨ tgtOk t = false) : s.reqGo src op t = s.cfgErr src F.CLK_REQ_STATE.base := by
  rw [State.reqGo, if_neg hop, if_pos (by rcases h with h | h | h <;> simp [h])]

/-- CLK_REQ takes a request: no other is under way, and the target exists. -/
def State.reqFree (s : State) (t : Nat) : Prop := s.fld F.CLK_REQ_STATE ≠ 1 ∧ s.fld F.CLK_REQ_STATE ≠ 2 ∧ tgtOk t = true

theorem reqGo_free (h : s.reqFree t) (hop : op < 4) : s.reqGo src op t =
    match (s.reqPut op t).reqReason op t with
    | 0 =>
      let s := s.reqTaken op t
      if op ≠ 3 && t ≤ 16 && s.held? t then
        let s := (s.setFld F.CLK_REQ_STATE 2).setFld F.CLK_REQ_REASON 0
        if s.emergency then s.forceRelease t else s
      else (if op = 3 then s else s.scrub t).setFld F.CLK_REQ_STATE 1 |>.setFld F.CLK_REQ_REASON 0
    | r => ((s.reqPut op t).setFld F.CLK_REQ_STATE 4).setFld F.CLK_REQ_REASON r := by
  obtain ⟨h1, h2, ht⟩ := h
  rw [State.reqGo, if_neg (by omega), if_neg (by simp [h1, h2, ht]; omega)]
  rfl

/-- CLK_REQ holds no emergency. -/
theorem emergency_setReq {f : Fld} {v : Nat} (hf : f.base = F.CLK_REQ_STATE.base ∧ f.s1 = 0 ∧ f.s2 = 0) : (s.setFld f v).emergency = s.emergency := by
  obtain ⟨hbase, h1, h2⟩ := hf
  have hoff : f.off = F.CLK_REQ_STATE.base := by simp [Fld.off, hbase, h1, h2]
  rw [State.emergency, State.emergency, State.flag, State.flag, fld_setFld_ne (by rw [hoff]; decide), fld_setFld_ne (by rw [hoff]; decide), State.flag, State.flag]

/-- A request on a block that is held waits for its release (17 R389). -/
theorem reqGo_deferred (h : s.reqFree t) (hop : op < 3) (hr : (s.reqPut op t).reqReason op t = 0) (ht : t ≤ 16) (hheld : (s.reqTaken op t).held? t = true)
    (hem : (s.reqTaken op t).emergency = false) : s.reqGo src op t = ((s.reqTaken op t).setFld F.CLK_REQ_STATE 2).setFld F.CLK_REQ_REASON 0 := by
  have hem2 : (((s.reqTaken op t).setFld F.CLK_REQ_STATE 2).setFld F.CLK_REQ_REASON 0).emergency = false := by
    rw [emergency_setReq (by decide), emergency_setReq (by decide), hem]
  rw [reqGo_free h (by omega), hr]
  dsimp only
  rw [if_pos (by simp [hheld, ht]; omega), hem2]
  rfl

/-- A request on a block that is not held goes on, its secret state zeroed (17 R387). -/
theorem reqGo_proceeds (h : s.reqFree t) (hop : op < 3) (hr : (s.reqPut op t).reqReason op t = 0) (hheld : (s.reqTaken op t).held? t = false) :
    s.reqGo src op t = (((s.reqTaken op t).scrub t).setFld F.CLK_REQ_STATE 1).setFld F.CLK_REQ_REASON 0 := by
  rw [reqGo_free h (by omega), hr]
  dsimp only
  rw [if_neg (by simp [hheld]), if_neg (by omega)]
  rfl

theorem reqGo_wakes (h : s.reqFree t) (hr : (s.reqPut 3 t).reqReason 3 t = 0) :
    s.reqGo src 3 t = ((s.reqTaken 3 t).setFld F.CLK_REQ_STATE 1).setFld F.CLK_REQ_REASON 0 := by
  rw [reqGo_free h (by decide), hr]
  rfl

theorem reqGo_reason {r : Nat} (h : s.reqFree t) (hop : op < 4) (hr : (s.reqPut op t).reqReason op t = r) (h0 : r ≠ 0) :
    s.reqGo src op t = ((s.reqPut op t).setFld F.CLK_REQ_STATE 4).setFld F.CLK_REQ_REASON r := by
  rw [reqGo_free h hop, hr]
  split
  · exact absurd rfl h0
  · rfl

theorem reqReason_unlisted (h : opListed op t = false) : s.reqReason op t = 1 := by rw [State.reqReason, if_pos (by simp [h])]

theorem reqGo_withdraws (h : s.fld F.CLK_REQ_STATE = 2) : s.reqGo src 4 0 = (s.setFld F.CLK_REQ_STATE 0).setFld F.CLK_REQ_OP 4 := by
  rw [State.reqGo, if_pos rfl, if_pos h]

theorem reqGo_withdraws_none (h : s.fld F.CLK_REQ_STATE ≠ 2) : s.reqGo src 4 0 = s.cfgErr src F.CLK_REQ_STATE.base := by
  rw [State.reqGo, if_pos rfl, if_neg h]

end

/-! The end of a request -/

section
variable {s u : State}

theorem explicitRequestDone_none (h : s.fld F.CLK_REQ_STATE ≠ 1) : Leaves .explicitRequestDone s s := leaves_of_next rfl (if_pos (by simp [h]))

theorem explicitRequestDone_block (hdead : s.dead = false) (h : s.fld F.CLK_REQ_STATE = 1) (hu : u = s.setFld F.CLK_REQ_STATE 3) (ht : s.svc.reqTgt < 64) :
    Leaves .explicitRequestDone s (u.updSvc (fun k => { k with
      blk := if s.svc.reqOp = 3 then k.blk.del s.svc.reqTgt else k.blk.put s.svc.reqTgt (if s.svc.reqOp = 1 then BlkSt.gated else if s.svc.reqOp = 2 then BlkSt.off else BlkSt.run) })) := by
  refine leaves_of_next rfl ((if_neg (by simp [hdead, h])).trans ((if_neg (Nat.not_le.mpr ht)).trans ?_))
  rw [hu]

/-- A controller goes into self-refresh, or leaves it. -/
theorem explicitRequestDone_controller {m : Nat} (hdead : s.dead = false) (h : s.fld F.CLK_REQ_STATE = 1) (hu : u = s.setFld F.CLK_REQ_STATE 3) (ht : s.svc.reqTgt = 64 + m)
    (hpwr : u.fld F.MEM_CHSTAT_PWR m ≠ 3) (hpop : u.populated m = true) :
    Leaves .explicitRequestDone s ((u.setMc m { u.mc m with powerDown := [], selfRef := if s.svc.reqOp == 2 then u.ranks else [] }).pwr m) := by
  have hm : s.svc.reqTgt - 0x40 = m := by omega
  refine leaves_of_next rfl ((if_neg (by simp [hdead, h])).trans ((if_pos (by omega)).trans ?_))
  rw [hm, ← hu]
  exact (if_neg hpwr).trans (if_neg (by simp [hpop]))

end

/-! Service blocks (18 R407) -/

theorem updSvc_svc (s : State) (f : Svc → Svc) : (s.updSvc f).svc = f s.svc := rfl

theorem foldl_setReg_svc (off : Nat → Nat) (v : State → Nat → W64) (l : List Nat) (s : State) : (l.foldl (fun s n => s.setReg (off n) (v s n)) s).svc = s.svc := by
  induction l generalizing s with
  | nil => rfl
  | cons n l ih => exact ih (s.setReg (off n) (v s n))

section
variable {s u : State} {src : Src} {v : W64}

/-- The effect of deep sleep on the trace rings, the pins and the TAP. -/
def State.slept (s : State) (t g j : Bool) : State :=
  let s := if t then (List.range 8).foldl (fun s c => s.setReg (F.SVC_TRCTL_EN.off c) 0) (s.updSvc (fun k => { k with trace := [], traceLost := [] })) else s
  let s := if g then (List.range 24).foldl (fun s n => s.setReg (F.PKG_GPIO_PID.off n) 0) (s.updSvc (fun k => { k with gpioPend := [] })) else s
  if j then s.updSvc (fun k => { k with tapReg := 0, tapBoundary := 0, tapSample := 0 }) else s

theorem clkSblkWrite_leaves (hdead : s.dead = false) (hu : u = s.wrReg src F.CLK_SBLK_TRACE.base v) :
    Leaves (.clkSblkWrite src v) s (u.slept (u.fld F.CLK_SBLK_TRACE == 2 && s.fld F.CLK_SBLK_TRACE != 2) (u.fld F.CLK_SBLK_GPIO == 2 && s.fld F.CLK_SBLK_GPIO != 2)
      (u.fld F.CLK_SBLK_JTAG == 2 && s.fld F.CLK_SBLK_JTAG != 2)) := by
  subst hu; exact leaves_of_alive rfl hdead rfl

theorem slept_none (s : State) : s.slept false false false = s := rfl

theorem slept_tap (s : State) (t g : Bool) : (s.slept t g true).svc.tapReg = 0 ∧ (s.slept t g true).svc.tapBoundary = 0 ∧ (s.slept t g true).svc.tapSample = 0 := ⟨rfl, rfl, rfl⟩

theorem slept_trace (s : State) (g j : Bool) : (s.slept true g j).svc.trace = [] ∧ (s.slept true g j).svc.traceLost = [] := by
  cases g <;> cases j <;> simp [State.slept, updSvc_svc, foldl_setReg_svc]

end

/-- Settles O47: each command is the lemma of its operation; where the spec is open they follow the choices of logs 42, 43, 44, 46, 73 and 107. -/
theorem clocksAndPower : Obligations.ClocksAndPower := by
  refine ⟨?clocks, ?power⟩
  case clocks =>
    intro s u c dom cl gear hdead hdom hcl
    refine ⟨clockQualified_known, fun hq hf hu => ⟨fun hc => ?other, fun hc hstep hphase => ?felard⟩, clockSourceFailed_bad,
      fun hok hu => ⟨?xa, ?xb, ?sosc, ?fosc, ?foscOk, ?vref, ?pcieDown, ?pcieUp⟩,
      leaves_of_next rfl rfl, fun h => clkSwitch_cluster h ▸ clockSwitch_leaves hdead hdom, fun h => ?noSwitch, freewheelSwitch_leaves hdead hdom,
      gearChange_idle hcl, fun hchg hem hheld hto hu htarget hdone => ?gear⟩
    case other =>
      have hjoin := clockQualified_joins hdead hq hf hu
      rwa [if_neg (by rcases hc with hc | hc <;> simp [hc])] at hjoin
    case felard =>
      have hjoin := clockQualified_joins hdead hq hf hu
      rwa [if_pos (by simp [hc, hstep, hphase])] at hjoin
    case noSwitch =>
      have hswitch := clockSwitch_leaves hdead hdom
      rwa [clkSwitch_other h] at hswitch
    case gear => exact gearDue_settled htarget hdone ▸ gearChange_ends hdead hcl hchg hem hheld hto hu
    all_goals
      rw [← State.srcLost] at hu
      rintro rfl
      subst hu
    case xa => exact clockSourceFailed_leaves hdead hok rfl
    case xb => exact fun hidle => clockSourceFailed_leaves hdead hok (congrArg State.setRef (xbLinksDown_idle hidle))
    case sosc => exact clockSourceFailed_leaves hdead hok rfl
    case fosc => exact fun href => clockSourceFailed_leaves hdead hok (if_pos (by simp [href]))
    case foscOk => exact fun href hxa => clockSourceFailed_leaves hdead hok (if_neg (by simp [href, hxa]))
    case vref => exact clockSourceFailed_leaves hdead hok rfl
    case pcieDown => exact fun hup => clockSourceFailed_leaves hdead hok (if_neg (by simp [hup]))
    case pcieUp => exact fun hup => clockSourceFailed_leaves hdead hok (if_pos hup)
  case power =>
    intro s u src tgt v cl watts c hcl
    refine ⟨resetHoldPulse_holds, resetHoldPulse_off, fun hdead => ⟨⟨powerEstimateTick_under hdead, powerEstimateTick_emergency hdead, fun hover hnear hu htop hcap => powerEstimateTick_caps hdead hcl hover hnear hu htop hcap⟩,
      ⟨thermalCapTick_blind hcl, thermalCapTick_hot hdead hcl, thermalCapTick_cool hdead hcl⟩, powerEmergencyEnd_ends hdead, powerEmergencyEnd_none, ?requests, ?sleep⟩⟩
    case requests =>
      intro st t put go bad
      refine ⟨fun h => ⟨leaves_of_alive rfl hdead (reqGo_refused (by decide) h), leaves_of_alive rfl hdead (reqGo_refused (by decide) h), leaves_of_alive rfl hdead (reqGo_refused (by decide) h)⟩,
        fun h1 h2 ht => ⟨fun hr h16 hheld hem => leaves_of_alive rfl hdead (reqGo_deferred ⟨h1, h2, ht⟩ (by decide) hr h16 hheld hem),
          fun hr hheld => leaves_of_alive rfl hdead (reqGo_proceeds ⟨h1, h2, ht⟩ (by decide) hr hheld), fun hr hheld => leaves_of_alive rfl hdead (reqGo_proceeds ⟨h1, h2, ht⟩ (by decide) hr hheld),
          fun hlist => leaves_of_alive rfl hdead (reqGo_reason ⟨h1, h2, ht⟩ (by decide) (reqReason_unlisted hlist) (by decide)), fun hr => leaves_of_alive rfl hdead (reqGo_wakes ⟨h1, h2, ht⟩ hr),
          fun hr => leaves_of_alive rfl hdead (reqGo_reason ⟨h1, h2, ht⟩ (by decide) hr (by decide))⟩,
        fun h => leaves_of_alive rfl hdead (reqGo_withdraws h), fun h => leaves_of_alive rfl hdead (reqGo_withdraws_none h), explicitRequestDone_none,
        fun h hu => ⟨fun hblk => ?block, fun m hm hpwr hpop => ?controller⟩⟩
      case block =>
        have hdone := explicitRequestDone_block hdead h hu hblk
        refine ⟨fun hop => ?_, fun hop => ?_, fun hop => ?_⟩ <;> simpa [hop] using hdone
      case controller =>
        have hdone := explicitRequestDone_controller hdead h hu hm hpwr hpop
        exact ⟨fun hop => by simpa [hop] using hdone, fun hop => by simpa [hop] using hdone⟩
    case sleep =>
      intro hu
      have hsleep := clkSblkWrite_leaves hdead hu
      refine ⟨fun ht hg hj => ?_, fun hj hj0 => ?_, fun ht ht0 => ?_⟩
      · rwa [beq_false_of_ne ht, beq_false_of_ne hg, beq_false_of_ne hj, Bool.false_and, Bool.false_and, Bool.false_and, slept_none] at hsleep
      · rw [hj, bne_iff_ne.mpr hj0] at hsleep
        exact ⟨_, hsleep, by simpa only [left_svc, BEq.rfl, Bool.and_true] using slept_tap u _ _⟩
      · rw [ht, bne_iff_ne.mpr ht0] at hsleep
        exact ⟨_, hsleep, by simpa only [left_svc, BEq.rfl, Bool.and_true] using slept_trace u _ _⟩

end Sys2Proof.Machine
end

section
/-! PROOFS. Keystone (17 R375 to R390): mailboxes, services, holds, restart and entropy. -/

namespace Sys2Proof.Machine

/-! Mailboxes (17 R375, R376) -/

section
variable {s u : State} {src : Src} {mb m : Nat}

theorem mailboxGo_leaves (hdead : s.dead = false) (hmb : mb < 64) (heq : s.mbCtl src mb (BitVec.ofNat 64 (2 ^ 63 + s.mbPid mb * 256)) = u) : Leaves (.mailboxGo src mb) s u :=
  leaves_of_guarded rfl (Nat.not_le.mpr hmb) ((if_neg (by simp [hdead])).trans heq)

theorem mailboxAck_leaves (hdead : s.dead = false) (hmb : mb < 64) (heq : s.mbAck src mb (BitVec.ofNat 64 (2 ^ 61)) = u) : Leaves (.mailboxAck src mb) s u :=
  leaves_of_guarded rfl (Nat.not_le.mpr hmb) ((if_neg (by simp [hdead])).trans heq)

theorem mbCtl_refused {v : W64} (h : mbSide src mb = false ∨ s.fld F.KEY_MBSTAT_STATE mb ≠ 0) : s.mbCtl src mb v = s.cfgErr src (F.KEY_MBCTL_PID.off mb) := by
  rw [State.mbCtl, if_pos (by rcases h with h | h <;> simp [h])]

/-- GO at a mailbox of the host, whose PID is fixed at 0. -/
theorem mbCtl_host (hside : mbSide src mb = true) (hidle : s.fld F.KEY_MBSTAT_STATE mb = 0) (hhost : 56 ≤ mb) :
    s.mbCtl src mb (BitVec.ofNat 64 (2 ^ 63 + s.mbPid mb * 256)) = if s.fld F.KEY_STAT_STATE = 2 then s.mbEnd mb 0x0B else s.setFld F.KEY_MBSTAT_STATE 1 mb := by
  have hpid : s.mbPid mb = 0 := if_pos hhost
  rw [State.mbCtl, if_neg (by simp [hside, hidle]), if_pos hhost, hpid]
  exact if_neg (by decide)

theorem mailboxGo_pending (hdead : s.dead = false) (hmb : mb < 64) (hside : mbSide src mb = true) (hidle : s.fld F.KEY_MBSTAT_STATE mb = 0) (hhost : 56 ≤ mb)
    (hrun : s.fld F.KEY_STAT_STATE = 1) : Leaves (.mailboxGo src mb) s (s.setFld F.KEY_MBSTAT_STATE 1 mb) :=
  mailboxGo_leaves hdead hmb ((mbCtl_host hside hidle hhost).trans (if_neg (by simp [hrun])))

theorem mailboxGo_outOfService (hdead : s.dead = false) (hmb : mb < 64) (hside : mbSide src mb = true) (hidle : s.fld F.KEY_MBSTAT_STATE mb = 0) (hhost : 56 ≤ mb)
    (hout : s.fld F.KEY_STAT_STATE = 2) : Leaves (.mailboxGo src mb) s (s.mbEnd mb 0x0B) :=
  mailboxGo_leaves hdead hmb ((mbCtl_host hside hidle hhost).trans (if_pos hout))

theorem mailboxAck_reply (hdead : s.dead = false) (hmb : mb < 64) (hside : mbSide src mb = true) (h : s.fld F.KEY_MBSTAT_STATE mb = 3) :
    Leaves (.mailboxAck src mb) s (((s.mbZeroRsp mb).setFld F.KEY_MBSTAT_STATE 0 mb).setFld F.KEY_MBSTAT_STATUS 0 mb) :=
  mailboxAck_leaves hdead hmb ((if_neg (by simp [hside])).trans (if_neg (by rw [h]; decide)))

theorem mailboxAck_ignored (hdead : s.dead = false) (hmb : mb < 64) (hside : mbSide src mb = true) (h : s.fld F.KEY_MBSTAT_STATE mb ≠ 3) : Leaves (.mailboxAck src mb) s s :=
  mailboxAck_leaves hdead hmb ((if_neg (by simp [hside])).trans (if_pos (by simp [h])))

theorem mailboxAck_refused (hdead : s.dead = false) (hmb : mb < 64) (hside : mbSide src mb = false) : Leaves (.mailboxAck src mb) s (s.cfgErr src (F.KEY_MBSTAT_STATE.off mb)) :=
  mailboxAck_leaves hdead hmb (if_pos (by simp [hside]))

/-! The start of a service (R375, R377) -/

theorem freeze_fab (s : State) (on : Bool) : (s.freeze on).fab = s.fab := by
  have hfold : ∀ (l : List Nat) (f : Core → Core) (z : State), (l.foldl (fun s n => s.updCore n f) z).fab = z.fab := by
    intro l f
    induction l with
    | nil => exact fun z => rfl
    | cons n l ih => exact fun z => ih (z.updCore n f)
  exact hfold _ _ _

/-- The request of mailbox `m` becomes active. -/
def State.mbServe (s : State) (m : Nat) : State :=
  (((s.setFld F.KEY_MBSTAT_STATE 2 m).setFld F.KEY_STAT_CURMB m).freeze true).updSvc (fun k => { k with krr := m, kForced := false, ktime := s.fab.tb })

/-- The holds of a service on a slot: the walls whose key cache has it. -/
def State.holdWalls (s : State) (slot : State → Nat) : State :=
  (List.range 16).foldl (fun s w => if (s.wall w).cache.contains (slot s) then s.hold w else s) s

theorem mailboxServiceStart_active (h : s.mbActive.isSome = true) : Leaves .mailboxServiceStart s s := leaves_of_next rfl (if_pos (by simp [h]))

theorem mailboxServiceStart_next (hdead : s.dead = false) (hrun : s.fld F.KEY_STAT_STATE = 1) (hnone : s.mbActive = none) (hblk : s.svc.blk.get .run 16 = .run)
    (hm : ((List.range 64).map (fun i => (s.svc.krr + 1 + i) % 64)).find? (fun k => s.fld F.KEY_MBSTAT_STATE k == 1) = some m) (hu : u = s.mbServe m) :
    Leaves .mailboxServiceStart s
      (let q := if 2 ≤ u.mbSvc m && u.mbSvc m ≤ 5 then (u.hold 16).holdWalls (fun z => bits (z.mbReq m 1) 13 0) else u.hold 16
       if svcListed.contains (u.mbSvc m) then q else q.svcEnd m 1) := by
  refine leaves_of_next rfl ((if_neg (by simp [hdead, hrun, hnone, hblk])).trans ?_)
  rw [hm, hu, State.mbServe]
  dsimp only
  rw [freeze_fab]
  rfl

end

/-! Timeout, restart, holds and entropy (R384, R386 to R390) -/

section
variable {s u : State} {m blk : Nat}

theorem fld_setFld_apart {f g : Fld} {v i j i' j' : Nat} (hoff : g.off i' j' = f.off i j) (hf : f.lo ≤ f.hi) (h64 : f.hi < 64) (ha : f.hi < g.lo ∨ g.hi < f.lo) :
    (s.setFld f v i j).fld g i' j' = s.fld g i' j' := by
  rw [State.fld, State.setFld, hoff, State.reg_setReg, fieldOf_putField_apart _ _ _ _ _ _ hf h64 ha, State.fld, hoff]

theorem flag_ent_running (v : Nat) : (s.setFld F.KEY_STAT_STATE v).flag F.KEY_STAT_ENT = s.flag F.KEY_STAT_ENT := by
  rw [State.flag, fld_setFld_apart (f := F.KEY_STAT_STATE) (g := F.KEY_STAT_ENT) rfl (by decide) (by decide) (by decide), State.flag]

theorem keystoneTimeout_idle (h : s.mbActive = none) : Leaves .keystoneTimeout s s := leaves_of_next rfl (by rw [h])

theorem keystoneTimeout_restarts (hdead : s.dead = false) (hm : s.mbActive = some m) (hu : u = (s.forget 4096).mbEnd m 0x0A) (hheld : ∀ b, b < 16 → u.held? b = false) :
    Leaves .keystoneTimeout s (((((u.unhold 16).updSvc (fun k => { k with kForced := false })).freeze false).flt 12 3).kRestart) := by
  have hfold : (List.range 16).foldl (fun s b => if s.held? b then (if s.deferred b then s.unhold b else (s.scrub b).setHold b false) else s) u = u :=
    foldl_of_fixed fun b hb => if_neg (by simp [hheld b (List.mem_range.mp hb)])
  refine leaves_of_next rfl ?_
  rw [hm]
  dsimp only
  rw [if_neg (by simp [hdead]), ← hu, hfold]

theorem keystoneRestartComplete_seeded (hdead : s.dead = false) (h0 : s.fld F.KEY_STAT_STATE = 0) (hstep : 9 ≤ s.fld F.BOO_STAT_STEP)
    (h : s.flag F.KEY_STAT_ENT = true ∨ s.svc.entBad = true) : Leaves (.keystoneRestartComplete true) s (s.setFld F.KEY_STAT_STATE 1) :=
  leaves_of_next rfl ((if_neg (by simp [hdead, h0]; omega)).trans ((if_pos rfl).trans (if_pos (by rcases h with h | h <;> simp [flag_ent_running, h]))))

theorem keystoneRestartComplete_reseeds (hdead : s.dead = false) (h0 : s.fld F.KEY_STAT_STATE = 0) (hstep : 9 ≤ s.fld F.BOO_STAT_STEP)
    (hent : s.flag F.KEY_STAT_ENT = false) (hgood : s.svc.entBad = false) :
    Leaves (.keystoneRestartComplete true) s (((s.setFld F.KEY_STAT_STATE 1).updSvc (fun k => { k with drbg := k.drbg + 1 })).setFlag F.KEY_STAT_ENT true) :=
  leaves_of_next rfl ((if_neg (by simp [hdead, h0]; omega)).trans ((if_pos rfl).trans (if_neg (by simp [flag_ent_running, hent, hgood]))))

theorem keystoneRestartComplete_fails (hdead : s.dead = false) (h0 : s.fld F.KEY_STAT_STATE = 0) (hstep : 9 ≤ s.fld F.BOO_STAT_STEP) (hu : u = (s.setFld F.KEY_STAT_STATE 2).flt 12 4) :
    Leaves (.keystoneRestartComplete false) s ((List.range 64).foldl (fun z k => if z.fld F.KEY_MBSTAT_STATE k == 1 then z.mbEnd k 0x0B else z) u) := by
  refine leaves_of_next rfl ((if_neg (by simp [hdead, h0]; omega)).trans ?_)
  rw [hu]
  rfl

theorem keystoneRestartComplete_running (h : s.fld F.KEY_STAT_STATE ≠ 0) : Leaves (.keystoneRestartComplete true) s s := leaves_of_next rfl (if_pos (by simp [h]))

theorem holdRelease_held (hdead : s.dead = false) (hblk : blk < 17) (h : s.held? blk = true) : Leaves (.holdRelease blk) s (s.unhold blk) :=
  leaves_of_guarded rfl (Nat.not_le.mpr hblk) (if_neg (by simp [hdead, h]))

theorem holdRelease_free (hblk : blk < 17) (h : s.held? blk = false) : Leaves (.holdRelease blk) s s := leaves_of_guarded rfl (Nat.not_le.mpr hblk) (if_pos (by simp [h]))

theorem forcedRelease_leaves (hdead : s.dead = false) (hblk : blk < 17) : Leaves (.forcedRelease blk) s (s.forceRelease blk) :=
  leaves_of_guarded rfl (Nat.not_le.mpr hblk) (if_neg (by simp [hdead]))

theorem entropyFailure_good (hdead : s.dead = false) (h : s.flag F.KEY_STAT_ENT = true) :
    Leaves .entropyFailure s (((s.setFlag F.KEY_STAT_ENT false).updSvc (fun k => { k with entBad := true })).flt 12 2) := leaves_of_next rfl (if_neg (by simp [hdead, h]))

theorem entropyFailure_bad (h : s.flag F.KEY_STAT_ENT = false) : Leaves .entropyFailure s s := leaves_of_next rfl (if_pos (by simp [h]))

theorem entropyRetest_good (h : s.flag F.KEY_STAT_ENT = true) : Leaves (.entropyRetest true) s s := leaves_of_next rfl (if_pos (by simp [h]))

theorem entropyRetest_fails : Leaves (.entropyRetest false) s s := leaves_of_next rfl (if_pos (by simp))

theorem entropyRetest_passes (hdead : s.dead = false) (hrun : s.fld F.KEY_STAT_STATE = 1) (h : s.flag F.KEY_STAT_ENT = false) :
    Leaves (.entropyRetest true) s ((s.updSvc (fun k => { k with drbg := k.drbg + 1, entBad := false })).setFlag F.KEY_STAT_ENT true) :=
  leaves_of_next rfl (if_neg (by simp [hdead, h, hrun]))

end
/-! Services (17 R378 to R385) -/

/-- Keystone serves mailbox `mb`, whose request has its reserved bits zero; no release was forced. -/
def State.mbServes (s : State) (mb : Nat) : Prop :=
  mb < 64 ∧ s.dead = false ∧ s.fld F.KEY_STAT_STATE = 1 ∧ s.fld F.KEY_MBSTAT_STATE mb = 2 ∧ bits (s.mbReq mb 0) 55 16 = 0 ∧ s.svc.kForced = false

section
variable {s u : State} {mb code : Nat} {ok : Bool} {body : State → State} {i : Instr}

theorem service_runs (h : s.mbServes mb) (hsvc : s.mbSvc mb = code) (hok : ok = true) : service mb code s ok body = .next (body s) := by
  obtain ⟨hmb, hdead, hrun, hact, hres, hforced⟩ := h
  rw [service, if_neg (Nat.not_le.mpr hmb), if_neg (by simp [hdead, hrun, hact, hsvc]), if_neg (by simp [hok, hres]), if_neg (by simp [hforced])]

theorem leaves_of_service (h : s.mbServes mb) (hi : exec i s = settled s (service mb code s ok body)) (hsvc : s.mbSvc mb = code) (hok : ok = true) (heq : body s = u) :
    Leaves i s u := leaves_of_settled hi (by rw [service_runs h hsvc hok, heq])

theorem leaves_of_malformed (h : s.mbServes mb) (hi : exec i s = settled s (service mb code s ok body)) (hsvc : s.mbSvc mb = code) (hok : ok = false) :
    Leaves i s (s.svcEnd mb 1) := by
  obtain ⟨hmb, hdead, hrun, hact, -, -⟩ := h
  exact leaves_of_guarded hi (Nat.not_le.mpr hmb) ((if_neg (by simp [hdead, hrun, hact, hsvc])).trans (if_pos (by simp [hok])))

theorem leaves_of_other_service (hmb : mb < 64) (hi : exec i s = settled s (service mb code s ok body)) (hsvc : s.mbSvc mb ≠ code) : Leaves i s s :=
  leaves_of_guarded hi (Nat.not_le.mpr hmb) (if_pos (by simp [hsvc]))

end

/-! Slots (R379 to R382) -/

section
variable {s u : State} {mb kl : Nat} (h : s.mbServes mb)
include h

section
variable (hsvc : s.mbSvc mb = 1) (hclear : s.mbClear mb 2 = true) (hhigh : bits (s.mbReq mb 1) 63 24 = 0) (hlow : bits (s.mbReq mb 1) 15 14 = 0)
  (htag : bits (s.mbReq mb 1) 23 16 ≠ 255)
include hsvc hclear hhigh hlow htag

theorem assign_denied (hpid : s.mbPid mb ≠ 0) : Leaves (.assign mb) s (s.svcEnd mb 2) :=
  leaves_of_service h rfl hsvc (by simp [hclear, hhigh, hlow, htag]) (if_pos hpid)

theorem assign_taken (hpid : s.mbPid mb = 0) (hv : (s.keySlot (s.mbSlot mb)).v = true) : Leaves (.assign mb) s (s.svcEnd mb 3) :=
  leaves_of_service h rfl hsvc (by simp [hclear, hhigh, hlow, htag]) ((if_neg (by simp [hpid])).trans (if_pos hv))

theorem assign_leaves (hpid : s.mbPid mb = 0) (hv : (s.keySlot (s.mbSlot mb)).v = false) :
    Leaves (.assign mb) s ((s.setSlot (s.mbSlot mb) { s.keySlot (s.mbSlot mb) with pid := BitVec.ofNat 8 (bits (s.mbReq mb 1) 23 16) }).svcEnd mb 0) :=
  leaves_of_service h rfl hsvc (by simp [hclear, hhigh, hlow, htag]) ((if_neg (by simp [hpid])).trans (if_neg (by simp [hv])))

end

theorem assign_noTag (hsvc : s.mbSvc mb = 1) (htag : bits (s.mbReq mb 1) 23 16 = 255) : Leaves (.assign mb) s (s.svcEnd mb 1) :=
  leaves_of_malformed h rfl hsvc (by simp [htag])

/-- A request that names a slot and an ATTR, whose reserved bits are zero. -/
def State.mbSlotOk (s : State) (mb : Nat) : Prop := s.mbClear mb 3 = true ∧ bits (s.mbReq mb 1) 63 14 = 0 ∧ attrRsv (s.mbReq mb 2) = false

section
variable (hsvc : s.mbSvc mb = 2) (hok : s.mbSlotOk mb)
include hsvc hok

theorem generate_denied (hmay : s.mbMay mb = false) : Leaves (.generate mb) s (s.svcEnd mb 2) := by
  obtain ⟨hclear, hres, hattr⟩ := hok
  exact leaves_of_service h rfl hsvc (by simp [hclear, hres, hattr]) (if_pos (by simp [hmay]))

theorem generate_badAttr (hmay : s.mbMay mb = true) (hkl : attrKlen (s.keySlot (s.mbSlot mb)) (s.mbReq mb 2) = none) : Leaves (.generate mb) s (s.svcEnd mb 4) := by
  obtain ⟨hclear, hres, hattr⟩ := hok
  exact leaves_of_service h rfl hsvc (by simp [hclear, hres, hattr]) ((if_neg (by simp [hmay])).trans (by rw [hkl]))

theorem generate_noEntropy (hmay : s.mbMay mb = true) (hkl : attrKlen (s.keySlot (s.mbSlot mb)) (s.mbReq mb 2) = some kl) (hent : s.flag F.KEY_STAT_ENT = false) :
    Leaves (.generate mb) s (s.svcEnd mb 8) := by
  obtain ⟨hclear, hres, hattr⟩ := hok
  exact leaves_of_service h rfl hsvc (by simp [hclear, hres, hattr]) ((if_neg (by simp [hmay])).trans (by rw [hkl]; exact if_pos (by simp [hent])))

/-- A key of 32 bytes is one output of the DRBG, left-aligned. -/
theorem generate_leaves {key : BitVec 256} {full : BitVec 512} (hmay : s.mbMay mb = true) (hkl : attrKlen (s.keySlot (s.mbSlot mb)) (s.mbReq mb 2) = some 32)
    (hent : s.flag F.KEY_STAT_ENT = true) (hdraw : s.draw = (u, key)) (hfull : full = BitVec.ofNat 512 (key.toNat * 2 ^ 256)) :
    Leaves (.generate mb) s ((u.fillSlot (s.mbSlot mb) (s.mbReq mb 2) full).svcEnd mb 0
      (kwWrap Config.dwk.toNat (BitVec.ofNat 64 (s.mbReq mb 2) :: (List.range 4).map (fun i => full.extractLsb' (448 - 64 * i) 64)))) := by
  obtain ⟨hclear, hres, hattr⟩ := hok
  have halign : (key.toNat * 2 ^ 256 + (0 : BitVec 256).toNat) / 2 ^ (512 - 8 * 32) * 2 ^ (512 - 8 * 32) = key.toNat * 2 ^ 256 := by
    rw [show (0 : BitVec 256).toNat = 0 from rfl, Nat.add_zero, Nat.mul_div_cancel _ (Nat.two_pow_pos _)]
  refine leaves_of_service h rfl hsvc (by simp [hclear, hres, hattr]) ((if_neg (by simp [hmay])).trans ?_)
  rw [hkl]
  refine (if_neg (by simp [hent])).trans ?_
  rw [hdraw, hfull, ← halign]
  rfl

end

section
variable (hsvc : s.mbSvc mb = 3) (hclear : s.mbClear mb 12 = true) (hhigh : bits (s.mbReq mb 1) 63 17 = 0) (hlow : bits (s.mbReq mb 1) 15 14 = 0)
include hsvc hclear hhigh hlow

theorem importKey_denied (hmay : s.mbMay mb = false) : Leaves (.importKey mb) s (s.svcEnd mb 2) :=
  leaves_of_service h rfl hsvc (by simp [hclear, hhigh, hlow]) (if_pos (by simp [hmay]))

theorem importKey_noKey (hmay : s.mbMay mb = true) (htk : bits (s.mbReq mb 1) 16 16 = 1) (hnone : s.svc.tkey.find (s.mbPid mb) = none) :
    Leaves (.importKey mb) s (s.svcEnd mb 6) :=
  leaves_of_service h rfl hsvc (by simp [hclear, hhigh, hlow]) ((if_neg (by simp [hmay])).trans (by rw [if_neg (by simp [htk]), hnone]))

/-- The wrapped key of a request: the shortest length that fits and unwraps (log 40). -/
def State.mbUnwrap (s : State) (mb kek : Nat) : Option (List W64) :=
  ([4, 6, 10].filter (fun i => s.mbClear mb (2 + i))).findSome? (fun i => kwUnwrap kek ((List.range i).map (fun j => BitVec.ofNat 64 (s.mbReq mb (2 + j)))))

variable {tk : BitVec 256} (hmay : s.mbMay mb = true) (htk : bits (s.mbReq mb 1) 16 16 = 1) (htkey : s.svc.tkey.find (s.mbPid mb) = some tk)
include hmay htk htkey

theorem importKey_badBlob (htries : s.mbUnwrap mb tk.toNat = none) : Leaves (.importKey mb) s ((s.flt 12 1).svcEnd mb 5) := by
  refine leaves_of_service h rfl hsvc (by simp [hclear, hhigh, hlow]) ((if_neg (by simp [hmay])).trans ?_)
  rw [if_neg (by simp [htk]), htkey]
  dsimp only
  rw [State.mbUnwrap] at htries
  rw [htries]

theorem importKey_leaves {w : W64} {words : List W64} (htries : s.mbUnwrap mb tk.toNat = some (w :: words)) (hattr : attrRsv w.toNat = false)
    (hkl : attrKlen (s.keySlot (s.mbSlot mb)) w.toNat = some (8 * words.length)) :
    Leaves (.importKey mb) s ((s.fillSlot (s.mbSlot mb) w.toNat
      (BitVec.ofNat 512 (words.foldl (fun x y => x * 2 ^ 64 + y.toNat) 0 * 2 ^ (512 - 64 * words.length)))).svcEnd mb 0) := by
  refine leaves_of_service h rfl hsvc (by simp [hclear, hhigh, hlow]) ((if_neg (by simp [hmay])).trans ?_)
  rw [if_neg (by simp [htk]), htkey]
  dsimp only
  rw [State.mbUnwrap] at htries
  rw [htries]
  refine (if_neg (by simp [hattr, hkl])).trans ?_
  rw [show 512 - 64 * words.length = 512 - 8 * (8 * ((w :: words).length - 1)) by simp; omega]
  rfl

end

section
variable (hsvc : s.mbSvc mb = 4) (hok : s.mbSlotOk mb) (hmay : s.mbMay mb = true)
include hsvc hok hmay

theorem setattr_empty (hv : (s.keySlot (s.mbSlot mb)).v = false) : Leaves (.setattr mb) s (s.svcEnd mb 3) := by
  obtain ⟨hclear, hres, hattr⟩ := hok
  exact leaves_of_service h rfl hsvc (by simp [hclear, hres, hattr]) ((if_neg (by simp [hmay])).trans (if_pos (by simp [hv])))

theorem setattr_leaves (hv : (s.keySlot (s.mbSlot mb)).v = true) (hkl : attrKlen (s.keySlot (s.mbSlot mb)) (s.mbReq mb 2) = some kl) (hlen : (s.keySlot (s.mbSlot mb)).klen = some kl) :
    Leaves (.setattr mb) s (((s.setSlot (s.mbSlot mb) ((s.keySlot (s.mbSlot mb)).withAttr (s.mbReq mb 2))).slotInval (s.mbSlot mb)).svcEnd mb 0) := by
  obtain ⟨hclear, hres, hattr⟩ := hok
  exact leaves_of_service h rfl hsvc (by simp [hclear, hres, hattr]) ((if_neg (by simp [hmay])).trans ((if_neg (by simp [hv])).trans (if_neg (by simp [hkl, hlen]))))

theorem setattr_badAttr (hv : (s.keySlot (s.mbSlot mb)).v = true) (hkl : attrKlen (s.keySlot (s.mbSlot mb)) (s.mbReq mb 2) = none) : Leaves (.setattr mb) s (s.svcEnd mb 4) := by
  obtain ⟨hclear, hres, hattr⟩ := hok
  exact leaves_of_service h rfl hsvc (by simp [hclear, hres, hattr]) ((if_neg (by simp [hmay])).trans ((if_neg (by simp [hv])).trans (if_pos (by simp [hkl]))))

end

section
variable (hsvc : s.mbSvc mb = 5) (hclear : s.mbClear mb 2 = true) (hres : bits (s.mbReq mb 1) 63 14 = 0)
include hsvc hclear hres

theorem destroy_denied (hmay : s.mbMay mb = false) : Leaves (.destroy mb) s (s.svcEnd mb 2) :=
  leaves_of_service h rfl hsvc (by simp [hclear, hres]) (if_pos (by simp [hmay]))

theorem destroy_leaves (hmay : s.mbMay mb = true) :
    Leaves (.destroy mb) s (((s.setSlot (s.mbSlot mb) { KSlot.reset with pid := (s.keySlot (s.mbSlot mb)).pid }).slotInval (s.mbSlot mb)).svcEnd mb 0) :=
  leaves_of_service h rfl hsvc (by simp [hclear, hres]) (if_neg (by simp [hmay]))

end

/-! Keys, randomness and reports (R383 to R385) -/

/-- A number of 384 bits in a request, at REQ i and the five after it. -/
def State.mbNum (s : State) (mb i : Nat) : Nat := (List.range 6).foldl (fun x j => x * 2 ^ 64 + s.mbReq mb (i + j)) 0

section
variable (hsvc : s.mbSvc mb = 6) (hclear : s.mbClear mb 13 = true)
include hsvc hclear

theorem tkey_badPoint (hp : onP384 (s.mbNum mb 1) (s.mbNum mb 7) = false) : Leaves (.tkey mb) s (s.svcEnd mb 0x0C) :=
  leaves_of_service h rfl hsvc hclear (if_pos ((Bool.not_eq_true' _).mpr hp))

theorem tkey_noEntropy (hp : onP384 (s.mbNum mb 1) (s.mbNum mb 7) = true) (hent : s.flag F.KEY_STAT_ENT = false) : Leaves (.tkey mb) s (s.svcEnd mb 8) :=
  leaves_of_service h rfl hsvc hclear ((if_neg (by rw [Bool.not_eq_true, Bool.not_eq_false']; exact hp)).trans (if_pos (by simp [hent])))

theorem tkey_leaves {key : BitVec 256} (hp : onP384 (s.mbNum mb 1) (s.mbNum mb 7) = true) (hent : s.flag F.KEY_STAT_ENT = true)
    (hkey : key = (sha384 (bytesOf 4 1 ++ bytesOf 48 (Config.ecdh (BitVec.ofNat 768 (s.mbNum mb 1 * 2 ^ 384 + s.mbNum mb 7))).toNat ++ bytesOf 2 s.cxid ++
      bytesOf 1 (s.mbPid mb))).extractLsb' 128 256) :
    Leaves (.tkey mb) s ((s.updSvc (fun q => { q with tkey := q.tkey.put (s.mbPid mb) key })).svcEnd mb 0) := by
  refine leaves_of_service h rfl hsvc hclear ((if_neg (by rw [Bool.not_eq_true, Bool.not_eq_false']; exact hp)).trans ((if_neg (by simp [hent])).trans ?_))
  rw [hkey]
  rfl

end

section
variable (hsvc : s.mbSvc mb = 0x10) (hclear : s.mbClear mb 2 = true) (hres : bits (s.mbReq mb 1) 63 4 = 0) (hn : bits (s.mbReq mb 1) 3 0 ≠ 0)
include hsvc hclear hres hn

theorem random_noEntropy (hent : s.flag F.KEY_STAT_ENT = false) : Leaves (.random mb) s (s.svcEnd mb 8) :=
  leaves_of_service h rfl hsvc (by simp [hclear, hres, hn]) (if_pos (by simp [hent]))

theorem random_leaves {ws : List W64} (hent : s.flag F.KEY_STAT_ENT = true) (hdraw : s.drawWords (bits (s.mbReq mb 1) 3 0) = (u, ws)) : Leaves (.random mb) s (u.svcEnd mb 0 ws) := by
  refine leaves_of_service h rfl hsvc (by simp [hclear, hres, hn]) ((if_neg (by simp [hent])).trans ?_)
  rw [hdraw]

end

section
variable (hbuf : s.mbBufOk mb = true)
include hbuf

theorem attest_leaves {rep : List Byte} (hsvc : s.mbSvc mb = 0x20) (hclear : s.mbClear mb 8 = true)
    (hrep : rep = s.report (s.mbPid mb) ((List.range 6).flatMap (fun i => bytesOf 8 (s.mbReq mb (2 + i))))) :
    Leaves (.attest mb) s (s.mbWrite mb (rep ++ bytesOf 96 (Config.ecdsa rep).toNat) []) :=
  leaves_of_service h rfl hsvc (by simp [hclear, hbuf]) (by rw [hrep])

theorem measure_leaves (hsvc : s.mbSvc mb = 0x21) (hclear : s.mbClear mb 2 = true) : Leaves (.measure mb) s (s.mbWrite mb (s.report (s.mbPid mb) (List.replicate 48 0)) []) :=
  leaves_of_service h rfl hsvc (by simp [hclear, hbuf]) rfl

theorem cert_leaves (hsvc : s.mbSvc mb = 0x22) (hclear : s.mbClear mb 2 = true) :
    Leaves (.cert mb) s (s.mbWrite mb (Config.cert.take 2048) [BitVec.ofNat 64 (Config.cert.take 2048).length]) :=
  leaves_of_service h rfl hsvc (by simp [hclear, hbuf]) rfl

end

end

/-- Settles O46: the mailboxes by the lemmas on GO, ACK and the start of a service, and each service by the lemma of its outcome; where the spec is open they follow the choices of logs 39, 40, 41, 49 and 104. -/
theorem keystone : Obligations.Keystone := by
  refine ⟨?mailboxes, ?services⟩
  case mailboxes =>
    intro s u src mb m blk hmb hblk hdead
    refine ⟨fun hside => ⟨fun hidle hhost => ⟨mailboxGo_pending hdead hmb hside hidle hhost, mailboxGo_outOfService hdead hmb hside hidle hhost⟩,
        fun h => mailboxGo_leaves hdead hmb (mbCtl_refused (.inr h)), mailboxAck_reply hdead hmb hside, mailboxAck_ignored hdead hmb hside⟩,
      fun hside => ⟨mailboxGo_leaves hdead hmb (mbCtl_refused (.inl hside)), mailboxAck_refused hdead hmb hside⟩,
      mailboxServiceStart_active, fun hrun hnone hrunning hm hu => ?start, keystoneTimeout_idle, fun hm _ hu hheld => keystoneTimeout_restarts hdead hm hu hheld,
      fun h0 hstep => ⟨keystoneRestartComplete_seeded hdead h0 hstep, keystoneRestartComplete_reseeds hdead h0 hstep, keystoneRestartComplete_fails hdead h0 hstep⟩,
      keystoneRestartComplete_running, holdRelease_held hdead hblk, holdRelease_free hblk, forcedRelease_leaves hdead hblk,
      fun h => ⟨entropyFailure_good hdead h, entropyRetest_good h⟩, fun h => ⟨entropyFailure_bad h, entropyRetest_fails, fun hrun => entropyRetest_passes hdead hrun h⟩⟩
    case start =>
      have hstart := mailboxServiceStart_next hdead hrun hnone hrunning hm hu
      exact ⟨fun hsvc => by simpa [hsvc, svcListed] using hstart, fun hsvc => by simpa [hsvc, svcListed] using hstart⟩
  case services =>
    intro s u mb kl key tk ws w words hmb hdead hrun hact hres hforced r a n k ent slotOk
    have h : s.mbServes mb := ⟨hmb, hdead, hrun, hact, hres, hforced⟩
    exact ⟨fun hsvc hclear hhigh hlow htag => ⟨assign_denied h hsvc hclear hhigh hlow htag, assign_taken h hsvc hclear hhigh hlow htag, assign_leaves h hsvc hclear hhigh hlow htag⟩,
      assign_noTag h,
      fun hsvc hok => ⟨generate_denied h hsvc hok, generate_badAttr h hsvc hok, generate_noEntropy h hsvc hok,
        fun hmay hkl hent hdraw => generate_leaves h hsvc hok hmay hkl hent hdraw rfl⟩,
      fun hsvc hclear hhigh hlow => ⟨importKey_denied h hsvc hclear hhigh hlow, importKey_noKey h hsvc hclear hhigh hlow,
        fun hmay htk htkey => ⟨importKey_badBlob h hsvc hclear hhigh hlow hmay htk htkey, importKey_leaves h hsvc hclear hhigh hlow hmay htk htkey⟩⟩,
      fun hsvc hok => ⟨setattr_empty h hsvc hok, setattr_leaves h hsvc hok, setattr_badAttr h hsvc hok⟩,
      fun hsvc hclear hlow => ⟨destroy_denied h hsvc hclear hlow, destroy_leaves h hsvc hclear hlow⟩,
      fun hsvc hclear => ⟨tkey_badPoint h hsvc hclear, tkey_noEntropy h hsvc hclear, fun hp hent => tkey_leaves h hsvc hclear hp hent rfl⟩,
      fun hsvc hclear hhigh hn => ⟨random_noEntropy h hsvc hclear hhigh hn, random_leaves h hsvc hclear hhigh hn⟩,
      fun hbuf => ⟨fun hsvc hclear => attest_leaves h hbuf hsvc hclear rfl, measure_leaves h hbuf, cert_leaves h hbuf⟩,
      leaves_of_other_service hmb rfl⟩

end Sys2Proof.Machine
end

section
/-! PROOFS. Compression engines and cipher walls (15 R349 to R357; 16 R360 to R372): records, stripes, key caches and failures. -/

namespace Sys2Proof.Machine

/-! Compression engines (15 R349, R351, R357) -/

section
variable {s u : State} {z handle addr pid n : Nat} {rc : ZRecord}

theorem zeRecordComplete_idle (hz : z < 22) (h : s.zExchange z handle = none) : Leaves (.zeRecordComplete z handle rc) s s :=
  leaves_of_guarded rfl (Nat.not_le.mpr hz) (by rw [h])

/-- The first record of a stream. -/
theorem zeRecordComplete_first {x : Exch} {d : PdsDesc} {ps : List (Nat × Nat)} {l : List Byte} (hz : z < 22) (h : s.zExchange z handle = some (x, d))
    (hps : s.cmdPlaces x d = .ok s (some ps)) (hl : s.readAt (s.pdsAgent x) ps = .ok s l) (hgot : x.got = 0) (horig : rc.orig = l.take 65536)
    (hlast : rc.last = decide (l.length ≤ 65536)) :
    Leaves (.zeRecordComplete z handle rc) s
      (let r := writeRecord [] (s.cmdZlib x d) rc.last rc.orig
       let y := { x with got := rc.orig.length, buf := x.buf ++ r.1 }
       let q := (if r.2 then s.count F.ZIP_CNT_RAWREC (some F.ZIP_CNT_ROVF) z else s).setEx y
       if rc.last then q.sendOut y d else q) := by
  refine leaves_of_guarded rfl (Nat.not_le.mpr hz) ?_
  rw [h]
  dsimp only
  rw [hps]
  dsimp only
  rw [hl]
  dsimp only
  rw [hgot, List.drop_zero, Nat.zero_add, Nat.zero_add, ← horig, ← hlast, if_neg (by simp)]
  rfl

theorem streamContextTimeout_free (h : s.unitBusy (addr * 256 + pid) = false) : Leaves (.streamContextTimeout addr pid) s (s.zFree (addr * 256 + pid)) :=
  leaves_of_next rfl (if_neg (by simp [h]))

theorem streamContextTimeout_busy (h : s.unitBusy (addr * 256 + pid) = true) : Leaves (.streamContextTimeout addr pid) s s := leaves_of_next rfl (if_pos h)

theorem ciphContextTimeout_free (h : s.unitBusy (addr * 256 + pid) = false) : Leaves (.ciphContextTimeout addr pid) s (s.cFree (addr * 256 + pid)) :=
  leaves_of_next rfl (if_neg (by simp [h]))

theorem ciphContextTimeout_busy (h : s.unitBusy (addr * 256 + pid) = true) : Leaves (.ciphContextTimeout addr pid) s s := leaves_of_next rfl (if_pos h)

theorem zeEngineFailure_leaves (hz : z < 22) (heq : s.zeFail z = u) : Leaves (.zeEngineFailure z) s u := leaves_of_guarded rfl (Nat.not_le.mpr hz) heq

theorem zeFail_failed (h : s.fld F.ZIP_ENG_ROLE z = 2) : s.zeFail z = s := by rw [State.zeFail, if_pos (by simp [h])]

/-- An engine is out of service, and its own spare is no longer asked for. -/
def State.zeOut (s : State) (z : Nat) : State :=
  let q := s.setFld F.ZIP_ENG_ROLE 2 z
  { q with svc := { q.svc with sparePend := q.svc.sparePend.filter (fun p => !(p.2 == z && p.1 == 0xA0)) } }

theorem zeFail_spare (h : s.fld F.ZIP_ENG_ROLE z = 1) : s.zeFail z = (s.zeOut z).consume 9 := by
  rw [State.zeFail, if_neg (by simp [h])]
  exact if_pos (by simp [h])

/-- A spare takes the place of an engine in service. -/
theorem zeFail_serving (h : s.fld F.ZIP_ENG_ROLE z = 0) (hu : u = s.zeOut z) (hn : (List.range 22).find? (fun y => u.fld F.ZIP_ENG_ROLE y == 1) = some n) :
    s.zeFail z =
      let b := u.flag F.ZIP_ENG_POOL z
      let t := (((u.zRole n z).zLost z (if b then none else some n)).consume 9).flt 10 2 z
      if b then t else t.restartCmds (u.fld F.ZIP_ENG_PORT z) (fun d => d.cmp || d.dcmp) := by
  rw [State.zeFail, if_neg (by simp [h])]
  refine (if_neg (by simp [h])).trans ?_
  rw [← State.zeOut, ← hu, hn]

end

/-! Stripes, bricks and key caches (16 R360, R365, R366, R371) -/

section
variable {s u : State} {w slot brick m : Nat} {g : Seg}

theorem stripeAssign_stopped (hw : w < 16) (hu : u = s.wallRetire w) (hruns : u.wallRuns w = false) : Leaves (.stripeAssign w) s u := by
  subst hu
  exact leaves_of_guarded rfl (Nat.not_le.mpr hw) (if_pos (by simp [hruns]))

/-- A segment's state when a brick takes its next stripe. -/
def Seg.stripeTaken (key : BitVec 512) (q : Seg) : Seg :=
  { q with checked := true, key := key, assigned := if q.redo = 0 then q.assigned + 1 else q.assigned, redo := q.redo - 1 }

section
variable (hw : w < 16) (hu : u = s.wallRetire w) (hruns : u.wallRuns w = true) (hpick : (u.wall w).pick = some g)
  (hbrick : (List.range 272).find? (fun b => (u.wall w).brickOn b && !(u.wall w).busy.has b) = some brick)
include hw hu hruns hpick hbrick

theorem stripeAssign_waits (hg : g.checked = false) (hslot : (u.wall w).cache.contains g.slot = false) : Leaves (.stripeAssign w) s u := by
  subst hu
  refine leaves_of_guarded rfl (Nat.not_le.mpr hw) ((if_neg (by simp [hruns])).trans ?_)
  dsimp only
  rw [hpick, hbrick]
  exact if_pos (by rw [hg, hslot]; rfl)

theorem stripeAssign_assigns (hports : (u.wall w).segs.all (fun q => q.port) = true) (hg : g.checked = true) :
    Leaves (.stripeAssign w) s
      (let v := (u.setWall w { u.wall w with turn := (u.wall w).turn }).updSeg w g.mark (Seg.stripeTaken g.key)
       v.setWall w { v.wall w with busy := (v.wall w).busy.put brick g.mark }) := by
  have hcore : (u.wall w).segs.any (fun q => !q.port && q.waits) = false := by
    rw [List.any_eq_false]
    intro q hq
    simp [List.all_eq_true.mp hports q hq]
  subst hu
  refine leaves_of_guarded rfl (Nat.not_le.mpr hw) ((if_neg (by simp [hruns])).trans ?_)
  dsimp only
  rw [hpick, hbrick]
  refine (if_neg (by simp [hg])).trans ?_
  rw [hcore, if_pos hg, Bool.and_false]
  rfl

end

theorem stripeComplete_idle (hw : w < 16) (hb : brick < 272) (h : (s.wall w).busy.find brick = none) (e : Bool) : Leaves (.stripeComplete w brick e) s s :=
  leaves_of_guarded rfl (by simp; omega) (by dsimp only; rw [h])

theorem stripeComplete_abandoned (hw : w < 16) (hb : brick < 272) (h : (s.wall w).busy.find brick = some m) :
    Leaves (.stripeComplete w brick true) s
      ((((s.setWall w { s.wall w with busy := (s.wall w).busy.del brick }).updSeg w m (fun q => { q with redo := q.redo + 1 })).flt 11 0 (272 * w + brick)).wallRetire w) := by
  refine leaves_of_guarded rfl (by simp; omega) ?_
  dsimp only
  rw [h]
  rfl

/-- A stripe of a core's request. -/
theorem stripeComplete_core (hw : w < 16) (hb : brick < 272) (h : (s.wall w).busy.find brick = some m)
    (hu : u = (s.setWall w { s.wall w with busy := (s.wall w).busy.del brick, stripes := (s.wall w).stripes.upd 0 brick (fun n => n + 1) }).updSeg w m (fun q => { q with done := q.done + 1 }))
    (hg : (u.wall w).segs.find? (fun q => q.mark == m) = some g) (hport : g.port = false) : Leaves (.stripeComplete w brick false) s u := by
  refine leaves_of_guarded rfl (by simp; omega) ?_
  dsimp only
  rw [h]
  refine (if_neg (by simp)).trans ?_
  subst hu
  simp only [Bool.false_eq_true, if_false]
  rw [hg]
  exact if_pos (by simp [hport])

theorem knownAnswerTest_early (hw : w < 16) (hb : brick < 272) (h : (s.wall w).stripes.get 0 brick < 65536) (ok : Bool) : Leaves (.knownAnswerTest w brick ok) s s :=
  leaves_of_guarded rfl (by simp; omega) (if_pos (by simp [h]))

theorem knownAnswerTest_due (hw : w < 16) (hb : brick < 272) (hon : (s.wall w).brickOn brick = true) (hidle : (s.wall w).busy.has brick = false)
    (h : 65536 ≤ (s.wall w).stripes.get 0 brick) (hu : u = s.setWall w { s.wall w with stripes := (s.wall w).stripes.del brick }) (ok : Bool) :
    Leaves (.knownAnswerTest w brick ok) s (if ok then u else (u.flt 11 1).brickRetire w brick) := by
  subst hu
  exact leaves_of_guarded rfl (by simp; omega) (if_neg (by simp [hon, hidle]; omega))

theorem keyCacheFill_leaves (hw : w < 16) (hslot : slot < 16384) (hruns : s.wallRuns w = true) (hmiss : (s.wall w).cache.contains slot = false)
    (hneed : (s.wall w).segs.any (fun q => q.slot == slot && !q.checked) = true) (hroom : (s.wall w).cache.length < 16) :
    Leaves (.keyCacheFill w slot) s (((s.setWall w { s.wall w with cache := (s.wall w).cache ++ [slot] }).wallRegs w).count F.CIP_CNT_KMISS (some F.CIP_CNT_KOVF) w) := by
  refine leaves_of_guarded rfl (by simp; omega) ((if_neg ?_).trans (if_pos hroom))
  rw [hruns, hmiss, hneed]
  decide

theorem keyCacheFill_cached (hw : w < 16) (hslot : slot < 16384) (h : (s.wall w).cache.contains slot = true) : Leaves (.keyCacheFill w slot) s s :=
  leaves_of_guarded rfl (by simp; omega) (if_pos (by rw [h]; simp))

end

/-! The failure of a wall (R372) -/

section
variable {s u t q : State} {w v : Nat}

theorem wallFailure_failed (hw : w < 16) (h : s.fld F.CIP_WALL_STATE w = 2) : Leaves (.wallFailure w) s s :=
  leaves_of_guarded rfl (Nat.not_le.mpr hw) (if_pos (by simp [State.wallUp, h]))

/-- A wall with no second port serves its own port alone. -/
theorem portWall_eq_iff (h : s.fld F.CIP_WALL_STATE w = 0) : s.portWall v = some w ↔ v = w := by
  constructor
  · intro hv
    rw [State.portWall] at hv
    split at hv
    · exact Option.some.inj hv
    · have hsome := List.find?_some hv
      simp [h] at hsome
  · rintro rfl
    rw [State.portWall, if_pos (by simp [State.wallUp, h])]

theorem filter_range_eq : ∀ w < 16, (List.range 16).filter (fun v => v == w) = [w] := by decide

theorem ownPorts_eq (hw : w < 16) (h : s.fld F.CIP_WALL_STATE w = 0) : (List.range 16).filter (fun v => s.portWall v == some w && some v != (none : Option Nat)) = [w] := by
  rw [← filter_range_eq w hw]
  refine List.filter_congr fun v _ => ?_
  rw [Bool.eq_iff_iff]
  simp [portWall_eq_iff h]

/-- The contexts and the secret state of a failed wall are lost. -/
def State.wallOut (s : State) (w : Nat) : State :=
  ((((s.chn.cctx.filter (fun p => p.2.wall == w)).map (·.1)).foldl (fun z k => z.cFree k) s).wallScrub w).setFld F.CIP_WALL_STATE 2 w

theorem restartCmds_idle {uses : PdsDesc → Bool} (h : s.exOn v = []) : s.restartCmds v uses = s := by rw [State.restartCmds, h]; rfl

theorem wallFailure_leaves (hw : w < 16) (h : s.fld F.CIP_WALL_STATE w = 0) (hu : u = s.wallOut w)
    (ht : t = match u.nextWall w 0 with | some k => u.movePort ((w + k) % 16) w | none => u)
    (hq : q = t.flt 11 7 w none (BitVec.ofNat 64 (if (t.portWall w).isNone then 2 ^ w else 0))) (hidle : q.exOn w = []) : Leaves (.wallFailure w) s q := by
  refine leaves_of_guarded rfl (Nat.not_le.mpr hw) ((if_neg (by simp [State.wallUp, h])).trans ?_)
  have hsecond : (if s.fld F.CIP_WALL_STATE w == 1 then some (s.fld F.CIP_WALL_ALSO w) else none) = none := if_neg (by simp [h])
  have hlost : (([w] ++ (none : Option Nat).toList).filter (fun v => (t.portWall v).isNone)).foldl (fun n v => n + 2 ^ v) 0 = if (t.portWall w).isNone then 2 ^ w else 0 := by
    cases hnone : (t.portWall w).isNone <;> simp [hnone]
  dsimp only
  rw [hsecond, ownPorts_eq hw h, ← State.wallOut, ← hu]
  cases hk : u.nextWall w 0 <;>
  · rw [hk] at ht
    dsimp only at ht ⊢
    rw [← ht, hlost, ← hq]
    exact restartCmds_idle hidle

end

/-- Settles O45: each event is the lemma of its command; the compressed record that is written follows log 8, DETAIL of a wall failure log 90. -/
theorem engineAndWallEvents : Obligations.EngineAndWallEvents := by
  intro s u z w slot brick addr pid handle m n rc x d ps l rest g hz hw hslot hb y
  refine ⟨zeRecordComplete_idle hz, zeRecordComplete_first hz, ⟨fun h => ⟨streamContextTimeout_free h, ciphContextTimeout_free h⟩, fun h => ⟨streamContextTimeout_busy h, ciphContextTimeout_busy h⟩⟩,
    fun h => zeEngineFailure_leaves hz (zeFail_failed h), fun hu => ⟨fun h => ?spare, fun h hn => ?serving⟩, stripeAssign_stopped hw,
    fun hu hruns hsegs hpick hbrick hports => ⟨stripeAssign_waits hw hu hruns hpick hbrick, stripeAssign_assigns hw hu hruns hpick hbrick (hsegs ▸ hports)⟩,
    stripeComplete_idle hw hb, fun h => ⟨stripeComplete_abandoned hw hb h, stripeComplete_core hw hb h⟩,
    fun hon hidle => ⟨knownAnswerTest_early hw hb, fun h hu => ⟨knownAnswerTest_due hw hb hon hidle h hu true, knownAnswerTest_due hw hb hon hidle h hu false⟩⟩,
    keyCacheFill_leaves hw hslot, keyCacheFill_cached hw hslot, wallFailure_failed hw, fun h hu hidle => wallFailure_leaves hw h hu rfl rfl hidle⟩
  case spare => exact zeEngineFailure_leaves hz (hu ▸ zeFail_spare h)
  case serving =>
    have hfail := zeFail_serving h hu hn
    exact ⟨fun hpool => zeEngineFailure_leaves hz (hfail.trans (if_pos hpool)), fun hpool => zeEngineFailure_leaves hz (hfail.trans (if_neg (by simp [hpool])))⟩

end Sys2Proof.Machine
end

section
/-! PROOFS. The Velex ports (14 R330 to R345): frames at the adapter and the complex, and the events of a port. -/

namespace Sys2Proof.Machine

/-! The adapter of a port (14 R333 to R336, R343) -/

section
variable {s u : State} {vp code : Nat} {h : LinkHdr} {fr : VParts} {exid : BitVec 24} {xseq cmdix devadr : BitVec 16} {payload : BitVec 256} {sr last : Bool} {bytes : List Byte}
  {reason : BitVec 8} {a : AdEx} {f : AdEx → AdEx}

theorem adNumbered_expected (hrun : a.ended = false) (hvp : a.vp = vp) (hseq : xseq = a.exp) : s.adNumbered vp exid xseq a f = s.setAd exid (f { a with exp := a.exp + 1 }) := by
  rw [State.adNumbered, if_neg (by simp [hrun, hvp]), if_pos hseq]

theorem adNumbered_duplicate (hrun : a.ended = false) (hvp : a.vp = vp) (hseq : xseq = a.exp - 1) : s.adNumbered vp exid xseq a f = s := by
  rw [State.adNumbered, if_neg (by simp [hrun, hvp]), if_neg (by rw [hseq]; bv_omega), if_pos (by rw [hseq, decide_eq_true_eq]; bv_omega)]

theorem adNumbered_gap (hrun : a.ended = false) (hvp : a.vp = vp) (hseq : xseq = a.exp + 1) : s.adNumbered vp exid xseq a f = s.setAd exid { a with ended := true } := by
  rw [State.adNumbered, if_neg (by simp [hrun, hvp]), if_neg (by rw [hseq]; bv_omega), if_neg (by rw [hseq, decide_eq_true_eq]; bv_omega)]

/-- The frames that begin, go on with and end an exchange. -/
def cmdFrame (exid : BitVec 24) (xseq cmdix devadr : BitVec 16) (payload : BitVec 256) : VParts :=
  { exid := exid.toNat, xseq := xseq.toNat, spec := 2 ^ 36 + cmdix.toNat * 2 ^ 16 + devadr.toNat, pay := toBytes 32 payload.toNat }
def resumeFrame (exid : BitVec 24) (xseq cmdix : BitVec 16) (sr : Bool) : VParts :=
  { exid := exid.toNat, xseq := xseq.toNat, spec := 2 * 2 ^ 36 + b2n sr * 2 ^ 35 + cmdix.toNat * 2 ^ 16, pay := [] }
def abortFrame (h : LinkHdr) (exid : BitVec 24) : VParts := { exid := exid.toNat, xseq := fieldOf h.rest 135 120, spec := 3 * 2 ^ 36, pay := [] }
def dataFrame (exid : BitVec 24) (xseq cmdix : BitVec 16) (last : Bool) (bytes : List Byte) : VParts :=
  velexParts 2 [exid.toNat, xseq.toNat, cmdix.toNat, b2n last, bytes.length, packBytes bytes]
def ackFrame (exid : BitVec 24) (xseq cmdix : BitVec 16) (what : Nat) : VParts := velexParts 4 [exid.toNat, xseq.toNat, cmdix.toNat, what]

theorem velexCmd_begins (hvp : vp < 16) (htakes : s.adTakes vp h 1 (cmdFrame exid xseq cmdix devadr payload) = true) (h1 : fieldOf payload 243 240 = 0)
    (h2 : fieldOf payload 239 224 = 0) (h3 : fieldOf payload 191 128 = 0) (hnew : s.adEx exid = none) (hseq : xseq = 0) :
    Leaves (.velexCmd vp h exid xseq cmdix devadr payload) s
      (s.setAd exid { exp := 1, executed := cmdix, partialCmd := true, statusSent := false, vp := vp, ended := false }) := by
  rw [cmdFrame] at htakes
  refine leaves_of_guarded rfl (Nat.not_le.mpr hvp) ((if_neg ?_).trans ?_)
  · rw [htakes]
    simp [h1, h2, h3]
    omega
  · rw [hnew]
    exact adNumbered_expected rfl rfl hseq

theorem velexCmd_refused (hvp : vp < 16) (htakes : s.adTakes vp h 1 (cmdFrame exid xseq cmdix devadr payload) = false) : Leaves (.velexCmd vp h exid xseq cmdix devadr payload) s s := by
  rw [cmdFrame] at htakes
  exact leaves_of_guarded rfl (Nat.not_le.mpr hvp) (if_pos (by rw [htakes]; rfl))

theorem velexResume_leaves (hvp : vp < 16) (htakes : s.adTakes vp h 1 (resumeFrame exid xseq cmdix sr) = true) (ha : s.adEx exid = some a) (hrun : a.ended = false) :
    Leaves (.velexResume vp h exid xseq cmdix sr) s
      (s.setAd exid { a with exp := xseq, partialCmd := a.partialCmd && decide (cmdix.toNat < a.executed.toNat), statusSent := a.statusSent || sr, vp := vp }) := by
  rw [resumeFrame] at htakes
  refine leaves_of_guarded rfl (Nat.not_le.mpr hvp) ((if_neg (by rw [htakes]; decide)).trans ?_)
  rw [ha]
  exact if_neg (by simp [hrun])

theorem velexResume_refused (hvp : vp < 16) (htakes : s.adTakes vp h 1 (resumeFrame exid xseq cmdix sr) = false) : Leaves (.velexResume vp h exid xseq cmdix sr) s s := by
  rw [resumeFrame] at htakes
  exact leaves_of_guarded rfl (Nat.not_le.mpr hvp) (if_pos (by rw [htakes]; rfl))

theorem velexAbort_leaves (hvp : vp < 16) (htakes : s.adTakes vp h 1 (abortFrame h exid) = true) (ha : s.adEx exid = some a) (hport : a.vp = vp) :
    Leaves (.velexAbort vp h exid) s (s.setAd exid { a with ended := true, partialCmd := false }) := by
  rw [abortFrame] at htakes
  refine leaves_of_guarded rfl (Nat.not_le.mpr hvp) ((if_neg (by rw [htakes]; decide)).trans ?_)
  rw [ha]
  exact if_pos hport

theorem velexAbort_refused (hvp : vp < 16) (htakes : s.adTakes vp h 1 (abortFrame h exid) = false) : Leaves (.velexAbort vp h exid) s s := by
  rw [abortFrame] at htakes
  exact leaves_of_guarded rfl (Nat.not_le.mpr hvp) (if_pos (by rw [htakes]; rfl))

/-- DATA of a command that the adapter holds. -/
theorem velexData_outbound (hvp : vp < 16) (h1 : 1 ≤ bytes.length) (hlen : bytes.length ≤ 4096) (htakes : s.adTakes vp h 2 (dataFrame exid xseq cmdix last bytes) = true)
    (ha : s.adEx exid = some a)
    (heq : s.adNumbered vp exid xseq a (fun a => { a with partialCmd := true, executed := if last then cmdix + 1 else a.executed }) = u) :
    Leaves (.velexData vp h exid false xseq cmdix last bytes) s u := by
  rw [dataFrame] at htakes
  refine leaves_of_guarded rfl (Nat.not_le.mpr hvp) ((if_neg (by rw [htakes, decide_eq_true h1, decide_eq_true hlen]; decide)).trans ?_)
  rw [ha]
  exact heq

theorem velexAck_executed (hvp : vp < 16) (htakes : s.adTakes vp h 4 (ackFrame exid xseq cmdix 3) = true) (ha : s.adEx exid = some a) :
    Leaves (.velexAck vp h exid xseq cmdix 3) s (s.setAd exid { a with executed := cmdix + 1, partialCmd := false }) := by
  refine leaves_of_guarded rfl (Nat.not_le.mpr hvp) ((if_neg (show ¬ (!s.adTakes vp h 4 (ackFrame exid xseq cmdix 3)) = true by rw [htakes]; decide)).trans ?_)
  rw [ha]
  rfl

theorem velexAck_ends (hvp : vp < 16) (htakes : s.adTakes vp h 4 (ackFrame exid xseq cmdix 4) = true) (ha : s.adEx exid = some a) :
    Leaves (.velexAck vp h exid xseq cmdix 4) s { s with chn := { s.chn with adEx := s.chn.adEx.del exid.toNat } } := by
  refine leaves_of_guarded rfl (Nat.not_le.mpr hvp) ((if_neg (show ¬ (!s.adTakes vp h 4 (ackFrame exid xseq cmdix 4)) = true by rw [htakes]; decide)).trans ?_)
  rw [ha]
  rfl

theorem velexFence_leaves (hvp : vp < 16) (htakes : s.adTakes vp h 7 (velexParts 7 [1]) = true) :
    Leaves (.velexFence vp h 1) s { s with chn := { s.chn with adFenced := insertNat vp (s.chn.adFenced.filter (fun n => n != vp)) } } :=
  leaves_of_guarded rfl (Nat.not_le.mpr hvp) (if_neg (by rw [show (1 : BitVec 8).toNat = 1 from rfl, htakes]; decide))

theorem velexFence_refused (hvp : vp < 16) (htakes : s.adTakes vp h 7 (velexParts 7 [reason.toNat]) = false) : Leaves (.velexFence vp h reason) s s :=
  leaves_of_guarded rfl (Nat.not_le.mpr hvp) (if_pos (by rw [htakes]; rfl))

end

/-! Frames that the complex receives (R332, R334, R337 to R340) -/

section
variable {s t u : State} {vp code c : Nat} {h : LinkHdr} {fr : VParts} {lenOk rsv : Bool} {vc : Option Nat} {f : State → State} {i : Instr}

/-- The port takes link frames: it is up, and no fence of it is under way. -/
def State.vopen (s : State) (v : Nat) : Prop := v < 16 ∧ s.vpUp v = true ∧ (s.vport v).fencing = 0

theorem leaves_of_down (hvp : vp < 16) (hi : exec i s = settled s (s.vrecv vp h code fr lenOk rsv vc f)) (hdown : s.vpUp vp = false) : Leaves i s s :=
  leaves_of_guarded hi (Nat.not_le.mpr hvp) (if_pos (by simp [hdown]))

theorem leaves_of_badFrame (hopen : s.vopen vp) (hi : exec i s = settled s (s.vrecv vp h code fr lenOk rsv vc f)) (hcrc : h.crcOk code fr = false) : Leaves i s (s.vbad vp) := by
  obtain ⟨hvp, hup, hfence⟩ := hopen
  exact leaves_of_guarded hi (Nat.not_le.mpr hvp) ((if_neg (by simp [hup, hfence])).trans (if_pos (by simp [hcrc])))

section
variable (hopen : s.vopen vp) (hcrc : h.crcOk code fr = true) (habort : h.aborted = false) (ht : t = s.vlack vp h.lack)
include hopen hcrc habort ht

/-- A good frame of the link itself. -/
theorem leaves_of_linkFrame (hi : exec i s = settled s (s.vrecv vp h code fr true true none f)) (hrsv : h.rsvOk code = true) (heq : f t = u) : Leaves i s u := by
  obtain ⟨hvp, hup, hfence⟩ := hopen
  subst ht
  exact leaves_of_guarded hi (Nat.not_le.mpr hvp) ((if_neg (by simp [hup, hfence])).trans ((if_neg (by simp [hcrc, habort])).trans ((if_pos (by simp [hrsv])).trans heq)))

theorem leaves_of_reservedFrame (hi : exec i s = settled s (s.vrecv vp h code fr true true none f)) (hrsv : h.rsvOk code = false) : Leaves i s (t.flt 9 5) := by
  obtain ⟨hvp, hup, hfence⟩ := hopen
  subst ht
  exact leaves_of_guarded hi (Nat.not_le.mpr hvp) ((if_neg (by simp [hup, hfence])).trans ((if_neg (by simp [hcrc, habort])).trans (if_neg (by simp [hrsv]))))

/-- A numbered frame is taken, and its credit returned. -/
def State.vtook (t : State) (v c : Nat) : State :=
  let p := t.vport v
  (t.setVport v { p with rxSeq := p.rxSeq + 1, returned := p.returned.upd 0 (4 + c) (fun n => (n + 1) % 256) }).sendCredit v

/-- A good numbered frame in sequence. -/
theorem leaves_of_numberedFrame (hi : exec i s = settled s (s.vrecv vp h code fr true rsv (some c) f)) (hseq : h.lseq = (t.vport vp).rxSeq) (hrsv : (h.rsvOk code && rsv) = true)
    {q : State} (hq : q = t.vtook vp (vcOf h.urgent c)) (heq : f q = u) : Leaves i s u := by
  obtain ⟨hvp, hup, hfence⟩ := hopen
  subst ht hq
  exact leaves_of_guarded hi (Nat.not_le.mpr hvp) ((if_neg (by simp [hup, hfence])).trans ((if_neg (by simp [hcrc, habort])).trans ((if_neg (by simp [hseq])).trans ((if_pos hrsv).trans heq))))

/-- A frame after one that is missing: NAK. -/
theorem leaves_of_gap (hi : exec i s = settled s (s.vrecv vp h code fr true rsv (some c) f)) (hseq : h.lseq = (t.vport vp).rxSeq + 1) :
    Leaves i s (t.sendLink vp 5 [(t.vport vp).rxSeq.toNat]) := by
  obtain ⟨hvp, hup, hfence⟩ := hopen
  subst ht
  exact leaves_of_guarded hi (Nat.not_le.mpr hvp) ((if_neg (by simp [hup, hfence])).trans ((if_neg (by simp [hcrc, habort])).trans
    ((if_pos (by rw [hseq]; bv_omega)).trans (if_pos (by rw [hseq]; bv_omega)))))

end

end

/-! STATUS, acknowledgements and link frames -/

section
variable {s t u : State} {vp : Nat} {h : LinkHdr} {exid : BitVec 24} {xseq cmdix : BitVec 16} {dstat : Byte} {scode : BitVec 3} {resid : BitVec 25} {x : Exch}
  {rseq cmd data sts urg : BitVec 8} {f : State → Exch → State}

theorem inNumbered_expected (hx : u.exOf exid = some x) (hvp : x.vp = vp) (hseq : xseq = x.inExp) :
    u.inNumbered vp exid xseq f = f (u.setEx { x with inExp := x.inExp + 1 }) { x with inExp := x.inExp + 1 } := by
  rw [State.inNumbered, hx]
  exact (if_neg (by simp [hvp])).trans (if_pos hseq)

theorem inNumbered_duplicate (hx : u.exOf exid = some x) (hvp : x.vp = vp) (hseq : xseq = x.inExp - 1) :
    u.inNumbered vp exid xseq f = u.count F.VPT_XCH_DUPS (some F.VPT_XCH_DOVF) vp := by
  rw [State.inNumbered, hx]
  exact (if_neg (by simp [hvp])).trans ((if_neg (by rw [hseq]; bv_omega)).trans (if_pos (by rw [hseq, decide_eq_true_eq]; bv_omega)))

theorem inNumbered_gap (hx : u.exOf exid = some x) (hvp : x.vp = vp) (hipl : x.ipl = false) (hseq : xseq = x.inExp + 1) :
    u.inNumbered vp exid xseq f = u.finalStatus x.key 0x21 := by
  rw [State.inNumbered, hx]
  exact (if_neg (by simp [hvp])).trans ((if_neg (by rw [hseq]; bv_omega)).trans ((if_neg (by rw [hseq, decide_eq_true_eq]; bv_omega)).trans (if_neg (by simp [hipl]))))

/-- A STATUS that the exchange expects is put into its journal entry. -/
def State.statusIn (dstat : Byte) (scode : BitVec 3) (resid : BitVec 25) (cmdix : BitVec 16) (s : State) (x : Exch) : State :=
  let x := { x with owed := true, dstat := dstat, scode := scode, resid := resid }
  let s := s.setEx x
  if x.ipl then s.iplTry x
  else if 3 ≤ jState (s.img x) then (if (s.jent x.mirror x.idx).outst then s else (s.sendAck x 4 cmdix.toNat).setEx { x with owed := false })
  else
    let j := s.jent x.mirror x.idx
    let s := s.setJent x.mirror x.idx { j with img := jseal (jput (jput j.img 6 55 48 dstat.toNat) 6 24 0 resid.toNat) }
    if scode = 1 then s.finalStatus x.key 0x21 else s.setEx (x.raise 2)

/-- A STATUS frame. -/
def statusFrame (h : LinkHdr) (exid : BitVec 24) (xseq cmdix : BitVec 16) (dstat : Byte) (scode : BitVec 3) (resid : BitVec 25) : VParts :=
  { exid := exid.toNat, xseq := xseq.toNat, spec := dstat.toNat * 2 ^ 32 + scode.toNat * 2 ^ 29 + resid.toNat, pay := h.stsPay cmdix }

theorem velexStatus_exec : exec (.velexStatus vp h exid xseq cmdix dstat scode resid) s =
    settled s (s.vrecv vp h 3 (statusFrame h exid xseq cmdix dstat scode resid) true (decide (scode.toNat ≤ 2)) (some 2)
      (fun s => s.inNumbered vp exid xseq (State.statusIn dstat scode resid cmdix))) := rfl

theorem statusIn_started {w : State} {y : Exch} {j : JEnt} (hscode : scode = 0) (hipl : x.ipl = false) (hy : y = { x with owed := true, dstat := dstat, scode := scode, resid := resid })
    (hw : w = u.setEx y) (hstate : jState (w.img y) = 1) (hj : j = w.jent y.mirror y.idx) :
    State.statusIn dstat scode resid cmdix u x =
      (w.setJent y.mirror y.idx { j with img := jseal (jput (jput j.img 6 55 48 dstat.toNat) 6 24 0 resid.toNat) }).setEx (y.raise 2) := by
  have hyipl : y.ipl = false := by rw [hy, ← hipl]
  rw [State.statusIn, ← hy]
  dsimp only
  rw [← hw, hyipl, if_neg (by decide), if_neg (by rw [hstate]; decide), ← hj, if_neg (by rw [hscode]; decide)]

theorem velexAck_data_exec : exec (.velexAck vp h exid xseq cmdix 1) s =
    settled s (s.vrecv vp h 4 (ackFrame exid xseq cmdix 1) true true (some 2) (fun s =>
      match s.exOf exid with
      | none => s
      | some x => if x.vp ≠ vp then s else s)) := rfl

end

/-! The grants of a training (R339) -/

/-- The initial grants of the adapter are in hand, the counts at 0. -/
def State.granted (s : State) (v cmd data sts urg : Nat) : State :=
  let s := s.setVport v { s.vport v with txSeq := 0, rxSeq := 0, cred := [(0, cmd), (1, data), (2, sts), (3, urg)], returned := [], resends := 0, retrainFails := 0, alt := false }
  (((s.setFld F.VPT_CRED_CMD cmd v).setFld F.VPT_CRED_DAT data v).setFld F.VPT_CRED_STS sts v).setFld F.VPT_CRED_URG urg v

section
variable {s : State}

theorem granted_vport (v a b c d : Nat) : (s.granted v a b c d).vport v =
    { s.vport v with txSeq := 0, rxSeq := 0, cred := [(0, a), (1, b), (2, c), (3, d)], returned := [], resends := 0, retrainFails := 0, alt := false } :=
  State.vport_setVport s v _

theorem granted_others (v a b c d : Nat) : (s.granted v a b c d).out = s.out ∧ (s.granted v a b c d).mem = s.mem ∧ (s.granted v a b c d).cores = s.cores := ⟨rfl, rfl, rfl⟩

theorem granted_vstate (v a b c d : Nat) : (s.granted v a b c d).vstate v = s.vstate v := by
  have hsp : (s.granted v a b c d).flag F.VPT_STAT_SPUSED v = s.flag F.VPT_STAT_SPUSED v := by
    have hoff : ∀ f : Fld, f.base = 0xC00020 → f.s1 = 0x100 → f.s2 = 0 → F.VPT_STAT_SPUSED.off v 0 ≠ f.off v 0 := by
      intro f hbase h1 h2
      simp [Fld.off, hbase, h1, h2, F.VPT_STAT_SPUSED]
    rw [State.granted, State.flag]
    dsimp only
    rw [fld_setFld_ne (hoff _ rfl rfl rfl), fld_setFld_ne (hoff _ rfl rfl rfl), fld_setFld_ne (hoff _ rfl rfl rfl), fld_setFld_ne (hoff _ rfl rfl rfl)]
    rfl
  rw [State.vstate, State.vlanes, granted_vport, hsp, State.vstate, State.vlanes]

theorem sendLink_vstate (v w code : Nat) (args : List Nat) : (s.sendLink w code args).vstate v = s.vstate v := by
  have hport : (s.sendLink w code args).vport v = s.vport v := rfl
  have hsp : (s.sendLink w code args).flag F.VPT_STAT_SPUSED v = s.flag F.VPT_STAT_SPUSED v := State.flag_congr _ _ rfl _ _ _
  rw [State.vstate, State.vlanes, hport, hsp, State.vstate, State.vlanes]

theorem vstate_lt (v : Nat) : s.vstate v < 8 := by
  rw [State.vstate]
  split <;> decide

end

/-! Events of a port (R330, R337 to R345) -/

section
variable {s u : State} {vp lane : Nat} {cmd data sts urg : BitVec 8} (hvp : vp < 16)
include hvp

theorem echoInterval_fenced (h : s.fld F.VPT_STAT_STATE vp = 4) : Leaves (.echoInterval vp) s (s.sendLink vp 7 [max 1 (s.vport vp).fencing.toNat]) :=
  leaves_of_guarded rfl (Nat.not_le.mpr hvp) (if_pos (by simp [h]))

theorem echoInterval_up (hup : s.vpUp vp = true) (h : s.fld F.VPT_STAT_STATE vp ≠ 4) :
    Leaves (.echoInterval vp) s ((s.sendLink vp 8 [fieldOf s.fab.tb 43 12]).sendCredit vp) :=
  leaves_of_guarded rfl (Nat.not_le.mpr hvp) ((if_neg (by simp [h])).trans (if_pos hup))

theorem portSilenceRetrain_up (hup : s.vpUp vp = true) :
    Leaves (.portSilenceRetrain vp) s (((s.setFld F.VPT_STAT_STATE 1 vp).count F.VPT_ERR_RETRAIN (some F.VPT_ERR_TOVF) vp).flt 9 1 vp) :=
  leaves_of_guarded rfl (Nat.not_le.mpr hvp) (if_neg (by simp [hup]))

theorem portSilenceRetrain_down (hup : s.vpUp vp = false) : Leaves (.portSilenceRetrain vp) s s := leaves_of_guarded rfl (Nat.not_le.mpr hvp) (if_pos (by simp [hup]))

theorem velexRetrain_done (h : s.retraining vp = true) (hu : u = (s.setVport vp { s.vport vp with resends := 0, retrainFails := 0 }).setFld F.VPT_STAT_STATE (s.vstate vp) vp) :
    Leaves (.velexRetrain vp true) s (((s.vport vp).replay.foldl (fun z f => z.sendSeq vp f) u).vpump vp ((s.vport vp).waitq.length + 1)) := by
  subst hu
  exact leaves_of_guarded rfl (Nat.not_le.mpr hvp) (if_neg (by simp [h]))

theorem velexRetrain_fails (h : s.retraining vp = true) (hn : (s.vport vp).retrainFails < 2) :
    Leaves (.velexRetrain vp false) s (s.setVport vp { s.vport vp with retrainFails := (s.vport vp).retrainFails + 1 }) :=
  leaves_of_guarded rfl (Nat.not_le.mpr hvp) ((if_neg (by simp [h])).trans ((if_neg (by decide)).trans (if_neg (Nat.not_le.mpr hn))))

theorem velexRetrain_down (h : s.retraining vp = true) (hn : 2 ≤ (s.vport vp).retrainFails) : Leaves (.velexRetrain vp false) s (s.portDown vp) :=
  leaves_of_guarded rfl (Nat.not_le.mpr hvp) ((if_neg (by simp [h])).trans ((if_neg (by decide)).trans (if_pos hn)))

/-! Training (R338, R339) -/

/-- A port that may train. -/
def State.mayTrain (s : State) (v : Nat) : Prop :=
  s.fld F.VPT_STAT_STATE v = 0 ∧ (s.vport v).fencing = 0 ∧ s.flag F.VPT_CTL_EN v = true ∧ s.driven v = true ∧ s.vlanes v ≠ 0 ∧ s.flag F.FLT_FENCE_CXF = false

theorem portTrainingAttempt_fails : Leaves (.portTrainingAttempt vp false cmd data sts urg) s s := leaves_of_guarded rfl (Nat.not_le.mpr hvp) (if_pos (by simp))

theorem portTrainingAttempt_disabled (h : s.flag F.VPT_CTL_EN vp = false) : Leaves (.portTrainingAttempt vp true cmd data sts urg) s s :=
  leaves_of_guarded rfl (Nat.not_le.mpr hvp) (if_pos (by simp [h]))

section
variable (h : s.mayTrain vp) (hu : u = s.sendLink vp 6 [32, 64, 64, 16])
include h hu

theorem portTrainingAttempt_noGrant (hcmd : cmd = 0) : Leaves (.portTrainingAttempt vp true cmd data sts urg) s ((u.setFld F.VPT_STAT_STATE 1 vp).flt 9 6) := by
  obtain ⟨hstate, hfence, hen, hdriven, hlanes, hcxf⟩ := h
  subst hu
  exact leaves_of_guarded rfl (Nat.not_le.mpr hvp) ((if_neg (by simp [hstate, hfence, hen, hdriven, hlanes, hcxf, State.retraining])).trans (if_pos (by simp [hcmd])))

theorem portTrainingAttempt_leaves (hcmd : cmd ≠ 0) (hdata : 8 ≤ data.toNat) (hsts : sts ≠ 0) (hurg : urg ≠ 0) {g : State} (hg : g = u.granted vp cmd.toNat data.toNat sts.toNat urg.toNat) :
    Leaves (.portTrainingAttempt vp true cmd data sts urg) s (g.setFld F.VPT_STAT_STATE (g.vstate vp) vp) := by
  obtain ⟨hstate, hfence, hen, hdriven, hlanes, hcxf⟩ := h
  subst hg hu
  exact leaves_of_guarded rfl (Nat.not_le.mpr hvp) ((if_neg (by simp [hstate, hfence, hen, hdriven, hlanes, hcxf, State.retraining])).trans
    (if_neg (by rw [decide_eq_false hcmd, decide_eq_false (Nat.not_lt.mpr hdata), decide_eq_false hsts, decide_eq_false hurg]; decide)))

end

theorem portTrainingAttempt_trains (h : s.mayTrain vp) (hu : u = s.sendLink vp 6 [32, 64, 64, 16]) (hcmd : cmd ≠ 0) (hdata : 8 ≤ data.toNat) (hsts : sts ≠ 0) (hurg : urg ≠ 0) :
    Does (.portTrainingAttempt vp true cmd data sts urg) s (fun t =>
      t.fld F.VPT_STAT_STATE vp = s.vstate vp ∧ (t.vport vp).txSeq = 0 ∧ (t.vport vp).rxSeq = 0 ∧
      (t.vport vp).cred = [(0, cmd.toNat), (1, data.toNat), (2, sts.toNat), (3, urg.toNat)] ∧ t.out = u.out ∧ t.mem = s.mem ∧ t.cores = s.cores) := by
  have hleaves := portTrainingAttempt_leaves hvp h hu hcmd hdata hsts hurg rfl
  have hstate : u.vstate vp = s.vstate vp := by rw [hu, sendLink_vstate]
  refine ⟨_, hleaves, ?state, ?vport⟩
  case state =>
    rw [State.fld, left_reg _ _ _ (by simp [Fld.off, F.VPT_STAT_STATE, F.FLT_ERRPIN_PIN]; omega), ← State.fld,
      State.fld_setFld_same _ _ _ _ _ (by decide) (by decide), granted_vstate, hstate]
    exact Nat.mod_eq_of_lt (vstate_lt vp)
  case vport =>
    have hport : ∀ z : State, (left s z).vport vp = z.vport vp := fun z => by rw [State.vport, left_chn]; rfl
    have hset : ∀ (z : State) (v : Nat), (z.setFld F.VPT_STAT_STATE v vp).vport vp = z.vport vp := fun z v => rfl
    obtain ⟨hout, hmem, hcores⟩ := granted_others (s := u) vp cmd.toNat data.toNat sts.toNat urg.toNat
    rw [hport, hset, granted_vport, left_out, left_mem, left_cores, State.setFld_out, State.setFld_mem, State.setFld_cores, hout, hmem, hcores, hu]
    exact ⟨rfl, rfl, rfl, rfl, rfl, rfl⟩

/-! Lanes, controllers and clocks (R330, R342, R344, R345) -/

theorem velexLaneSparing_spare (hlane : lane < 2) (hgood : (s.vport vp).badLanes = []) (hfree : s.flag F.VPT_STAT_SPUSED vp = false) :
    Leaves (.velexLaneSparing vp lane) s
      (((((s.setVport vp { s.vport vp with badLanes := [lane] }).setFlag F.VPT_STAT_SPUSED true vp).setFld F.VPT_STAT_SPLANE lane vp).consume 6).flt 9 2 (8 * vp + lane)) := by
  refine leaves_of_guarded rfl (by simp; omega) ?_
  dsimp only
  rw [hgood, hfree, if_neg (by simp), if_neg (by simp [hlane]), if_pos (by simp [hlane])]
  rfl

theorem velexLaneSparing_again (hlane : lane < 3) (h : (s.vport vp).badLanes.contains lane = true) : Leaves (.velexLaneSparing vp lane) s s :=
  leaves_of_guarded rfl (by simp; omega) (if_pos h)

theorem controllerSwitchover_stateError (parity : Bool) : Leaves (.controllerSwitchover vp (.stateError parity)) s (s.controllerLost vp (!parity)) :=
  leaves_of_guarded rfl (Nat.not_le.mpr hvp) rfl

theorem controllerSwitchover_heartbeat (parity : Bool) : Leaves (.controllerSwitchover vp (.heartbeat parity)) s (s.controllerLost vp (!parity)) :=
  leaves_of_guarded rfl (Nat.not_le.mpr hvp) rfl

theorem claimTieTimeout_tie (h : (s.vport vp).tie = true) : Leaves (.claimTieTimeout vp) s (s.portDown vp) := leaves_of_guarded rfl (Nat.not_le.mpr hvp) (if_pos h)

theorem claimTieTimeout_none (h : (s.vport vp).tie = false) : Leaves (.claimTieTimeout vp) s s := leaves_of_guarded rfl (Nat.not_le.mpr hvp) (if_neg (by simp [h]))

theorem standbyControllerFailure_paired (h : s.flag F.VPT_STAT_PAIRED vp = true) :
    Leaves (.standbyControllerFailure vp) s ((((s.setFld (s.actFld vp).2 0 vp).setFlag F.VPT_STAT_PAIRED false vp).consume 11).flt 9 8 vp) :=
  leaves_of_guarded rfl (Nat.not_le.mpr hvp) (if_neg (by simp [h]))

theorem standbyControllerFailure_alone (h : s.flag F.VPT_STAT_PAIRED vp = false) : Leaves (.standbyControllerFailure vp) s s :=
  leaves_of_guarded rfl (Nat.not_le.mpr hvp) (if_pos (by simp [h]))

theorem portPllLoss_one : Leaves (.portPllLoss (some vp)) s (s.portDown vp) := leaves_of_guarded rfl (Nat.not_le.mpr hvp) rfl

end

/-! The exchange timeout (R341) and the loss of VREFCLK (R330) -/

section
variable {s : State} {exid : BitVec 24} {x : Exch}

theorem portPllLoss_all : Leaves (.portPllLoss none) s ((List.range 16).foldl (fun z v => z.portDown v) (s.flt 9 12)) := leaves_of_next rfl rfl

theorem exchangeTimeout_idle (hx : s.exOf exid = some x) (h : x.timer = false) : Leaves (.exchangeTimeout exid) s s := by
  refine leaves_of_next rfl ?_
  rw [hx]
  exact if_pos (by simp [h])

theorem exchangeTimeout_raises (hx : s.exOf exid = some x) (hipl : x.ipl = false) (h : x.timer = true) (hab : x.aborting = none) :
    Leaves (.exchangeTimeout exid) s ((s.count F.VPT_XCH_TMOCNT (some F.VPT_XCH_MOVF) x.vp).setEx (({ x with timer := false } : Exch).raise 5)) := by
  refine leaves_of_next rfl ?_
  rw [hx]
  refine (if_neg (by simp [h])).trans ((if_neg (by simp [hipl])).trans ?_)
  rw [hab]

end

/-- Settles O44: the frames by the lemmas on what the adapter and the port take, each event by the lemma of its command. CREDIT is counted without the initial grant (log 87); STATUS goes into the entry as in log 93; the adapter's side follows logs 88 and 104. -/
theorem ports : Obligations.Ports := by
  refine ⟨?frames, ?events⟩
  case frames =>
    intro s u vp h exid xseq cmdix devadr payload sr last bytes dstat scode resid rseq cmd data sts urg stamp a x hvp cmdFr resFr aboFr datFr ackFr stsFr nakFr creFr echFr
    refine ⟨velexCmd_begins hvp, fun ha hrun => ⟨fun htakes => velexResume_leaves hvp htakes ha hrun, fun hport => ⟨fun htakes => velexAbort_leaves hvp htakes ha hport,
        fun h1 hlen htakes => ⟨fun hseq => velexData_outbound hvp h1 hlen htakes ha (adNumbered_expected hrun hport hseq),
          fun hseq => velexData_outbound hvp h1 hlen htakes ha (adNumbered_duplicate hrun hport hseq), fun hseq => velexData_outbound hvp h1 hlen htakes ha (adNumbered_gap hrun hport hseq)⟩⟩⟩,
      fun ha => ⟨fun htakes => velexAck_executed hvp htakes ha, fun htakes => velexAck_ends hvp htakes ha⟩, velexFence_leaves hvp,
      velexCmd_refused hvp, velexResume_refused hvp, velexAbort_refused hvp, velexFence_refused hvp, fun hup hfence => ?received,
      fun hdown => ⟨leaves_of_down hvp rfl hdown, leaves_of_down hvp rfl hdown⟩⟩
    have hopen : s.vopen vp := ⟨hvp, hup, hfence⟩
    refine ⟨leaves_of_badFrame hopen rfl, leaves_of_badFrame hopen rfl, leaves_of_badFrame hopen rfl, leaves_of_badFrame hopen velexStatus_exec, fun habort => ?good⟩
    intro t p took
    refine ⟨fun hcrc hrsv => leaves_of_linkFrame hopen hcrc habort rfl rfl hrsv rfl, fun hcrc hrsv => leaves_of_reservedFrame hopen hcrc habort rfl rfl hrsv,
      fun hcrc hrsv => ⟨fun hn => leaves_of_linkFrame hopen hcrc habort rfl rfl hrsv (if_neg (Nat.not_le.mpr hn)), fun hn => leaves_of_linkFrame hopen hcrc habort rfl rfl hrsv (if_pos hn)⟩,
      fun hcrc hrsv => leaves_of_linkFrame hopen hcrc habort rfl rfl hrsv rfl, fun hseq hu => ⟨fun hcrc hrsv hscode hx hxvp hipl => ?status, fun hcrc hrsv hx => ?ack⟩,
      fun hseq hcrc => leaves_of_gap hopen hcrc habort rfl velexStatus_exec hseq⟩
    case status =>
      have htaken := fun {v : State} => leaves_of_numberedFrame (u := v) hopen hcrc habort rfl velexStatus_exec hseq (by simp [hrsv, hscode]) hu
      exact ⟨fun hxseq w y j hy hw hstate hj => htaken ((inNumbered_expected hx hxvp hxseq).trans (statusIn_started hscode hipl hy hw hstate hj)),
        fun hxseq => htaken (inNumbered_duplicate hx hxvp hxseq), fun hxseq => htaken (inNumbered_gap hx hxvp hipl hxseq)⟩
    case ack =>
      refine leaves_of_numberedFrame hopen hcrc habort rfl velexAck_data_exec hseq (by simp [hrsv]) hu ?_
      rw [hx]
  case events =>
    intro s u vp lane cmd data sts urg exid x hvp p
    refine ⟨echoInterval_fenced hvp, echoInterval_up hvp, portSilenceRetrain_up hvp, portSilenceRetrain_down hvp,
      fun h => ⟨velexRetrain_done hvp h, velexRetrain_fails hvp h, velexRetrain_down hvp h⟩,
      fun h1 h2 h3 h4 h5 h6 => ⟨portTrainingAttempt_fails hvp, fun hu => ⟨portTrainingAttempt_noGrant hvp ⟨h1, h2, h3, h4, h5, h6⟩ hu, portTrainingAttempt_trains hvp ⟨h1, h2, h3, h4, h5, h6⟩ hu⟩⟩,
      portTrainingAttempt_disabled hvp, fun hx hipl => ⟨exchangeTimeout_idle hx, exchangeTimeout_raises hx hipl⟩, velexLaneSparing_spare hvp, velexLaneSparing_again hvp,
      fun parity => ⟨controllerSwitchover_stateError hvp parity, controllerSwitchover_heartbeat hvp parity⟩, claimTieTimeout_tie hvp, claimTieTimeout_none hvp,
      standbyControllerFailure_paired hvp, standbyControllerFailure_alone hvp, portPllLoss_one hvp, portPllLoss_all⟩

end Sys2Proof.Machine
end
